-- ==== Sys2Proof/Word.lean ====
section
/-! DEFINITION. The word types of the part (00 R6: registers are 32 or 64 bits wide; 10 R371: 64-bit words). -/

namespace Sys2Proof

/-- A 64-bit word: a register value, a general register, a table word. -/
abbrev Word := BitVec 64

/-- A byte of memory, flash or header. -/
abbrev Byte := BitVec 8

end Sys2Proof
end

