-- ==== Sys2Proof/Machine/Bits.lean ====
section
/-! DEFINITION. Bit fields, bytes and saturating counts, and the association maps that State is made of. -/

namespace Sys2Proof.Machine

/-- Bits `[hi:lo]` of a word, as a number. -/
def getBits (w : Word) (hi lo : Nat) : Nat := (w.toNat >>> lo) % 2 ^ (hi + 1 - lo)

/-- The word with bits `[hi:lo]` replaced by the low bits of `v`. -/
def setBits (w : Word) (hi lo v : Nat) : Word :=
  BitVec.ofNat 64 (w.toNat - (getBits w hi lo) * 2 ^ lo + (v % 2 ^ (hi + 1 - lo)) * 2 ^ lo)

/-- Bit `i` of a word. -/
def bitOf (w : Word) (i : Nat) : Bool := w.toNat.testBit i

/-- A number as a single bit. -/
def b2n (b : Bool) : Nat := if b then 1 else 0

/-- A counter of the given width that saturates. -/
def satAdd (width a b : Nat) : Nat := min (2 ^ width - 1) (a + b)

/-- A value stored as the nearer limit of its range. -/
def clamp (lo hi v : Nat) : Nat := if v < lo then lo else if hi < v then hi else v

/-- `v` as a signed number of `n` bits. -/
def signed (n v : Nat) : Int := if v % 2 ^ n < 2 ^ (n - 1) then (v % 2 ^ n : Nat) else (v % 2 ^ n : Nat) - (2 ^ n : Nat)

/-- The little-endian bytes of a number (05 R169, 10 R371). -/
def bytesLE (n v : Nat) : List Byte :=
  match n with
  | 0 => []
  | k + 1 => BitVec.ofNat 8 v :: bytesLE k (v / 256)

/-- The number that little-endian bytes spell. -/
def ofBytesLE : List Byte → Nat
  | [] => 0
  | b :: bs => b.toNat + 256 * ofBytesLE bs

/-- The number that big-endian bytes spell (most significant byte first). -/
def ofBytesBE (bs : List Byte) : Nat := bs.foldl (fun a b => a * 256 + b.toNat) 0

/-- Tags run from 1 to `m` and wrap to 1 (02 R66, 03 R109, 04 R165, 06 R239, 07 R272, 09 R339, 12 R487). -/
def nextTag (m t : Nat) : Nat := if t ≥ m then 1 else t + 1

/-- An association map: the first entry of a key counts. -/
abbrev FMap (κ α : Type) := List (κ × α)

/-- The value at a key, or `d` where the map lists none. -/
def FMap.get {κ α : Type} [DecidableEq κ] (m : FMap κ α) (d : α) (k : κ) : α :=
  match m with
  | [] => d
  | (k', v) :: r => if k' = k then v else FMap.get r d k

/-- The value at a key, if the map lists one. -/
def FMap.find {κ α : Type} [DecidableEq κ] (m : FMap κ α) (k : κ) : Option α :=
  match m with
  | [] => none
  | (k', v) :: r => if k' = k then some v else FMap.find r k

/-- The map without a key. -/
def FMap.erase {κ α : Type} [DecidableEq κ] (m : FMap κ α) (k : κ) : FMap κ α :=
  match m with
  | [] => []
  | (k', v) :: r => if k' = k then FMap.erase r k else (k', v) :: FMap.erase r k

/-- The map with `v` at key `k`; every key is listed at most once. -/
def FMap.set {κ α : Type} [DecidableEq κ] (m : FMap κ α) (k : κ) (v : α) : FMap κ α :=
  (k, v) :: FMap.erase m k

/-- The map with the value at a key changed by a function. -/
def FMap.upd {κ α : Type} [DecidableEq κ] (m : FMap κ α) (d : α) (k : κ) (f : α → α) : FMap κ α :=
  FMap.set m k (f (FMap.get m d k))

/-- The list with its first element that satisfies `p` taken out, and that element. -/
def takeFirst {α : Type} (p : α → Bool) : List α → Option (α × List α)
  | [] => none
  | x :: xs =>
    if p x then some (x, xs)
    else
      match takeFirst p xs with
      | none => none
      | some (y, ys) => some (y, x :: ys)

/-- The least number below `n` that satisfies `p`. -/
def firstBelow (p : Nat → Bool) (n : Nat) : Option Nat := (List.range n).find? p

/-- The list with element `i` replaced by `f` of it. -/
def updNth {α : Type} (f : α → α) : Nat → List α → List α
  | _, [] => []
  | 0, x :: xs => f x :: xs
  | n + 1, x :: xs => x :: updNth f n xs

end Sys2Proof.Machine
end

