-- ==== Sys2Proof/Machine/Fields.lean ====
section
/-! DEFINITION. The registers of the part: their names, their fields with access code and reset value (each field table of
the spec, gathered by 19 R646, R648 and R649), their widths and their management addresses (00 R5). -/

namespace Sys2Proof.Machine

/-- The access codes of 00 R7. -/
inductive Access where
  | ro | rw | wo | rw1c | rws | rwl
  deriving DecidableEq, Repr

/-- One field of a register: its bits, its access code and its reset value (0 where a strap, a fuse or the start sets it:
see `Reg.resetValue`). -/
structure Field where
  hi : Nat
  lo : Nat
  acc : Access
  rst : Nat
  deriving DecidableEq, Repr

/-- The registers, one name each; an array of registers is one name with indexes (`Reg.i`, `Reg.j`, `Reg.k`). -/
inductive RegName where
  | partId | partMode | partAssist | partLead | partDieState | partAlate
  | partMeridian | partMerstat | partAtime | partCapo | partEpoch | partCapocfg
  | partStageq | partAlmlock | partAlmpatch0 | partAlmpatch1 | partFollow | partXltinv
  | partXltinva | partDbgCtl | partDbgNonce | partDbgUid | partDbgTok | partPtown
  | partFltclass | partFltcfg | partEvtq | hildHpv | hildSum | hildDom
  | hildCtl | hildCfg | hildTime | hildFeed | hildStat | hildErr
  | hildTel | laneMapctl | laneDiagsel | lanePeggo | laneQmap | laneStat
  | laneTxeq | laneRxeq | laneDfe | lanePeg | laneTest | laneErrcnt
  | laneBitcnt | laneUserpat | laneSweep | linkHealth | linkCfg | linkStat
  | linkRtt | linkVlhead | linkCnt | linkErr | linkRtv | linkLanes
  | linkSpstat | fretLoad | fretTrapcfg | fretTrapv | fretDiecnt | fretStage
  | fretPcfg | fretPsel | fretPstat | fretErr | fretVcnt | fretHwref
  | fretTraprec0 | fretTraprec1 | fretTraprec2 | fretTrapHdr | tabStat | tabErr
  | tabCnt | tabDrain | bufStat | bufZcfg | bufZcnt | bufShared
  | bufTcap | bufMircfg | bufMirshed | bufMircnt | bufAudit | bufLeakv
  | bufRetlim | bufErr | bufLeakrec | bufPres | bufPart | bufCelld
  | schPxcfg | schPxv | schHstat | schErr | schPxrec | schFlowTc
  | schFlowTp | schFlowHold | schFlowCnt | schQcfg | schQshape | schQstat
  | schHcfg | schHctl | schHist | parFcfg | parErr | parCnt
  | parProxy | parFace | parWake | xltCfg | xltStat | xltCnt
  | xltErr | xltPrv | xltPrec0 | xltPrec1 | dmaCfg | dmaStat
  | dmaErr | dmaCnt | dmaFv | dmaChCtl | dmaChRbase | dmaChRing
  | dmaChStat | dmaChCfg | dmaChCnt | coreClk | coreTto | coreRst
  | coreCnt | coreDead | coreSleep | coreBerrrec | gateCtl | gateErr
  | gateFrec0 | gateFrec1 | gateMidgrp | gateMaplock | gateReg0 | gateReg1
  | fltStat | fltKick | fltErr | fltCnt | fltFv | fltRcnt
  | fltTlerr | fltPcnt | fltCase0 | fltCase1 | pwrPad | pwrAvs
  | pwrAvscfg | pwrErr | pwrTemp | pwrDom | bootStat | bootVer
  | bootCtl | bootCfg | bootCause | bootAct | bootActcmd | bootActv
  | bootMigv | bootMigStat | bootSvn | bootFlctl | bootMigReport | bootFlbuf
  | sbbCfg | sbbErr | sbbCnt | sbbTalloc | sbbSegCfg | sbbSegStat
  | sbbSegSig | sbbTktXfer | sbbTktRes | sbbTktDbuf | sbbTktFree | recCtl
  | recCfg | recStat | recCnt | recErr | recVis | recSpsel
  | recSink | recScfg | recSptr | recRfeed | recRfcnt | recRpt
  | recRptat | recSel | recTrig | evtPulse | evtRaw | evtRoute
  deriving DecidableEq, Repr

/-- One register: its name, its die (0 for the part-wide and the Hild regions) and its indexes. The windows of `LINK`
number a port's link engine 0 to 15 and the span link engine toward die s 16 + s: the spec's two windows are one array. -/
structure Reg where
  name : RegName
  die : Nat := 0
  i : Nat := 0
  j : Nat := 0
  k : Nat := 0
  deriving DecidableEq, Repr


/-! `PART.ID` (R4). -/
def PartId.DEVICE : Field := ⟨31, 16, .ro, 0⟩
def PartId.DIES : Field := ⟨15, 12, .ro, 0⟩
def PartId.GRADE : Field := ⟨11, 8, .ro, 0⟩
def PartId.STEP_MAJOR : Field := ⟨7, 4, .ro, 0xB⟩
def PartId.STEP_MINOR : Field := ⟨3, 0, .ro, 0x1⟩
/-! `PART.MODE` (R31). -/
def PartMode.BUSY : Field := ⟨31, 31, .ro, 0⟩
def PartMode.STATUS : Field := ⟨30, 28, .ro, 0⟩
def PartMode.BASE : Field := ⟨23, 20, .ro, 0x1⟩
def PartMode.REQ : Field := ⟨15, 12, .wo, 0⟩
def PartMode.CUR : Field := ⟨3, 0, .ro, 0x1⟩
/-! `PART.ASSIST` (R32). -/
def PartAssist.POLICE : Field := ⟨19, 18, .rws, 0⟩
def PartAssist.MIGRATE : Field := ⟨17, 16, .rws, 0⟩
def PartAssist.FWACT : Field := ⟨15, 14, .rws, 0⟩
def PartAssist.LEAK : Field := ⟨13, 12, .rws, 0⟩
def PartAssist.DMAF : Field := ⟨11, 10, .rws, 0⟩
def PartAssist.XLTF : Field := ⟨9, 8, .rws, 0⟩
def PartAssist.ESCAL : Field := ⟨7, 6, .rws, 0⟩
def PartAssist.HOTPLUG : Field := ⟨5, 4, .rws, 0⟩
def PartAssist.RETRAIN : Field := ⟨3, 2, .rws, 0⟩
def PartAssist.PEG : Field := ⟨1, 0, .rws, 0⟩
/-! `PART.LEAD` (R25). -/
def PartLead.HILDPATH : Field := ⟨19, 16, .ro, 0⟩
def PartLead.DEPUTY : Field := ⟨11, 8, .ro, 0⟩
def PartLead.LEAD : Field := ⟨3, 0, .ro, 0⟩
/-! `PART.DIE.STATE` (R26). -/
def PartDieState.D0 : Field := ⟨3, 0, .ro, 0⟩
def PartDieState.D1 : Field := ⟨7, 4, .ro, 0⟩
def PartDieState.D2 : Field := ⟨11, 8, .ro, 0⟩
def PartDieState.D3 : Field := ⟨15, 12, .ro, 0⟩
def PartDieState.D4 : Field := ⟨19, 16, .ro, 0⟩
def PartDieState.D5 : Field := ⟨23, 20, .ro, 0⟩
def PartDieState.D6 : Field := ⟨27, 24, .ro, 0⟩
def PartDieState.D7 : Field := ⟨31, 28, .ro, 0⟩
/-! `PART.ALATE` (R38). -/
def PartAlate.COUNT : Field := ⟨31, 0, .ro, 0⟩
/-! `PART.MERIDIAN` (R43). -/
def PartMeridian.COUNT : Field := ⟨63, 0, .ro, 0⟩
/-! `PART.MERSTAT` (R43). -/
def PartMerstat.WRAPS : Field := ⟨63, 32, .ro, 0⟩
def PartMerstat.TFAULT : Field := ⟨31, 24, .rw1c, 0⟩
def PartMerstat.RESYNC : Field := ⟨23, 16, .rw1c, 0⟩
def PartMerstat.REF : Field := ⟨1, 0, .ro, 0⟩
/-! `PART.ATIME` (R33). -/
def PartAtime.TIME : Field := ⟨31, 0, .rws, 0⟩
/-! `PART.CAPO` (R195). -/
def PartCapo.BUSY : Field := ⟨31, 31, .ro, 0⟩
def PartCapo.STATUS : Field := ⟨30, 28, .ro, 0⟩
def PartCapo.FENCE : Field := ⟨16, 16, .rw, 0x1⟩
def PartCapo.GO : Field := ⟨0, 0, .wo, 0⟩
/-! `PART.EPOCH` (R196). -/
def PartEpoch.NEW : Field := ⟨31, 16, .ro, 0⟩
def PartEpoch.OLD : Field := ⟨15, 0, .ro, 0⟩
/-! `PART.CAPOCFG` (R197). -/
def PartCapocfg.FTIME : Field := ⟨29, 16, .rws, 0x64⟩
def PartCapocfg.PTIME : Field := ⟨9, 0, .rws, 0xA⟩
/-! `PART.STAGEQ` (R198). -/
def PartStageq.FULL : Field := ⟨31, 31, .ro, 0⟩
def PartStageq.DEPTH : Field := ⟨12, 0, .ro, 0⟩
/-! `PART.ALMLOCK` (R321). -/
def PartAlmlock.LOCK : Field := ⟨0, 0, .rwl, 0⟩
/-! `PART.ALMPATCH.word0` (R321). -/
def PartAlmpatch0.VALID : Field := ⟨63, 63, .rwl, 0⟩
def PartAlmpatch0.IMAGE : Field := ⟨55, 48, .rwl, 0⟩
def PartAlmpatch0.DWOFF : Field := ⟨41, 32, .rwl, 0⟩
def PartAlmpatch0.VALUE : Field := ⟨31, 0, .rwl, 0⟩
/-! `PART.ALMPATCH.word1` (R321). -/
def PartAlmpatch1.MASK : Field := ⟨31, 0, .rwl, 0⟩
/-! `PART.FOLLOW` (R320). -/
def PartFollow.LAST : Field := ⟨63, 48, .ro, 0⟩
def PartFollow.ACK : Field := ⟨47, 32, .rw, 0⟩
def PartFollow.DONE : Field := ⟨31, 16, .ro, 0⟩
def PartFollow.HELD : Field := ⟨7, 0, .ro, 0⟩
/-! `PART.XLTINV` (R360). -/
def PartXltinv.BUSY : Field := ⟨63, 63, .ro, 0⟩
def PartXltinv.STATUS : Field := ⟨62, 60, .ro, 0⟩
def PartXltinv.SCOPE : Field := ⟨59, 58, .wo, 0⟩
def PartXltinv.CTX : Field := ⟨57, 46, .wo, 0⟩
def PartXltinv.PAGES : Field := ⟨33, 16, .wo, 0⟩
def PartXltinv.GO : Field := ⟨0, 0, .wo, 0⟩
/-! `PART.XLTINVA` (R360). -/
def PartXltinva.ADDR : Field := ⟨63, 12, .rw, 0⟩
/-! `PART.DBG.CTL` (R443). -/
def PartDbgCtl.BUSY : Field := ⟨31, 31, .ro, 0⟩
def PartDbgCtl.STATUS : Field := ⟨30, 28, .ro, 0⟩
def PartDbgCtl.REVOKE : Field := ⟨2, 2, .wo, 0⟩
def PartDbgCtl.INSTALL : Field := ⟨1, 1, .wo, 0⟩
def PartDbgCtl.ACTIVE : Field := ⟨0, 0, .ro, 0⟩
/-! `PART.DBG.NONCE` (R443). -/
def PartDbgNonce.NONCE : Field := ⟨63, 0, .ro, 0⟩
/-! `PART.DBG.UID` (R443). -/
def PartDbgUid.UID : Field := ⟨63, 0, .ro, 0⟩
/-! `PART.DBG.TOK` (R443). -/
def PartDbgTok.TOK : Field := ⟨63, 0, .rw, 0⟩
/-! `PART.PTOWN` (R361). -/
def PartPtown.OWNER : Field := ⟨5, 0, .rw, 0x3F⟩
/-! `PART.FLTCLASS` (R478). -/
def PartFltclass.CAP : Field := ⟨38, 36, .rws, 0⟩
def PartFltclass.SEV : Field := ⟨34, 32, .rws, 0⟩
def PartFltclass.ETIME : Field := ⟨16, 0, .rws, 0x1F4⟩
/-! `PART.FLTCFG` (R479). -/
def PartFltcfg.REJOIN : Field := ⟨31, 31, .rws, 0x1⟩
def PartFltcfg.WDOG : Field := ⟨29, 16, .rws, 0x3E8⟩
def PartFltcfg.QUIET : Field := ⟨13, 0, .rws, 0x64⟩
/-! `PART.EVTQ` (R480). -/
def PartEvtq.DROPPED : Field := ⟨31, 16, .ro, 0⟩
def PartEvtq.DEPTH : Field := ⟨7, 0, .ro, 0⟩
/-! `HILD.HPV` (R582). -/
def HildHpv.TAG : Field := ⟨31, 24, .ro, 0⟩
def HildHpv.GOTAG : Field := ⟨23, 16, .wo, 0⟩
def HildHpv.SLOT : Field := ⟨12, 8, .wo, 0⟩
def HildHpv.VERDICT : Field := ⟨1, 1, .wo, 0⟩
def HildHpv.GO : Field := ⟨0, 0, .wo, 0⟩
/-! `HILD.SUM` (R583). -/
def HildSum.PGOOD : Field := ⟨63, 32, .ro, 0⟩
def HildSum.LATCHED : Field := ⟨31, 0, .ro, 0⟩
/-! `HILD.DOM` (R549). -/
def HildDom.BUSY : Field := ⟨31, 31, .ro, 0⟩
def HildDom.STATUS : Field := ⟨30, 28, .ro, 0⟩
def HildDom.PADS : Field := ⟨23, 23, .ro, 0⟩
def HildDom.LATCHED : Field := ⟨22, 22, .ro, 0⟩
def HildDom.AUTO : Field := ⟨21, 21, .rw, 0x1⟩
def HildDom.CUR : Field := ⟨17, 16, .ro, 0⟩
def HildDom.REQ : Field := ⟨1, 0, .rw, 0⟩
/-! `HILD.SLOT.CTL` (R575). -/
def HildCtl.PWREN : Field := ⟨31, 31, .rw, 0⟩
def HildCtl.BRKREQ : Field := ⟨30, 30, .rw, 0⟩
def HildCtl.BRKONE : Field := ⟨29, 29, .rw, 0⟩
/-! `HILD.SLOT.CFG` (R576). -/
def HildCfg.SPLV : Field := ⟨63, 56, .rw, 0⟩
def HildCfg.SPLS : Field := ⟨55, 54, .rw, 0⟩
def HildCfg.PLIM : Field := ⟨53, 40, .rw, 0x12C⟩
def HildCfg.VCL : Field := ⟨39, 32, .rw, 0x64⟩
def HildCfg.RSENSE : Field := ⟨31, 16, .rw, 0x7D0⟩
def HildCfg.IGATE : Field := ⟨15, 8, .rw, 0x14⟩
/-! `HILD.SLOT.TIME` (R577). -/
def HildTime.TPERST : Field := ⟨31, 24, .rw, 0xA⟩
def HildTime.TRAMP : Field := ⟨23, 16, .rw, 0x64⟩
def HildTime.TFLT : Field := ⟨8, 0, .rw, 0x32⟩
/-! `HILD.SLOT.FEED` (R578). -/
def HildFeed.OV : Field := ⟨31, 24, .rw, 0x90⟩
def HildFeed.UV : Field := ⟨23, 16, .rw, 0x60⟩
/-! `HILD.SLOT.STAT` (R579). -/
def HildStat.STATE : Field := ⟨31, 28, .ro, 0⟩
def HildStat.SEATED : Field := ⟨27, 27, .ro, 0⟩
def HildStat.PRSNTA : Field := ⟨26, 26, .ro, 0⟩
def HildStat.PRSNTB : Field := ⟨25, 25, .ro, 0⟩
def HildStat.GATEOK : Field := ⟨24, 24, .ro, 0⟩
def HildStat.TIMER : Field := ⟨23, 23, .ro, 0⟩
def HildStat.PGOOD : Field := ⟨22, 22, .ro, 0⟩
def HildStat.PERSTREL : Field := ⟨21, 21, .ro, 0⟩
def HildStat.FEEDA : Field := ⟨20, 20, .ro, 0⟩
def HildStat.FEEDB : Field := ⟨19, 19, .ro, 0⟩
def HildStat.ONA : Field := ⟨18, 18, .ro, 0⟩
def HildStat.ONB : Field := ⟨17, 17, .ro, 0⟩
def HildStat.PWRBRK : Field := ⟨16, 16, .ro, 0⟩
def HildStat.HPTAG : Field := ⟨15, 8, .ro, 0⟩
/-! `HILD.SLOT.ERR` (R580). -/
def HildErr.NOFEED : Field := ⟨12, 12, .rw1c, 0⟩
def HildErr.FETFAULT : Field := ⟨11, 11, .rw1c, 0⟩
def HildErr.RAMPTO : Field := ⟨10, 10, .rw1c, 0⟩
def HildErr.SHORT : Field := ⟨9, 9, .rw1c, 0⟩
def HildErr.TIMEOUT : Field := ⟨8, 8, .rw1c, 0⟩
def HildErr.OVB : Field := ⟨5, 5, .rw1c, 0⟩
def HildErr.OVA : Field := ⟨4, 4, .rw1c, 0⟩
def HildErr.UVB : Field := ⟨3, 3, .rw1c, 0⟩
def HildErr.UVA : Field := ⟨2, 2, .rw1c, 0⟩
def HildErr.REVB : Field := ⟨1, 1, .rw1c, 0⟩
def HildErr.REVA : Field := ⟨0, 0, .rw1c, 0⟩
/-! `HILD.SLOT.TEL` (R581). -/
def HildTel.VOUT : Field := ⟨63, 48, .ro, 0⟩
def HildTel.IOUT : Field := ⟨47, 32, .ro, 0⟩
def HildTel.VFA : Field := ⟨31, 16, .ro, 0⟩
def HildTel.VFB : Field := ⟨15, 0, .ro, 0⟩
/-! `LANE.MAPCTL` (R55). -/
def LaneMapctl.BUSY : Field := ⟨31, 31, .ro, 0⟩
def LaneMapctl.STATUS : Field := ⟨30, 28, .ro, 0⟩
def LaneMapctl.CHANGED : Field := ⟨23, 8, .ro, 0⟩
def LaneMapctl.APPLY : Field := ⟨0, 0, .wo, 0⟩
/-! `LANE.DIAGSEL` (R71). -/
def LaneDiagsel.PORTS : Field := ⟨15, 0, .rw, 0⟩
/-! `LANE.PEGGO` (R67). -/
def LanePeggo.TAG : Field := ⟨23, 16, .wo, 0⟩
def LanePeggo.PORT : Field := ⟨11, 8, .wo, 0⟩
def LanePeggo.GO : Field := ⟨0, 0, .wo, 0⟩
/-! `LANE.QMAP` (R56). -/
def LaneQmap.PORT_HI : Field := ⟨15, 12, .rw, 0⟩
def LaneQmap.PORT_LO : Field := ⟨11, 8, .rw, 0⟩
def LaneQmap.WIDTH : Field := ⟨2, 0, .rw, 0⟩
/-! `LANE.STAT` (R57). -/
def LaneStat.PORT : Field := ⟨31, 28, .ro, 0⟩
def LaneStat.LWIDTH : Field := ⟨27, 25, .ro, 0⟩
def LaneStat.RATE : Field := ⟨23, 20, .ro, 0⟩
def LaneStat.TERM : Field := ⟨19, 19, .ro, 0⟩
def LaneStat.EIDLE : Field := ⟨18, 18, .ro, 0x1⟩
def LaneStat.SIGDET : Field := ⟨17, 17, .ro, 0⟩
def LaneStat.LOCK : Field := ⟨16, 16, .ro, 0⟩
def LaneStat.POLINV : Field := ⟨15, 15, .ro, 0⟩
def LaneStat.REVERSED : Field := ⟨14, 14, .ro, 0⟩
def LaneStat.LANENUM : Field := ⟨7, 0, .ro, 0⟩
/-! `LANE.TXEQ` (R59). -/
def LaneTxeq.OVR : Field := ⟨31, 31, .rw, 0⟩
def LaneTxeq.PRESET : Field := ⟨27, 24, .ro, 0⟩
def LaneTxeq.CM2 : Field := ⟨23, 18, .rw, 0⟩
def LaneTxeq.CM1 : Field := ⟨17, 12, .rw, 0⟩
def LaneTxeq.C0 : Field := ⟨11, 6, .rw, 0x3F⟩
def LaneTxeq.CP1 : Field := ⟨5, 0, .rw, 0⟩
/-! `LANE.RXEQ` (R61). -/
def LaneRxeq.FREEZE : Field := ⟨31, 31, .rw, 0⟩
def LaneRxeq.OVR : Field := ⟨30, 30, .rw, 0⟩
def LaneRxeq.FFEON : Field := ⟨25, 25, .ro, 0⟩
def LaneRxeq.DFEON : Field := ⟨24, 24, .ro, 0⟩
def LaneRxeq.CTLE_CUR : Field := ⟨20, 16, .ro, 0⟩
def LaneRxeq.CTLE : Field := ⟨4, 0, .rw, 0⟩
/-! `LANE.DFE` (R61). -/
def LaneDfe.TAPS : Field := ⟨59, 0, .ro, 0⟩
/-! `LANE.PEG` (R66). -/
def LanePeg.TAG : Field := ⟨63, 56, .ro, 0⟩
def LanePeg.STATE : Field := ⟨55, 52, .ro, 0⟩
def LanePeg.BEST : Field := ⟨51, 48, .ro, 0⟩
def LanePeg.FOM : Field := ⟨47, 32, .ro, 0⟩
def LanePeg.VPRESET : Field := ⟨31, 28, .rw, 0⟩
def LanePeg.VUSE : Field := ⟨27, 27, .rw, 0⟩
def LanePeg.VCM2 : Field := ⟨23, 18, .rw, 0⟩
def LanePeg.VCM1 : Field := ⟨17, 12, .rw, 0⟩
def LanePeg.VC0 : Field := ⟨11, 6, .rw, 0⟩
def LanePeg.VCP1 : Field := ⟨5, 0, .rw, 0⟩
/-! `LANE.TEST` (R73). -/
def LaneTest.STATUS : Field := ⟨30, 28, .ro, 0⟩
def LaneTest.LOOP : Field := ⟨23, 20, .rw, 0⟩
def LaneTest.PAT : Field := ⟨19, 16, .rw, 0⟩
def LaneTest.INJECT : Field := ⟨9, 9, .wo, 0⟩
def LaneTest.CLR : Field := ⟨8, 8, .wo, 0⟩
def LaneTest.SYNC : Field := ⟨2, 2, .ro, 0⟩
def LaneTest.CHK : Field := ⟨1, 1, .rw, 0⟩
def LaneTest.GEN : Field := ⟨0, 0, .rw, 0⟩
/-! `LANE.ERRCNT` (R74). -/
def LaneErrcnt.COUNT : Field := ⟨63, 0, .ro, 0⟩
/-! `LANE.BITCNT` (R74). -/
def LaneBitcnt.COUNT : Field := ⟨63, 0, .ro, 0⟩
/-! `LANE.USERPAT` (R72). -/
def LaneUserpat.PAT : Field := ⟨63, 0, .rw, 0⟩
/-! `LANE.SWEEP` (R66). -/
def LaneSweep.FOM0 : Field := ⟨15, 0, .ro, 0⟩
def LaneSweep.FOM1 : Field := ⟨31, 16, .ro, 0⟩
def LaneSweep.FOM2 : Field := ⟨47, 32, .ro, 0⟩
def LaneSweep.FOM3 : Field := ⟨63, 48, .ro, 0⟩
/-! `LINK.HEALTH` (R102). -/
def LinkHealth.THRESH : Field := ⟨15, 0, .rw, 0x40⟩
/-! `LINK.CFG` (R103). -/
def LinkCfg.ENABLE : Field := ⟨31, 31, .rw, 0x1⟩
def LinkCfg.KIND : Field := ⟨30, 30, .rw, 0⟩
def LinkCfg.REPLAYN : Field := ⟨26, 24, .rw, 0x3⟩
def LinkCfg.TRATE : Field := ⟨23, 20, .rw, 0x7⟩
def LinkCfg.GRACE : Field := ⟨15, 0, .rw, 0xA⟩
/-! `LINK.STAT` (R104). -/
def LinkStat.STATE : Field := ⟨31, 28, .ro, 0⟩
def LinkStat.RATE : Field := ⟨27, 24, .ro, 0⟩
def LinkStat.WIDTH : Field := ⟨23, 19, .ro, 0⟩
def LinkStat.FLIT : Field := ⟨18, 18, .ro, 0⟩
def LinkStat.L0P : Field := ⟨17, 17, .ro, 0⟩
def LinkStat.HELD : Field := ⟨16, 16, .ro, 0⟩
def LinkStat.RETRAINS : Field := ⟨15, 8, .ro, 0⟩
/-! `LINK.RTT` (R105). -/
def LinkRtt.ACKT : Field := ⟨31, 16, .ro, 0⟩
def LinkRtt.RTT : Field := ⟨15, 0, .ro, 0⟩
/-! `LINK.VLHEAD` (R106). -/
def LinkVlhead.HMIN : Field := ⟨31, 16, .ro, 0⟩
def LinkVlhead.HEAD : Field := ⟨15, 0, .rw, 0⟩
/-! `LINK.CNT` (R107). -/
def LinkCnt.REPLAYS : Field := ⟨63, 32, .ro, 0⟩
def LinkCnt.DUPS : Field := ⟨31, 16, .ro, 0⟩
def LinkCnt.LATE : Field := ⟨15, 0, .ro, 0⟩
/-! `LINK.ERR` (R108). -/
def LinkErr.TRAIN : Field := ⟨8, 8, .rw1c, 0⟩
def LinkErr.DOWN : Field := ⟨7, 7, .rw1c, 0⟩
def LinkErr.RETRAIN : Field := ⟨6, 6, .rw1c, 0⟩
def LinkErr.REPLAYLIM : Field := ⟨5, 5, .rw1c, 0⟩
def LinkErr.CRC : Field := ⟨4, 4, .rw1c, 0⟩
def LinkErr.SEQ : Field := ⟨3, 3, .rw1c, 0⟩
def LinkErr.ACKPROTO : Field := ⟨2, 2, .rw1c, 0⟩
def LinkErr.LANE : Field := ⟨1, 1, .rw1c, 0⟩
def LinkErr.SPARESOUT : Field := ⟨0, 0, .rw1c, 0⟩
/-! `LINK.RTV` (R109). -/
def LinkRtv.TAG : Field := ⟨31, 24, .ro, 0⟩
def LinkRtv.GOTAG : Field := ⟨23, 16, .wo, 0⟩
def LinkRtv.VERDICT : Field := ⟨9, 8, .wo, 0⟩
def LinkRtv.GO : Field := ⟨0, 0, .wo, 0⟩
/-! `LINK.LANES` (R110). -/
def LinkLanes.BAD : Field := ⟨31, 16, .ro, 0⟩
def LinkLanes.ACTIVE : Field := ⟨15, 0, .ro, 0⟩
/-! `LINK.SPSTAT` (R111). -/
def LinkSpstat.REPAIRS : Field := ⟨23, 16, .ro, 0⟩
def LinkSpstat.SPARES : Field := ⟨15, 8, .ro, 0⟩
def LinkSpstat.MODULES : Field := ⟨7, 0, .ro, 0⟩
/-! `FRET.LOAD` (R155). -/
def FretLoad.BUSY : Field := ⟨31, 31, .ro, 0⟩
def FretLoad.STATUS : Field := ⟨30, 27, .ro, 0⟩
def FretLoad.BADIDX : Field := ⟨21, 16, .ro, 0x3F⟩
def FretLoad.SLOT : Field := ⟨13, 8, .rw, 0⟩
def FretLoad.LEN : Field := ⟨5, 1, .rw, 0⟩
def FretLoad.GO : Field := ⟨0, 0, .wo, 0⟩
/-! `FRET.TRAPCFG` (R157). -/
def FretTrapcfg.FALLBACK : Field := ⟨8, 8, .rw, 0⟩
def FretTrapcfg.TIME : Field := ⟨3, 0, .rw, 0x5⟩
/-! `FRET.TRAPV` (R158). -/
def FretTrapv.EGRESS : Field := ⟨63, 48, .wo, 0⟩
def FretTrapv.QUEUE : Field := ⟨47, 44, .wo, 0⟩
def FretTrapv.OVR : Field := ⟨43, 43, .wo, 0⟩
def FretTrapv.VERDICT : Field := ⟨42, 40, .wo, 0⟩
def FretTrapv.TAG : Field := ⟨39, 32, .wo, 0⟩
def FretTrapv.SLOT : Field := ⟨19, 16, .wo, 0⟩
def FretTrapv.PORT : Field := ⟨11, 8, .wo, 0⟩
def FretTrapv.GO : Field := ⟨0, 0, .wo, 0⟩
/-! `FRET.DIECNT` (R159). -/
def FretDiecnt.RERUNS : Field := ⟨63, 32, .ro, 0⟩
def FretDiecnt.LATE : Field := ⟨31, 0, .ro, 0⟩
/-! `FRET.STAGE` (R156). -/
def FretStage.WORD : Field := ⟨31, 0, .rw, 0⟩
/-! `FRET.PCFG` (R160). -/
def FretPcfg.ECRC : Field := ⟨31, 31, .rw, 0⟩
def FretPcfg.CTTC : Field := ⟨23, 16, .rw, 0⟩
def FretPcfg.THROTTLE : Field := ⟨15, 8, .rw, 0x10⟩
/-! `FRET.PSEL` (R161). -/
def FretPsel.LIVE : Field := ⟨13, 8, .ro, 0x3F⟩
def FretPsel.STAGED : Field := ⟨5, 0, .rw, 0x3F⟩
/-! `FRET.PSTAT` (R162). -/
def FretPstat.HQDEPTH : Field := ⟨31, 16, .ro, 0⟩
def FretPstat.PARKED : Field := ⟨15, 11, .ro, 0⟩
def FretPstat.THROTTLING : Field := ⟨10, 10, .ro, 0⟩
/-! `FRET.ERR` (R163). -/
def FretErr.CTABORT : Field := ⟨7, 7, .rw1c, 0⟩
def FretErr.ECRC : Field := ⟨6, 6, .rw1c, 0⟩
def FretErr.TRAPFULL : Field := ⟨5, 5, .rw1c, 0⟩
def FretErr.TBLUNCOR : Field := ⟨4, 4, .rw1c, 0⟩
def FretErr.BADMETA : Field := ⟨3, 3, .rw1c, 0⟩
def FretErr.FLOWDIE : Field := ⟨2, 2, .rw1c, 0⟩
def FretErr.ISOLATION : Field := ⟨1, 1, .rw1c, 0⟩
def FretErr.BADEGRESS : Field := ⟨0, 0, .rw1c, 0⟩
/-! `FRET.VCNT` (R164). -/
def FretVcnt.COUNT : Field := ⟨63, 0, .ro, 0⟩
/-! `FRET.HWREF` (R164). -/
def FretHwref.COUNT : Field := ⟨63, 0, .ro, 0⟩
/-! `FRET.TRAPREC.word0` (R165). -/
def FretTraprec0.VALID : Field := ⟨63, 63, .ro, 0⟩
def FretTraprec0.TAG : Field := ⟨55, 48, .ro, 0⟩
def FretTraprec0.CODE : Field := ⟨47, 32, .ro, 0⟩
def FretTraprec0.EPOCH : Field := ⟨31, 16, .ro, 0⟩
def FretTraprec0.CLASS : Field := ⟨15, 14, .ro, 0⟩
def FretTraprec0.TC : Field := ⟨13, 11, .ro, 0⟩
def FretTraprec0.PSLOT : Field := ⟨10, 6, .ro, 0⟩
def FretTraprec0.PROG : Field := ⟨5, 0, .ro, 0⟩
/-! `FRET.TRAPREC.word1` (R165). -/
def FretTraprec1.EGRESS : Field := ⟨63, 48, .ro, 0⟩
def FretTraprec1.QUEUE : Field := ⟨47, 44, .ro, 0⟩
def FretTraprec1.FLOW : Field := ⟨43, 25, .ro, 0⟩
def FretTraprec1.MIRROR : Field := ⟨24, 23, .ro, 0⟩
def FretTraprec1.XCTX : Field := ⟨22, 7, .ro, 0⟩
def FretTraprec1.NOCT : Field := ⟨6, 6, .ro, 0⟩
/-! `FRET.TRAPREC.word2` (R165). -/
def FretTraprec2.MERIDIAN : Field := ⟨63, 0, .ro, 0⟩
/-! `FRET.TRAPREC.header` (R165). -/
def FretTrapHdr.BYTES : Field := ⟨63, 0, .ro, 0⟩
/-! `TAB.STAT` (R199). -/
def TabStat.NEW : Field := ⟨63, 48, .ro, 0⟩
def TabStat.OLD : Field := ⟨47, 32, .ro, 0⟩
def TabStat.PHASE : Field := ⟨31, 28, .ro, 0⟩
def TabStat.RELOADQ : Field := ⟨19, 12, .ro, 0⟩
def TabStat.UNSETTLED : Field := ⟨11, 0, .ro, 0⟩
/-! `TAB.ERR` (R200). -/
def TabErr.SCRUB : Field := ⟨4, 4, .rw1c, 0⟩
def TabErr.PROTECT : Field := ⟨3, 3, .rw1c, 0⟩
def TabErr.FENCE : Field := ⟨2, 2, .rw1c, 0⟩
def TabErr.DESC : Field := ⟨1, 1, .rw1c, 0⟩
def TabErr.DIGEST : Field := ⟨0, 0, .rw1c, 0⟩
/-! `TAB.CNT` (R201). -/
def TabCnt.FLIPS : Field := ⟨63, 32, .ro, 0⟩
def TabCnt.RESTAMPS : Field := ⟨31, 16, .ro, 0⟩
def TabCnt.RELOADS : Field := ⟨15, 0, .ro, 0⟩
/-! `TAB.DRAIN` (R202). -/
def TabDrain.MAX : Field := ⟨31, 16, .ro, 0⟩
def TabDrain.LAST : Field := ⟨15, 0, .ro, 0⟩
/-! `BUF.STAT` (R231). -/
def BufStat.FREE : Field := ⟨63, 46, .ro, 0⟩
def BufStat.ZERO : Field := ⟨45, 28, .ro, 0⟩
def BufStat.RETIRED : Field := ⟨27, 16, .ro, 0⟩
def BufStat.ZBUSY : Field := ⟨1, 1, .ro, 0⟩
def BufStat.READY : Field := ⟨0, 0, .ro, 0⟩
/-! `BUF.ZCFG` (R232). -/
def BufZcfg.ZTARGET : Field := ⟨17, 0, .rw, 0x2000⟩
/-! `BUF.ZCNT` (R232). -/
def BufZcnt.COUNT : Field := ⟨63, 0, .ro, 0⟩
/-! `BUF.SHARED` (R233). -/
def BufShared.SIZE : Field := ⟨63, 46, .ro, 0⟩
def BufShared.USED : Field := ⟨45, 28, .ro, 0⟩
def BufShared.TUSE : Field := ⟨27, 10, .ro, 0⟩
/-! `BUF.TCAP` (R233). -/
def BufTcap.TCAP : Field := ⟨17, 0, .rw, 0⟩
/-! `BUF.MIRCFG` (R236). -/
def BufMircfg.EN : Field := ⟨63, 63, .rw, 0⟩
def BufMircfg.PORT : Field := ⟨59, 56, .rw, 0⟩
def BufMircfg.TID : Field := ⟨55, 40, .rw, 0⟩
def BufMircfg.MIRLIM : Field := ⟨35, 18, .rw, 0x1000⟩
def BufMircfg.MUSE : Field := ⟨17, 0, .ro, 0⟩
/-! `BUF.MIRSHED` (R237). -/
def BufMirshed.SHED : Field := ⟨17, 0, .rw, 0x2000⟩
/-! `BUF.MIRCNT` (R236). -/
def BufMircnt.SENT : Field := ⟨63, 32, .ro, 0⟩
def BufMircnt.DROPPED : Field := ⟨31, 0, .ro, 0⟩
/-! `BUF.AUDIT` (R238). -/
def BufAudit.ROUNDS : Field := ⟨63, 32, .ro, 0⟩
def BufAudit.SUSPECTS : Field := ⟨31, 16, .ro, 0⟩
def BufAudit.RECLAIMED : Field := ⟨15, 0, .ro, 0⟩
/-! `BUF.LEAKV` (R239). -/
def BufLeakv.TAG : Field := ⟨31, 24, .ro, 0⟩
def BufLeakv.GOTAG : Field := ⟨23, 16, .wo, 0⟩
def BufLeakv.VERDICT : Field := ⟨8, 8, .wo, 0⟩
def BufLeakv.GO : Field := ⟨0, 0, .wo, 0⟩
/-! `BUF.RETLIM` (R237). -/
def BufRetlim.LIMIT : Field := ⟨11, 0, .rw, 0x400⟩
/-! `BUF.ERR` (R241). -/
def BufErr.MIRSHED : Field := ⟨8, 8, .rw1c, 0⟩
def BufErr.RESV : Field := ⟨7, 7, .rw1c, 0⟩
def BufErr.REFOVER : Field := ⟨6, 6, .rw1c, 0⟩
def BufErr.RECLAIM : Field := ⟨5, 5, .rw1c, 0⟩
def BufErr.LEAK : Field := ⟨4, 4, .rw1c, 0⟩
def BufErr.RETLIM : Field := ⟨3, 3, .rw1c, 0⟩
def BufErr.RETIRE : Field := ⟨2, 2, .rw1c, 0⟩
def BufErr.UNCOR : Field := ⟨1, 1, .rw1c, 0⟩
def BufErr.CORR : Field := ⟨0, 0, .rw1c, 0⟩
/-! `BUF.LEAKREC` (R240). -/
def BufLeakrec.VALID : Field := ⟨63, 63, .ro, 0⟩
def BufLeakrec.REFS : Field := ⟨62, 54, .ro, 0⟩
def BufLeakrec.FOUND : Field := ⟨53, 45, .ro, 0⟩
def BufLeakrec.CELL : Field := ⟨17, 0, .ro, 0⟩
/-! `BUF.PRES` (R234). -/
def BufPres.HOLDUSE : Field := ⟨63, 48, .ro, 0⟩
def BufPres.HOLDRES : Field := ⟨47, 32, .rw, 0x100⟩
def BufPres.INUSE : Field := ⟨31, 16, .ro, 0⟩
def BufPres.INRES : Field := ⟨15, 0, .rw, 0⟩
/-! `BUF.PART` (R235). -/
def BufPart.PCAP : Field := ⟨63, 46, .rw, 0⟩
def BufPart.MINRES : Field := ⟨45, 28, .rw, 0⟩
def BufPart.USE : Field := ⟨27, 10, .ro, 0⟩
/-! `BUF.CELLD` (R206). -/
def BufCelld.OWNER : Field := ⟨63, 58, .ro, 0⟩
def BufCelld.STATE : Field := ⟨57, 55, .ro, 0⟩
def BufCelld.SUSP : Field := ⟨54, 54, .ro, 0⟩
def BufCelld.SEEN : Field := ⟨53, 53, .ro, 0⟩
def BufCelld.REFS : Field := ⟨52, 44, .ro, 0⟩
def BufCelld.FILL : Field := ⟨43, 37, .ro, 0⟩
def BufCelld.NEXTV : Field := ⟨36, 36, .ro, 0⟩
def BufCelld.NEXT : Field := ⟨35, 18, .ro, 0⟩
/-! `SCH.PXCFG` (R270). -/
def SchPxcfg.HAGE : Field := ⟨31, 16, .rw, 0x1F4⟩
def SchPxcfg.QUIET : Field := ⟨15, 0, .rw, 0x3E8⟩
/-! `SCH.PXV` (R271). -/
def SchPxv.GOTAG : Field := ⟨23, 16, .wo, 0⟩
def SchPxv.ACTION : Field := ⟨9, 8, .wo, 0⟩
def SchPxv.GO : Field := ⟨0, 0, .wo, 0⟩
/-! `SCH.HSTAT` (R273). -/
def SchHstat.HELD : Field := ⟨63, 40, .ro, 0⟩
def SchHstat.HFLOWS : Field := ⟨39, 24, .ro, 0⟩
def SchHstat.PXWAIT : Field := ⟨23, 16, .ro, 0⟩
/-! `SCH.ERR` (R274). -/
def SchErr.HOLDAGE : Field := ⟨4, 4, .rw1c, 0⟩
def SchErr.PXFULL : Field := ⟨3, 3, .rw1c, 0⟩
def SchErr.REFUSED : Field := ⟨2, 2, .rw1c, 0⟩
def SchErr.CHAIN : Field := ⟨1, 1, .rw1c, 0⟩
def SchErr.BADFLOW : Field := ⟨0, 0, .rw1c, 0⟩
/-! `SCH.PXREC` (R272). -/
def SchPxrec.VALID : Field := ⟨63, 63, .ro, 0⟩
def SchPxrec.ACTING : Field := ⟨62, 62, .ro, 0⟩
def SchPxrec.TAG : Field := ⟨55, 48, .ro, 0⟩
def SchPxrec.REDS : Field := ⟨39, 24, .ro, 0⟩
def SchPxrec.FLOW : Field := ⟨14, 0, .ro, 0⟩
/-! `SCH.FLOWST.TC` (R275). -/
def SchFlowTc.LEVEL : Field := ⟨55, 0, .ro, 0⟩
/-! `SCH.FLOWST.TP` (R275). -/
def SchFlowTp.LEVEL : Field := ⟨55, 0, .ro, 0⟩
/-! `SCH.FLOWST.HOLD` (R275). -/
def SchFlowHold.XSTATE : Field := ⟨63, 62, .ro, 0⟩
def SchFlowHold.XACT : Field := ⟨61, 60, .ro, 0⟩
def SchFlowHold.HTLPS : Field := ⟨47, 24, .ro, 0⟩
def SchFlowHold.HAGEMAX : Field := ⟨23, 0, .ro, 0⟩
/-! `SCH.FLOWST.CNT` (R275). -/
def SchFlowCnt.REDS : Field := ⟨63, 32, .ro, 0⟩
def SchFlowCnt.REFUSED : Field := ⟨31, 0, .ro, 0⟩
/-! `SCH.QCFG` (R276). -/
def SchQcfg.SP : Field := ⟨31, 31, .rw, 0x1⟩
def SchQcfg.QUANTUM : Field := ⟨25, 16, .rw, 0x10⟩
/-! `SCH.QSHAPE` (R277). -/
def SchQshape.RATE : Field := ⟨63, 32, .rw, 0⟩
def SchQshape.BURST : Field := ⟨31, 0, .rw, 0⟩
/-! `SCH.QSTAT` (R278). -/
def SchQstat.MAXDEPTH : Field := ⟨63, 40, .ro, 0⟩
def SchQstat.DEPTH : Field := ⟨39, 16, .ro, 0⟩
/-! `SCH.HCFG` (R279). -/
def SchHcfg.EN : Field := ⟨31, 31, .rw, 0⟩
def SchHcfg.INTERVAL : Field := ⟨25, 16, .rw, 0xA⟩
def SchHcfg.DSCALE : Field := ⟨12, 8, .rw, 0x6⟩
def SchHcfg.ZSCALE : Field := ⟨3, 0, .rw, 0x2⟩
/-! `SCH.HCTL` (R280). -/
def SchHctl.SNAPSEQ : Field := ⟨31, 16, .ro, 0⟩
def SchHctl.SNAP : Field := ⟨0, 0, .wo, 0⟩
/-! `SCH.HIST` (R281). -/
def SchHist.COUNT : Field := ⟨31, 0, .ro, 0⟩
/-! `PAR.FCFG` (R314). -/
def ParFcfg.FTIME : Field := ⟨21, 16, .rws, 0xA⟩
def ParFcfg.PMETO : Field := ⟨3, 0, .rws, 0x1⟩
/-! `PAR.ERR` (R316). -/
def ParErr.PATCHAUTO : Field := ⟨4, 4, .rw1c, 0⟩
def ParErr.BINDING : Field := ⟨3, 3, .rw1c, 0⟩
def ParErr.DUAL : Field := ⟨2, 2, .rw1c, 0⟩
def ParErr.PMETO : Field := ⟨1, 1, .rw1c, 0⟩
def ParErr.FOLLOW : Field := ⟨0, 0, .rw1c, 0⟩
/-! `PAR.CNT` (R317). -/
def ParCnt.FLRS : Field := ⟨63, 32, .ro, 0⟩
def ParCnt.LATECPL : Field := ⟨31, 0, .ro, 0⟩
/-! `PAR.PROXY` (R315). -/
def ParProxy.RID : Field := ⟨15, 0, .rw, 0xFF00⟩
/-! `PAR.FACE` (R318). -/
def ParFace.PRESENT : Field := ⟨63, 63, .ro, 0⟩
def ParFace.FACE : Field := ⟨62, 62, .ro, 0⟩
def ParFace.DSTATE : Field := ⟨61, 59, .ro, 0⟩
def ParFace.PMEPEND : Field := ⟨58, 58, .ro, 0⟩
def ParFace.FLR : Field := ⟨57, 57, .ro, 0⟩
def ParFace.WAKE : Field := ⟨56, 56, .ro, 0⟩
def ParFace.PBUS : Field := ⟨55, 48, .ro, 0⟩
def ParFace.SBUS : Field := ⟨47, 40, .ro, 0⟩
def ParFace.SUBBUS : Field := ⟨39, 32, .ro, 0⟩
/-! `PAR.WAKE` (R319). -/
def ParWake.EN : Field := ⟨31, 31, .rw, 0⟩
def ParWake.OUT : Field := ⟨4, 0, .rw, 0⟩
/-! `XLT.CFG` (R355). -/
def XltCfg.RETRY : Field := ⟨18, 16, .rw, 0x3⟩
def XltCfg.WTIME : Field := ⟨15, 0, .rw, 0x32⟩
/-! `XLT.STAT` (R356). -/
def XltStat.CACHED : Field := ⟨63, 47, .ro, 0⟩
def XltStat.FQ : Field := ⟨46, 38, .ro, 0⟩
def XltStat.PRQ : Field := ⟨37, 31, .ro, 0⟩
/-! `XLT.CNT` (R356). -/
def XltCnt.MISSES : Field := ⟨63, 32, .ro, 0⟩
def XltCnt.FAULTS : Field := ⟨31, 16, .ro, 0⟩
def XltCnt.LATE : Field := ⟨15, 0, .ro, 0⟩
/-! `XLT.ERR` (R357). -/
def XltErr.BADCTX : Field := ⟨8, 8, .rw1c, 0⟩
def XltErr.SLOW : Field := ⟨7, 7, .rw1c, 0⟩
def XltErr.PTUNCOR : Field := ⟨6, 6, .rw1c, 0⟩
def XltErr.PRQFULL : Field := ⟨5, 5, .rw1c, 0⟩
def XltErr.FQFULL : Field := ⟨4, 4, .rw1c, 0⟩
def XltErr.ATS : Field := ⟨3, 3, .rw1c, 0⟩
def XltErr.NOWIN : Field := ⟨2, 2, .rw1c, 0⟩
def XltErr.FAULT : Field := ⟨0, 0, .rw1c, 0⟩
/-! `XLT.PRV` (R358). -/
def XltPrv.GOTAG : Field := ⟨24, 16, .wo, 0⟩
def XltPrv.CODE : Field := ⟨15, 12, .wo, 0⟩
def XltPrv.GO : Field := ⟨0, 0, .wo, 0⟩
/-! `XLT.PREC.word0` (R359). -/
def XltPrec0.VALID : Field := ⟨63, 63, .ro, 0⟩
def XltPrec0.SRC : Field := ⟨62, 62, .ro, 0⟩
def XltPrec0.RD : Field := ⟨61, 61, .ro, 0⟩
def XltPrec0.WR : Field := ⟨60, 60, .ro, 0⟩
def XltPrec0.TAG : Field := ⟨59, 51, .ro, 0⟩
def XltPrec0.PART : Field := ⟨50, 45, .ro, 0⟩
def XltPrec0.CTX : Field := ⟨44, 33, .ro, 0⟩
def XltPrec0.CHAN : Field := ⟨32, 28, .ro, 0⟩
/-! `XLT.PREC.word1` (R359). -/
def XltPrec1.ADDR : Field := ⟨63, 12, .ro, 0⟩
def XltPrec1.CAUSE : Field := ⟨11, 8, .ro, 0⟩
/-! `DMA.CFG` (R362). -/
def DmaCfg.RTIME : Field := ⟨31, 16, .rw, 0x64⟩
/-! `DMA.STAT` (R363). -/
def DmaStat.INFLIGHT : Field := ⟨63, 53, .ro, 0⟩
def DmaStat.RUNNING : Field := ⟨52, 21, .ro, 0⟩
/-! `DMA.ERR` (R364). -/
def DmaErr.BADCFG : Field := ⟨6, 6, .rw1c, 0⟩
def DmaErr.RINGERR : Field := ⟨5, 5, .rw1c, 0⟩
def DmaErr.CTXDENIED : Field := ⟨4, 4, .rw1c, 0⟩
def DmaErr.BADDESC : Field := ⟨3, 3, .rw1c, 0⟩
def DmaErr.DSTREFUSED : Field := ⟨2, 2, .rw1c, 0⟩
def DmaErr.SRCERR : Field := ⟨1, 1, .rw1c, 0⟩
def DmaErr.TRANSLATION : Field := ⟨0, 0, .rw1c, 0⟩
/-! `DMA.CNT` (R363). -/
def DmaCnt.DESCS : Field := ⟨63, 32, .ro, 0⟩
def DmaCnt.FAULTS : Field := ⟨31, 16, .ro, 0⟩
def DmaCnt.LATE : Field := ⟨15, 0, .ro, 0⟩
/-! `DMA.FV` (R365). -/
def DmaFv.GOTAG : Field := ⟨23, 16, .wo, 0⟩
def DmaFv.CHAN : Field := ⟨12, 8, .wo, 0⟩
def DmaFv.VERDICT : Field := ⟨2, 1, .wo, 0⟩
def DmaFv.GO : Field := ⟨0, 0, .wo, 0⟩
/-! `DMA.CH.CTL` (R366). -/
def DmaChCtl.ENABLE : Field := ⟨31, 31, .rw, 0⟩
def DmaChCtl.PRI : Field := ⟨26, 24, .rw, 0⟩
def DmaChCtl.TC : Field := ⟨22, 20, .rw, 0⟩
def DmaChCtl.VEC : Field := ⟨7, 0, .rw, 0⟩
/-! `DMA.CH.RBASE` (R367). -/
def DmaChRbase.BASE : Field := ⟨63, 6, .rw, 0⟩
def DmaChRbase.RFACE : Field := ⟨0, 0, .rw, 0⟩
/-! `DMA.CH.RING` (R367). -/
def DmaChRing.HEAD : Field := ⟨63, 48, .ro, 0⟩
def DmaChRing.TAIL : Field := ⟨47, 32, .rw, 0⟩
def DmaChRing.SIZE : Field := ⟨3, 0, .rw, 0⟩
/-! `DMA.CH.STAT` (R368). -/
def DmaChStat.STATE : Field := ⟨63, 61, .ro, 0⟩
def DmaChStat.LASTST : Field := ⟨55, 48, .ro, 0⟩
def DmaChStat.FTAG : Field := ⟨47, 40, .ro, 0⟩
def DmaChStat.OFFSET : Field := ⟨31, 0, .ro, 0⟩
/-! `DMA.CH.CFG` (R369). -/
def DmaChCfg.OWNER : Field := ⟨31, 26, .rw, 0x3F⟩
def DmaChCfg.PRIMAX : Field := ⟨25, 23, .rw, 0x7⟩
def DmaChCfg.SLOT : Field := ⟨15, 8, .rw, 0⟩
/-! `DMA.CH.CNT` (R369). -/
def DmaChCnt.COUNT : Field := ⟨63, 0, .ro, 0⟩
/-! `CORE.CLK` (R434). -/
def CoreClk.PLLLOCK : Field := ⟨31, 31, .ro, 0⟩
def CoreClk.SEL : Field := ⟨0, 0, .rw, 0⟩
/-! `CORE.TTO` (R435). -/
def CoreTto.TIME : Field := ⟨19, 0, .rws, 0x40⟩
/-! `CORE.RST` (R435). -/
def CoreRst.LOST : Field := ⟨15, 0, .rws, 0⟩
/-! `CORE.CNT` (R435). -/
def CoreCnt.BERRS : Field := ⟨63, 32, .ro, 0⟩
def CoreCnt.LATE : Field := ⟨31, 0, .ro, 0⟩
/-! `CORE.DEAD` (R436). -/
def CoreDead.FENCED : Field := ⟨27, 0, .ro, 0⟩
/-! `CORE.SLEEP` (R395). -/
def CoreSleep.MODE : Field := ⟨1, 0, .rw, 0⟩
/-! `CORE.BERRREC` (R437). -/
def CoreBerrrec.VALID : Field := ⟨63, 63, .ro, 0⟩
def CoreBerrrec.OUTCOME : Field := ⟨62, 61, .ro, 0⟩
def CoreBerrrec.TARGET : Field := ⟨60, 56, .ro, 0⟩
def CoreBerrrec.DIE : Field := ⟨55, 53, .ro, 0⟩
def CoreBerrrec.ADDRESS : Field := ⟨39, 0, .ro, 0⟩
/-! `GATE.CTL` (R438). -/
def GateCtl.LOCK : Field := ⟨31, 31, .rwl, 0⟩
def GateCtl.ARM : Field := ⟨30, 30, .rwl, 0⟩
/-! `GATE.ERR` (R441). -/
def GateErr.TOKEN : Field := ⟨4, 4, .rw1c, 0⟩
def GateErr.LOCKWR : Field := ⟨3, 3, .rw1c, 0⟩
def GateErr.DBGREF : Field := ⟨2, 2, .rw1c, 0⟩
def GateErr.BURST : Field := ⟨1, 1, .rw1c, 0⟩
def GateErr.REFUSED : Field := ⟨0, 0, .rw1c, 0⟩
/-! `GATE.FREC.word0` (R442). -/
def GateFrec0.VALID : Field := ⟨63, 63, .ro, 0⟩
def GateFrec0.MID : Field := ⟨55, 48, .ro, 0⟩
def GateFrec0.TARGET : Field := ⟨47, 43, .ro, 0⟩
def GateFrec0.ACC : Field := ⟨42, 40, .ro, 0⟩
def GateFrec0.ADDRESS : Field := ⟨39, 0, .ro, 0⟩
/-! `GATE.FREC.word1` (R442). -/
def GateFrec1.LINEOFF : Field := ⟨5, 0, .ro, 0⟩
/-! `GATE.MIDGRP` (R440). -/
def GateMidgrp.GROUPS : Field := ⟨63, 0, .rwl, 0⟩
/-! `GATE.MAPLOCK` (R440). -/
def GateMaplock.LOCK : Field := ⟨0, 0, .rwl, 0⟩
/-! `GATE.REG.word0` (R439). -/
def GateReg0.VALID : Field := ⟨63, 63, .rw, 0⟩
def GateReg0.LOCK : Field := ⟨62, 62, .rwl, 0⟩
def GateReg0.LIMIT : Field := ⟨39, 20, .rw, 0⟩
def GateReg0.BASE : Field := ⟨19, 0, .rw, 0⟩
/-! `GATE.REG.word1` (R439). -/
def GateReg1.PERM : Field := ⟨47, 0, .rw, 0⟩
/-! `FLT.STAT` (R481). -/
def FltStat.CASES : Field := ⟨31, 23, .ro, 0⟩
def FltStat.MAXLVL : Field := ⟨22, 20, .ro, 0⟩
/-! `FLT.KICK` (R481). -/
def FltKick.KICK : Field := ⟨0, 0, .wo, 0⟩
/-! `FLT.ERR` (R482). -/
def FltErr.THERMTRIP : Field := ⟨12, 12, .rw1c, 0⟩
def FltErr.THERMWARN : Field := ⟨11, 11, .rw1c, 0⟩
def FltErr.VERSION : Field := ⟨10, 10, .rw1c, 0⟩
def FltErr.DIELOST : Field := ⟨9, 9, .rw1c, 0⟩
def FltErr.REFBOTH : Field := ⟨8, 8, .rw1c, 0⟩
def FltErr.REFCLK : Field := ⟨7, 7, .rw1c, 0⟩
def FltErr.HARTSTOP : Field := ⟨6, 6, .rw1c, 0⟩
def FltErr.PAIRRET : Field := ⟨5, 5, .rw1c, 0⟩
def FltErr.ROLLBACK : Field := ⟨4, 4, .rw1c, 0⟩
def FltErr.DBLTRAP : Field := ⟨3, 3, .rw1c, 0⟩
def FltErr.WDOG : Field := ⟨2, 2, .rw1c, 0⟩
def FltErr.CASEFULL : Field := ⟨0, 0, .rw1c, 0⟩
/-! `FLT.CNT` (R483). -/
def FltCnt.LATE : Field := ⟨63, 32, .ro, 0⟩
def FltCnt.FAULTS : Field := ⟨31, 0, .ro, 0⟩
/-! `FLT.FV` (R484). -/
def FltFv.GOTAG : Field := ⟨23, 16, .wo, 0⟩
def FltFv.VERDICT : Field := ⟨2, 1, .wo, 0⟩
def FltFv.GO : Field := ⟨0, 0, .wo, 0⟩
/-! `FLT.RCNT` (R486). -/
def FltRcnt.COUNT : Field := ⟨31, 0, .ro, 0⟩
/-! `FLT.TLERR` (R485). -/
def FltTlerr.DPCTRIG : Field := ⟨6, 6, .rw1c, 0⟩
def FltTlerr.CPLTO : Field := ⟨5, 5, .rw1c, 0⟩
def FltTlerr.CASENT : Field := ⟨4, 4, .rw1c, 0⟩
def FltTlerr.URSENT : Field := ⟨3, 3, .rw1c, 0⟩
def FltTlerr.UNEXPCPL : Field := ⟨2, 2, .rw1c, 0⟩
def FltTlerr.POISONED : Field := ⟨1, 1, .rw1c, 0⟩
def FltTlerr.MALFORMED : Field := ⟨0, 0, .rw1c, 0⟩
/-! `FLT.PCNT` (R486). -/
def FltPcnt.FLUSHED : Field := ⟨63, 32, .ro, 0⟩
def FltPcnt.CONTAINED : Field := ⟨31, 0, .ro, 0⟩
/-! `FLT.CASE.word0` (R487). -/
def FltCase0.VALID : Field := ⟨63, 63, .ro, 0⟩
def FltCase0.ACKED : Field := ⟨62, 62, .ro, 0⟩
def FltCase0.ESCRUN : Field := ⟨61, 61, .ro, 0⟩
def FltCase0.WAITV : Field := ⟨60, 60, .ro, 0⟩
def FltCase0.LEVEL : Field := ⟨59, 57, .ro, 0⟩
def FltCase0.CLASS : Field := ⟨56, 51, .ro, 0⟩
def FltCase0.TAG : Field := ⟨50, 43, .ro, 0⟩
def FltCase0.UKIND : Field := ⟨42, 39, .ro, 0⟩
def FltCase0.UNIT : Field := ⟨38, 21, .ro, 0⟩
def FltCase0.PORT : Field := ⟨20, 14, .ro, 0⟩
def FltCase0.PART : Field := ⟨13, 8, .ro, 0⟩
def FltCase0.COUNT : Field := ⟨4, 0, .ro, 0⟩
/-! `FLT.CASE.word1` (R487). -/
def FltCase1.MERIDIAN : Field := ⟨63, 0, .ro, 0⟩
/-! `PWR.PAD` (R550). -/
def PwrPad.BUSY : Field := ⟨31, 31, .ro, 0⟩
def PwrPad.STATUS : Field := ⟨30, 28, .ro, 0⟩
def PwrPad.DOM : Field := ⟨14, 8, .wo, 0⟩
def PwrPad.RELEASE : Field := ⟨0, 0, .wo, 0⟩
/-! `PWR.AVS` (R551). -/
def PwrAvs.STATE : Field := ⟨63, 62, .ro, 0⟩
def PwrAvs.RELIED : Field := ⟨47, 32, .ro, 0⟩
def PwrAvs.REQ : Field := ⟨31, 16, .ro, 0⟩
def PwrAvs.NEED : Field := ⟨15, 0, .ro, 0⟩
/-! `PWR.AVSCFG` (R552). -/
def PwrAvscfg.VBASE : Field := ⟨25, 16, .ro, 0⟩
def PwrAvscfg.MARGIN : Field := ⟨7, 0, .rws, 0xA⟩
/-! `PWR.ERR` (R553). -/
def PwrErr.VLOW : Field := ⟨3, 3, .rw1c, 0⟩
def PwrErr.DOMFAIL : Field := ⟨2, 2, .rw1c, 0⟩
def PwrErr.AVSNAK : Field := ⟨1, 1, .rw1c, 0⟩
def PwrErr.AVSTO : Field := ⟨0, 0, .rw1c, 0⟩
/-! `PWR.TEMP` (R554). -/
def PwrTemp.MAX : Field := ⟨31, 16, .ro, 0x8000⟩
def PwrTemp.TJ : Field := ⟨15, 0, .ro, 0⟩
/-! `PWR.DOM` (R549). -/
def PwrDom.BUSY : Field := ⟨31, 31, .ro, 0⟩
def PwrDom.STATUS : Field := ⟨30, 28, .ro, 0⟩
def PwrDom.PADS : Field := ⟨23, 23, .ro, 0⟩
def PwrDom.LATCHED : Field := ⟨22, 22, .ro, 0⟩
def PwrDom.AUTO : Field := ⟨21, 21, .rw, 0x1⟩
def PwrDom.CUR : Field := ⟨17, 16, .ro, 0⟩
def PwrDom.REQ : Field := ⟨1, 0, .rw, 0⟩
/-! `BOOT.STAT` (R517). -/
def BootStat.PHASE : Field := ⟨31, 28, .ro, 0⟩
def BootStat.TRIAL : Field := ⟨27, 27, .ro, 0⟩
def BootStat.IMAGE : Field := ⟨26, 26, .ro, 0⟩
def BootStat.NOSET : Field := ⟨25, 25, .ro, 0⟩
/-! `BOOT.VER` (R518). -/
def BootVer.IMGVER : Field := ⟨63, 32, .ro, 0⟩
def BootVer.ROMVER : Field := ⟨31, 16, .ro, 0⟩
def BootVer.SVN : Field := ⟨15, 8, .ro, 0⟩
def BootVer.SVNFLOOR : Field := ⟨7, 0, .ro, 0⟩
/-! `BOOT.CTL` (R519). -/
def BootCtl.RESUME : Field := ⟨6, 6, .wo, 0⟩
def BootCtl.HREADY : Field := ⟨5, 5, .wo, 0⟩
def BootCtl.FAIL : Field := ⟨4, 4, .wo, 0⟩
def BootCtl.CLRATT : Field := ⟨3, 3, .wo, 0⟩
def BootCtl.PRESET : Field := ⟨2, 2, .wo, 0⟩
def BootCtl.MRESET : Field := ⟨1, 1, .wo, 0⟩
def BootCtl.SERVICE : Field := ⟨0, 0, .wo, 0⟩
/-! `BOOT.CFG` (R520). -/
def BootCfg.STIME : Field := ⟨9, 0, .rws, 0x3C⟩
/-! `BOOT.CAUSE` (R521). -/
def BootCause.ATTEMPTS : Field := ⟨57, 56, .ro, 0⟩
def BootCause.CODE : Field := ⟨55, 48, .ro, 0⟩
def BootCause.PREV1 : Field := ⟨47, 40, .ro, 0⟩
def BootCause.PREV2 : Field := ⟨39, 32, .ro, 0⟩
def BootCause.IMGA : Field := ⟨31, 24, .ro, 0⟩
def BootCause.IMGB : Field := ⟨23, 16, .ro, 0⟩
def BootCause.FIRST : Field := ⟨8, 8, .ro, 0⟩
/-! `BOOT.ACT` (R522). -/
def BootAct.BUSY : Field := ⟨63, 63, .ro, 0⟩
def BootAct.STATE : Field := ⟨62, 60, .ro, 0⟩
def BootAct.STATUS : Field := ⟨59, 56, .ro, 0⟩
def BootAct.CODE : Field := ⟨55, 48, .ro, 0⟩
def BootAct.STAGEDVER : Field := ⟨31, 0, .ro, 0⟩
/-! `BOOT.ACTCMD` (R523). -/
def BootActcmd.SRC : Field := ⟨8, 8, .wo, 0⟩
def BootActcmd.OP : Field := ⟨2, 1, .wo, 0⟩
def BootActcmd.GO : Field := ⟨0, 0, .wo, 0⟩
/-! `BOOT.ACTV` (R524). -/
def BootActv.TAG : Field := ⟨31, 24, .ro, 0⟩
def BootActv.GOTAG : Field := ⟨23, 16, .wo, 0⟩
def BootActv.VERDICT : Field := ⟨8, 8, .wo, 0⟩
def BootActv.GO : Field := ⟨0, 0, .wo, 0⟩
/-! `BOOT.MIGV` (R524). -/
def BootMigv.TAG : Field := ⟨31, 24, .ro, 0⟩
def BootMigv.GOTAG : Field := ⟨23, 16, .wo, 0⟩
def BootMigv.VERDICT : Field := ⟨8, 8, .wo, 0⟩
def BootMigv.GO : Field := ⟨0, 0, .wo, 0⟩
/-! `BOOT.MIGRATE.STAT` (R525). -/
def BootMigStat.STATE : Field := ⟨31, 28, .rws, 0⟩
def BootMigStat.MIGRATED : Field := ⟨27, 16, .rws, 0⟩
def BootMigStat.DEFAULTED : Field := ⟨15, 4, .rws, 0⟩
/-! `BOOT.SVN` (R527). -/
def BootSvn.PEND : Field := ⟨31, 31, .ro, 0⟩
def BootSvn.FLOOR : Field := ⟨15, 8, .rw, 0⟩
def BootSvn.BURN : Field := ⟨0, 0, .wo, 0⟩
/-! `BOOT.FLCTL` (R526). -/
def BootFlctl.BUSY : Field := ⟨63, 63, .ro, 0⟩
def BootFlctl.STATUS : Field := ⟨62, 60, .ro, 0⟩
def BootFlctl.GO : Field := ⟨59, 59, .wo, 0⟩
def BootFlctl.PORT : Field := ⟨56, 56, .rw, 0⟩
def BootFlctl.OP : Field := ⟨51, 48, .rw, 0⟩
def BootFlctl.LEN : Field := ⟨47, 40, .rw, 0⟩
def BootFlctl.ADDR : Field := ⟨31, 0, .rw, 0⟩
/-! `BOOT.MIGRATE.REPORT` (R525). -/
def BootMigReport.VALID : Field := ⟨63, 63, .rws, 0⟩
def BootMigReport.REASON : Field := ⟨62, 60, .rws, 0⟩
def BootMigReport.VER : Field := ⟨47, 32, .rws, 0⟩
def BootMigReport.ID : Field := ⟨15, 0, .rws, 0⟩
/-! `BOOT.FLBUF` (R526). -/
def BootFlbuf.BYTES : Field := ⟨63, 0, .rw, 0⟩
/-! `SBB.CFG` (R602). -/
def SbbCfg.HTIME : Field := ⟨31, 24, .rw, 0xA⟩
def SbbCfg.LTIME : Field := ⟨23, 16, .rw, 0xA⟩
def SbbCfg.POLL : Field := ⟨9, 0, .rw, 0x1⟩
/-! `SBB.ERR` (R603). -/
def SbbErr.LOCKTO : Field := ⟨5, 5, .rw1c, 0⟩
def SbbErr.OVERRUN : Field := ⟨4, 4, .rw1c, 0⟩
def SbbErr.TKTDISC : Field := ⟨3, 3, .rw1c, 0⟩
def SbbErr.PEC : Field := ⟨2, 2, .rw1c, 0⟩
def SbbErr.BUSERR : Field := ⟨1, 1, .rw1c, 0⟩
def SbbErr.BUSTO : Field := ⟨0, 0, .rw1c, 0⟩
/-! `SBB.CNT` (R604). -/
def SbbCnt.DISCARDS : Field := ⟨63, 48, .ro, 0⟩
def SbbCnt.OVERRUNS : Field := ⟨47, 32, .ro, 0⟩
def SbbCnt.XFERS : Field := ⟨31, 0, .ro, 0⟩
/-! `SBB.TALLOC` (R604). -/
def SbbTalloc.TICKET : Field := ⟨7, 0, .ro, 0xFF⟩
/-! `SBB.SEG.CFG` (R605). -/
def SbbSegCfg.SPEED : Field := ⟨1, 0, .rw, 0⟩
/-! `SBB.SEG.STAT` (R605). -/
def SbbSegStat.LOCKED : Field := ⟨63, 63, .ro, 0⟩
def SbbSegStat.OKIND : Field := ⟨62, 61, .ro, 0⟩
def SbbSegStat.OWNER : Field := ⟨60, 48, .ro, 0⟩
def SbbSegStat.QDEPTH : Field := ⟨47, 40, .ro, 0⟩
def SbbSegStat.BUSY : Field := ⟨39, 39, .ro, 0⟩
/-! `SBB.SEG.SIG` (R600). -/
def SbbSegSig.WAKECHG : Field := ⟨63, 56, .ro, 0⟩
def SbbSegSig.CLKCHG : Field := ⟨55, 48, .ro, 0⟩
def SbbSegSig.PRSCHG : Field := ⟨47, 40, .ro, 0⟩
def SbbSegSig.STALE : Field := ⟨6, 6, .ro, 0⟩
def SbbSegSig.PWRBRK : Field := ⟨5, 5, .ro, 0⟩
def SbbSegSig.PERST : Field := ⟨4, 4, .ro, 0⟩
def SbbSegSig.PRSNTB : Field := ⟨3, 3, .ro, 0⟩
def SbbSegSig.PRSNTA : Field := ⟨2, 2, .ro, 0⟩
def SbbSegSig.CLKREQ : Field := ⟨1, 1, .ro, 0⟩
def SbbSegSig.WAKE : Field := ⟨0, 0, .ro, 0⟩
/-! `SBB.TKT.XFER` (R587). -/
def SbbTktXfer.XFER : Field := ⟨63, 0, .rw, 0⟩
/-! `SBB.TKT.RES` (R588). -/
def SbbTktRes.STATE : Field := ⟨62, 60, .ro, 0⟩
def SbbTktRes.STATUS : Field := ⟨59, 56, .ro, 0⟩
def SbbTktRes.COUNT : Field := ⟨53, 48, .ro, 0⟩
def SbbTktRes.SEQ : Field := ⟨47, 40, .ro, 0⟩
/-! `SBB.TKT.DBUF` (R594). -/
def SbbTktDbuf.BYTES : Field := ⟨63, 0, .rw, 0⟩
/-! `SBB.TKT.FREE` (R594). -/
def SbbTktFree.FREE : Field := ⟨0, 0, .wo, 0⟩
/-! `REC.CTL` (R623). -/
def RecCtl.ARM : Field := ⟨31, 31, .rw, 0⟩
def RecCtl.STREAM : Field := ⟨30, 30, .rw, 0⟩
def RecCtl.FREEZE : Field := ⟨29, 29, .wo, 0⟩
def RecCtl.START : Field := ⟨28, 28, .wo, 0⟩
def RecCtl.STOPMISS : Field := ⟨27, 27, .rw, 0x1⟩
/-! `REC.CFG` (R624). -/
def RecCfg.POST : Field := ⟨31, 24, .rw, 0x40⟩
def RecCfg.CRES : Field := ⟨23, 16, .rw, 0x10⟩
def RecCfg.ANCHOR : Field := ⟨11, 0, .rw, 0⟩
/-! `REC.STAT` (R625). -/
def RecStat.STATE : Field := ⟨63, 61, .ro, 0⟩
def RecStat.ANCH : Field := ⟨60, 60, .ro, 0⟩
def RecStat.BROKEN : Field := ⟨59, 59, .ro, 0⟩
def RecStat.TDIE : Field := ⟨55, 52, .ro, 0⟩
def RecStat.TMATCH : Field := ⟨51, 48, .ro, 0⟩
def RecStat.SEQ : Field := ⟨47, 0, .ro, 0⟩
/-! `REC.CNT` (R622). -/
def RecCnt.DROPPED : Field := ⟨63, 32, .ro, 0⟩
def RecCnt.STALLS : Field := ⟨31, 0, .ro, 0⟩
/-! `REC.ERR` (R629). -/
def RecErr.RPLMISS : Field := ⟨5, 5, .rw1c, 0⟩
def RecErr.ANCHFAIL : Field := ⟨4, 4, .rw1c, 0⟩
def RecErr.SINKERR : Field := ⟨3, 3, .rw1c, 0⟩
def RecErr.SINKFULL : Field := ⟨2, 2, .rw1c, 0⟩
def RecErr.STALL : Field := ⟨1, 1, .rw1c, 0⟩
def RecErr.DROP : Field := ⟨0, 0, .rw1c, 0⟩
/-! `REC.VIS` (R622). -/
def RecVis.VIS : Field := ⟨31, 0, .rw, 0⟩
/-! `REC.SPSEL` (R622). -/
def RecSpsel.RECEIVE : Field := ⟨15, 8, .rw, 0⟩
def RecSpsel.SEND : Field := ⟨7, 0, .rw, 0⟩
/-! `REC.SINK` (R622). -/
def RecSink.BASE : Field := ⟨63, 12, .rw, 0⟩
/-! `REC.SCFG` (R628). -/
def RecScfg.EN : Field := ⟨31, 31, .rw, 0⟩
def RecScfg.PART : Field := ⟨30, 25, .rw, 0x3F⟩
def RecScfg.FACE : Field := ⟨24, 24, .rw, 0⟩
def RecScfg.SIZE : Field := ⟨19, 0, .rw, 0⟩
/-! `REC.SPTR` (R622). -/
def RecSptr.HEAD : Field := ⟨63, 32, .ro, 0⟩
def RecSptr.TAIL : Field := ⟨31, 0, .rw, 0⟩
/-! `REC.RFEED` (R622). -/
def RecRfeed.BASE : Field := ⟨63, 12, .rw, 0⟩
/-! `REC.RFCNT` (R622). -/
def RecRfcnt.COUNT : Field := ⟨31, 0, .rw, 0⟩
/-! `REC.RPT` (R630). -/
def RecRpt.RSTATE : Field := ⟨63, 61, .ro, 0⟩
def RecRpt.MISSKIND : Field := ⟨60, 57, .ro, 0⟩
def RecRpt.MISSES : Field := ⟨31, 0, .ro, 0⟩
/-! `REC.RPTAT` (R622). -/
def RecRptat.SEQ : Field := ⟨63, 16, .ro, 0⟩
def RecRptat.INDEX : Field := ⟨15, 0, .ro, 0⟩
/-! `REC.SEL` (R626). -/
def RecSel.IN : Field := ⟨31, 31, .rw, 0⟩
def RecSel.OUT : Field := ⟨30, 30, .rw, 0⟩
def RecSel.PAY : Field := ⟨29, 29, .rw, 0⟩
def RecSel.PAYMAX : Field := ⟨23, 16, .rw, 0x4⟩
def RecSel.SAMPLE : Field := ⟨3, 0, .rw, 0⟩
/-! `REC.TRIG` (R627). -/
def RecTrig.EN : Field := ⟨63, 63, .rw, 0⟩
def RecTrig.KIND : Field := ⟨62, 60, .rw, 0⟩
def RecTrig.EVENT : Field := ⟨41, 32, .rw, 0⟩
def RecTrig.CLASS : Field := ⟨29, 24, .rw, 0⟩
def RecTrig.LEVEL : Field := ⟨22, 20, .rw, 0⟩
/-! `EVT.PULSE` (R656). -/
def EvtPulse.VREF : Field := ⟨0, 0, .rw1c, 0⟩
/-! `EVT.RAW` (R489). -/
def EvtRaw.RAW : Field := ⟨63, 0, .ro, 0⟩
/-! `EVT.ROUTE` (R488). -/
def EvtRoute.HEN : Field := ⟨63, 63, .rw, 0⟩
def EvtRoute.HART : Field := ⟨62, 62, .rw, 0⟩
def EvtRoute.INPUT : Field := ⟨55, 48, .rw, 0x8⟩
def EvtRoute.PEN : Field := ⟨47, 47, .rw, 0x1⟩
def EvtRoute.PSEL : Field := ⟨46, 46, .rw, 0⟩
def EvtRoute.PARTN : Field := ⟨42, 38, .rw, 0⟩
def EvtRoute.VEC : Field := ⟨37, 30, .rw, 0⟩
def EvtRoute.BMC : Field := ⟨1, 1, .rw, 0x1⟩
def EvtRoute.REC : Field := ⟨0, 0, .rw, 0x1⟩

/-- The fields of a register, highest first; all other bits are reserved (00 R10). -/
def RegName.fields : RegName → List Field
  | .partId => [PartId.DEVICE, PartId.DIES, PartId.GRADE, PartId.STEP_MAJOR, PartId.STEP_MINOR]
  | .partMode => [PartMode.BUSY, PartMode.STATUS, PartMode.BASE, PartMode.REQ, PartMode.CUR]
  | .partAssist => [PartAssist.POLICE, PartAssist.MIGRATE, PartAssist.FWACT, PartAssist.LEAK, PartAssist.DMAF, PartAssist.XLTF, PartAssist.ESCAL, PartAssist.HOTPLUG, PartAssist.RETRAIN, PartAssist.PEG]
  | .partLead => [PartLead.HILDPATH, PartLead.DEPUTY, PartLead.LEAD]
  | .partDieState => [PartDieState.D0, PartDieState.D1, PartDieState.D2, PartDieState.D3, PartDieState.D4, PartDieState.D5, PartDieState.D6, PartDieState.D7]
  | .partAlate => [PartAlate.COUNT]
  | .partMeridian => [PartMeridian.COUNT]
  | .partMerstat => [PartMerstat.WRAPS, PartMerstat.TFAULT, PartMerstat.RESYNC, PartMerstat.REF]
  | .partAtime => [PartAtime.TIME]
  | .partCapo => [PartCapo.BUSY, PartCapo.STATUS, PartCapo.FENCE, PartCapo.GO]
  | .partEpoch => [PartEpoch.NEW, PartEpoch.OLD]
  | .partCapocfg => [PartCapocfg.FTIME, PartCapocfg.PTIME]
  | .partStageq => [PartStageq.FULL, PartStageq.DEPTH]
  | .partAlmlock => [PartAlmlock.LOCK]
  | .partAlmpatch0 => [PartAlmpatch0.VALID, PartAlmpatch0.IMAGE, PartAlmpatch0.DWOFF, PartAlmpatch0.VALUE]
  | .partAlmpatch1 => [PartAlmpatch1.MASK]
  | .partFollow => [PartFollow.LAST, PartFollow.ACK, PartFollow.DONE, PartFollow.HELD]
  | .partXltinv => [PartXltinv.BUSY, PartXltinv.STATUS, PartXltinv.SCOPE, PartXltinv.CTX, PartXltinv.PAGES, PartXltinv.GO]
  | .partXltinva => [PartXltinva.ADDR]
  | .partDbgCtl => [PartDbgCtl.BUSY, PartDbgCtl.STATUS, PartDbgCtl.REVOKE, PartDbgCtl.INSTALL, PartDbgCtl.ACTIVE]
  | .partDbgNonce => [PartDbgNonce.NONCE]
  | .partDbgUid => [PartDbgUid.UID]
  | .partDbgTok => [PartDbgTok.TOK]
  | .partPtown => [PartPtown.OWNER]
  | .partFltclass => [PartFltclass.CAP, PartFltclass.SEV, PartFltclass.ETIME]
  | .partFltcfg => [PartFltcfg.REJOIN, PartFltcfg.WDOG, PartFltcfg.QUIET]
  | .partEvtq => [PartEvtq.DROPPED, PartEvtq.DEPTH]
  | .hildHpv => [HildHpv.TAG, HildHpv.GOTAG, HildHpv.SLOT, HildHpv.VERDICT, HildHpv.GO]
  | .hildSum => [HildSum.PGOOD, HildSum.LATCHED]
  | .hildDom => [HildDom.BUSY, HildDom.STATUS, HildDom.PADS, HildDom.LATCHED, HildDom.AUTO, HildDom.CUR, HildDom.REQ]
  | .hildCtl => [HildCtl.PWREN, HildCtl.BRKREQ, HildCtl.BRKONE]
  | .hildCfg => [HildCfg.SPLV, HildCfg.SPLS, HildCfg.PLIM, HildCfg.VCL, HildCfg.RSENSE, HildCfg.IGATE]
  | .hildTime => [HildTime.TPERST, HildTime.TRAMP, HildTime.TFLT]
  | .hildFeed => [HildFeed.OV, HildFeed.UV]
  | .hildStat => [HildStat.STATE, HildStat.SEATED, HildStat.PRSNTA, HildStat.PRSNTB, HildStat.GATEOK, HildStat.TIMER, HildStat.PGOOD, HildStat.PERSTREL, HildStat.FEEDA, HildStat.FEEDB, HildStat.ONA, HildStat.ONB, HildStat.PWRBRK, HildStat.HPTAG]
  | .hildErr => [HildErr.NOFEED, HildErr.FETFAULT, HildErr.RAMPTO, HildErr.SHORT, HildErr.TIMEOUT, HildErr.OVB, HildErr.OVA, HildErr.UVB, HildErr.UVA, HildErr.REVB, HildErr.REVA]
  | .hildTel => [HildTel.VOUT, HildTel.IOUT, HildTel.VFA, HildTel.VFB]
  | .laneMapctl => [LaneMapctl.BUSY, LaneMapctl.STATUS, LaneMapctl.CHANGED, LaneMapctl.APPLY]
  | .laneDiagsel => [LaneDiagsel.PORTS]
  | .lanePeggo => [LanePeggo.TAG, LanePeggo.PORT, LanePeggo.GO]
  | .laneQmap => [LaneQmap.PORT_HI, LaneQmap.PORT_LO, LaneQmap.WIDTH]
  | .laneStat => [LaneStat.PORT, LaneStat.LWIDTH, LaneStat.RATE, LaneStat.TERM, LaneStat.EIDLE, LaneStat.SIGDET, LaneStat.LOCK, LaneStat.POLINV, LaneStat.REVERSED, LaneStat.LANENUM]
  | .laneTxeq => [LaneTxeq.OVR, LaneTxeq.PRESET, LaneTxeq.CM2, LaneTxeq.CM1, LaneTxeq.C0, LaneTxeq.CP1]
  | .laneRxeq => [LaneRxeq.FREEZE, LaneRxeq.OVR, LaneRxeq.FFEON, LaneRxeq.DFEON, LaneRxeq.CTLE_CUR, LaneRxeq.CTLE]
  | .laneDfe => [LaneDfe.TAPS]
  | .lanePeg => [LanePeg.TAG, LanePeg.STATE, LanePeg.BEST, LanePeg.FOM, LanePeg.VPRESET, LanePeg.VUSE, LanePeg.VCM2, LanePeg.VCM1, LanePeg.VC0, LanePeg.VCP1]
  | .laneTest => [LaneTest.STATUS, LaneTest.LOOP, LaneTest.PAT, LaneTest.INJECT, LaneTest.CLR, LaneTest.SYNC, LaneTest.CHK, LaneTest.GEN]
  | .laneErrcnt => [LaneErrcnt.COUNT]
  | .laneBitcnt => [LaneBitcnt.COUNT]
  | .laneUserpat => [LaneUserpat.PAT]
  | .laneSweep => [LaneSweep.FOM0, LaneSweep.FOM1, LaneSweep.FOM2, LaneSweep.FOM3]
  | .linkHealth => [LinkHealth.THRESH]
  | .linkCfg => [LinkCfg.ENABLE, LinkCfg.KIND, LinkCfg.REPLAYN, LinkCfg.TRATE, LinkCfg.GRACE]
  | .linkStat => [LinkStat.STATE, LinkStat.RATE, LinkStat.WIDTH, LinkStat.FLIT, LinkStat.L0P, LinkStat.HELD, LinkStat.RETRAINS]
  | .linkRtt => [LinkRtt.ACKT, LinkRtt.RTT]
  | .linkVlhead => [LinkVlhead.HMIN, LinkVlhead.HEAD]
  | .linkCnt => [LinkCnt.REPLAYS, LinkCnt.DUPS, LinkCnt.LATE]
  | .linkErr => [LinkErr.TRAIN, LinkErr.DOWN, LinkErr.RETRAIN, LinkErr.REPLAYLIM, LinkErr.CRC, LinkErr.SEQ, LinkErr.ACKPROTO, LinkErr.LANE, LinkErr.SPARESOUT]
  | .linkRtv => [LinkRtv.TAG, LinkRtv.GOTAG, LinkRtv.VERDICT, LinkRtv.GO]
  | .linkLanes => [LinkLanes.BAD, LinkLanes.ACTIVE]
  | .linkSpstat => [LinkSpstat.REPAIRS, LinkSpstat.SPARES, LinkSpstat.MODULES]
  | .fretLoad => [FretLoad.BUSY, FretLoad.STATUS, FretLoad.BADIDX, FretLoad.SLOT, FretLoad.LEN, FretLoad.GO]
  | .fretTrapcfg => [FretTrapcfg.FALLBACK, FretTrapcfg.TIME]
  | .fretTrapv => [FretTrapv.EGRESS, FretTrapv.QUEUE, FretTrapv.OVR, FretTrapv.VERDICT, FretTrapv.TAG, FretTrapv.SLOT, FretTrapv.PORT, FretTrapv.GO]
  | .fretDiecnt => [FretDiecnt.RERUNS, FretDiecnt.LATE]
  | .fretStage => [FretStage.WORD]
  | .fretPcfg => [FretPcfg.ECRC, FretPcfg.CTTC, FretPcfg.THROTTLE]
  | .fretPsel => [FretPsel.LIVE, FretPsel.STAGED]
  | .fretPstat => [FretPstat.HQDEPTH, FretPstat.PARKED, FretPstat.THROTTLING]
  | .fretErr => [FretErr.CTABORT, FretErr.ECRC, FretErr.TRAPFULL, FretErr.TBLUNCOR, FretErr.BADMETA, FretErr.FLOWDIE, FretErr.ISOLATION, FretErr.BADEGRESS]
  | .fretVcnt => [FretVcnt.COUNT]
  | .fretHwref => [FretHwref.COUNT]
  | .fretTraprec0 => [FretTraprec0.VALID, FretTraprec0.TAG, FretTraprec0.CODE, FretTraprec0.EPOCH, FretTraprec0.CLASS, FretTraprec0.TC, FretTraprec0.PSLOT, FretTraprec0.PROG]
  | .fretTraprec1 => [FretTraprec1.EGRESS, FretTraprec1.QUEUE, FretTraprec1.FLOW, FretTraprec1.MIRROR, FretTraprec1.XCTX, FretTraprec1.NOCT]
  | .fretTraprec2 => [FretTraprec2.MERIDIAN]
  | .fretTrapHdr => [FretTrapHdr.BYTES]
  | .tabStat => [TabStat.NEW, TabStat.OLD, TabStat.PHASE, TabStat.RELOADQ, TabStat.UNSETTLED]
  | .tabErr => [TabErr.SCRUB, TabErr.PROTECT, TabErr.FENCE, TabErr.DESC, TabErr.DIGEST]
  | .tabCnt => [TabCnt.FLIPS, TabCnt.RESTAMPS, TabCnt.RELOADS]
  | .tabDrain => [TabDrain.MAX, TabDrain.LAST]
  | .bufStat => [BufStat.FREE, BufStat.ZERO, BufStat.RETIRED, BufStat.ZBUSY, BufStat.READY]
  | .bufZcfg => [BufZcfg.ZTARGET]
  | .bufZcnt => [BufZcnt.COUNT]
  | .bufShared => [BufShared.SIZE, BufShared.USED, BufShared.TUSE]
  | .bufTcap => [BufTcap.TCAP]
  | .bufMircfg => [BufMircfg.EN, BufMircfg.PORT, BufMircfg.TID, BufMircfg.MIRLIM, BufMircfg.MUSE]
  | .bufMirshed => [BufMirshed.SHED]
  | .bufMircnt => [BufMircnt.SENT, BufMircnt.DROPPED]
  | .bufAudit => [BufAudit.ROUNDS, BufAudit.SUSPECTS, BufAudit.RECLAIMED]
  | .bufLeakv => [BufLeakv.TAG, BufLeakv.GOTAG, BufLeakv.VERDICT, BufLeakv.GO]
  | .bufRetlim => [BufRetlim.LIMIT]
  | .bufErr => [BufErr.MIRSHED, BufErr.RESV, BufErr.REFOVER, BufErr.RECLAIM, BufErr.LEAK, BufErr.RETLIM, BufErr.RETIRE, BufErr.UNCOR, BufErr.CORR]
  | .bufLeakrec => [BufLeakrec.VALID, BufLeakrec.REFS, BufLeakrec.FOUND, BufLeakrec.CELL]
  | .bufPres => [BufPres.HOLDUSE, BufPres.HOLDRES, BufPres.INUSE, BufPres.INRES]
  | .bufPart => [BufPart.PCAP, BufPart.MINRES, BufPart.USE]
  | .bufCelld => [BufCelld.OWNER, BufCelld.STATE, BufCelld.SUSP, BufCelld.SEEN, BufCelld.REFS, BufCelld.FILL, BufCelld.NEXTV, BufCelld.NEXT]
  | .schPxcfg => [SchPxcfg.HAGE, SchPxcfg.QUIET]
  | .schPxv => [SchPxv.GOTAG, SchPxv.ACTION, SchPxv.GO]
  | .schHstat => [SchHstat.HELD, SchHstat.HFLOWS, SchHstat.PXWAIT]
  | .schErr => [SchErr.HOLDAGE, SchErr.PXFULL, SchErr.REFUSED, SchErr.CHAIN, SchErr.BADFLOW]
  | .schPxrec => [SchPxrec.VALID, SchPxrec.ACTING, SchPxrec.TAG, SchPxrec.REDS, SchPxrec.FLOW]
  | .schFlowTc => [SchFlowTc.LEVEL]
  | .schFlowTp => [SchFlowTp.LEVEL]
  | .schFlowHold => [SchFlowHold.XSTATE, SchFlowHold.XACT, SchFlowHold.HTLPS, SchFlowHold.HAGEMAX]
  | .schFlowCnt => [SchFlowCnt.REDS, SchFlowCnt.REFUSED]
  | .schQcfg => [SchQcfg.SP, SchQcfg.QUANTUM]
  | .schQshape => [SchQshape.RATE, SchQshape.BURST]
  | .schQstat => [SchQstat.MAXDEPTH, SchQstat.DEPTH]
  | .schHcfg => [SchHcfg.EN, SchHcfg.INTERVAL, SchHcfg.DSCALE, SchHcfg.ZSCALE]
  | .schHctl => [SchHctl.SNAPSEQ, SchHctl.SNAP]
  | .schHist => [SchHist.COUNT]
  | .parFcfg => [ParFcfg.FTIME, ParFcfg.PMETO]
  | .parErr => [ParErr.PATCHAUTO, ParErr.BINDING, ParErr.DUAL, ParErr.PMETO, ParErr.FOLLOW]
  | .parCnt => [ParCnt.FLRS, ParCnt.LATECPL]
  | .parProxy => [ParProxy.RID]
  | .parFace => [ParFace.PRESENT, ParFace.FACE, ParFace.DSTATE, ParFace.PMEPEND, ParFace.FLR, ParFace.WAKE, ParFace.PBUS, ParFace.SBUS, ParFace.SUBBUS]
  | .parWake => [ParWake.EN, ParWake.OUT]
  | .xltCfg => [XltCfg.RETRY, XltCfg.WTIME]
  | .xltStat => [XltStat.CACHED, XltStat.FQ, XltStat.PRQ]
  | .xltCnt => [XltCnt.MISSES, XltCnt.FAULTS, XltCnt.LATE]
  | .xltErr => [XltErr.BADCTX, XltErr.SLOW, XltErr.PTUNCOR, XltErr.PRQFULL, XltErr.FQFULL, XltErr.ATS, XltErr.NOWIN, XltErr.FAULT]
  | .xltPrv => [XltPrv.GOTAG, XltPrv.CODE, XltPrv.GO]
  | .xltPrec0 => [XltPrec0.VALID, XltPrec0.SRC, XltPrec0.RD, XltPrec0.WR, XltPrec0.TAG, XltPrec0.PART, XltPrec0.CTX, XltPrec0.CHAN]
  | .xltPrec1 => [XltPrec1.ADDR, XltPrec1.CAUSE]
  | .dmaCfg => [DmaCfg.RTIME]
  | .dmaStat => [DmaStat.INFLIGHT, DmaStat.RUNNING]
  | .dmaErr => [DmaErr.BADCFG, DmaErr.RINGERR, DmaErr.CTXDENIED, DmaErr.BADDESC, DmaErr.DSTREFUSED, DmaErr.SRCERR, DmaErr.TRANSLATION]
  | .dmaCnt => [DmaCnt.DESCS, DmaCnt.FAULTS, DmaCnt.LATE]
  | .dmaFv => [DmaFv.GOTAG, DmaFv.CHAN, DmaFv.VERDICT, DmaFv.GO]
  | .dmaChCtl => [DmaChCtl.ENABLE, DmaChCtl.PRI, DmaChCtl.TC, DmaChCtl.VEC]
  | .dmaChRbase => [DmaChRbase.BASE, DmaChRbase.RFACE]
  | .dmaChRing => [DmaChRing.HEAD, DmaChRing.TAIL, DmaChRing.SIZE]
  | .dmaChStat => [DmaChStat.STATE, DmaChStat.LASTST, DmaChStat.FTAG, DmaChStat.OFFSET]
  | .dmaChCfg => [DmaChCfg.OWNER, DmaChCfg.PRIMAX, DmaChCfg.SLOT]
  | .dmaChCnt => [DmaChCnt.COUNT]
  | .coreClk => [CoreClk.PLLLOCK, CoreClk.SEL]
  | .coreTto => [CoreTto.TIME]
  | .coreRst => [CoreRst.LOST]
  | .coreCnt => [CoreCnt.BERRS, CoreCnt.LATE]
  | .coreDead => [CoreDead.FENCED]
  | .coreSleep => [CoreSleep.MODE]
  | .coreBerrrec => [CoreBerrrec.VALID, CoreBerrrec.OUTCOME, CoreBerrrec.TARGET, CoreBerrrec.DIE, CoreBerrrec.ADDRESS]
  | .gateCtl => [GateCtl.LOCK, GateCtl.ARM]
  | .gateErr => [GateErr.TOKEN, GateErr.LOCKWR, GateErr.DBGREF, GateErr.BURST, GateErr.REFUSED]
  | .gateFrec0 => [GateFrec0.VALID, GateFrec0.MID, GateFrec0.TARGET, GateFrec0.ACC, GateFrec0.ADDRESS]
  | .gateFrec1 => [GateFrec1.LINEOFF]
  | .gateMidgrp => [GateMidgrp.GROUPS]
  | .gateMaplock => [GateMaplock.LOCK]
  | .gateReg0 => [GateReg0.VALID, GateReg0.LOCK, GateReg0.LIMIT, GateReg0.BASE]
  | .gateReg1 => [GateReg1.PERM]
  | .fltStat => [FltStat.CASES, FltStat.MAXLVL]
  | .fltKick => [FltKick.KICK]
  | .fltErr => [FltErr.THERMTRIP, FltErr.THERMWARN, FltErr.VERSION, FltErr.DIELOST, FltErr.REFBOTH, FltErr.REFCLK, FltErr.HARTSTOP, FltErr.PAIRRET, FltErr.ROLLBACK, FltErr.DBLTRAP, FltErr.WDOG, FltErr.CASEFULL]
  | .fltCnt => [FltCnt.LATE, FltCnt.FAULTS]
  | .fltFv => [FltFv.GOTAG, FltFv.VERDICT, FltFv.GO]
  | .fltRcnt => [FltRcnt.COUNT]
  | .fltTlerr => [FltTlerr.DPCTRIG, FltTlerr.CPLTO, FltTlerr.CASENT, FltTlerr.URSENT, FltTlerr.UNEXPCPL, FltTlerr.POISONED, FltTlerr.MALFORMED]
  | .fltPcnt => [FltPcnt.FLUSHED, FltPcnt.CONTAINED]
  | .fltCase0 => [FltCase0.VALID, FltCase0.ACKED, FltCase0.ESCRUN, FltCase0.WAITV, FltCase0.LEVEL, FltCase0.CLASS, FltCase0.TAG, FltCase0.UKIND, FltCase0.UNIT, FltCase0.PORT, FltCase0.PART, FltCase0.COUNT]
  | .fltCase1 => [FltCase1.MERIDIAN]
  | .pwrPad => [PwrPad.BUSY, PwrPad.STATUS, PwrPad.DOM, PwrPad.RELEASE]
  | .pwrAvs => [PwrAvs.STATE, PwrAvs.RELIED, PwrAvs.REQ, PwrAvs.NEED]
  | .pwrAvscfg => [PwrAvscfg.VBASE, PwrAvscfg.MARGIN]
  | .pwrErr => [PwrErr.VLOW, PwrErr.DOMFAIL, PwrErr.AVSNAK, PwrErr.AVSTO]
  | .pwrTemp => [PwrTemp.MAX, PwrTemp.TJ]
  | .pwrDom => [PwrDom.BUSY, PwrDom.STATUS, PwrDom.PADS, PwrDom.LATCHED, PwrDom.AUTO, PwrDom.CUR, PwrDom.REQ]
  | .bootStat => [BootStat.PHASE, BootStat.TRIAL, BootStat.IMAGE, BootStat.NOSET]
  | .bootVer => [BootVer.IMGVER, BootVer.ROMVER, BootVer.SVN, BootVer.SVNFLOOR]
  | .bootCtl => [BootCtl.RESUME, BootCtl.HREADY, BootCtl.FAIL, BootCtl.CLRATT, BootCtl.PRESET, BootCtl.MRESET, BootCtl.SERVICE]
  | .bootCfg => [BootCfg.STIME]
  | .bootCause => [BootCause.ATTEMPTS, BootCause.CODE, BootCause.PREV1, BootCause.PREV2, BootCause.IMGA, BootCause.IMGB, BootCause.FIRST]
  | .bootAct => [BootAct.BUSY, BootAct.STATE, BootAct.STATUS, BootAct.CODE, BootAct.STAGEDVER]
  | .bootActcmd => [BootActcmd.SRC, BootActcmd.OP, BootActcmd.GO]
  | .bootActv => [BootActv.TAG, BootActv.GOTAG, BootActv.VERDICT, BootActv.GO]
  | .bootMigv => [BootMigv.TAG, BootMigv.GOTAG, BootMigv.VERDICT, BootMigv.GO]
  | .bootMigStat => [BootMigStat.STATE, BootMigStat.MIGRATED, BootMigStat.DEFAULTED]
  | .bootSvn => [BootSvn.PEND, BootSvn.FLOOR, BootSvn.BURN]
  | .bootFlctl => [BootFlctl.BUSY, BootFlctl.STATUS, BootFlctl.GO, BootFlctl.PORT, BootFlctl.OP, BootFlctl.LEN, BootFlctl.ADDR]
  | .bootMigReport => [BootMigReport.VALID, BootMigReport.REASON, BootMigReport.VER, BootMigReport.ID]
  | .bootFlbuf => [BootFlbuf.BYTES]
  | .sbbCfg => [SbbCfg.HTIME, SbbCfg.LTIME, SbbCfg.POLL]
  | .sbbErr => [SbbErr.LOCKTO, SbbErr.OVERRUN, SbbErr.TKTDISC, SbbErr.PEC, SbbErr.BUSERR, SbbErr.BUSTO]
  | .sbbCnt => [SbbCnt.DISCARDS, SbbCnt.OVERRUNS, SbbCnt.XFERS]
  | .sbbTalloc => [SbbTalloc.TICKET]
  | .sbbSegCfg => [SbbSegCfg.SPEED]
  | .sbbSegStat => [SbbSegStat.LOCKED, SbbSegStat.OKIND, SbbSegStat.OWNER, SbbSegStat.QDEPTH, SbbSegStat.BUSY]
  | .sbbSegSig => [SbbSegSig.WAKECHG, SbbSegSig.CLKCHG, SbbSegSig.PRSCHG, SbbSegSig.STALE, SbbSegSig.PWRBRK, SbbSegSig.PERST, SbbSegSig.PRSNTB, SbbSegSig.PRSNTA, SbbSegSig.CLKREQ, SbbSegSig.WAKE]
  | .sbbTktXfer => [SbbTktXfer.XFER]
  | .sbbTktRes => [SbbTktRes.STATE, SbbTktRes.STATUS, SbbTktRes.COUNT, SbbTktRes.SEQ]
  | .sbbTktDbuf => [SbbTktDbuf.BYTES]
  | .sbbTktFree => [SbbTktFree.FREE]
  | .recCtl => [RecCtl.ARM, RecCtl.STREAM, RecCtl.FREEZE, RecCtl.START, RecCtl.STOPMISS]
  | .recCfg => [RecCfg.POST, RecCfg.CRES, RecCfg.ANCHOR]
  | .recStat => [RecStat.STATE, RecStat.ANCH, RecStat.BROKEN, RecStat.TDIE, RecStat.TMATCH, RecStat.SEQ]
  | .recCnt => [RecCnt.DROPPED, RecCnt.STALLS]
  | .recErr => [RecErr.RPLMISS, RecErr.ANCHFAIL, RecErr.SINKERR, RecErr.SINKFULL, RecErr.STALL, RecErr.DROP]
  | .recVis => [RecVis.VIS]
  | .recSpsel => [RecSpsel.RECEIVE, RecSpsel.SEND]
  | .recSink => [RecSink.BASE]
  | .recScfg => [RecScfg.EN, RecScfg.PART, RecScfg.FACE, RecScfg.SIZE]
  | .recSptr => [RecSptr.HEAD, RecSptr.TAIL]
  | .recRfeed => [RecRfeed.BASE]
  | .recRfcnt => [RecRfcnt.COUNT]
  | .recRpt => [RecRpt.RSTATE, RecRpt.MISSKIND, RecRpt.MISSES]
  | .recRptat => [RecRptat.SEQ, RecRptat.INDEX]
  | .recSel => [RecSel.IN, RecSel.OUT, RecSel.PAY, RecSel.PAYMAX, RecSel.SAMPLE]
  | .recTrig => [RecTrig.EN, RecTrig.KIND, RecTrig.EVENT, RecTrig.CLASS, RecTrig.LEVEL]
  | .evtPulse => [EvtPulse.VREF]
  | .evtRaw => [EvtRaw.RAW]
  | .evtRoute => [EvtRoute.HEN, EvtRoute.HART, EvtRoute.INPUT, EvtRoute.PEN, EvtRoute.PSEL, EvtRoute.PARTN, EvtRoute.VEC, EvtRoute.BMC, EvtRoute.REC]

/-- Where a register lies. -/
inductive Region where
  | part | hild | die
  deriving DecidableEq, Repr

/-- The place of a register: its region, its offset there (block offset plus register offset), its width in bits and
the stride and count of each index. -/
structure Layout where
  region : Region
  off : Nat
  width : Nat
  idx : List (Nat × Nat)
  deriving DecidableEq, Repr

/-- 19 R646, R648, R649. -/
def RegName.layout : RegName → Layout
  | .partId => ⟨.part, 0x0, 32, []⟩
  | .partMode => ⟨.part, 0x10, 32, []⟩
  | .partAssist => ⟨.part, 0x18, 32, []⟩
  | .partLead => ⟨.part, 0x20, 32, []⟩
  | .partDieState => ⟨.part, 0x28, 32, []⟩
  | .partAlate => ⟨.part, 0x30, 32, []⟩
  | .partMeridian => ⟨.part, 0x40, 64, []⟩
  | .partMerstat => ⟨.part, 0x48, 64, []⟩
  | .partAtime => ⟨.part, 0x100, 32, [(0x4, 10)]⟩
  | .partCapo => ⟨.part, 0x200, 32, []⟩
  | .partEpoch => ⟨.part, 0x208, 32, []⟩
  | .partCapocfg => ⟨.part, 0x210, 32, []⟩
  | .partStageq => ⟨.part, 0x218, 32, []⟩
  | .partAlmlock => ⟨.part, 0x300, 32, []⟩
  | .partAlmpatch0 => ⟨.part, 0x400, 64, [(0x10, 64)]⟩
  | .partAlmpatch1 => ⟨.part, 0x408, 64, [(0x10, 64)]⟩
  | .partFollow => ⟨.part, 0x800, 64, [(0x8, 32)]⟩
  | .partXltinv => ⟨.part, 0xA00, 64, []⟩
  | .partXltinva => ⟨.part, 0xA08, 64, []⟩
  | .partDbgCtl => ⟨.part, 0xC00, 32, []⟩
  | .partDbgNonce => ⟨.part, 0xC08, 64, []⟩
  | .partDbgUid => ⟨.part, 0xC10, 64, []⟩
  | .partDbgTok => ⟨.part, 0xE00, 64, [(0x8, 64)]⟩
  | .partPtown => ⟨.part, 0x1000, 32, [(0x4, 1024)]⟩
  | .partFltclass => ⟨.part, 0x2000, 64, [(0x8, 64)]⟩
  | .partFltcfg => ⟨.part, 0x2200, 32, []⟩
  | .partEvtq => ⟨.part, 0x2208, 32, []⟩
  | .hildHpv => ⟨.hild, 0x10, 32, []⟩
  | .hildSum => ⟨.hild, 0x18, 64, []⟩
  | .hildDom => ⟨.hild, 0x1000, 32, [(0x4, 8)]⟩
  | .hildCtl => ⟨.hild, 0x10000, 32, [(0x100, 32)]⟩
  | .hildCfg => ⟨.hild, 0x10008, 64, [(0x100, 32)]⟩
  | .hildTime => ⟨.hild, 0x10010, 32, [(0x100, 32)]⟩
  | .hildFeed => ⟨.hild, 0x10014, 32, [(0x100, 32)]⟩
  | .hildStat => ⟨.hild, 0x10018, 32, [(0x100, 32)]⟩
  | .hildErr => ⟨.hild, 0x1001C, 32, [(0x100, 32)]⟩
  | .hildTel => ⟨.hild, 0x10020, 64, [(0x100, 32)]⟩
  | .laneMapctl => ⟨.die, 0x0, 32, []⟩
  | .laneDiagsel => ⟨.die, 0x8, 32, []⟩
  | .lanePeggo => ⟨.die, 0x10, 32, []⟩
  | .laneQmap => ⟨.die, 0x100, 32, [(0x4, 16)]⟩
  | .laneStat => ⟨.die, 0x10000, 32, [(0x100, 64)]⟩
  | .laneTxeq => ⟨.die, 0x10008, 32, [(0x100, 64)]⟩
  | .laneRxeq => ⟨.die, 0x10010, 32, [(0x100, 64)]⟩
  | .laneDfe => ⟨.die, 0x10018, 64, [(0x100, 64)]⟩
  | .lanePeg => ⟨.die, 0x10020, 64, [(0x100, 64)]⟩
  | .laneTest => ⟨.die, 0x10028, 32, [(0x100, 64)]⟩
  | .laneErrcnt => ⟨.die, 0x10030, 64, [(0x100, 64)]⟩
  | .laneBitcnt => ⟨.die, 0x10038, 64, [(0x100, 64)]⟩
  | .laneUserpat => ⟨.die, 0x10040, 64, [(0x100, 64)]⟩
  | .laneSweep => ⟨.die, 0x10080, 64, [(0x100, 64), (0x8, 3)]⟩
  | .linkHealth => ⟨.die, 0x400000, 32, []⟩
  | .linkCfg => ⟨.die, 0x410000, 32, [(0x1000, 24)]⟩
  | .linkStat => ⟨.die, 0x410008, 32, [(0x1000, 24)]⟩
  | .linkRtt => ⟨.die, 0x410010, 32, [(0x1000, 24)]⟩
  | .linkVlhead => ⟨.die, 0x410018, 32, [(0x1000, 24)]⟩
  | .linkCnt => ⟨.die, 0x410020, 64, [(0x1000, 24)]⟩
  | .linkErr => ⟨.die, 0x410028, 32, [(0x1000, 24)]⟩
  | .linkRtv => ⟨.die, 0x410030, 32, [(0x1000, 16)]⟩
  | .linkLanes => ⟨.die, 0x410038, 32, [(0x1000, 16)]⟩
  | .linkSpstat => ⟨.die, 0x420038, 32, [(0x1000, 8)]⟩
  | .fretLoad => ⟨.die, 0xC00000, 32, []⟩
  | .fretTrapcfg => ⟨.die, 0xC00008, 32, []⟩
  | .fretTrapv => ⟨.die, 0xC00010, 64, []⟩
  | .fretDiecnt => ⟨.die, 0xC00018, 64, []⟩
  | .fretStage => ⟨.die, 0xC00100, 32, [(0x4, 24)]⟩
  | .fretPcfg => ⟨.die, 0xC10000, 32, [(0x1000, 16)]⟩
  | .fretPsel => ⟨.die, 0xC10008, 32, [(0x1000, 16)]⟩
  | .fretPstat => ⟨.die, 0xC10010, 32, [(0x1000, 16)]⟩
  | .fretErr => ⟨.die, 0xC10018, 32, [(0x1000, 16)]⟩
  | .fretVcnt => ⟨.die, 0xC10040, 64, [(0x1000, 16), (0x8, 5)]⟩
  | .fretHwref => ⟨.die, 0xC10068, 64, [(0x1000, 16)]⟩
  | .fretTraprec0 => ⟨.die, 0xC10800, 64, [(0x1000, 16), (0x80, 16)]⟩
  | .fretTraprec1 => ⟨.die, 0xC10808, 64, [(0x1000, 16), (0x80, 16)]⟩
  | .fretTraprec2 => ⟨.die, 0xC10810, 64, [(0x1000, 16), (0x80, 16)]⟩
  | .fretTrapHdr => ⟨.die, 0xC10840, 64, [(0x1000, 16), (0x80, 16), (0x8, 8)]⟩
  | .tabStat => ⟨.die, 0x1000000, 64, []⟩
  | .tabErr => ⟨.die, 0x1000008, 32, []⟩
  | .tabCnt => ⟨.die, 0x1000010, 64, []⟩
  | .tabDrain => ⟨.die, 0x1000018, 32, []⟩
  | .bufStat => ⟨.die, 0x1400000, 64, []⟩
  | .bufZcfg => ⟨.die, 0x1400008, 32, []⟩
  | .bufZcnt => ⟨.die, 0x1400010, 64, []⟩
  | .bufShared => ⟨.die, 0x1400018, 64, []⟩
  | .bufTcap => ⟨.die, 0x1400028, 32, []⟩
  | .bufMircfg => ⟨.die, 0x1400040, 64, [(0x8, 4)]⟩
  | .bufMirshed => ⟨.die, 0x1400060, 32, []⟩
  | .bufMircnt => ⟨.die, 0x1400080, 64, [(0x8, 4)]⟩
  | .bufAudit => ⟨.die, 0x1400100, 64, []⟩
  | .bufLeakv => ⟨.die, 0x1400108, 32, []⟩
  | .bufRetlim => ⟨.die, 0x1400110, 32, []⟩
  | .bufErr => ⟨.die, 0x1400118, 32, []⟩
  | .bufLeakrec => ⟨.die, 0x1400400, 64, [(0x8, 64)]⟩
  | .bufPres => ⟨.die, 0x1401000, 64, [(0x8, 16)]⟩
  | .bufPart => ⟨.die, 0x1401100, 64, [(0x8, 32)]⟩
  | .bufCelld => ⟨.die, 0x1500000, 64, [(0x8, 196608)]⟩
  | .schPxcfg => ⟨.die, 0x1800000, 32, []⟩
  | .schPxv => ⟨.die, 0x1800008, 32, []⟩
  | .schHstat => ⟨.die, 0x1800010, 64, []⟩
  | .schErr => ⟨.die, 0x1800018, 32, []⟩
  | .schPxrec => ⟨.die, 0x1800100, 64, [(0x8, 64)]⟩
  | .schFlowTc => ⟨.die, 0x1900000, 64, [(0x20, 32768)]⟩
  | .schFlowTp => ⟨.die, 0x1900008, 64, [(0x20, 32768)]⟩
  | .schFlowHold => ⟨.die, 0x1900010, 64, [(0x20, 32768)]⟩
  | .schFlowCnt => ⟨.die, 0x1900018, 64, [(0x20, 32768)]⟩
  | .schQcfg => ⟨.die, 0x1810000, 32, [(0x1000, 16), (0x4, 16)]⟩
  | .schQshape => ⟨.die, 0x1810080, 64, [(0x1000, 16), (0x8, 16)]⟩
  | .schQstat => ⟨.die, 0x1810100, 64, [(0x1000, 16), (0x8, 16)]⟩
  | .schHcfg => ⟨.die, 0x1810180, 32, [(0x1000, 16)]⟩
  | .schHctl => ⟨.die, 0x1810188, 32, [(0x1000, 16)]⟩
  | .schHist => ⟨.die, 0x1810800, 32, [(0x1000, 16), (0x80, 16), (0x4, 32)]⟩
  | .parFcfg => ⟨.die, 0x1C00000, 32, []⟩
  | .parErr => ⟨.die, 0x1C00008, 32, []⟩
  | .parCnt => ⟨.die, 0x1C00010, 64, []⟩
  | .parProxy => ⟨.die, 0x1C00018, 32, []⟩
  | .parFace => ⟨.die, 0x1C01000, 64, [(0x40, 32)]⟩
  | .parWake => ⟨.die, 0x1C01010, 32, [(0x40, 32)]⟩
  | .xltCfg => ⟨.die, 0x2000000, 32, []⟩
  | .xltStat => ⟨.die, 0x2000008, 64, []⟩
  | .xltCnt => ⟨.die, 0x2000010, 64, []⟩
  | .xltErr => ⟨.die, 0x2000018, 32, []⟩
  | .xltPrv => ⟨.die, 0x2000020, 32, []⟩
  | .xltPrec0 => ⟨.die, 0x2000100, 64, [(0x10, 64)]⟩
  | .xltPrec1 => ⟨.die, 0x2000108, 64, [(0x10, 64)]⟩
  | .dmaCfg => ⟨.die, 0x2400000, 32, []⟩
  | .dmaStat => ⟨.die, 0x2400008, 64, []⟩
  | .dmaErr => ⟨.die, 0x2400010, 32, []⟩
  | .dmaCnt => ⟨.die, 0x2400018, 64, []⟩
  | .dmaFv => ⟨.die, 0x2400020, 32, []⟩
  | .dmaChCtl => ⟨.die, 0x2410000, 32, [(0x100, 32)]⟩
  | .dmaChRbase => ⟨.die, 0x2410008, 64, [(0x100, 32)]⟩
  | .dmaChRing => ⟨.die, 0x2410010, 64, [(0x100, 32)]⟩
  | .dmaChStat => ⟨.die, 0x2410018, 64, [(0x100, 32)]⟩
  | .dmaChCfg => ⟨.die, 0x2410020, 32, [(0x100, 32)]⟩
  | .dmaChCnt => ⟨.die, 0x2410028, 64, [(0x100, 32)]⟩
  | .coreClk => ⟨.die, 0x2800000, 32, []⟩
  | .coreTto => ⟨.die, 0x2800008, 32, []⟩
  | .coreRst => ⟨.die, 0x2800010, 32, []⟩
  | .coreCnt => ⟨.die, 0x2800018, 64, []⟩
  | .coreDead => ⟨.die, 0x2800020, 32, [(0x4, 8)]⟩
  | .coreSleep => ⟨.die, 0x2800040, 32, [(0x4, 2)]⟩
  | .coreBerrrec => ⟨.die, 0x2800060, 64, [(0x8, 2)]⟩
  | .gateCtl => ⟨.die, 0x2C00000, 32, [(0x4, 28)]⟩
  | .gateErr => ⟨.die, 0x2C00100, 32, []⟩
  | .gateFrec0 => ⟨.die, 0x2C00108, 64, []⟩
  | .gateFrec1 => ⟨.die, 0x2C00110, 64, []⟩
  | .gateMidgrp => ⟨.die, 0x2C00800, 64, [(0x8, 16)]⟩
  | .gateMaplock => ⟨.die, 0x2C00880, 32, []⟩
  | .gateReg0 => ⟨.die, 0x2C10000, 64, [(0x400, 28), (0x10, 64)]⟩
  | .gateReg1 => ⟨.die, 0x2C10008, 64, [(0x400, 28), (0x10, 64)]⟩
  | .fltStat => ⟨.die, 0x3000000, 32, []⟩
  | .fltKick => ⟨.die, 0x3000008, 32, []⟩
  | .fltErr => ⟨.die, 0x3000010, 32, []⟩
  | .fltCnt => ⟨.die, 0x3000018, 64, []⟩
  | .fltFv => ⟨.die, 0x3000020, 32, []⟩
  | .fltRcnt => ⟨.die, 0x3000100, 32, [(0x4, 64)]⟩
  | .fltTlerr => ⟨.die, 0x3000800, 32, [(0x10, 16)]⟩
  | .fltPcnt => ⟨.die, 0x3000808, 64, [(0x10, 16)]⟩
  | .fltCase0 => ⟨.die, 0x3001000, 64, [(0x10, 256)]⟩
  | .fltCase1 => ⟨.die, 0x3001008, 64, [(0x10, 256)]⟩
  | .pwrPad => ⟨.die, 0x3400008, 32, []⟩
  | .pwrAvs => ⟨.die, 0x3400010, 64, []⟩
  | .pwrAvscfg => ⟨.die, 0x3400018, 32, []⟩
  | .pwrErr => ⟨.die, 0x3400020, 32, []⟩
  | .pwrTemp => ⟨.die, 0x3400028, 32, []⟩
  | .pwrDom => ⟨.die, 0x3401000, 32, [(0x4, 72)]⟩
  | .bootStat => ⟨.die, 0x3800000, 32, []⟩
  | .bootVer => ⟨.die, 0x3800008, 64, []⟩
  | .bootCtl => ⟨.die, 0x3800010, 32, []⟩
  | .bootCfg => ⟨.die, 0x3800018, 32, []⟩
  | .bootCause => ⟨.die, 0x3800020, 64, []⟩
  | .bootAct => ⟨.die, 0x3800028, 64, []⟩
  | .bootActcmd => ⟨.die, 0x3800030, 32, []⟩
  | .bootActv => ⟨.die, 0x3800038, 32, []⟩
  | .bootMigv => ⟨.die, 0x3800040, 32, []⟩
  | .bootMigStat => ⟨.die, 0x3800048, 32, []⟩
  | .bootSvn => ⟨.die, 0x3800050, 32, []⟩
  | .bootFlctl => ⟨.die, 0x3800080, 64, []⟩
  | .bootMigReport => ⟨.die, 0x3800100, 64, [(0x8, 64)]⟩
  | .bootFlbuf => ⟨.die, 0x3800400, 64, [(0x8, 32)]⟩
  | .sbbCfg => ⟨.die, 0x3C00000, 32, []⟩
  | .sbbErr => ⟨.die, 0x3C00008, 32, []⟩
  | .sbbCnt => ⟨.die, 0x3C00010, 64, []⟩
  | .sbbTalloc => ⟨.die, 0x3C00018, 32, []⟩
  | .sbbSegCfg => ⟨.die, 0x3C01000, 32, [(0x40, 16)]⟩
  | .sbbSegStat => ⟨.die, 0x3C01008, 64, [(0x40, 16)]⟩
  | .sbbSegSig => ⟨.die, 0x3C01010, 64, [(0x40, 16)]⟩
  | .sbbTktXfer => ⟨.die, 0x3C02000, 64, [(0x40, 32)]⟩
  | .sbbTktRes => ⟨.die, 0x3C02008, 64, [(0x40, 32)]⟩
  | .sbbTktDbuf => ⟨.die, 0x3C02010, 64, [(0x40, 32), (0x8, 4)]⟩
  | .sbbTktFree => ⟨.die, 0x3C02030, 32, [(0x40, 32)]⟩
  | .recCtl => ⟨.die, 0x4000000, 32, []⟩
  | .recCfg => ⟨.die, 0x4000008, 32, []⟩
  | .recStat => ⟨.die, 0x4000010, 64, []⟩
  | .recCnt => ⟨.die, 0x4000018, 64, []⟩
  | .recErr => ⟨.die, 0x4000020, 32, []⟩
  | .recVis => ⟨.die, 0x4000028, 32, []⟩
  | .recSpsel => ⟨.die, 0x4000030, 32, []⟩
  | .recSink => ⟨.die, 0x4000040, 64, []⟩
  | .recScfg => ⟨.die, 0x4000048, 32, []⟩
  | .recSptr => ⟨.die, 0x4000050, 64, []⟩
  | .recRfeed => ⟨.die, 0x4000060, 64, []⟩
  | .recRfcnt => ⟨.die, 0x4000068, 32, []⟩
  | .recRpt => ⟨.die, 0x4000070, 64, []⟩
  | .recRptat => ⟨.die, 0x4000078, 64, []⟩
  | .recSel => ⟨.die, 0x4000100, 32, [(0x4, 16)]⟩
  | .recTrig => ⟨.die, 0x4000200, 64, [(0x8, 8)]⟩
  | .evtPulse => ⟨.die, 0x4400000, 32, []⟩
  | .evtRaw => ⟨.die, 0x4400100, 64, [(0x8, 16)]⟩
  | .evtRoute => ⟨.die, 0x4410000, 64, [(0x8, 1024)]⟩

def regNames0 : List RegName :=
  [.partId, .partMode, .partAssist, .partLead, .partDieState, .partAlate, .partMeridian, .partMerstat, .partAtime, .partCapo, .partEpoch, .partCapocfg, .partStageq, .partAlmlock, .partAlmpatch0, .partAlmpatch1]
def regNames1 : List RegName :=
  [.partFollow, .partXltinv, .partXltinva, .partDbgCtl, .partDbgNonce, .partDbgUid, .partDbgTok, .partPtown, .partFltclass, .partFltcfg, .partEvtq, .hildHpv, .hildSum, .hildDom, .hildCtl, .hildCfg]
def regNames2 : List RegName :=
  [.hildTime, .hildFeed, .hildStat, .hildErr, .hildTel, .laneMapctl, .laneDiagsel, .lanePeggo, .laneQmap, .laneStat, .laneTxeq, .laneRxeq, .laneDfe, .lanePeg, .laneTest, .laneErrcnt]
def regNames3 : List RegName :=
  [.laneBitcnt, .laneUserpat, .laneSweep, .linkHealth, .linkCfg, .linkStat, .linkRtt, .linkVlhead, .linkCnt, .linkErr, .linkRtv, .linkLanes, .linkSpstat, .fretLoad, .fretTrapcfg, .fretTrapv]
def regNames4 : List RegName :=
  [.fretDiecnt, .fretStage, .fretPcfg, .fretPsel, .fretPstat, .fretErr, .fretVcnt, .fretHwref, .fretTraprec0, .fretTraprec1, .fretTraprec2, .fretTrapHdr, .tabStat, .tabErr, .tabCnt, .tabDrain]
def regNames5 : List RegName :=
  [.bufStat, .bufZcfg, .bufZcnt, .bufShared, .bufTcap, .bufMircfg, .bufMirshed, .bufMircnt, .bufAudit, .bufLeakv, .bufRetlim, .bufErr, .bufLeakrec, .bufPres, .bufPart, .bufCelld]
def regNames6 : List RegName :=
  [.schPxcfg, .schPxv, .schHstat, .schErr, .schPxrec, .schFlowTc, .schFlowTp, .schFlowHold, .schFlowCnt, .schQcfg, .schQshape, .schQstat, .schHcfg, .schHctl, .schHist, .parFcfg]
def regNames7 : List RegName :=
  [.parErr, .parCnt, .parProxy, .parFace, .parWake, .xltCfg, .xltStat, .xltCnt, .xltErr, .xltPrv, .xltPrec0, .xltPrec1, .dmaCfg, .dmaStat, .dmaErr, .dmaCnt]
def regNames8 : List RegName :=
  [.dmaFv, .dmaChCtl, .dmaChRbase, .dmaChRing, .dmaChStat, .dmaChCfg, .dmaChCnt, .coreClk, .coreTto, .coreRst, .coreCnt, .coreDead, .coreSleep, .coreBerrrec, .gateCtl, .gateErr]
def regNames9 : List RegName :=
  [.gateFrec0, .gateFrec1, .gateMidgrp, .gateMaplock, .gateReg0, .gateReg1, .fltStat, .fltKick, .fltErr, .fltCnt, .fltFv, .fltRcnt, .fltTlerr, .fltPcnt, .fltCase0, .fltCase1]
def regNames10 : List RegName :=
  [.pwrPad, .pwrAvs, .pwrAvscfg, .pwrErr, .pwrTemp, .pwrDom, .bootStat, .bootVer, .bootCtl, .bootCfg, .bootCause, .bootAct, .bootActcmd, .bootActv, .bootMigv, .bootMigStat]
def regNames11 : List RegName :=
  [.bootSvn, .bootFlctl, .bootMigReport, .bootFlbuf, .sbbCfg, .sbbErr, .sbbCnt, .sbbTalloc, .sbbSegCfg, .sbbSegStat, .sbbSegSig, .sbbTktXfer, .sbbTktRes, .sbbTktDbuf, .sbbTktFree, .recCtl]
def regNames12 : List RegName :=
  [.recCfg, .recStat, .recCnt, .recErr, .recVis, .recSpsel, .recSink, .recScfg, .recSptr, .recRfeed, .recRfcnt, .recRpt, .recRptat, .recSel, .recTrig, .evtPulse]
def regNames13 : List RegName :=
  [.evtRaw, .evtRoute]

/-- Every register name. -/
def RegName.all : List RegName :=
  regNames0 ++ regNames1 ++ regNames2 ++ regNames3 ++ regNames4 ++ regNames5 ++ regNames6 ++ regNames7 ++ regNames8 ++ regNames9 ++ regNames10 ++ regNames11 ++ regNames12 ++ regNames13

end Sys2Proof.Machine
end

