-- ==== Sys2Proof/Machine/Types.lean ====
section
/-! DEFINITION. The data that commands carry and that State holds: transaction-layer packets (04 R126, R127), forwarding
metadata (04 R133), packets inside the part (04 R147), flits (03), executors of an instruction (04 R123, 10 R370). -/

namespace Sys2Proof.Machine

/-- A transaction-layer packet as a port receives or sends it, with the header fields of 04 R126. `raw` is the raw header
of 04 R127 (12 to 64 bytes, Flit Mode form). `whole` is false while only the flits up to the header have arrived
(04 R151, R152). -/
structure Tlp where
  /-- KIND | 4 | 04 R126 | 0 -/
  kind : Nat := 0
  /-- TC | 3 | 04 R126 | 0 -/
  tc : Nat := 0
  /-- ATTR | 3 | 04 R126 | 0 -/
  attr : Nat := 0
  /-- ADDR; of a configuration request the register offset | 64 | 04 R126 | 0 -/
  addr : Nat := 0
  /-- AT | 2 | 04 R126 | 0 -/
  atype : Nat := 0
  /-- RID | 16 | 04 R126 | 0 -/
  rid : Nat := 0
  /-- TAG | 14 | 04 R126 | 0 -/
  tag : Nat := 0
  /-- PASID | 20 | 04 R126 | 0 -/
  pasid : Nat := 0
  /-- PASID valid | 1 | 04 R126 | 0 -/
  pv : Nat := 0
  /-- PMR | 1 | 04 R126 | 0 -/
  pmr : Nat := 0
  /-- EXE | 1 | 04 R126 | 0 -/
  exe : Nat := 0
  /-- TID, target of a configuration request or of an ID-routed message | 16 | 04 R126 | 0 -/
  tid : Nat := 0
  /-- CID, completer | 16 | 04 R126 | 0 -/
  cid : Nat := 0
  /-- CST, completion status | 3 | 04 R126 | 0 -/
  cst : Nat := 0
  /-- BCNT, byte count | 13 | 04 R126 | 0 -/
  bcnt : Nat := 0
  /-- MCODE, message code | 8 | 04 R126 | 0 -/
  mcode : Nat := 0
  /-- MROUTE, message routing | 3 | 04 R126 | 0 -/
  mroute : Nat := 0
  /-- EP, poisoned | 1 | 04 R126 | 0 -/
  ep : Nat := 0
  /-- TH | 1 | 04 R126 | 0 -/
  th : Nat := 0
  /-- ST, steering tag | 16 | 04 R126 | 0 -/
  st : Nat := 0
  /-- byte enables, first and last | 8 | 04 R126 | 0 -/
  be : Nat := 0
  /-- FLIT, received in Flit Mode | 1 | 04 R126 | 0 -/
  flit : Nat := 0
  /-- OHC words present | 5 | 04 R126 | 0 -/
  ohc : Nat := 0
  /-- raw header in Flit Mode form | 12 to 64 bytes | 04 R127 | empty -/
  raw : List Byte := []
  /-- data | list of bytes | 04 R126 | empty -/
  payload : List Byte := []
  /-- length that a read requests, in bytes | number | 04 R126 | 0 -/
  reqLen : Nat := 0
  /-- an ECRC digest follows | 1 | 04 R117 | 0 -/
  ecrc : Bool := false
  /-- the ECRC digest as received | 4 bytes | 04 R117, 06 R204 | empty -/
  digest : List Byte := []
  /-- the ECRC digest is wrong | 1 | 04 R117 | 0 -/
  ecrcBad : Bool := false
  /-- the packet, or a flit of it, fails the link's check | 1 | 03 R107, R108 | 0 -/
  crcBad : Bool := false
  /-- prefixes that no OHC carries, which are forwarded unchanged | list of bytes | 04 R127 | empty -/
  prefixes : List Byte := []
  /-- the packet is malformed | 1 | 04 R117 | 0 -/
  malformed : Bool := false
  /-- every flit of the packet has arrived | 1 | 04 R151, R152 | 1 -/
  whole : Bool := true
  /-- colour that the packet carries on arrival | 2 | 07 R250 | 0 -/
  precolour : Nat := 0
  deriving DecidableEq, Repr

/-- CLASS of 04 R126: 0 posted, 1 non-posted, 2 completion. -/
def Tlp.cls (t : Tlp) : Nat :=
  if t.kind = 0 ∨ t.kind = 10 ∨ t.kind = 11 then 0
  else if t.kind = 12 ∨ t.kind = 13 ∨ t.kind = 15 then 2
  else 1

/-- LEN of 04 R126: the data payload bytes that the packet carries. -/
def Tlp.len (t : Tlp) : Nat := t.payload.length

/-- WIRE of 04 R126 and R117: header, OHC, payload and ECRC digest. -/
def Tlp.wire (t : Tlp) : Nat := t.raw.length + t.payload.length + (if t.ecrc then 4 else 0)

/-- Whether the packet is a configuration request. -/
def Tlp.isCfg (t : Tlp) : Bool := t.kind == 6 || t.kind == 7 || t.kind == 8 || t.kind == 9

/-- Whether the packet is a memory request. -/
def Tlp.isMem (t : Tlp) : Bool := t.kind == 0 || t.kind == 1 || t.kind == 2 || t.kind == 3 || t.kind == 14

/-- The forwarding metadata of 04 R133 with its defaults. -/
structure Meta where
  /-- EGRESS | 16 | 04 R133 | 0xFFFF -/
  egress : Nat := 0xFFFF
  /-- QUEUE, none while the program has not set it | 4, optional | 04 R133 | none -/
  queue : Option Nat := none
  /-- FLOW | 19 | 04 R133 | 0 -/
  flow : Nat := 0
  /-- MIRROR | 2 | 04 R133 | 0 -/
  mirror : Nat := 0
  /-- NOCT | 1 | 04 R133 | 0 -/
  noct : Nat := 0
  /-- XCTX | 16 | 04 R133 | 0 -/
  xctx : Nat := 0
  deriving DecidableEq, Repr

/-- Where a packet inside the part comes from. -/
inductive Source where
  /-- received at its ingress port -/
  | port
  /-- a DMA channel's read or write: die, channel, chunk number -/
  | dma (die chan chunk : Nat)
  /-- originated by the part: a synthesised completion, a message, a management endpoint's traffic (06 R204) -/
  | part
  deriving DecidableEq, Repr

/-- A packet inside the part, with the fields of its forwarding tag (04 R147). Ports are global numbers, die × 16 + pp.
`cells` are its cells on the ingress die, `tcells` those on an egress or transit die, or of a packet of the part's own. `demq`
and `hold` carry what policing decided to tagging (07 R251, R253), `parked` marks one that a trap parked, and `copy` numbers the copies for a port set's members, which `dests` lists. `fctx` is
the copy of flow context words that a packet in the translation fault queue carries (05 R191). -/
structure Pkt where
  /-- the packet as it was received or made | record | 04 R126 | empty -/
  tlp : Tlp := {}
  /-- where it comes from | enum | 04 R147 | a port -/
  src : Source := .port
  /-- ingress port, global number | 7 | 04 R147 | 0 -/
  iport : Nat := 0
  /-- epoch that it consults | 16 | 04 R147, 05 R188 | 0 -/
  epoch : Nat := 0
  /-- forwarding metadata | record | 04 R133 | defaults -/
  mdata : Meta := {}
  /-- verdict code | 3 | 04 R135 | 0 -/
  verdict : Nat := 0
  /-- immediate of the verdict | 16 | 04 R135 | 0 -/
  reason : Nat := 0
  /-- its cells on the ingress die | list | 06 R206 | none -/
  cells : List Nat := []
  /-- its cells on an egress or transit die, or of a packet of the part's own | list | 06 R206 | none -/
  tcells : List Nat := []
  /-- number of the forwarding tag in its stream and class | 16 | 04 R145, R147 | 0 -/
  seq : Nat := 0
  /-- posted packets that must leave before it | 16 | 04 R145, R147 | 0 -/
  pfence : Nat := 0
  /-- resolved egress | 16 | 04 R147 | 0xFFFF -/
  egress : Nat := 0xFFFF
  /-- egress queue | 4 | 04 R147 | 0 -/
  queue : Nat := 0
  /-- colour after policing | 2 | 07 R251 | 3 -/
  colour : Nat := 3
  /-- policing demoted it | 1 | 07 R251 | 0 -/
  demoted : Bool := false
  /-- queue to which policing demotes it | 4, optional | 07 R251 | none -/
  demq : Option Nat := none
  /-- policing holds it | 1 | 07 R253 | 0 -/
  hold : Bool := false
  /-- a trap parked it | 1 | 04 R138 | 0 -/
  parked : Bool := false
  /-- number of the copy for a port set's member | number | 04 R147 | 0 -/
  copy : Nat := 0
  /-- the other members of its port set | list | 04 R147 | none -/
  dests : List Nat := []
  /-- number that the packets of one port set share, 0 for none | number | 06 R220 | 0 -/
  group : Nat := 0
  /-- flow context words that it carries in the translation fault queue | list | 05 R191 | none -/
  fctx : List Word := []
  /-- it cuts through | 1 | 04 R151 | 0 -/
  cutThrough : Bool := false
  /-- transit die of a two-hop path | 3, optional | 04 R150 | none -/
  via : Option Nat := none
  /-- time of arrival in the model's clock | number | 07 R267 | 0 -/
  time : Nat := 0
  deriving DecidableEq, Repr

/-- Who executes an instruction of the base subset: the course of a port's fret engine or a hart of a die's control
cores (04 R123, 10 R370). -/
inductive Exec where
  | course (die pp : Nat)
  | hart (die h : Nat)
  deriving DecidableEq, Repr

/-- A flit of a Nerov or span link (03 R80): header, the bytes of packet data in its payload, trailer, CRC and FEC bytes. -/
structure Flit where
  /-- SEQ | 16 | 03 R80 | 0 -/
  seq : Nat := 0
  /-- TYPE | 4 | 03 R80 | 1 -/
  typ : Nat := 1
  /-- virtual lane | 3 | 03 R80 | 0 -/
  vl : Nat := 0
  /-- class | 2 | 03 R80 | 0 -/
  cls : Nat := 0
  /-- payload | list of bytes | 03 R80 | empty -/
  payload : List Byte := []
  /-- ACK | 16 | 03 R80 | 0xFFFF -/
  ack : Nat := 0xFFFF
  /-- ACKMAP | 64 | 03 R80 | 0 -/
  ackmap : Nat := 0
  /-- XOFF bits | 24 | 03 R80, R90 | 0 -/
  xoff : Nat := 0
  /-- acknowledgement valid | 1 | 03 R80 | 0 -/
  ackv : Bool := false
  /-- flow control valid | 1 | 03 R80 | 0 -/
  fcv : Bool := false
  /-- CRC that the flit carries | 64 | 03 R80, R81 | 0 -/
  crc : Nat := 0
  /-- bytes 250 to 255 | 48 | 03 R80 | 0 -/
  fec : Nat := 0
  deriving DecidableEq, Repr

end Sys2Proof.Machine
end

