-- ==== Sys2Proof/Machine/Data.lean ====
section
/-! DEFINITION. The parts that State is made of: what each island keeps beside the registers. Every field's docstring gives
what it is, its width, the rule of the spec and its value after reset. -/

namespace Sys2Proof.Machine

/-- The family members of 00 R1. -/
inductive Member where
  | kf2128 | kf4256 | kf8512
  deriving DecidableEq, Repr

/-- Fuses: kept across every reset. -/
structure Fuses where
  /-- family member | enum | 00 R1, R4 | fuse: DESIGN CHOICE KF-8512 (log entry 2) -/
  member : Member := .kf8512
  /-- temperature grade E | 1 | 00 R4 | fuse: DESIGN CHOICE 0, grade C (log entry 2) -/
  gradeE : Bool := false
  /-- boot ROM version | 16 | 13 R520 | fuse: DESIGN CHOICE 0 (log entry 2) -/
  romVer : Nat := 0
  /-- security version floor | 8 | 13 R496, R527 | fuse: DESIGN CHOICE 0 (log entry 2) -/
  svnFloor : Nat := 0
  /-- burn of the floor that the next part reset takes | 8, optional | 13 R527 | none -/
  svnPend : Option Nat := none
  /-- base voltage of a die in mV | 10 per die | 14 R552 | fuse: DESIGN CHOICE 735 (log entry 2) -/
  vbase : FMap Nat Nat := []
  /-- part identity | 64 | 11 R433, R443 | fuse: DESIGN CHOICE 0 (log entry 2) -/
  uid : Nat := 0
  /-- revoked key slots of the key vault | list | 13 R495, R496 | fuse: DESIGN CHOICE none (log entry 2) -/
  revoked : List Nat := []
  deriving DecidableEq, Repr

/-- Time and clocks of each die (01 R39 to R43, 20 R667). -/
structure ClockSt where
  /-- meridian offset of a die to the lead die, in meridian units | signed, per die | 01 R24, R39 | 0 -/
  offset : FMap Nat Int := []
  /-- dies slewing toward the lead die's count | list | 01 R41 | none -/
  slewing : List Nat := []
  /-- dies whose stamps carry the time-fault flag | list | 01 R41 | none -/
  timeFault : List Nat := []
  /-- clock in use of a die: 0 A, 1 B, 2 holdover | 2 per die | 01 R42, R43 | 0 -/
  clock : FMap Nat Nat := []
  /-- reference clocks that the monitor of a die found lost | list of die and clock | 20 R667 | none -/
  lost : List (Nat × Nat) := []
  deriving DecidableEq, Repr

/-- Lane margining at the receiver of one lane (02 R75). -/
structure Margin where
  /-- error count limit, as the host sets it | 6 | 02 R75 | 0 -/
  limit : Nat := 0
  /-- what runs: 0 nothing, 1 a step, 2 a step that went over the limit, 3 a request refused | 2 | 02 R75 | 0 -/
  status : Nat := 0
  /-- direction of the step: 0 left, 1 right, 2 up, 3 down | 2 | 02 R75 | 0 -/
  dir : Nat := 0
  /-- offset in steps | 7 | 02 R75 | 0 -/
  step : Nat := 0
  /-- samples taken | number | 02 R75 | 0 -/
  samples : Nat := 0
  /-- errors found | number | 02 R75 | 0 -/
  errors : Nat := 0
  deriving DecidableEq, Repr

/-- The lanes (02). -/
structure LaneSt where
  /-- live lane map: the LANE.QMAP word in force of a quad | 32 per die and quad | 02 R54, R56 | 0, unused -/
  live : FMap (Nat × Nat) Nat := []
  /-- transmitter coefficients in use: C-2, C-1, C0, C+1 | 4 numbers per die and lane | 02 R58 | none used yet: 0 0 63 0 -/
  tx : FMap (Nat × Nat) (List Nat) := []
  /-- set that the peg requests of the partner: a preset, or C-2, C-1, C0, C+1 | 1 or 4 numbers per die and lane | 02 R62 to R64 | none yet -/
  request : FMap (Nat × Nat) (List Nat) := []
  /-- margining of a lane | record per die and lane | 02 R75 | none runs -/
  margin : FMap (Nat × Nat) Margin := []
  /-- ports selected for DIAGNOSTIC when the request was accepted | 16 per die | 02 R71 | 0 -/
  selected : FMap Nat Nat := []
  /-- last peg tag given on a die | 8 per die | 02 R66 | 0, the first tag is 1 -/
  pegTag : FMap Nat Nat := []
  /-- assist mode of the waiting peg instance of a port | 2 per port | 01 R36, 02 R63 | 0, none waits -/
  pegMode : FMap Nat Nat := []
  /-- peg instances that expired without a verdict, until their tags are given again: port, tag | list | 01 R34, R35 | none -/
  pegExpired : List (Nat × Nat) := []
  /-- consecutive fast exits of a lane that ended without lock | per die and lane | 02 R70 | 0 -/
  fastFail : FMap (Nat × Nat) Nat := []
  /-- quads whose domain an apply found mapped at least once | list of die and quad | 02 R56 | none -/
  wasMapped : List (Nat × Nat) := []
  deriving DecidableEq, Repr

/-- A sequenced flit that a transmitter holds until it is acknowledged (03 R83, R86, R94). -/
structure HeldFlit where
  /-- the flit | record | 03 R83 | none held -/
  flit : Flit
  /-- times it was sent again | number | 03 R94 | 0 -/
  replays : Nat := 0
  /-- time of its last transmission | number | 03 R86 | 0 -/
  sentAt : Nat := 0
  /-- packet that ends with it | record, optional | 03 R83 | none -/
  pkt : Option Pkt := none
  deriving DecidableEq, Repr

/-- A packet that a PCIe port holds in its replay buffer (03 R78, R79). -/
structure HeldTlp where
  /-- sequence number | 12 | 03 R78 | none held -/
  seq : Nat
  /-- the packet | record | 03 R78 | none held -/
  pkt : Pkt
  /-- times it was sent again | number | 03 R79 | 0 -/
  replays : Nat := 0
  /-- a retrain has followed the last replays | 1 | 03 R79 | 0 -/
  recovered : Bool := false
  deriving DecidableEq, Repr

/-- One link engine. -/
structure LinkSt where
  /-- next SEQ to send | 16 | 03 R83 | 0 -/
  txNext : Nat := 0
  /-- unacknowledged flits, oldest first | list, at most 512 | 03 R83 | empty -/
  held : List HeldFlit := []
  /-- flits waiting to be sent for the first time | list | 03 R86, R90 | empty -/
  newQ : List HeldFlit := []
  /-- ACK: last flit received in order | 16 | 03 R84 | 0xFFFF -/
  rxAck : Nat := 0xFFFF
  /-- reorder buffer | list, at most 512 | 03 R85 | empty -/
  reorder : List Flit := []
  /-- flits that left the reorder buffer for the switch core | list | 03 R85 | empty -/
  toCore : List Flit := []
  /-- XOFF bits of the latest valid trailer received | 24 | 03 R90 | 0 -/
  xoffIn : Nat := 0
  /-- XOFF bits that this receiver sends | 24 | 03 R90 | 0 -/
  xoffOut : Nat := 0
  /-- PCIe replay buffer | list | 03 R78, R79 | empty -/
  replay : List HeldTlp := []
  /-- next PCIe sequence number to send | 12 | 03 R77 | 0 -/
  pcieNext : Nat := 0
  /-- next PCIe sequence number expected | 12 | 03 R79 | 0 -/
  pcieRx : Nat := 0
  /-- header credits of the partner per class, none while it has not advertised any limit | 3 numbers | 03 R79, 07 R264 | infinite -/
  crH : FMap Nat Nat := []
  /-- data credits of the partner per class, in units of 16 bytes | 3 numbers | 03 R79, 07 R264 | infinite -/
  crD : FMap Nat Nat := []
  /-- header credits that the partner of a PCIe port may still use, per class | 12 each | 06 R216 | 0 -/
  advH : FMap Nat Nat := []
  /-- data credits that the partner may still use, per class, in units of 16 bytes | 16 each | 06 R216 | 0 -/
  advD : FMap Nat Nat := []
  /-- credits of admitted packets not yet returned: class, data credits, cells still in the ingress reservation | list | 06 R216 | none -/
  owed : List (Nat × Nat × List Nat) := []
  /-- header credits that are withheld while the port throttles, per class | 12 each | 04 R118, 06 R216 | 0 -/
  owedH : FMap Nat Nat := []
  /-- assist mode of the waiting retrain instance | 2 | 01 R36, 03 R96 | 0 -/
  rtvMode : Nat := 0
  /-- tags of retrain instances that expired without a verdict, until they are given again | list | 01 R34, R35; 03 R96 | none -/
  rtvExpired : List Nat := []
  /-- a KEEP or STEPDOWN verdict restarts the replay counts when the retrain ends | 1 | 03 R96 | 0 -/
  restartCounts : Bool := false
  /-- rate that a STEPDOWN verdict asks for | 4 | 03 R96 | none -/
  stepRate : Option Nat := none
  /-- has reached UP since part reset or since its lanes were mapped | 1 | 03 R98, R107 | 0 -/
  ever : Bool := false
  /-- within the grace period | 1 | 03 R98 | 0 -/
  grace : Bool := false
  /-- KIND with which the link last trained, 1 for Nerov | 1 | 03 R103 | 0 -/
  nerov : Bool := false
  /-- fast exit given up until the link next trains | 1 | 02 R70 | 0 -/
  noFastExit : Bool := false
  /-- held out of DETECT by DIAGNOSTIC | 1 | 02 R71 | 0 -/
  diagHold : Bool := false
  /-- lanes on which the link has trained | 5 | 02 R68, 03 R110 | 0 -/
  trained : Nat := 0
  /-- rate of the peg that runs, or ran last in this training | 4 | 02 R62, 03 R97 | 0, none -/
  pegRate : Nat := 0
  /-- leaves idle by full retraining, with a peg | 1 | 02 R70 | 0 -/
  fullTrain : Bool := false
  /-- lanes of a span link that are marked bad and not yet repaired, each with the redundant lanes of its module | list | 03 R93, R94 | none -/
  bad : List Nat := []
  /-- flit sent last | record, optional | 03 R80, R84 | none -/
  sent : Option Flit := none
  /-- sequence number whose timer expired with no acknowledgement since | 16, optional | 03 R88 | none -/
  lateAck : Option Nat := none
  /-- low-power substate held: 0 none, 1 L0s, 2 L1, 3 L1 substate, 4 Nerov idle, 6 L2 | 3 | 02 R68, 08 R311 | 0 -/
  lowPower : Nat := 0
  deriving DecidableEq, Repr

/-- The context of a port's fret course while a program runs (04 R116, R124, R133). -/
structure Course where
  /-- the header's packet | record | 04 R116 | none -/
  pkt : Pkt := {}
  /-- g0 to g15 | 64 each | 04 R124 | 0 -/
  regs : FMap Nat Word := []
  /-- metadata fields | record | 04 R133 | defaults -/
  mdata : Meta := {}
  /-- instruction slot | 5 | 04 R116 | 0 -/
  slot : Nat := 0
  /-- program slot that runs | 6 | 04 R121 | 63 -/
  prog : Nat := 63
  /-- the header has not reached its verdict | 1 | 04 R135 | 0 -/
  live : Bool := false
  /-- verdict code and immediate that the program gave | numbers | 04 R135 | none -/
  verdict : Option (Nat × Nat) := none
  /-- a lookup read an uncorrectable word | 1 | 04 R143 | 0 -/
  bad : Bool := false
  /-- headers of the port that stood behind it in the courses when the word was found | number | 04 R143 | 0 -/
  behind : Nat := 0
  deriving DecidableEq, Repr

/-- A parked packet of 04 R138. -/
structure Parked where
  /-- the packet | record | 04 R138 | none parked -/
  pkt : Pkt
  /-- trap tag | 8 | 04 R138, R139 | none parked -/
  tag : Nat
  deriving DecidableEq, Repr

/-- The counters of a stream (04 R145, R148). -/
structure Stream where
  /-- tags given per class: posted, non-posted, completion | 16 each | 04 R145 | 0 -/
  count : FMap Nat Nat := []
  /-- next tag to release per class | 16 each | 04 R145 | 1 -/
  next : FMap Nat Nat := []
  /-- tags given and not yet reported released, per class | 13 each | 04 R148 | 0 -/
  outst : FMap Nat Nat := []
  /-- tags refused or flushed before their turn, per class | list each | 04 R145; 09 R337; 12 R458 | none -/
  gone : FMap Nat (List Nat) := []
  deriving DecidableEq, Repr

/-- The key of a stream: ingress (global port, or 1,024 + die × 32 + channel for a DMA channel), resolved egress, TC. -/
abbrev StreamKey := Nat × Nat × Nat

/-- The fret engines (04). Ports are global numbers. -/
structure FretSt where
  /-- header queue of a port | list per port | 04 R118 | empty -/
  hq : FMap Nat (List Pkt) := []
  /-- the port throttles its partner | list of ports | 04 R118 | none -/
  throttle : List Nat := []
  /-- course context of a port | record per port | 04 R116 | idle -/
  course : FMap Nat Course := []
  /-- courses of a port stopped until a table word is fetched | list of ports | 04 R143 | none -/
  stopped : List Nat := []
  /-- packets past the verdict stage waiting for forwarding entry | list per port | 04 R112 | empty -/
  decided : FMap Nat (List Pkt) := []
  /-- packets held back behind a parked one after the verdict stage | list per port | 04 R141 | empty -/
  heldBack : FMap Nat (List Pkt) := []
  /-- packets that passed forwarding entry and wait for their tag | list per port | 04 R148 | empty -/
  toTag : FMap Nat (List Pkt) := []
  /-- parking slots | record per port and slot | 04 R138 | free -/
  parked : FMap (Nat × Nat) Parked := []
  /-- trap instances whose timer expired without a verdict, until their tags are given again: global port, slot, tag | list | 01 R34, 04 R139 | none -/
  trapExpired : List (Nat × Nat × Nat) := []
  /-- last trap tag given on a die | 8 per die | 04 R165 | 0 -/
  trapTag : FMap Nat Nat := []
  /-- streams | record per key | 04 R145, R146 | counters 0, next 1 -/
  streams : FMap StreamKey Stream := []
  /-- dies whose program load waits until the lead die has accepted its words | list | 04 R120, R155 | none -/
  loading : List Nat := []
  /-- number given last to the packets of a port set | number | 06 R220 | 0 -/
  group : Nat := 0
  /-- non-posted requests sent to fabric destinations that await their completion: requester, tag | list | 05 R194 | none -/
  fabric : List (Nat × Nat) := []
  /-- log of the last refusal of a port: its reason code | 16 per port | 04 R135, R136 (log entry 77) | none -/
  reasons : FMap Nat Nat := []
  deriving DecidableEq, Repr

/-- A die's table store (05). A bank is a sparse map from word index to word over its part-reset contents (R171). -/
structure TabDie where
  /-- bank of the newest epoch | 14 MiB | 05 R166 | R171 contents -/
  newest : FMap Nat Word := []
  /-- bank of the older live epoch | 14 MiB | 05 R166 | none: one epoch is live -/
  older : Option (FMap Nat Word) := none
  /-- shadow bank | 14 MiB | 05 R166 | R171 contents -/
  shadow : FMap Nat Word := []
  /-- newest epoch flipped on the die | 16 | 05 R183 | 0 -/
  newE : Nat := 0
  /-- oldest live epoch of the die | 16 | 05 R188 | 0 -/
  oldE : Nat := 0
  /-- meridian of the last flip | 64 | 05 R202 | 0 -/
  flipAt : Nat := 0
  /-- shadow pages whose digest is invalid or that hold a known uncorrectable word | list | 05 R181, R673 | none -/
  badPages : List Nat := []
  /-- the same of the bank of the newest epoch | list | 04 R143, 05 R181 | none -/
  badNewest : List Nat := []
  /-- table words whose single-bit errors were corrected, by lookups and the scrub | number | 04 R132, 05 R181 (log entry 77) | 0 -/
  corrected : Nat := 0
  /-- pages still to reload | list | 05 R185 | none -/
  reload : List Nat := []
  /-- pages written during staging | list | 05 R189 | none -/
  written : List Nat := []
  /-- bank sync runs | 1 | 05 R189 | 0 -/
  syncing : Bool := false
  /-- pages that the running sync copies | list | 05 R189 | none -/
  syncPages : List Nat := []
  deriving DecidableEq, Repr

/-- Banks, capos and staging (05). -/
structure TabSt where
  /-- table store of a die | record per die | 05 R166 | R171 contents -/
  dies : FMap Nat TabDie := []
  /-- staging queue of the lead die: word index and value | list, at most 4,096 | 05 R189 | empty -/
  queue : List (Nat × Word) := []
  /-- staging writes held without completion because the queue is full | list | 05 R189 | empty -/
  heldWrites : List (Nat × Word) := []
  /-- shadow words that were found uncorrectable when a write that waits for them came: die, word | list | 05 R181 | none -/
  soft : List (Nat × Nat) := []
  /-- a capo waits with STATUS 2 | 1 | 05 R182 | 0 -/
  waiting : Bool := false
  /-- the running capo is at its steps 1 to 3 | 1 | 05 R183, R199 | 0 -/
  applying : Bool := false
  /-- dies that reported a differing version at step 3 and are to be isolated | list | 05 R183, R186 | none -/
  differ : List Nat := []
  /-- mode whose precondition waits for the staging queue, and whether the contents at the request meet it | 4 and 1, optional | 05 R194 | none -/
  check : Option (Nat × Bool) := none
  /-- dies that have not yet flipped to the running capo's epoch | list | 05 R183 | none -/
  toFlip : List Nat := []
  /-- dies to which a CAPO flit is on its way | list | 05 R183, R185 | none -/
  flits : List Nat := []
  /-- epoch of the running capo | 16 | 05 R183 | 0 -/
  capoE : Nat := 0
  /-- FENCE at the start of the capo that made an epoch newest | list of epochs | 05 R193 | none -/
  fenced : List Nat := []
  /-- fence lifted for a port, TC and epoch by FTIME | list | 05 R193 | none -/
  lifted : List (Nat × Nat) := []
  /-- mode that the waiting or running capo carries, and MODE before the request | 4 and 4 | 05 R182, R186 | none -/
  mode : Option (Nat × Nat) := none
  /-- mode whose drain runs before its capo | 4 | 05 R194 | none -/
  drain : Option Nat := none
  /-- mode toward which a request runs that no capo carries | 4 | 01 R29 | none -/
  request : Option Nat := none
  /-- dies that have reported the older epoch drained | list | 05 R188 | none -/
  drained : List Nat := []
  /-- FOLLOW.ACK values when the running capo started, per partition | 16 each | 05 R183, 08 R294 | none -/
  ackAtStart : FMap Nat Nat := []
  deriving DecidableEq, Repr

/-- The ledgers of 06 R214. -/
inductive Ledger where
  | pciePort (g cls : Nat)
  | nerov (g vl cls : Nat)
  | span (d s vl cls : Nat)
  | partMin (n : Nat)
  | shared (n : Nat)
  | transit
  | control
  deriving DecidableEq, Repr

/-- The writers of 06 R204, each with its own open cell. -/
inductive Writer where
  | pcie (g cls : Nat)
  | nerov (g vl cls : Nat)
  | span (d s vl cls : Nat)
  | dma (d c : Nat)
  | control (d : Nat)
  deriving DecidableEq, Repr

/-- A cell and its descriptor (06 R203, R206). The default cell is in the zero pool. -/
structure CellRec where
  /-- owner tag | 6 | 06 R205 | 0x3F, NONE: the spec names no owner of a ZERO cell (DESIGN CHOICE, log entry 79) -/
  owner : Nat := 0x3F
  /-- STATE: 0 ZERO, 1 RECYCLE, 2 OPEN, 3 USED, 4 VERIFY, 5 RETIRED | 3 | 06 R206 | 0 after start-up zeroing -/
  state : Nat := 0
  /-- SUSP | 1 | 06 R206 | 0 -/
  susp : Bool := false
  /-- SEEN | 1 | 06 R206 | 0 -/
  seen : Bool := false
  /-- REFS | 9 | 06 R207 | 0 -/
  refs : Nat := 0
  /-- FILL, in 4-byte words | 7 | 06 R206 | 0 -/
  fill : Nat := 0
  /-- NEXT with NEXTV | 18, optional | 06 R206 | none -/
  next : Option Nat := none
  /-- contents from byte 0, zeros beyond | 256 bytes | 06 R203, R209 | zeros -/
  data : List Byte := []
  /-- the ledger charged | tag | 06 R214 | none -/
  ledger : Option Ledger := none
  /-- records in the cell that are not yet tagged, refused or discarded | count | 06 R215 | 0 -/
  untagged : Nat := 0
  /-- suspect mark of the audit: REFS, references found, round | optional | 06 R226 | none -/
  suspect : Option (Nat × Nat × Nat) := none
  /-- listed in the waiting leak instance and untouched since | 1 | 06 R228 | 0 -/
  listed : Bool := false
  /-- its descriptor is uncorrectable | 1 | 06 R224 | 0 -/
  bad : Bool := false
  deriving DecidableEq, Repr

/-- A mirror copy in the queue of an analysis port (06 R220, R222). -/
structure Mirror where
  /-- the packet that was copied | record | 06 R220 | empty queue -/
  pkt : Pkt
  /-- the cells that it refers to | list | 06 R220 | empty -/
  cells : List Nat := []
  /-- marked as a flow copy | 1 | 06 R220, R222 | 0 -/
  flow : Bool := false
  /-- DIR: made at release | 1 | 06 R222 | 0 -/
  egressDir : Bool := false
  /-- REFUSED | 1 | 06 R222 | 0 -/
  refused : Bool := false
  /-- TRUNC, in units of 64 bytes, 0 for none | 12 | 06 R222 | 0 -/
  trunc : Nat := 0
  /-- meridian when the copy was made | 64 | 06 R222 | 0 -/
  time : Nat := 0
  /-- mirrored port | 7 | 06 R222 | 0 -/
  port : Nat := 0
  deriving DecidableEq, Repr

/-- A die's packet buffer (06). -/
structure BufDie where
  /-- cells that differ from a zeroed free cell | record per cell, 196,608 cells | 06 R203 | all ZERO -/
  cells : FMap Nat CellRec := []
  /-- recycle pool of an owner tag, oldest first | list per tag | 06 R208 | empty -/
  recycle : FMap Nat (List Nat) := []
  /-- cells to verify, oldest first | list | 06 R210 | empty -/
  verify : List Nat := []
  /-- open cell of a writer | cell per writer | 06 R204 | none -/
  openCell : FMap Writer Nat := []
  /-- start-up zeroing is complete | 1 | 06 R229, R231 | 0 -/
  ready : Bool := false
  /-- audit rounds, which number the suspect marks | number | 06 R226 | 0 -/
  round : Nat := 0
  /-- packets that the part originates and that wait for a cell: port, packet | list | 06 R204, R208 | empty -/
  ctlWait : List (Nat × Tlp) := []
  /-- egress copies made for packets of a port set that is still under way: number of the set, analysis port | list | 06 R220 | none -/
  copied : List (Nat × Nat) := []
  /-- draws that wait for a cell | list of writers | 06 R208 | empty -/
  waiting : List Writer := []
  /-- mirror queue of an analysis port | list per analysis port | 06 R220 | empty -/
  mirrors : FMap Nat (List Mirror) := []
  /-- assist mode of the waiting leak instance | 2 | 06 R228 | 0 -/
  leakMode : Nat := 0
  /-- tags of leak instances that expired without a verdict, until they are given again | list | 01 R34, R35 | none -/
  leakExpired : List Nat := []
  /-- last leak tag | 8 | 06 R239 | 0 -/
  leakTag : Nat := 0
  /-- packets sent to another die and not yet reported released, with the cells they keep here | list | 04 R148, 06 R219 | empty -/
  spanPending : List Pkt := []
  /-- records in transit on this die of a two-hop path: packet and its cells | list | 06 R219 | empty -/
  transit : List Pkt := []
  /-- records of a newer epoch that wait in span receive buffers for the die's flip: source die, record | list | 05 R185 | empty -/
  spanWait : List (Nat × Pkt) := []
  /-- retired cells | count | 06 R225 | 0 -/
  retired : Nat := 0
  /-- banks of 16,384 cells whose free cells have left their pools | list of bank numbers | 14 R536 | none -/
  closed : List Nat := []
  deriving DecidableEq, Repr

/-- The packet buffers. -/
structure BufSt where
  /-- packet buffer of a die | record per die | 06 R203 | all cells ZERO -/
  dies : FMap Nat BufDie := []
  deriving DecidableEq, Repr

/-- The dynamic state of a flow context (07 R249). -/
structure FlowSt where
  /-- Tc in 1/2^24 bytes | 56 | 07 R244 | 0 -/
  tc : Nat := 0
  /-- Tp in 1/2^24 bytes | 56 | 07 R244 | 0 -/
  tp : Nat := 0
  /-- committed remainder | below 8,000 | 07 R244 | 0 -/
  remC : Nat := 0
  /-- peak remainder | below 8,000 | 07 R244 | 0 -/
  remP : Nat := 0
  /-- time of last update in ns | 48 | 07 R244 | 0 -/
  last : Nat := 0
  /-- hold queue | list | 07 R253 | empty -/
  hold : List Pkt := []
  /-- packets of an ended hold queue that still leave without the test | list | 07 R249, R257 | empty -/
  leaving : List Pkt := []
  /-- REDS | 32 | 07 R275 | 0 -/
  reds : Nat := 0
  /-- REFUSED | 32 | 07 R275 | 0 -/
  refused : Nat := 0
  /-- exception state: 0 none, 1 waiting, 2 acting | 2 | 07 R275 | 0 -/
  xstate : Nat := 0
  /-- action in force | 2 | 07 R260 | 0 -/
  xact : Nat := 0
  /-- entry of SCH.PXREC that holds the instance | 6 | 07 R259 | 0 -/
  xent : Nat := 0
  /-- assist mode of the instance | 2 | 01 R36 | 0 -/
  xmode : Nat := 0
  /-- newest epoch whose clip was applied | 16 | 05 R180 | 0 -/
  clipE : Nat := 0
  deriving DecidableEq, Repr

/-- One egress port's scheduler (07 R265, R266). -/
structure SchedSt where
  /-- round-robin pointer | 4 | 07 R265 | 0 -/
  rr : Nat := 0
  /-- deficit of a queue | per queue | 07 R265 | 0 -/
  deficit : FMap Nat Nat := []
  /-- visited flag of a queue | per queue | 07 R265 | 0 -/
  visited : FMap Nat Bool := []
  /-- shaper level of a queue in 1/2^24 bytes | signed per queue | 07 R266 | 0 -/
  level : FMap Nat Int := []
  /-- shaper remainder of a queue | per queue | 07 R266 | 0 -/
  rem : FMap Nat Nat := []
  /-- shaper time of last refill in ns | per queue | 07 R266 | 0 -/
  last : FMap Nat Nat := []
  deriving DecidableEq, Repr

/-- Policing and scheduling (07). -/
structure SchSt where
  /-- dynamic state of a flow context, by global number | record per context | 07 R249 | zero -/
  flows : FMap Nat FlowSt := []
  /-- last exception tag of a die | 8 per die | 07 R272 | 0 -/
  pxTag : FMap Nat Nat := []
  /-- tags of instances that expired, per die | list | 01 R34, 07 R260 | none -/
  pxExpired : List (Nat × Nat) := []
  /-- egress queue of a port | list per port and queue | 07 R262 | empty -/
  queues : FMap (Nat × Nat) (List Pkt) := []
  /-- scheduler of a port | record per port | 07 R265 | zero -/
  sched : FMap Nat SchedSt := []
  /-- live histogram counters: port, queue, kind, bin | 32 each | 07 R267 | 0 -/
  hist : FMap (Nat × Nat × Nat × Nat) Nat := []
  /-- largest sampled depth since the last SNAP: port, queue | 24 each | 07 R268 | 0 -/
  maxDepth : FMap (Nat × Nat) Nat := []
  /-- MAXDEPTH of the read set: port, queue | 24 each | 07 R268 | 0 -/
  maxRead : FMap (Nat × Nat) Nat := []
  deriving DecidableEq, Repr

/-- What the function that stands for a port in a host face reports of errors (12 R459), with the bits of the PCI Express Base Specification (log
entry 30). -/
structure Aer where
  /-- Uncorrectable Error Status | 32 | 08 R303, 12 R459 | 0 -/
  unc : Nat := 0
  /-- Correctable Error Status | 32 | 12 R459 | 0 -/
  cor : Nat := 0
  /-- header log: the header of the first malformed TLP since the status was cleared | bytes | 12 R459 | empty -/
  header : List Byte := []
  /-- Link Bandwidth Management Status | 1 | 12 R459 | 0 -/
  lbms : Bool := false
  deriving DecidableEq, Repr

/-- Live state of a virtual downstream port of a face (08 R293, R303). -/
structure VpSt where
  /-- ACS Source Validation enabled | 1 | 08 R293, R303 | 0 -/
  sv : Bool := false
  /-- ACS Translation Blocking enabled | 1 | 08 R293, R303 | 0 -/
  tb : Bool := false
  /-- ACS Request Redirect enabled | 1 | 08 R293, R303 | 0 -/
  rr : Bool := false
  /-- ACS Completion Redirect enabled | 1 | 08 R293, R303 | 0 -/
  cr : Bool := false
  /-- ACS Direct Translated enabled | 1 | 08 R293, R303 | 0 -/
  dt : Bool := false
  /-- ACS Upstream Forwarding enabled | 1 | 08 R293, R303 | 0 -/
  uf : Bool := false
  /-- secondary bus number | 8 | 08 R293 | 0 -/
  sec : Nat := 0
  /-- subordinate bus number | 8 | 08 R293 | 0 -/
  sub : Nat := 0
  /-- ARI Forwarding Enable | 1 | 08 R297 | 0 -/
  ari : Bool := false
  /-- DPC trigger enabled | 1 | 12 R460, R461 | 0 -/
  dpcEn : Bool := false
  /-- DPC completion control: Completer Abort | 1 | 12 R460, R461 | 0 -/
  dpcCA : Bool := false
  /-- DPC triggered | 1 | 12 R460, R461 | 0 -/
  dpcTrig : Bool := false
  /-- what the port function reports of errors | record | 08 R303, 12 R459 | nothing -/
  aer : Aer := {}
  /-- messages received from the device, by code | list | 12 R462 | empty -/
  errMsgs : List Nat := []
  /-- Slot Status: the bits that stay set until the host clears them | 16 | 08 R306 | 0 -/
  slotStat : Nat := 0
  /-- Slot Control: the enables of its interrupts | 16 | 08 R287, R293 | 0 -/
  slotCtl : Nat := 0
  /-- MSI of the port, while it is enabled: address, data | 64 and 32, optional | 08 R287, R293 | none -/
  msi : Option (Nat × Nat) := none
  /-- DPC interrupt enabled | 1 | 08 R287, 12 R461 | 0 -/
  dpcInt : Bool := false
  deriving DecidableEq, Repr

/-- An endpoint instance or upstream port of a face (08 R287, R309 to R311). -/
structure FaceSt where
  /-- D-state of the endpoint instance | 3 | 08 R309, R318 | 0, D0 -/
  dstate : Nat := 0
  /-- Bus Master Enable of the endpoint | 1 | 08 R309 | 0 -/
  bme : Bool := false
  /-- MSI-X enabled | 1 | 08 R310 | 0 -/
  msix : Bool := false
  /-- masked MSI-X vectors | list | 12 R475 | every vector unmasked -/
  masked : List Nat := []
  /-- pending bits of MSI-X vectors | list | 12 R475 | none -/
  pba : List Nat := []
  /-- PME_En | 1 | 08 R310 | 0 -/
  pmeEn : Bool := false
  /-- PRI enabled | 1 | 09 R339, R340 | 0 -/
  priEn : Bool := false
  /-- Page Request Allocation left | 32 | 09 R339, R340 | 0 -/
  priAlloc : Nat := 0
  /-- PASID enabled | 1 | 09 R339, R340 | 0 -/
  pasidEn : Bool := false
  /-- primary bus number of the upstream port | 8 | 08 R318 | 0 -/
  pbus : Nat := 0
  /-- secondary bus number of the upstream port | 8 | 08 R318 | 0 -/
  sbus : Nat := 0
  /-- subordinate bus number of the upstream port | 8 | 08 R318 | 0 -/
  subbus : Nat := 0
  /-- a PME_Turn_Off in progress: ports whose acknowledgement is missing | optional list | 08 R311 | none -/
  turnOff : Option (List Nat) := none
  /-- a device below the face signals WAKE# | list of slots | 08 R311 | none -/
  wakeSlots : List Nat := []
  /-- what the upstream port function reports of errors | record | 12 R459 | nothing -/
  aer : Aer := {}
  deriving DecidableEq, Repr

/-- A proxied configuration request that waits for its completion (08 R299): the proxy's die and tag, the port through which the borrower is
answered, the lent function's port, and the borrower's request (none for an FLR that the part itself asked for). -/
structure Proxy where
  /-- die that proxies | 3 | 08 R299 | none waits -/
  die : Nat
  /-- proxy tag | 10 | 08 R299 | none waits -/
  tag : Nat
  /-- port through which the borrower is answered | 7 | 08 R299 | none waits -/
  port : Nat
  /-- port of the lent function | 7 | 08 R299 | 0x7F -/
  lent : Nat := 0x7F
  /-- the borrower's request, none for an FLR of the part's own | record, optional | 08 R299, R301 | none waits -/
  req : Option Tlp
  deriving DecidableEq, Repr

/-- Partitions and host faces (08). -/
structure ParSt where
  /-- configuration words that a host has written: partition, face, function code, word | 32 each | 08 R285, R286 | the almanac image's -/
  cfg : FMap (Nat × Nat × Nat × Nat) Nat := []
  /-- patches in force since a function's last reset: partition, face, function; each with its image, word, mask and value | list | 08 R288 | none -/
  patched : FMap (Nat × Nat × Nat) (List (Nat × Nat × Nat × Nat)) := []
  /-- live state of a virtual port: partition, k | record | 08 R293 | zero -/
  vp : FMap (Nat × Nat) VpSt := []
  /-- endpoint and upstream state of a face: partition, face | record | 08 R287 | zero -/
  face : FMap (Nat × Nat) FaceSt := []
  /-- held completions of a partition: FSEQ, face, completion, time | list per partition | 08 R294 | empty -/
  held : FMap Nat (List (Nat × Nat × Tlp × Nat)) := []
  /-- proxied requests that wait | list | 08 R299 | empty -/
  proxy : List Proxy := []
  /-- proxied requests that timed out: die, tag | list | 12 R473 | empty -/
  proxyLate : List (Nat × Nat) := []
  /-- last proxy tag of a die | 10 per die | 08 R299 | 0 -/
  proxyTag : FMap Nat Nat := []
  /-- pending endpoint events of a partition: die, event | list per partition | 08 R310 | empty -/
  pending : FMap Nat (List (Nat × Nat)) := []
  /-- partitions whose function level reset is between its steps 1 and 4 | list | 08 R308, R318 | none -/
  flr : List Nat := []
  /-- meridian of the last PTM dialogue of a port | 64 per port | 08 R287 | none -/
  ptm : FMap Nat Nat := []
  /-- emulated BAR values of a lent function: context, BAR | 64 each | 08 R299 | 0 -/
  bars : FMap (Nat × Nat) Nat := []
  deriving DecidableEq, Repr

/-- A cached translation (09 R333). -/
structure XltEntry where
  /-- context | 16 | 09 R333 | empty cache -/
  ctx : Nat
  /-- generation of the context | number | 09 R333 | empty cache -/
  gen : Nat
  /-- first address of the page | 64 | 09 R333 | empty cache -/
  page : Nat
  /-- size of the page in bytes | number | 09 R333 | empty cache -/
  size : Nat
  /-- translated address of the page | 64 | 09 R333 | empty cache -/
  out : Nat
  /-- may be read | 1 | 09 R333 | empty cache -/
  r : Bool
  /-- may be written | 1 | 09 R333 | empty cache -/
  w : Bool
  deriving DecidableEq, Repr

/-- What a walk serves. -/
inductive WalkFor where
  | tlp (port : Nat)
  | chunk (chan : Nat)
  deriving DecidableEq, Repr

/-- A walk that waits for a host-memory read (09 R329). -/
structure Walk where
  /-- identifier | number | the model's own (09 R329) | none runs -/
  id : Nat
  /-- what it serves | enum | 09 R329 | none runs -/
  who : WalkFor
  /-- the packet that it serves | record | 09 R329 | none runs -/
  pkt : Pkt := {}
  /-- context | 16 | 09 R323 | none runs -/
  ctx : Nat
  /-- first context word | 64 | 09 R323 | none runs -/
  w0 : Word
  /-- second context word | 64 | 09 R323 | none runs -/
  w1 : Word
  /-- address in the context | 64 | 09 R329 | none runs -/
  va : Nat
  /-- the access writes | 1 | 09 R329 | none runs -/
  wr : Bool
  /-- the access reads | 1 | 09 R329 | none runs -/
  rd : Bool
  /-- level to be read | 3 | 09 R328 | none runs -/
  lvl : Nat
  /-- epoch of the access | 16 | 09 R333 | 0 -/
  epoch : Nat := 0
  /-- an entry of the fault queue waits for it | 1 | 09 R337 | 0 -/
  queued : Bool := false
  /-- its outcome enters the cache | 1 | 09 R333 | 1 -/
  cacheIt : Bool := true
  deriving DecidableEq, Repr

/-- An entry of the translation fault queue (09 R337). -/
structure FaultEntry where
  /-- packets that wait in it | list | 09 R337 | empty queue -/
  pkts : List Pkt
  /-- context | 16 | 09 R337 | empty queue -/
  ctx : Nat
  /-- page address | 64 | 09 R337 | empty queue -/
  va : Nat
  /-- a read waits | 1 | 09 R337 | 0 -/
  rd : Bool := false
  /-- a write waits | 1 | 09 R337 | 0 -/
  wr : Bool := false
  /-- page request instances so far | number | 09 R338 | 0 -/
  tries : Nat := 0
  /-- tag of the waiting page request instance | 9, optional | 09 R339 | none -/
  prec : Option Nat := none
  /-- walk that runs again for it | number, optional | 09 R338 | none -/
  walk : Option Nat := none
  /-- first context word | 64 | 09 R337 | 0 -/
  w0 : Word := 0
  /-- second context word | 64 | 09 R337 | 0 -/
  w1 : Word := 0
  deriving DecidableEq, Repr

/-- A die's translation unit (09). -/
structure XltDie where
  /-- translation cache | list, at most 65,536 | 09 R333 | empty -/
  cache : List XltEntry := []
  /-- generation of a context by epoch: context, epoch | number | 09 R333 | 0 -/
  gen : FMap (Nat × Nat) Nat := []
  /-- walks in host memory that run | list | 09 R329 | empty -/
  walks : List Walk := []
  /-- walks that timed out, by identifier | list | 09 R329 | empty -/
  late : List Nat := []
  /-- last walk identifier | number | model's own (09 R329) | 0 -/
  walkId : Nat := 0
  /-- fault queue | list, at most 256 | 09 R337 | empty -/
  fq : List FaultEntry := []
  /-- last page request tag | 9 | 09 R339 | 0 -/
  precTag : Nat := 0
  /-- assist mode of a page request instance | 2 per entry | 01 R36 | 0 -/
  precMode : FMap Nat Nat := []
  /-- tags of page request instances that expired | list | 01 R34 | empty -/
  precExpired : List Nat := []
  deriving DecidableEq, Repr

/-- Translation (09). -/
structure XltSt where
  /-- translation unit of a die | record per die | 09 R333 | empty -/
  dies : FMap Nat XltDie := []
  /-- page-table area: word index and word | 4 MiB, the same on every die | 09 R330 | zeros -/
  ptab : FMap Nat Word := []
  deriving DecidableEq, Repr

/-- A fetched DMA descriptor (09 R343). -/
structure Desc where
  /-- the eight words of the descriptor | 8 x 64 | 09 R343 | none fetched -/
  words : List Word
  /-- ring index | 16 | 09 R343 | 0 -/
  index : Nat := 0
  deriving DecidableEq, Repr

/-- A piece of a chunk's source or destination that one translation serves: its part of the chunk, its address in the context, the address
and egress at the target once translated (09 R345). -/
structure Piece where
  /-- offset in the chunk | number | 09 R345 | none -/
  off : Nat
  /-- length in bytes | number | 09 R345 | none -/
  len : Nat
  /-- address in the context | 64 | 09 R345 | none -/
  va : Nat
  /-- translated address | 64 | 09 R345 | 0 -/
  addr : Nat := 0
  /-- egress of the target | 16 | 09 R345 | 0xFFFF -/
  egress : Nat := 0xFFFF
  /-- translated | 1 | 09 R345 | 0 -/
  ok : Bool := false
  deriving DecidableEq, Repr

/-- A read that a channel waits for: its tag, its part of the chunk, its data (09 R350). -/
structure DmaRead where
  /-- tag | 14 | 09 R350 | none waits -/
  tag : Nat
  /-- offset in the chunk | number | 09 R350 | none waits -/
  off : Nat
  /-- length in bytes | number | 09 R350 | none waits -/
  len : Nat
  /-- its data once all of it has come | list of bytes, optional | 09 R350 | none -/
  data : Option (List Byte) := none
  deriving DecidableEq, Repr

/-- A chunk (09 R345, R346): its number, length and epoch, the translated pieces, the reads issued for it. -/
structure Chunk where
  /-- number of the chunk | number | 09 R346 | none in flight -/
  k : Nat
  /-- length in bytes | number | 09 R346 | none in flight -/
  len : Nat
  /-- epoch | 16 | 09 R345 | none in flight -/
  epoch : Nat
  /-- pieces of the source | list | 09 R345 | empty -/
  src : List Piece := []
  /-- pieces of the destination | list | 09 R345 | empty -/
  dst : List Piece := []
  /-- reads issued for it | list | 09 R350 | empty -/
  reads : List DmaRead := []
  deriving DecidableEq, Repr

/-- A descriptor that has ended and waits for its completion record (09 R349): the descriptor, STATUS and BYTES, its last committed
destination chunk, whether its read back was issued, and its reads. -/
structure Ending where
  /-- the descriptor | record | 09 R349 | none waits -/
  desc : Desc
  /-- STATUS of the completion record | 8 | 09 R351 | none waits -/
  status : Nat
  /-- BYTES of the completion record | 32 | 09 R349 | none waits -/
  bytes : Nat
  /-- destination of its last committed chunk | list | 09 R349 | empty -/
  last : List Piece := []
  /-- its read back was issued | 1 | 09 R349 | 0 -/
  rdback : Bool := false
  /-- reads that it waits for | list | 09 R349 | empty -/
  reads : List DmaRead := []
  deriving DecidableEq, Repr

/-- A read of a descriptor that a channel waits for: its tag, its ring index, the words (09 R343). -/
structure Fetch where
  /-- tag of the read | 14 | 09 R350 | none waits -/
  tag : Nat
  /-- ring index | 16 | 09 R343 | none waits -/
  index : Nat
  /-- words of the descriptor once they have come | 8 x 64, optional | 09 R343 | none -/
  words : Option (List Word) := none
  deriving DecidableEq, Repr

/-- A DMA channel (09). -/
structure ChanSt where
  /-- fetched descriptors that wait to run, oldest first | list, at most 8 | 09 R343 | empty -/
  descs : List Desc := []
  /-- the descriptor that runs | optional | 09 R343 | none -/
  run : Option Desc := none
  /-- descriptor reads outstanding | list, with the waiting descriptors at most 8 | 09 R343 | empty -/
  fetching : List Fetch := []
  /-- next chunk to issue | number | 09 R346 | 0 -/
  next : Nat := 0
  /-- the chunk whose translation waits for a walk | optional | 09 R345 | none -/
  xlating : Option Chunk := none
  /-- chunks in flight | list, at most 64 | 09 R348 | empty -/
  chunks : List Chunk := []
  /-- chunks committed | number | 09 R346 | 0 -/
  committed : Nat := 0
  /-- destination of the last chunk committed | list of pieces | 09 R349 | none -/
  last : List Piece := []
  /-- fault point: status, chunk | optional | 09 R346, R351 | none -/
  fault : Option (Nat × Nat) := none
  /-- what faulted at the fault point: context, address, write, cause | optional | 09 R352 | none -/
  what : Option (Nat × Nat × Bool × Nat) := none
  /-- parked at the fault point | 1 | 09 R352 | 0 -/
  parked : Bool := false
  /-- page request instances for the chunk at the fault point | count | 09 R352 | 0 -/
  tries : Nat := 0
  /-- descriptors that wait for their completion record, oldest first | list | 09 R349 | empty -/
  endings : List Ending := []
  /-- write packets not yet released, by the ring index of their descriptor | counts | 09 R349 | 0 -/
  unreleased : FMap Nat Nat := []
  /-- assist mode of the waiting instance | 2 | 01 R36 | 0 -/
  mode : Nat := 0
  /-- tags of expired instances | list | 01 R34 | none -/
  expired : List Nat := []
  /-- reads given up, by tag, whose completions are discarded: 0 counted as late, 1 counted under an FLR, 2 not counted | list | 08 R308, 09 R346, R350 | none -/
  late : List (Nat × Nat) := []
  /-- tags of reads that the part answers with an error itself, as their requests were flushed or could not be read | list | 06 R224, 12 R458 | none -/
  lost : List Nat := []
  /-- stopped by the clearing of ENABLE or by a ring error | 1 | 09 R353, R368 | 0 -/
  stopped : Bool := false
  deriving DecidableEq, Repr

/-- DMA engines (09). -/
structure DmaSt where
  /-- channel: die, channel | record | 09 R341 | idle -/
  ch : FMap (Nat × Nat) ChanSt := []
  /-- last channel chosen at a priority: die, priority | 5 | 09 R348 | 31 -/
  last : FMap (Nat × Nat) Nat := []
  /-- last read tag of a die | 14 per die | 09 R350 | 0 -/
  tag : FMap Nat Nat := []
  /-- last fault tag of a die | 8 per die | 09 R368 | 0 -/
  ftag : FMap Nat Nat := []
  deriving DecidableEq, Repr

/-- The packet to which a fault is tied (12 R447). -/
structure TlpRef where
  /-- flow context of the packet | 18, optional | 12 R447 | none -/
  flow : Option Nat := none
  /-- translation context of the packet | 16, optional | 12 R447 | none -/
  xctx : Option Nat := none
  /-- ingress port of the packet | 7 | 12 R447 | 0 -/
  iport : Nat := 0
  /-- partition of the packet | 6 | 12 R447 | 0x3F -/
  part : Nat := 0x3F
  deriving DecidableEq, Repr

/-- One set of a fault source, waiting at FLT's input crossing (12 R444, R446): what it is tied to, whether its bit rose with it (R474),
whether a management reset has begun since (R472). -/
structure FaultRec where
  /-- register that holds the fault's bit | name | 12 R444 | none waits -/
  reg : Reg
  /-- number of the bit | 6 | 12 R444 | none waits -/
  bit : Nat
  /-- packet to which the fault is tied | record, optional | 12 R447 | none -/
  tied : Option TlpRef := none
  /-- DMA channel to which the fault is tied | 5, optional | 12 R447 | none -/
  chan : Option Nat := none
  /-- die that the fault names as its unit | 3, optional | 12 R447 | none -/
  unitDie : Option Nat := none
  /-- the bit rose with this set | 1 | 12 R474 | 0 -/
  rose : Bool := false
  /-- a management reset has begun since | 1 | 12 R472 | 0 -/
  stale : Bool := false
  deriving DecidableEq, Repr

/-- What a case entry holds beside FLT.CASE (12 R452, R453). -/
structure CaseHid where
  /-- sticky bits that the case's faults have set and no write has cleared | list | 12 R453 | none -/
  bits : List (Reg × Nat) := []
  /-- levels at which the case has applied its containment | list | 12 R448 | none -/
  applied : List Nat := []
  /-- event number of the last fault | 10 | 12 R474 | 0 -/
  event : Nat := 0
  /-- the escalation timer has expired and no arrival followed | 1 | 12 R455 | 0 -/
  expired : Bool := false
  /-- mode of PART.ASSIST.ESCAL when the escalation timer started | 2 | 01 R36 | 0 -/
  mode : Nat := 0
  deriving DecidableEq, Repr

/-- A message toward the BMC (12 R476). -/
structure BmcMsg where
  /-- die of the message | 3 | 12 R476 | none waits -/
  die : Nat
  /-- event number | 10 | 12 R474, R476 | none waits -/
  event : Nat
  /-- class | 8 | 12 R476 | none waits -/
  cls : Nat
  /-- containment level | 3 | 12 R476 | none waits -/
  level : Nat
  /-- case entry | 6 | 12 R476 | none waits -/
  entry : Nat
  /-- case tag | 8 | 12 R476 | none waits -/
  tag : Nat
  /-- kind of the unit | 4 | 12 R476 | none waits -/
  ukind : Nat
  /-- UNIT | 24 | 12 R476 | none waits -/
  unit : Nat
  /-- port | 8 | 12 R476 | none waits -/
  port : Nat
  /-- partition | 6 | 12 R476 | none waits -/
  part : Nat
  /-- meridian of the event | 64 | 12 R476 | none waits -/
  meridian : Nat
  deriving DecidableEq, Repr

/-- Faults and events (12). -/
structure FltSt where
  /-- faults waiting at the input crossing of a die | list per die | 12 R446, R457 | empty -/
  inbox : FMap Nat (List FaultRec) := []
  /-- hidden part of a case: die, entry | record | 12 R452 | none -/
  cases : FMap (Nat × Nat) CaseHid := []
  /-- last case tag of a die | 8 per die | 12 R487 | 0 -/
  tag : FMap Nat Nat := []
  /-- ports contained by DPC: partition and virtual port that triggered, global port | list | 12 R461 | none -/
  dpcPorts : List (Nat × Nat × Nat) := []
  /-- contexts contained at FLOW by DPC, for the borrower: partition and virtual port that triggered, context | list | 12 R461 | none -/
  dpcCtx : List (Nat × Nat × Nat) := []
  /-- a case at PART, or the loss of the lead die without a deputy, stands | 1 | 12 R468, 01 R23 | 0 -/
  partCase : Bool := false
  /-- part-wide and Hild regions answer with an error response: lead lost without a deputy | 1 | 01 R23 | 0 -/
  noLead : Bool := false
  /-- watchdog of a die: running period in ms, 0 stopped | 14 per die | 12 R471 | 0, started when the harts enter the image -/
  wdog : FMap Nat Nat := []
  /-- queue toward the BMC | list, at most 128 | 12 R476 | empty -/
  bmc : List BmcMsg := []
  /-- MSI-X messages sent: partition, face, vector, die, event (1,024 + channel for a DMA vector, 2,047 for a vector that waited masked) | list | 12 R475 | empty -/
  msix : List (Nat × Nat × Nat × Nat × Nat) := []
  /-- PM_PME messages sent: partition, face | list | 08 R310 | empty -/
  pme : List (Nat × Nat) := []
  /-- events given to the recorder and not yet recorded | list | 12 R474, 17 R606 | empty -/
  noted : List BmcMsg := []
  /-- dies that copy the banks while they rejoin | list | 12 R467 | none -/
  rejoining : List Nat := []
  /-- isolated dies that a management reset has passed since, so that the exit of their case lets them rejoin | list | 12 R467 | none -/
  passed : List Nat := []
  /-- always-on cause record of a part case: class written on a die | 8 per die | 12 R468, 13 R493 | 0 -/
  lastClass : Nat := 0
  deriving DecidableEq, Repr

end Sys2Proof.Machine
end

