-- ==== Sys2Proof/Machine/Data2.lean ====
section
/-! DEFINITION. The parts of State for power domains, slots and the sideband bridge. Every field's docstring gives what it is,
its width, the rule of the spec and its value after reset. -/

namespace Sys2Proof.Machine

/-- A power domain: of die `d`, or of the Hild die (14 R528, R542). -/
structure DomId where
  /-- a domain of the Hild die | 1 | 14 R542 | - -/
  hild : Bool
  /-- die | 3 | 14 R528 | - -/
  d : Nat
  /-- number of the domain | 6 | 14 R528, R542 | - -/
  i : Nat
  deriving DecidableEq, Repr

/-- The sequencer of a domain (14 R530 to R536). -/
structure DomSt where
  /-- state toward which the transition runs: 0 ON, 1 RET, 2 OFF | 2 | 14 R533 | 0 -/
  target : Nat := 0
  /-- an OFF domain passes through ON toward RET | 1 | 14 R532 | 0 -/
  thenRet : Bool := false
  /-- request that waits for the transition in progress | 2, optional | 14 R530 | none -/
  next : Option Nat := none
  /-- request for which a buffer bank closes | 2, optional | 14 R536 | none -/
  closing : Option Nat := none
  deriving DecidableEq, Repr

/-- Power (14). -/
structure PwrSt where
  /-- sequencer of a domain | record per domain | 14 R533 | idle -/
  dom : FMap DomId DomSt := []
  /-- PWR.PAD release that waits for its domain to reach ON | domain per die | 14 R539 | none -/
  padWait : FMap Nat Nat := []
  /-- temperature compensation that the request carries, in mV: 0, 15 or 30 | per die | 14 R545 | 30, as at the start (R548) -/
  band : FMap Nat Nat := []
  /-- time since which Tj has stood at or above 50 °C | per die | 14 R545 | none -/
  since50 : FMap Nat Nat := []
  /-- time since which Tj has stood at or above 10 °C | per die | 14 R545 | none -/
  since10 : FMap Nat Nat := []
  /-- dies whose Tj has reached the warning limit and not yet fallen 5 °C below it | list | 20 R671 | none -/
  warned : List Nat := []
  /-- dies whose Tj stands at the trip limit | list | 20 R671 | none -/
  tripped : List Nat := []
  deriving DecidableEq, Repr

/-- A slot channel of the Hild die, beside its registers (15). -/
structure SlotSt where
  /-- drive of GATEH: 0 the 1 mA discharge sink, 1 the 1 A sink, 2 the ramp source of IGATE, 3 the 1 mA source | 2 | 15 R557, R564 | 0 -/
  gate : Nat := 0
  /-- a write of PWREN = 0 came in or after the cycle of the trip | 1 | 15 R571 | 0 -/
  toggle : Bool := false
  /-- PWREN was cleared and the 100 µs before the discharge run | 1 | 15 R573 | 0 -/
  off : Bool := false
  /-- assist mode of the waiting hot-plug instance | 2 | 01 R36 | 0 -/
  mode : Nat := 0
  /-- partition that owns the port bound to the slot, read when the instance was raised | 6 | 15 R572 | 0x3F -/
  owner : Nat := 0x3F
  /-- tags of instances that expired without a verdict, until they are given again | list | 01 R34, R35 | none -/
  expired : List Nat := []
  deriving DecidableEq, Repr

/-- The Hild die (15). -/
structure HildSt where
  /-- slot | record per slot | 15 R555 | OFF -/
  slots : FMap Nat SlotSt := []
  /-- last hot-plug tag | 8 | 15 R582 | 0 -/
  hpTag : Nat := 0
  /-- slots whose hot-plug instance waits, latest first | list | 15 R582 | none -/
  waiting : List Nat := []
  /-- VHILD is below 3.00 V | 1 | 20 R665 | 0 -/
  down : Bool := false
  deriving DecidableEq, Repr

/-- A requester of the sideband bridge: window `k` of partition `n`, or ticket `t` of die `d` (16 R590, R594). -/
inductive SbbReq where
  | window (n k : Nat)
  | ticket (d t : Nat)
  deriving DecidableEq, Repr

/-- A write that waits in a host window's queue (16 R591). -/
inductive SbbWrite where
  | lock (on : Bool)
  | xfer (v : Word)
  | dbuf (j : Nat) (v : Word)
  deriving DecidableEq, Repr

/-- A transaction: its requester (none once a ticket was discarded under it), its descriptor, whether its requester held the
lock when it was queued (16 R587, R596). -/
structure SbbTxn where
  /-- requester, none once its ticket was discarded | enum, optional | 16 R587 | none waits -/
  who : Option SbbReq
  /-- descriptor of the transaction | 64 | 16 R587 | none waits -/
  xfer : Word
  /-- the requester held the lock when it was queued | 1 | 16 R596 | 0 -/
  held : Bool := false
  deriving DecidableEq, Repr

/-- An SMBus segment (16 R589, R596). -/
structure SegSt where
  /-- transactions that wait, in the order of the crossing | list | 16 R589 | empty -/
  queue : List SbbTxn := []
  /-- the transaction on the wire | optional | 16 R589 | none -/
  running : Option SbbTxn := none
  /-- the holder of the segment's lock | optional | 16 R596 | none -/
  holder : Option SbbReq := none
  /-- WAKE# as the latest poll saw it | 1 | 16 R597 | 0 -/
  wake : Bool := false
  /-- CLKREQ# as the latest poll saw it | 1 | 16 R597 | 0 -/
  clkreq : Bool := false
  deriving DecidableEq, Repr

/-- A host window (16 R590 to R593). -/
structure WinSt where
  /-- writes that wait | list, at most 8 | 16 R591 | empty -/
  queue : List SbbWrite := []
  /-- the write at the front has become a transaction | 1 | 16 R591 | 0 -/
  busy : Bool := false
  /-- CTL.OVR | 1 | 16 R593 | 0 -/
  ovr : Bool := false
  /-- XFER | 64 | 16 R593 | 0 -/
  xfer : Word := 0
  /-- RES.STATE | 3 | 16 R588 | 0 -/
  state : Nat := 0
  /-- RES.STATUS | 4 | 16 R588 | 0 -/
  status : Nat := 0
  /-- RES.COUNT | 6 | 16 R588 | 0 -/
  count : Nat := 0
  /-- RES.SEQ | 8 | 16 R588 | 0 -/
  seq : Nat := 0
  /-- DBUF words | 4 × 64 | 16 R593 | 0 -/
  dbuf : FMap Nat Word := []
  deriving DecidableEq, Repr

/-- The sideband bridges (16). -/
structure SbbSt where
  /-- segment: die, channel | record | 16 R589 | idle -/
  seg : FMap (Nat × Nat) SegSt := []
  /-- host window: partition, virtual port | record | 16 R593 | reset -/
  win : FMap (Nat × Nat) WinSt := []
  /-- slots whose CLKREQ# the bridge drives low | list | 16 R599 | none -/
  clkOut : List Nat := []
  /-- held window reads that HTIME completed: partition, virtual port, offset, value | list | 16 R592 | empty -/
  replies : List (Nat × Nat × Nat × Word) := []
  deriving DecidableEq, Repr

end Sys2Proof.Machine
end

