-- ==== Sys2Proof/Machine/Data3.lean ====
section
/-! DEFINITION. The parts of State for the control cores, the access gates, the start and update of firmware, and the recorder.
Every field's docstring gives what it is, its width, the rule of the spec and its value after reset. -/

namespace Sys2Proof.Machine

/-- A store in a hart's store buffer (11 R408): address, size in bytes, data, and the master identity under which it retired. -/
structure StoreEnt where
  /-- address | 40 | 11 R408 | empty buffer -/
  addr : Nat
  /-- size in bytes | 4 | 11 R408 | empty buffer -/
  size : Nat
  /-- data | 64 | 11 R408 | empty buffer -/
  data : Word
  /-- master identity under which it was issued | 8 | 11 R408, R422 | empty buffer -/
  mid : Nat
  deriving DecidableEq, Repr

/-- A load that waits for its response (11 R411): destination, address, size, sign extension, whether it is an LDX, and what it
read once it was performed: none is an error response. -/
structure LoadEnt where
  /-- destination register | 5 | 11 R411 | none waits -/
  rd : Nat
  /-- address | 40 | 11 R411 | none waits -/
  addr : Nat
  /-- size in bytes | 4 | 11 R411 | none waits -/
  size : Nat
  /-- sign extends | 1 | 10 R378 | none waits -/
  sgn : Bool
  /-- it is an LDX | 1 | 10 R380 | 0 -/
  ldx : Bool := false
  /-- master identity under which it was issued | 8 | 11 R422 | 0 -/
  mid : Nat := 0
  /-- what it read once it was performed, none within being an error response | 64, optional | 11 R411 | none -/
  got : Option (Option Word) := none
  deriving DecidableEq, Repr

/-- What a checkpoint of a hart holds (10 R399). -/
structure Ckpt where
  /-- g1 to g31 | 64 each | 10 R399 | 0 -/
  regs : FMap Nat Word := []
  /-- program counter | 64 | 10 R399 | 0xE0_03A0_0000 -/
  pc : Nat := 0xE003A00000
  /-- control and status registers | 64 each | 10 R399 | their reset values -/
  csr : FMap Nat Word := []
  /-- reservation | 40, optional | 10 R399 | none -/
  res : Option Nat := none
  /-- instructions retired | 64 | 10 R399 | 0 -/
  icount : Nat := 0
  deriving DecidableEq, Repr

/-- A hart (10, 11). -/
structure Hart where
  /-- g1 to g31 | 64 each | 10 R371, R404 | 0 -/
  regs : FMap Nat Word := []
  /-- program counter | 64, a multiple of 4 | 10 R371, R404; 11 R405 | 0xE0_03A0_0000, the boot ROM's first word -/
  pc : Nat := 0xE003A00000
  /-- control and status registers written since reset | 64 each | 10 R391 | their reset values -/
  csr : FMap Nat Word := []
  /-- reservation: address of the LDX that made it | 40, optional | 10 R380 | none -/
  res : Option Nat := none
  /-- loads that wait for their response, oldest first | list, at most 8 | 11 R411 | empty -/
  loads : List LoadEnt := []
  /-- store buffer, head first | list, at most 16 | 11 R408 | empty -/
  sbuf : List StoreEnt := []
  /-- sleeps under WAIT in a mode of CORE.SLEEP | 2, optional | 10 R396 | none -/
  asleep : Option Nat := none
  /-- stopped: a double trap, or the loss of the last pair | 1 | 10 R385, R402 | 0 -/
  stopped : Bool := false
  /-- paused: an anchor, or the copy of a handover | 1 | 13 R508, 17 R617 | 0 -/
  paused : Bool := false
  /-- latched edges of event inputs | list of inputs | 10 R389 | none -/
  edges : List Nat := []
  /-- CYCLE has reached CYCCMP | 1 | 10 R388 | 0 -/
  cycHit : Bool := false
  /-- instructions retired | 64 | 10 R391 | 0 -/
  icount : Nat := 0
  /-- last confirmed checkpoint | record, optional | 10 R399, R404 | none -/
  ckpt : Option Ckpt := none
  /-- input journal since the checkpoint | list, at most 4,096 | 10 R400 | empty -/
  inJ : List Word := []
  /-- output journal since the checkpoint: address and data | list, at most 4,096 | 10 R400 | empty -/
  outJ : List (Nat × Word) := []
  deriving DecidableEq, Repr

/-- A withdrawal that a gate has not answered (11 R414, R415): hart, die and target, the store or the load that timed out, and whether
BERRREC records it. -/
structure Withdrawal where
  /-- hart | 1 | 11 R414 | none waits -/
  h : Nat
  /-- die that is asked | 3 | 11 R414 | none waits -/
  die : Nat
  /-- gate target that is asked | 5 | 11 R414 | none waits -/
  target : Nat
  /-- the store that timed out | record, optional | 11 R414 | none waits -/
  store : Option StoreEnt
  /-- the load that timed out | record, optional | 11 R414 | none -/
  load : Option LoadEnt := none
  /-- BERRREC records it | 1 | 11 R415 | none waits -/
  recorded : Bool
  deriving DecidableEq, Repr

/-- The control cores of a die (10). -/
structure CoreDie where
  /-- the two harts | records | 10 R370 | at the boot ROM -/
  hart : FMap Nat Hart := []
  /-- SWEVT: bit h raises input 1 of hart h | 2 | 10 R388 | 0 -/
  swevt : Nat := 0
  /-- retired pairs | list | 10 R394, R402 | none -/
  retired : List Nat := []
  /-- ROLLBACKS of a hart | 32 each | 10 R394 | 0 -/
  rollbacks : FMap Nat Nat := []
  /-- meridian of the last divergence of a pair | 64 per pair | 10 R402 | none -/
  diverged : FMap Nat Nat := []
  /-- withdrawals not yet answered | list | 11 R414 | none -/
  withdrawn : List Withdrawal := []
  deriving DecidableEq, Repr

/-- The control cores. -/
structure CoreSt where
  /-- control cores of a die | record per die | 10 R370 | reset -/
  dies : FMap Nat CoreDie := []
  deriving DecidableEq, Repr

/-- An active debug token: its grants and its valid entries (11 R432). -/
structure Token where
  /-- grants | 64 | 11 R432 | none active -/
  grants : Nat
  /-- valid entries | list of words | 11 R432 | none active -/
  entries : List Word
  deriving DecidableEq, Repr

/-- The access gates (11). -/
structure GateSt where
  /-- active token | record, optional | 11 R433 | none -/
  token : Option Token := none
  deriving DecidableEq, Repr

/-- A firmware update over PLDM (13 R512). -/
structure Pldm where
  /-- 0 idle, 1 learning components, 2 ready to transfer, 3 downloading, 4 verified and applied, 5 failed | 3 | 13 R512 | 0 -/
  phase : Nat := 0
  /-- flash that is written | 1 | 13 R512 | 0 -/
  flash : Nat := 0
  /-- VerifyComplete result: cause code | 8 | 13 R512 | 0 -/
  result : Nat := 0
  /-- replies that the part has sent: command and value | list | 13 R512 | empty -/
  replies : List (Nat × Nat) := []
  deriving DecidableEq, Repr

/-- A flash command that runs (13 R526). -/
structure FlashCmd where
  /-- flash | 1 | 13 R526 | none runs: 0 -/
  port : Nat := 0
  /-- OP | 4 | 13 R526 | none runs: 0 -/
  op : Nat := 0
  /-- LEN | 8 | 13 R526 | none runs: 0 -/
  len : Nat := 0
  /-- ADDR | 32 | 13 R526 | none runs: 0 -/
  addr : Nat := 0
  deriving DecidableEq, Repr

/-- The start, staging and activation (13). -/
structure BootSt where
  /-- contents of the flashes A and B that differ from erased bytes | bytes | 13 R494 | none listed: erased (log entry 14) -/
  flash : FMap Nat (FMap Nat Byte) := []
  /-- flashes that do not answer | list | 13 R496 | none (log entry 14) -/
  noFlash : List Nat := []
  /-- part resets so far | number | the model's own counter, which indexes the drawn nonces (11 R433) | 0 -/
  resets : Nat := 0
  /-- the part is held in part reset by a rail or PRST# | 1 | 13 R490, 20 R663 | 1, until POWER_UP -/
  held : Bool := true
  /-- PRST# is held low | 1 | 13 R490 | 0 -/
  prst : Bool := false
  /-- the start has failed and a restart waits | 1 | 13 R499 | 0 -/
  failed : Bool := false
  /-- start timer runs | 1 | 13 R491, R511 | 0 -/
  timer : Bool := false
  /-- digest of the running body, kept by the signature engine | 384 | 13 R498 | 0 -/
  digest : Nat := 0
  /-- digest of the staged body | 384 | 13 R506 | 0 -/
  stagedDigest : Nat := 0
  /-- flash of the staged image | 1 | 13 R506 | 0 -/
  stagedFlash : Nat := 0
  /-- an image is staged | 1 | 13 R506 | 0 -/
  staged : Bool := false
  /-- OP STAGE that runs: the flash | 1, optional | 13 R506 | none -/
  staging : Option Nat := none
  /-- length of the running body in bytes | 32 | 13 R495 | 0 -/
  length : Nat := 0
  /-- entry offset of the running body | 32 | 13 R495, R504 | 0 -/
  entry : Nat := 0
  /-- result of image A in this start | 8 | 13 R502, R521 | 0xFF, not tried -/
  resA : Nat := 0xFF
  /-- result of image B in this start | 8 | 13 R502, R521 | 0xFF, not tried -/
  resB : Nat := 0xFF
  /-- flash tried first in this start | 1 | 13 R502 | 0 -/
  first : Nat := 0
  /-- flash of the image that ran before a trial | 1 | 13 R511 | 0 -/
  previous : Nat := 0
  /-- last activation tag | 8 | 13 R524 | 0 -/
  actTag : Nat := 0
  /-- last migration tag | 8 | 13 R524 | 0 -/
  migTag : Nat := 0
  /-- tags of activation instances that expired without a verdict, until they are given again | list | 01 R34, R35 | none -/
  actExpired : List Nat := []
  /-- tags of migration instances that expired without a verdict, until they are given again | list | 01 R34, R35 | none -/
  migExpired : List Nat := []
  /-- flash command that runs on a die | record per die | 13 R526 | none -/
  flcmd : FMap Nat FlashCmd := []
  /-- an activation waits for a capo to end | 1 | 13 R507 | 0 -/
  actWaits : Bool := false
  /-- dies that have not yet written HREADY | list | 13 R508 | none -/
  needReady : List Nat := []
  /-- dies that have not yet written RESUME | list | 13 R508 | none -/
  needResume : List Nat := []
  /-- step 3 of the handover has been completed on every die | 1 | 13 R509 | 0 -/
  copied : Bool := false
  /-- firmware update | record | 13 R512 | idle -/
  pldm : Pldm := {}
  /-- BMCSEL as sampled at the release of part reset: low is MCTP over SMBus, high MCTP over I3C | 1 | 18 R640 | DESIGN CHOICE 0: no release has sampled it (log entry 2) -/
  bmcsel : Bool := false
  /-- PFAULT# is asserted | 1 | 12 R468, 13 R500 | 0 -/
  pfault : Bool := false
  deriving DecidableEq, Repr

/-- A record of the recorder (17 R613), without its meridian. -/
structure RecBody where
  /-- TYPE | 8 | 17 R613 | none -/
  typ : Nat
  /-- SRC | 16 | 17 R613 | none -/
  src : Nat
  /-- AUX | 16 | 17 R613 | none -/
  aux : Nat
  /-- body | list of bytes | 17 R613 | none -/
  body : List Byte
  deriving DecidableEq, Repr

/-- A record of a replay feed (17 R620), with its place in the stream, and for a HDR record the packet that its raw header spells (the
header's format is the standard's). -/
structure FeedRec where
  /-- the record | record | 17 R620 | none -/
  rcd : RecBody
  /-- packet that the raw header of a HDR record spells | record | 17 R620 | empty -/
  tlp : Tlp := {}
  /-- number of the record's segment | 32 | 17 R620 | 0 -/
  seq : Nat := 0
  /-- index of the record in its segment | number | 17 R620 | 0 -/
  index : Nat := 0
  deriving DecidableEq, Repr

/-- An open segment of a channel (17 R610, R612). -/
structure OpenSeg where
  /-- segment number | 11 | 17 R610 | none open -/
  seg : Nat
  /-- bytes used | 17 | 17 R612 | 0 -/
  used : Nat := 0
  /-- records in it | number | 17 R612 | 0 -/
  nrec : Nat := 0
  /-- FLAGS of its header | 8 | 17 R612 | 0 -/
  flags : Nat := 0
  deriving DecidableEq, Repr

/-- The contents that an anchor copies (17 R617). -/
structure AnchorSnap where
  /-- control SRAM | list of address and byte | 17 R617 | none -/
  sram : List (Nat × Byte)
  /-- newest bank | 14 MiB | 17 R617 | none -/
  newest : FMap Nat Word
  /-- shadow bank | 14 MiB | 17 R617 | none -/
  shadow : FMap Nat Word
  /-- page-table area | 4 MiB | 17 R617 | none -/
  ptab : FMap Nat Word
  deriving DecidableEq, Repr

/-- A die's recorder (17). -/
structure RecDie where
  /-- open segment of a channel: 0 control, 1 header, 2 payload by owner, 3 anchor; key is channel and owner | record | 17 R610 | none -/
  openSeg : FMap (Nat × Nat) OpenSeg := []
  /-- segments taken so far from the fresh store | at most 2,048 | 17 R610 | 0 -/
  fresh : Nat := 0
  /-- fresh segments passed over while their REC domain was not ON | list | 17 R622 | none -/
  skipped : List Nat := []
  /-- sealed segments, oldest first | list | 17 R610 | empty -/
  sealed : List Nat := []
  /-- frozen segments | list | 17 R615 | none -/
  frozen : List Nat := []
  /-- segments still to seal after the trigger | count, optional | 17 R615 | none -/
  post : Option Nat := none
  /-- control records that wait for capacity | list | 17 R608 | empty -/
  staged : List RecBody := []
  /-- foreign writes to control SRAM that wait at its crossing: MID, offset, bytes | list | 17 R608 | empty -/
  waiting : List (Nat × Nat × List Byte) := []
  /-- records dropped per channel since its last record: count, first and last meridian | record | 17 R610 | none -/
  gap : FMap Nat (Nat × Nat × Nat) := []
  /-- packets seen by the sampler of a point: port or span window | count | 17 R626 | 0 -/
  seen : FMap (Nat × Nat) Nat := []
  /-- anchor that is copied: the control SRAM, the newest and the shadow bank and the page-table area as they stood | optional | 17 R617 | none -/
  anchor : Option AnchorSnap := none
  /-- records of a replay feed that have not been used | list | 17 R620 | empty -/
  feed : List FeedRec := []
  deriving DecidableEq, Repr

/-- The recorder. -/
structure RecSt where
  /-- recorder of a die | record per die | 17 R606 | idle -/
  dies : FMap Nat RecDie := []
  /-- REC.DSEL of a partition's endpoint: die and segment chosen for a dump | 32 each | 17 R618 | DESIGN CHOICE 0 -/
  dsel : FMap Nat Word := []
  /-- replies to the BMC: command, die, segment and its bytes | list | 17 R618 | empty -/
  replies : List (Nat × Nat × Nat × List Byte) := []
  deriving DecidableEq, Repr

end Sys2Proof.Machine
end

