-- ==== Sys2Proof/Machine/Operand.lean ====
section
/-! DEFINITION. The operands of commands that are not plain numbers. -/

namespace Sys2Proof.Machine

/-- The master of a register access: a hart (die, 0 or 1), the BMC, the management endpoint of a partition, the debug
master, or the part itself (11 R421). -/
inductive Master where
  | hart (d h : Nat)
  | bmc
  | endpoint (n : Nat)
  | debug
  | dma (d c : Nat)
  deriving DecidableEq, Repr

/-- Which assist timer expires (01 R33, R34): the function and its instance. -/
inductive AssistTimer where
  | peg (d pp : Nat)
  | retrain (d pp : Nat)
  | hotplug (slot : Nat)
  | xlt (d entry : Nat)
  | dma (d c : Nat)
  | leak (d : Nat)
  | activation
  | migration
  | police (d entry : Nat)
  deriving DecidableEq, Repr

/-- What the ECC of the table words that a course's lookups read finds (04 R132, R143): words corrected, and the first uncorrectable word with
the headers of the port that stand behind in the courses. -/
structure LookupEcc where
  corrected : Nat := 0
  bad : Option Nat := none
  behind : Nat := 0
  deriving DecidableEq, Repr

/-- What the receiver of a lane under test finds (02 R71, R674): signal, lock, checker synchronised, bits and errors
counted. -/
structure LaneRx where
  sigdet : Bool := false
  lock : Bool := false
  sync : Bool := false
  bits : Nat := 0
  errors : Nat := 0
  deriving DecidableEq, Repr

/-- What the eye monitors of a lane find in a peg (02 R62, R63): the figure of merit of each preset, the sets that the refinement tries with
theirs, and the one that the verification measures. -/
structure PegLane where
  fom : List Nat := []
  tries : List (List Nat × Nat) := []
  verify : Nat := 0
  deriving DecidableEq, Repr

/-- A peg of a training (02 R62, R63): its rate, the step in which the command leaves it (1 the sweep, 2 the refinement, 4 the verification,
5 its end), and what each lane finds. -/
structure PegRun where
  rate : Nat := 6
  stage : Nat := 5
  lanes : List PegLane := []
  deriving DecidableEq, Repr

/-- What a training finds that the lanes and the partner decide (03 R97; 02 R57 to R63): whether the attempt goes on, whether the partner is a
Kloend part, the rate code and lanes reached, Flit Mode, reversal, per lane the polarity, the set that the partner asks for (a preset 0 to 10 or 15
for a custom set, and its coefficients) and the CTLE code, the pegs, the round trips of the CTRL echoes in ns, whether the training is through
with this command, and whether the partner supports Scaled Flow Control (06 R216). -/
structure TrainResult where
  reached : Bool := true
  kloend : Bool := true
  rate : Nat := 7
  width : Nat := 16
  flit : Bool := false
  reversed : Bool := false
  polinv : List Bool := []
  want : List (Nat × List Nat) := []
  ctle : List Nat := []
  pegs : List PegRun := []
  echoes : List Nat := []
  through : Bool := true
  scaled : Bool := true
  deriving DecidableEq, Repr

/-- A data link layer packet (03 R78, R79): acknowledgement, negative acknowledgement, selective in Flit Mode, or a credit
update of a class (header and data credits added). -/
inductive Dllp where
  | ack (seq : Nat)
  | nak (seq : Nat)
  | selNak (seq : Nat)
  | updateFC (cls hdr data : Nat)
  deriving DecidableEq, Repr

/-- What the read of a packet's cells finds (06 R223, R224): nothing, a corrected word in a cell, an uncorrectable word in
the payload, one in another byte of the record, or an uncorrectable descriptor of a cell. -/
inductive Ecc where
  | clean
  | corrected (cell : Nat)
  | payload
  | header
  | descriptor (cell : Nat)
  deriving DecidableEq, Repr

/-- A request of lane margining at the receiver (02 R75; PCI Express Base Specification): the error count limit, the error counter cleared, normal
settings, or a step in a direction (0 left, 1 right, 2 up, 3 down). -/
inductive MarginReq where
  | limit (n : Nat)
  | clear
  | normal
  | step (dir n : Nat)
  deriving DecidableEq, Repr

/-- What a configuration request addresses (08 R293), as the almanac image lays the function out. -/
inductive CfgWhat where
  /-- a read of a word -/
  | read
  /-- Followed: bus numbers (primary, secondary, subordinate) -/
  | busNumbers (p s u : Nat)
  /-- Followed: windows, Command bits, Bridge Control enables, BARs of the management endpoint; with the Bus Master Enable
  bit where the word is the endpoint's Command register -/
  | followed (bme : Option Bool)
  /-- Followed: an emulated BAR of a lent function -/
  | bar (i : Nat)
  /-- Live: ACS Control: SV, TB, RR, CR, UF, DT -/
  | acs (sv tb rr cr uf dt : Bool)
  /-- Live: Power Management Control/Status: D-state and PME_En -/
  | power (dstate : Nat) (pmeEn : Bool)
  /-- Live: MSI-X: enabled, masked vectors -/
  | msix (en : Bool) (masked : List Nat)
  /-- Live: Page Request and PASID control: enable, allocation, PASID Enable -/
  | pri (en : Bool) (alloc : Nat) (pasid : Bool)
  /-- Live: Device or Link Control, ARI Forwarding Enable -/
  | live (ari : Bool)
  /-- Live: DPC Control: enabled, completion control CA, interrupt enabled -/
  | dpc (en ca int : Bool)
  /-- Live: MSI of a virtual port: enabled, address, data -/
  | msi (en : Bool) (addr data : Nat)
  /-- Action: Secondary Bus Reset -/
  | secondaryBusReset
  /-- Action: Initiate FLR -/
  | initiateFlr
  /-- Action: Link Retrain -/
  | linkRetrain
  /-- Action: Power Controller Control: 1 is off -/
  | powerController (off : Bool)
  /-- the word of Slot Capabilities of a virtual port (08 R305) -/
  | slotCap
  /-- the word of Slot Control and Slot Status of a virtual port; a write clears the bits of Slot Status that `clear` has and
  stores Slot Control (08 R293, R306) -/
  | slotStatus (clear ctl : Nat)
  /-- the word of Link Control and Link Status of a virtual port; a write may clear Link Bandwidth Management Status (08 R307, 12 R459) -/
  | linkStatus (clear : Bool)
  /-- the word of AER Uncorrectable Error Status of a port function; a write clears the bits that `clear` has (08 R303, 12 R459) -/
  | aer (clear : Nat)
  /-- the word of AER Correctable Error Status of a port function; a write clears the bits that `clear` has (12 R459) -/
  | aerCor (clear : Nat)
  /-- a word of the AER Header Log of a port function (12 R459) -/
  | aerHeader (i : Nat)
  /-- the word of DPC Status of a virtual port (12 R461) -/
  | dpcStatus
  /-- the word of Lane Margining Control and Status of a lane: the request that a write makes of the receiver (02 R75) -/
  | margin (lane : Nat) (q : MarginReq)
  /-- every other writable bit -/
  | stored
  /-- a register that the lent function's context marks as owner-only -/
  | ownerOnly (cls : Nat)
  /-- a request to a device or function of a lent function's bus that is not there -/
  | absent
  deriving DecidableEq, Repr

/-- What a start meets that the rules leave to the world: the dies that pass self-test, the reference clocks present, whether
the lead die's PLL locks and every die's start operating point is acknowledged, the flashes whose body does not read, the dies
whose boot ROM or image version differs, the level of the BMCSEL land, the round trip in ns that each span link end measures, and the cells that fail self-test (13 R491,
R496, R499; 01 R24; 18 R640; 03 R87; 06 R229). -/
structure StartEnv where
  pass : List Nat := []
  noFlash : List Nat := []
  refA : Bool := true
  refB : Bool := true
  pll : Bool := true
  avs : Bool := true
  badBody : List Nat := []
  versions : List Nat := []
  bmcsel : Bool := false
  spanRtt : FMap (Nat × Nat) Nat := []
  badCells : List (Nat × Nat) := []
  deriving DecidableEq, Repr

/-- What a management reset meets that the rules leave to the world: the flashes whose body does not read, the dies whose version
differs, the isolated dies that fail their self-test, and for those that rejoin the round trips of span links and the cells that fail (13 R496,
R504, R505; 01 R24; 12 R467; 03 R87; 06 R229). -/
structure WarmEnv where
  badBody : List Nat := []
  versions : List Nat := []
  failed : List Nat := []
  spanRtt : FMap (Nat × Nat) Nat := []
  badCells : List (Nat × Nat) := []
  deriving DecidableEq, Repr

/-- What a die that rejoins meets: the round trips of its span links, and the cells that fail its self-test (12 R467; 03 R87; 06 R229). -/
structure RejoinEnv where
  spanRtt : FMap (Nat × Nat) Nat := []
  badCells : List (Nat × Nat) := []
  deriving DecidableEq, Repr

/-- A rail of the part (20 R659); the core rails of several dies may go out of range together (01 R23). -/
inductive Rail where
  | vcore (d : Nat) (also : List Nat)
  | vlane
  | vio18
  | vio33
  | vaon (lost : Bool)
  | vhild
  deriving DecidableEq, Repr

/-- The anchor from which a replay starts: lines of the control SRAM and the table store, and the checkpoints of both harts
(17 R617, R620). -/
structure Anchor where
  lines : List (Nat × List Byte) := []
  harts : List Ckpt := []
  deriving DecidableEq, Repr

/-- What a register access meets that the rules leave to the world: a start or a management reset that the write commands, what a
lane test's receiver finds, whether a die that a RELEASE verdict lets rejoin passes its self-test and its version check,
the anchor and feed of a replay that the write starts or feeds, what a read of a cell finds (06 R223), DIES and IMGVER of the recording that a request for REPLAY is about (17 R619), and the faults whose set reaches a bit in the cycle in which this write
would clear it (00 R8). -/
structure BusEnv where
  start : StartEnv := {}
  warm : WarmEnv := {}
  rx : LaneRx := {}
  pass : Bool := true
  ok : Bool := true
  anchor : Anchor := {}
  feed : List FeedRec := []
  ecc : Ecc := .clean
  sets : List FaultRec := []
  ptbad : Bool := false
  recording : Nat × Nat := (0, 0)
  deriving DecidableEq, Repr

end Sys2Proof.Machine
end

