-- ==== Sys2Proof/Syntax.lean ====
section
/-! DEFINITION. The commands of the part: one constructor per row of the opcode table, with the row's operands. Dies,
ports and other units are numbers as the spec numbers them; what a standard outside the spec answers, or what the spec
leaves to the hardware's choice, is an operand (log entry 4). -/

namespace Sys2Proof

open Machine

/-- The commands of the part. -/
inductive Instr where
  /-- POWER_UP (R663): All rails have been in range without a break for 2 ms, so part reset is released unless PRST# is low. -/
  | powerUp (env : StartEnv) (prst : Bool)
  /-- PRST_RELEASE (R490): PRST# is released after being held low for at least 10 µs, which causes a part reset. -/
  | prstRelease (env : StartEnv)
  /-- START_TIMER_EXPIRE (R492): The start timer STIME expires before SERVICE, so the start or trial fails. -/
  | startTimerExpire (env : WarmEnv)
  /-- FAILED_START_RESTART (R499): 10 ms after a failed start, the part restarts by a part reset. -/
  | failedStartRestart (env : StartEnv)
  /-- SERVICE (R492): A write of BOOT.CTL.SERVICE ends a start or a trial successfully. -/
  | service (d : Nat)
  /-- FAIL (R519): The firmware declares its start failed with cause 0x15. -/
  | fail (d : Nat)
  /-- CLRATT (R501): A write of BOOT.CTL.CLRATT clears ATTEMPTS. -/
  | clratt (d : Nat)
  /-- PRESET (R519): A write of BOOT.CTL.PRESET causes a part reset. -/
  | preset (d : Nat) (env : StartEnv)
  /-- MRESET (R519): A write of BOOT.CTL.MRESET starts a management reset, or activates an armed image on the KF-8512. -/
  | mreset (d : Nat) (env : WarmEnv)
  /-- HREADY (R508): The running firmware writes HREADY, so the harts stop, the staged body is copied and the harts enter HANDOVER. -/
  | hready (d : Nat)
  /-- RESUME (R508): The new firmware writes RESUME, and when the last die has done so the pause ends and the trial begins. -/
  | resume (d : Nat)
  /-- HANDOVER_TIMEOUT (R509): HREADY or RESUME is missing in time, so the handover turns into a management reset. -/
  | handoverTimeout (env : WarmEnv)
  /-- STAGE (R506): OP STAGE reads an image from the flash that does not hold the running image, checks it and copies it into every staging area. -/
  | stage (d src : Nat)
  /-- STAGE_COMPLETE (R506): Staging ends, and BOOT.ACT shows the image staged or the staging failure. -/
  | stageComplete (badBody : List Nat)
  /-- ACTIVATE (R507): OP ACTIVATE starts a handover or arms the staged image, or waits for an activation verdict. -/
  | activate (who : Master) (d : Nat)
  /-- DISCARD (R523): OP DISCARD discards the staged image. -/
  | discard (d : Nat)
  /-- ACTV_ACTIVATE (R507): An ACTIVATE verdict lets the waiting activation proceed. -/
  | actvActivate (who : Master) (d tag : Nat)
  /-- ACTV_REFUSE (R507): A REFUSE verdict ends the activation request with STATUS 6. -/
  | actvRefuse (who : Master) (d tag : Nat)
  /-- SETTINGS_MIGRATION (R515): On its first start an image migrates or defaults settings records and rewrites both copies. -/
  | settingsMigration (d stat : Nat) (report : List Word) (store : List Byte)
  /-- MIGV_MIGRATE (R516): A MIGRATE verdict writes the settings store as planned. -/
  | migvMigrate (who : Master) (d tag : Nat)
  /-- MIGV_DEFAULTS (R516): A DEFAULTS verdict returns every setting to its default and writes an empty store. -/
  | migvDefaults (who : Master) (d tag : Nat)
  /-- FLASH_READ (R526): The READ command reads flash bytes into BOOT.FLBUF. -/
  | flashRead (d : Nat) (v : Word)
  /-- FLASH_PROGRAM (R526): The PROGRAM command writes BOOT.FLBUF into flash, unless the range is protected. -/
  | flashProgram (d : Nat) (v : Word)
  /-- FLASH_ERASE_4K (R526): The ERASE 4 KiB command erases a 4 KiB flash sector. -/
  | flashErase4k (d : Nat) (v : Word)
  /-- FLASH_ERASE_64K (R526): The ERASE 64 KiB command erases a 64 KiB flash sector. -/
  | flashErase64k (d : Nat) (v : Word)
  /-- FLASH_COMMAND_END (R526): A flash command completes with done or a flash error. -/
  | flashCommandEnd (d : Nat) (ok : Bool) (left : List Byte)
  /-- FLASH_TIMEOUT (R526): A flash command times out after 500 ms. -/
  | flashTimeout (d : Nat) (left : List Byte)
  /-- SVN_BURN (R527): BURN burns FLOOR into fuses for the next part reset. -/
  | svnBurn (d : Nat) (v : Word)
  /-- QUERY_DEVICE_IDENTIFIERS (R512): The PLDM QueryDeviceIdentifiers command returns the vendor ID and PART.ID descriptor. -/
  | queryDeviceIdentifiers
  /-- GET_FIRMWARE_PARAMETERS (R512): The PLDM GetFirmwareParameters command returns the component parameters. -/
  | getFirmwareParameters
  /-- GET_STATUS (R512): The PLDM GetStatus command returns the update status. -/
  | getStatus
  /-- REQUEST_UPDATE (R512): The PLDM RequestUpdate command begins a firmware update. -/
  | requestUpdate
  /-- PASS_COMPONENT_TABLE (R512): The PLDM PassComponentTable command passes the single image component. -/
  | passComponentTable
  /-- UPDATE_COMPONENT (R512): The PLDM UpdateComponent command starts the transfer into the non-running flash. -/
  | updateComponent (flash : Nat)
  /-- FIRMWARE_DATA_RECEIVE (R512): Data answering RequestFirmwareData is written into the flash as it arrives. -/
  | firmwareDataReceive (off : Nat) (data : List Byte)
  /-- TRANSFER_COMPLETE (R512): TransferComplete ends the transfer, and the part stages the written flash and sends VerifyComplete and ApplyComplete. -/
  | transferComplete (badBody : List Nat)
  /-- ACTIVATE_FIRMWARE (R512): The PLDM ActivateFirmware command requests activation as R507 and R510 state. -/
  | activateFirmware (selfContained : Bool) (env : WarmEnv)
  /-- CANCEL_UPDATE_COMPONENT (R512): The PLDM CancelUpdateComponent command discards the staged image. -/
  | cancelUpdateComponent
  /-- CANCEL_UPDATE (R512): The PLDM CancelUpdate command discards the update and the staged image. -/
  | cancelUpdate
  /-- MODE_REQ_MINIMAL (R29): A request for MINIMAL is not in the transition table and is refused. -/
  | modeReqMinimal
  /-- MODE_REQ_HELD (R29): A request for HELD is carried by a capo with full drain. -/
  | modeReqHeld
  /-- MODE_REQ_TRANSPARENT (R29): A request for TRANSPARENT is checked and carried by a capo. -/
  | modeReqTransparent
  /-- MODE_REQ_PARTITIONED (R29): A request for PARTITIONED is checked, drained if needed and carried by a capo. -/
  | modeReqPartitioned
  /-- MODE_REQ_SHARED (R29): A request for SHARED is checked, drained if needed and carried by a capo. -/
  | modeReqShared
  /-- MODE_REQ_FEDERATED (R29): A request for FEDERATED is accepted only with a Nerov link trained and is carried by a capo. -/
  | modeReqFederated
  /-- MODE_REQ_DIAGNOSTIC (R71): A request for DIAGNOSTIC takes the selected ports down, or returns DIAGNOSTIC to BASE. -/
  | modeReqDiagnostic
  /-- MODE_REQ_REPLAY (R619): A request for REPLAY from HELD is accepted with a REPLAY grant and a matching recording. -/
  | modeReqReplay (dies imgver : Nat)
  /-- DIAGNOSTIC_ENTRY_END (R29): Every selected port has stopped admitting TLPs and gone down, so CUR becomes DIAGNOSTIC. -/
  | diagnosticEntryEnd
  /-- DIAGNOSTIC_EXIT_END (R29): Tests are cleared and every selected port is in DETECT, so CUR becomes BASE. -/
  | diagnosticExitEnd
  /-- REPLAY_ENTRY_END (R29): The replay lane map is applied and port 0.00 is in DETECT, so CUR becomes REPLAY. -/
  | replayEntryEnd
  /-- PARTITION_DRAIN_END (R194): The drain before a mode capo ends, and the capo is issued. -/
  | partitionDrainEnd
  /-- PARTITION_DRAIN_TIMEOUT (R194): A drain that has not ended within PTIME refuses the mode request with STATUS 5. -/
  | partitionDrainTimeout
  /-- ASSIST_TIMER_EXPIRE (R34): A function's assist timer expires with no valid verdict, so the hardware-mode action is taken. -/
  | assistTimerExpire (t : AssistTimer)
  /-- REGISTER_WRITE (R7): A write to a register that has no row of its own stores, clamps or ignores values as its access code and field state. -/
  | registerWrite (who : Master) (addr width : Nat) (v : Word) (env : BusEnv)
  /-- MERIDIAN_OFFSET_MEASURE (R24): A die measures its meridian offset to the lead die over the span links. -/
  | meridianOffsetMeasure (d : Nat) (offset : Int)
  /-- MERIDIAN_RESYNC_END (R41): Slewing brings the offset within 2 ns and continuous steering resumes. -/
  | meridianResyncEnd (d : Nat)
  /-- MERIDIAN_WRAP (R40): The meridian wraps to zero and WRAPS is incremented. -/
  | meridianWrap
  /-- REFCLK_LOSS (R667): The clock monitor declares the reference clock in use lost, and the die switches to the other clock. -/
  | refclkLoss (d : Nat)
  /-- APPLY (R54): APPLY checks the staged lane map and retrains every port whose lanes or width differ. -/
  | apply (d : Nat)
  /-- LANE_TXEQ_WRITE (R59): A write of LANE.TXEQ with OVR forces coefficients, and leaves the register unchanged if they break R58. -/
  | laneTxeqWrite (d ll : Nat) (v : Word)
  /-- PEGGO (R64): A GO write to LANE.PEGGO submits a peg verdict for all lanes of the port. -/
  | peggo (who : Master) (d : Nat) (v : Word)
  /-- NEROV_FAST_EXIT (R69): A Nerov lane leaves electrical idle by a 64-UI training burst and sends its first flit. -/
  | nerovFastExit (d pp lane : Nat) (locked : Bool)
  /-- LANE_TEST_WRITE (R71): Setting LOOP, PAT, GEN or CHK starts a loopback, generator or checker, or is refused. -/
  | laneTestWrite (d ll : Nat) (v : Word) (rx : LaneRx)
  /-- INJECT (R73): INJECT inverts one bit of the generator output. -/
  | inject (d ll : Nat)
  /-- CLR (R74): CLR clears the error and bit counters. -/
  | clr (d ll : Nat)
  /-- LANE_TEST_END (R56): The last test on an unused quad ends, and with AUTO the quad is turned off. -/
  | laneTestEnd (d ll : Nat)
  /-- PCIE_REPLAY_TIMER_EXPIRE (R78): The PCIe replay timer expires and the port replays TLPs, entering Recovery or going down at the limits. -/
  | pcieReplayTimerExpire (d pp : Nat)
  /-- PCIE_LINK_TRAIN (R97): A PCIe port follows the LTSSM and sets TRAIN on each return to Detect without reaching L0. -/
  | pcieLinkTrain (d pp : Nat) (r : TrainResult)
  /-- FLIT_RECEIVE (R85): A Nerov or span flit is checked, classified by sequence, stored or discarded, and its trailer is processed. -/
  | flitReceive (d i : Nat) (f : Flit)
  /-- ACK_TIMER_EXPIRE (R86): The ack timer of the oldest unacknowledged flit expires and the flit is replayed. -/
  | ackTimerExpire (d i : Nat)
  /-- RTT_MEASURE (R87): CTRL echo flits measure the round trip and the part recomputes H_min and the ack timer. -/
  | rttMeasure (d i rtt : Nat)
  /-- LANE_MARKED_BAD (R92): A lane whose error count within 1 µs reaches THRESH is marked bad. -/
  | laneMarkedBad (d i lane : Nat) (spares : Nat)
  /-- KEEP (R96): A KEEP retrain verdict keeps the link up and restarts replay counts after the retrain. -/
  | keep (who : Master) (d pp tag : Nat)
  /-- STEPDOWN (R96): A STEPDOWN verdict retrains the link at the next lower rate. -/
  | stepdown (who : Master) (d pp tag : Nat)
  /-- DOWN (R96): A DOWN verdict takes the link down at once. -/
  | down (who : Master) (d pp tag : Nat)
  /-- NEROV_TRAIN (R97): A Nerov link trains through detect, lock, peg, rate change and round-trip measurement to UP. -/
  | nerovTrain (d pp : Nat) (r : TrainResult)
  /-- NEROV_TRAIN_TIMEOUT (R97): A partner that does not complete step 2 within 24 ms sends the link back to DETECT and sets TRAIN. -/
  | nerovTrainTimeout (d pp : Nat)
  /-- LINK_UP (R98): A link reaches UP, and TLPs held in grace leave in order. -/
  | linkUp (d pp : Nat)
  /-- LINK_DOWN (R98): A PCIe port or Nerov link goes down and its traffic is held for the grace period. -/
  | linkDown (d pp : Nat)
  /-- GRACE_TIMER_EXPIRE (R98): The grace timer expires, so held TLPs and later arrivals are flushed. -/
  | graceTimerExpire (d pp : Nat)
  /-- SPAN_LINK_DOWN (R100): A span link goes down and the sender resends its held copies on two-hop paths. -/
  | spanLinkDown (d e : Nat)
  /-- LINK_CFG_WRITE (R103): A write of LINK.CFG changes kind, rate, replay limit or grace, and clearing ENABLE takes the link down. -/
  | linkCfgWrite (d i : Nat) (v : Word)
  /-- TLP_ADMIT (R112): A received TLP passes the link and formation checks, is admitted into buffer cells, stamped and queued for a course. -/
  | tlpAdmit (d pp : Nat) (t : Tlp) (seq hint : Nat)
  /-- HEADER_ENTER_COURSE (R116): A header enters a course, runs its program and reaches the verdict stage 32 cycles later. -/
  | headerEnterCourse (d pp : Nat) (single : Bool) (ecc : LookupEcc)
  /-- TABLE_WORD_FETCHED (R143): The fetched copy of an uncorrectable table word is placed in the lookup path and the courses restart. -/
  | tableWordFetched (d pp : Nat)
  /-- TLP_FORWARDING_ENTRY (R136): A decided TLP passes the hardware checks, containment, translation and policing at forwarding entry. -/
  | tlpForwardingEntry (d pp : Nat) (ptbad : Bool)
  /-- TLP_TAG (R145): The forwarding island assigns the stream sequence number and posted fence and queues the TLP. -/
  | tlpTag (d pp : Nat)
  /-- SPAN_RECORD_RECEIVE (R219): The egress die writes a cross-die record into TRANSIT cells and queues it, discarding duplicate tags. -/
  | spanRecordReceive (d e : Nat) (p : Pkt) (hint : Nat) (ecc : Ecc)
  /-- SPAN_RELEASE_REPORT (R219): The ingress die receives a tag-released report and drops its span-pending reference. -/
  | spanReleaseReport (d iport egress tc cls seq : Nat)
  /-- FRET_LOAD (R120): GO in FRET.LOAD checks the staged program against the loader rules and copies it into the shadow bank. -/
  | fretLoad (d : Nat) (v : Word)
  /-- TRAPV_FWD (R138): A TRAPV verdict of FWD forwards the parked TLP. -/
  | trapvFwd (d : Nat) (v : Word)
  /-- TRAPV_FWDM (R138): A TRAPV verdict of FWDM forwards the parked TLP with a mirror copy. -/
  | trapvFwdm (d : Nat) (v : Word)
  /-- TRAPV_HOLD (R138): A TRAPV verdict of HOLD forwards the parked TLP with red held. -/
  | trapvHold (d : Nat) (v : Word)
  /-- TRAPV_REFUSE (R138): A TRAPV verdict of REFUSE refuses the parked TLP. -/
  | trapvRefuse (d : Nat) (v : Word)
  /-- TRAP_TIMER_EXPIRE (R139): A trap timer expires without a verdict and the fallback is applied. -/
  | trapTimerExpire (d pp slot : Nat)
  /-- ADD (R125): rd := ra + rb. -/
  | add (x : Exec) (rd ra rb : Nat)
  /-- SUB (R125): rd := ra − rb. -/
  | sub (x : Exec) (rd ra rb : Nat)
  /-- AND (R125): rd := ra and rb. -/
  | and (x : Exec) (rd ra rb : Nat)
  /-- OR (R125): rd := ra or rb. -/
  | or (x : Exec) (rd ra rb : Nat)
  /-- XOR (R125): rd := ra xor rb. -/
  | xor (x : Exec) (rd ra rb : Nat)
  /-- SLL (R125): Shift left by rb. -/
  | sll (x : Exec) (rd ra rb : Nat)
  /-- SRL (R125): Logical shift right by rb. -/
  | srl (x : Exec) (rd ra rb : Nat)
  /-- SRA (R125): Arithmetic shift right by rb. -/
  | sra (x : Exec) (rd ra rb : Nat)
  /-- SLT (R125): Signed set-less-than. -/
  | slt (x : Exec) (rd ra rb : Nat)
  /-- SLTU (R125): Unsigned set-less-than. -/
  | sltu (x : Exec) (rd ra rb : Nat)
  /-- MIN (R125): Signed minimum. -/
  | min (x : Exec) (rd ra rb : Nat)
  /-- MINU (R125): Unsigned minimum. -/
  | minu (x : Exec) (rd ra rb : Nat)
  /-- MAX (R125): Signed maximum. -/
  | max (x : Exec) (rd ra rb : Nat)
  /-- MAXU (R125): Unsigned maximum. -/
  | maxu (x : Exec) (rd ra rb : Nat)
  /-- CMOVZ (R125): rd := ra if rb is zero. -/
  | cmovz (x : Exec) (rd ra rb : Nat)
  /-- CMOVN (R125): rd := ra if rb is non-zero. -/
  | cmovn (x : Exec) (rd ra rb : Nat)
  /-- CLZ (R125): Count leading zero bits. -/
  | clz (x : Exec) (rd ra : Nat)
  /-- CTZ (R125): Count trailing zero bits. -/
  | ctz (x : Exec) (rd ra : Nat)
  /-- POPC (R125): Count set bits. -/
  | popc (x : Exec) (rd ra : Nat)
  /-- ADDI (R125): Add sign-extended immediate. -/
  | addi (x : Exec) (rd ra imm : Nat)
  /-- ANDI (R125): And with zero-extended immediate. -/
  | andi (x : Exec) (rd ra imm : Nat)
  /-- ORI (R125): Or with zero-extended immediate. -/
  | ori (x : Exec) (rd ra imm : Nat)
  /-- XORI (R125): Xor with zero-extended immediate. -/
  | xori (x : Exec) (rd ra imm : Nat)
  /-- SLLI (R125): Shift left by immediate. -/
  | slli (x : Exec) (rd ra imm : Nat)
  /-- SRLI (R125): Logical shift right by immediate. -/
  | srli (x : Exec) (rd ra imm : Nat)
  /-- SRAI (R125): Arithmetic shift right by immediate. -/
  | srai (x : Exec) (rd ra imm : Nat)
  /-- SLTI (R125): Signed set-less-than immediate. -/
  | slti (x : Exec) (rd ra imm : Nat)
  /-- SLTUI (R125): Unsigned set-less-than immediate. -/
  | sltui (x : Exec) (rd ra imm : Nat)
  /-- LUI (R124): Place the sign-extended immediate in bits 63:16. -/
  | lui (x : Exec) (rd imm : Nat)
  /-- EXTU (R125): Extract an unsigned bit field. -/
  | extu (x : Exec) (rd ra imm : Nat)
  /-- INSU (R125): Insert a bit field into rd. -/
  | insu (x : Exec) (rd ra imm : Nat)
  /-- BEQ (R125): Branch if equal. -/
  | beq (x : Exec) (ra rb off : Nat)
  /-- BNE (R125): Branch if not equal. -/
  | bne (x : Exec) (ra rb off : Nat)
  /-- BLT (R125): Branch if signed less. -/
  | blt (x : Exec) (ra rb off : Nat)
  /-- BGE (R125): Branch if signed greater or equal. -/
  | bge (x : Exec) (ra rb off : Nat)
  /-- BLTU (R125): Branch if unsigned less. -/
  | bltu (x : Exec) (ra rb off : Nat)
  /-- BGEU (R125): Branch if unsigned greater or equal. -/
  | bgeu (x : Exec) (ra rb off : Nat)
  /-- JMP (R125): Branch always. -/
  | jmp (x : Exec) (off : Nat)
  /-- BTST (R125): Branch if bit BIT of ra is 1. -/
  | btst (x : Exec) (ra bit off : Nat)
  /-- BTCL (R125): Branch if bit BIT of ra is 0. -/
  | btcl (x : Exec) (ra bit off : Nat)
  /-- HXF (R126): Set RD to a selected TLP header field. -/
  | hxf (x : Exec) (rd imm : Nat)
  /-- HXB (R127): Set RD to raw header bytes. -/
  | hxb (x : Exec) (rd imm : Nat)
  /-- LK (R128): Look up a bound table and return the action word or 0. -/
  | lk (x : Exec) (rd ra rb handle : Nat) (ecc : LookupEcc)
  /-- LKF (R130): Return word 0 of a flow context. -/
  | lkf (x : Exec) (rd ra : Nat) (ecc : LookupEcc)
  /-- MSET (R133): Set a metadata field from ra. -/
  | mset (x : Exec) (field ra : Nat)
  /-- MSETI (R133): Set a metadata field from the immediate. -/
  | mseti (x : Exec) (field imm : Nat)
  /-- V_FWD (R135): End the program with verdict FWD. -/
  | vFwd (x : Exec) (imm : Nat)
  /-- V_FWDM (R135): End the program with verdict FWDM, forwarding with a mirror copy. -/
  | vFwdm (x : Exec) (imm : Nat)
  /-- V_HOLD (R135): End the program with verdict HOLD. -/
  | vHold (x : Exec) (imm : Nat)
  /-- V_REFUSE (R135): End the program refusing the TLP with a reason code. -/
  | vRefuse (x : Exec) (imm : Nat)
  /-- V_TRAP (R138): End the program parking the TLP for a control core. -/
  | vTrap (x : Exec) (imm : Nat)
  /-- MUL (R376): Low 64 bits of the product. -/
  | mul (d h rd ra rb : Nat)
  /-- MULH (R376): High bits of the signed product. -/
  | mulh (d h rd ra rb : Nat)
  /-- MULHU (R376): High bits of the unsigned product. -/
  | mulhu (d h rd ra rb : Nat)
  /-- MULHSU (R376): High bits of the signed-by-unsigned product. -/
  | mulhsu (d h rd ra rb : Nat)
  /-- DIV (R376): Signed divide, with fixed results for zero divisor and overflow. -/
  | div (d h rd ra rb : Nat)
  /-- DIVU (R376): Unsigned divide. -/
  | divu (d h rd ra rb : Nat)
  /-- REM (R376): Signed remainder. -/
  | rem (d h rd ra rb : Nat)
  /-- REMU (R376): Unsigned remainder. -/
  | remu (d h rd ra rb : Nat)
  /-- JAL (R377): Jump and link. -/
  | jal (d h rd off : Nat)
  /-- JALR (R377): Jump to a register address and link. -/
  | jalr (d h rd ra imm : Nat)
  /-- AUIPC (R377): Add the shifted immediate to pc. -/
  | auipc (d h rd imm : Nat)
  /-- LB (R378): Load a sign-extended byte. -/
  | lb (d h rd ra imm : Nat)
  /-- LH (R378): Load a sign-extended halfword. -/
  | lh (d h rd ra imm : Nat)
  /-- LW (R378): Load a sign-extended word. -/
  | lw (d h rd ra imm : Nat)
  /-- LD (R378): Load 8 bytes. -/
  | ld (d h rd ra imm : Nat)
  /-- LBU (R378): Load a zero-extended byte. -/
  | lbu (d h rd ra imm : Nat)
  /-- LHU (R378): Load a zero-extended halfword. -/
  | lhu (d h rd ra imm : Nat)
  /-- LWU (R378): Load a zero-extended word. -/
  | lwu (d h rd ra imm : Nat)
  /-- SB (R378): Store a byte into the store buffer. -/
  | sb (d h rs ra imm : Nat)
  /-- SH (R378): Store a halfword into the store buffer. -/
  | sh (d h rs ra imm : Nat)
  /-- SW (R378): Store a word into the store buffer. -/
  | sw (d h rs ra imm : Nat)
  /-- SD (R378): Store 8 bytes into the store buffer. -/
  | sd (d h rs ra imm : Nat)
  /-- LDX (R380): Load 8 bytes and place a reservation on the granule. -/
  | ldx (d h rd ra : Nat)
  /-- STX (R418): Store conditionally on the reservation and report the outcome. -/
  | stx (d h rd ra rb : Nat)
  /-- FENCE_S (R382): Order stores before and after the fence. -/
  | fenceS (d h : Nat)
  /-- FENCE_F (R382): Wait for every earlier access and an empty store buffer. -/
  | fenceF (d h : Nat)
  /-- FENCE_I (R382): Full fence that also empties the instruction cache. -/
  | fenceI (d h : Nat)
  /-- WAIT (R396): Drain, check for pending events and sleep in the selected mode. -/
  | wait (d h : Nat)
  /-- SYSREQ (R382): Raise SYSREQ_S or SYSREQ_M. -/
  | sysreq (d h : Nat)
  /-- BRKPT (R382): Raise BRKPT. -/
  | brkpt (d h : Nat)
  /-- TRET (R385): Return from a machine or supervisor trap. -/
  | tret (d h : Nat)
  /-- CRD (R383): Read a CSR. -/
  | crd (d h rd n : Nat)
  /-- CWR (R383): Write a CSR. -/
  | cwr (d h ra n : Nat)
  /-- CMOD (R383): Set or clear CSR bits and return the new value. -/
  | cmod (d h rd ra n : Nat) (set : Bool)
  /-- EVENT_TAKEN (R389): At an instruction boundary, the highest-priority eligible pending event input is taken. -/
  | eventTaken (d h : Nat)
  /-- HART_WAKE (R397): A sleeping hart wakes when an enabled input becomes pending. -/
  | hartWake (d h : Nat)
  /-- CYCCMP_MATCH (R388): CYCLE reaches CYCCMP and asserts event input 2. -/
  | cyccmpMatch (d h : Nat)
  /-- CHECKPOINT (R399): A lockstep pair takes and compares a checkpoint every 10 µs or when a journal fills. -/
  | checkpoint (d h : Nat)
  /-- LOCKSTEP_DIVERGENCE (R401): The comparator finds differing outputs, so the pair rolls back and re-executes from its checkpoint. -/
  | lockstepDivergence (d h : Nat)
  /-- ACCESS_RESPONSE (R408): A response to a hart access arrives, a store reaches its visibility point and the buffer issues its next entry. -/
  | accessResponse (d h : Nat) (load : Option Nat) (env : BusEnv)
  /-- TARGET_TIMEOUT (R414): A hart's target timer expires, so the access errors, the target is fenced and a withdrawal is sent. -/
  | targetTimeout (d h : Nat) (load : Option Nat)
  /-- WITHDRAWAL_ANSWER (R415): The gate answers a withdrawal as undelivered or delivered, and the fence lifts. -/
  | withdrawalAnswer (d h : Nat) (delivered : Bool) (env : BusEnv)
  /-- DEBUG_ACCESS_TIMEOUT (R431): A debug-master access without a response within 100 µs reads zeros or is dropped. -/
  | debugAccessTimeout (d addr : Nat) (write : Bool)
  /-- INSTALL (R433): INSTALL checks the debug token and activates it. -/
  | install (who : Master)
  /-- REVOKE (R443): REVOKE withdraws the active token. -/
  | revoke (who : Master)
  /-- CORE_CLK_SELECT (R434): A write of SEL switches the control island between the fast oscillator and the PLL. -/
  | coreClkSelect (d : Nat) (v : Word)
  /-- STAGING_WRITE (R168): A staging write passes to the lead die, is ordered and applied to every shadow bank. -/
  | stagingWrite (who : Master) (off : Nat) (v : Word) (width : Nat) (worn : List Nat)
  /-- GO (R182): GO in PART.CAPO issues a capo that starts, waits or is refused. -/
  | go (who : Master) (fence : Bool)
  /-- CAPO_FLIT_RECEIVE (R183): A die receives a CAPO flit and flips its shadow bank to the newest epoch. -/
  | capoFlitReceive (d : Nat)
  /-- PAGE_RELOAD_END (R185): An out-of-step die finishes reloading pages and the lead sends it a catch-up CAPO flit. -/
  | pageReloadEnd (d : Nat)
  /-- EPOCH_DRAINED (R188): A die reports the older epoch drained. -/
  | epochDrained (d : Nat)
  /-- EPOCH_RETIRE (R189): Every ACTIVE die reports the epoch drained, so it retires and bank sync starts. -/
  | epochRetire
  /-- BANK_SYNC_END (R189): Bank sync ends, the staging queue is applied and a waiting GO may start. -/
  | bankSyncEnd (d : Nat)
  /-- RESTAMP (R190): From 10 µs after a flip, old-epoch TLPs waiting for a tag are restamped and re-run. -/
  | restamp (d pp : Nat)
  /-- TRANSLATION_SLOW (R191): A translation unfinished after 4 µs enters the fault queue tagged. -/
  | translationSlow (d pp : Nat)
  /-- FENCE_TIMER_EXPIRE (R193): FTIME passes after a port's flip, lifting the epoch fence and setting TAB.ERR.FENCE. -/
  | fenceTimerExpire (d pp tc : Nat)
  /-- SCRUB_PASS (R181): The scrub reads table words, corrects errors and reloads a bad page. -/
  | scrubPass (d corrected : Nat) (badPage : Option (Nat × Nat))
  /-- CELL_DRAW (R208): A writer draws a cell from its recycle pool or the zero pool, or waits. -/
  | cellDraw (d : Nat) (w : Writer) (hint : Nat)
  /-- ZERO_ENGINE_STEP (R210): The zeroing engine zeroes and verifies cells into the zero pool. -/
  | zeroEngineStep (d : Nat) (clean : Bool)
  /-- AUDIT_ROUND (R226): The leaked-buffer audit compares descriptors with holders and marks or reclaims cells. -/
  | auditRound (d : Nat)
  /-- RECLAIM (R228): A RECLAIM leak verdict reclaims the listed untouched cells. -/
  | reclaim (who : Master) (d tag : Nat)
  /-- LEAKV_KEEP (R228): A KEEP leak verdict leaves the listed cells and clears their suspect marks. -/
  | leakvKeep (who : Master) (d tag : Nat)
  /-- BUF_RESERVATION_WRITE (R218): A write of BUF.PRES or BUF.PART is stored, or refused if the shared pool would fall too low. -/
  | bufReservationWrite (d : Nat) (part : Bool) (i : Nat) (v : Word)
  /-- HOLD_QUEUE_RELEASE (R255): The head of a hold queue leaves when the peak bucket allows it. -/
  | holdQueueRelease (flow : Nat)
  /-- HOLD_AGE_EXPIRE (R258): A held head exceeds HAGE and sets SCH.ERR.HOLDAGE. -/
  | holdAgeExpire (flow : Nat)
  /-- PXV_RED (R260): ACTION 0 applies the context's RED to later red TLPs. -/
  | pxvRed (who : Master) (d tag : Nat)
  /-- PXV_HOLD (R260): ACTION 1 holds later red TLPs. -/
  | pxvHold (who : Master) (d tag : Nat)
  /-- PXV_DEMOTE (R260): ACTION 2 demotes later red TLPs to DEMQ. -/
  | pxvDemote (who : Master) (d tag : Nat)
  /-- PXV_REFUSE (R260): ACTION 3 refuses red non-posted requests and holds others. -/
  | pxvRefuse (who : Master) (d tag : Nat)
  /-- PX_QUIET_EXPIRE (R261): A policing exception instance ends after QUIET without red traffic. -/
  | pxQuietExpire (flow : Nat)
  /-- SCHEDULER_SELECT (R265): The egress scheduler selects one TLP from strict queues, the round-robin group or the mirror queue. -/
  | schedulerSelect (d pp : Nat) (ecc : Ecc)
  /-- QSHAPE_WRITE (R266): A write of SCH.QSHAPE sets the shaper level to BURST. -/
  | qshapeWrite (d pp q : Nat) (v : Word)
  /-- HIST_TICK (R267): At each tick the port samples queue depth and delay into histogram bins. -/
  | histTick (d pp : Nat)
  /-- SNAP (R268): SNAP copies the live histograms into the read set and clears them. -/
  | snap (d pp : Nat)
  /-- FACE_CONFIG_REQUEST (R285): The control island answers a configuration request to a host face function from its almanac image and face state. -/
  | faceConfigRequest (n face fn : Nat) (t : Tlp) (what : CfgWhat)
  /-- FOLLOW_TIMEOUT (R294): A held completion not returned within FTIME is returned and sets PAR.ERR.FOLLOW. -/
  | followTimeout (n : Nat)
  /-- ALMLOCK_WRITE (R289): Writing LOCK locks the almanac patch table until part reset. -/
  | almlockWrite (who : Master) (v : Word)
  /-- ALMPATCH_WRITE (R288): A patch entry write is replicated to every die for use at the next function reset. -/
  | almpatchWrite (who : Master) (i word : Nat) (v : Word)
  /-- PROXY_COMPLETION (R299): A completion to PROXY.RID is taken and returned to the borrower. -/
  | proxyCompletion (d : Nat) (t : Tlp)
  /-- PROXY_TIMEOUT (R473): A proxied request times out after 50 ms and the borrower receives UR. -/
  | proxyTimeout (d tag : Nat)
  /-- SECONDARY_BUS_RESET (R301): A virtual port's Secondary Bus Reset acts on what the port is bound to. -/
  | secondaryBusReset (n k : Nat)
  /-- FACE_LINK_RETRAIN (R293): A Link Retrain write at a face function retrains the bound link. -/
  | faceLinkRetrain (n k : Nat)
  /-- POWER_CONTROLLER_CONTROL (R307): A Slot Control write of Power Controller Control requests slot power on or off. -/
  | powerControllerControl (n k : Nat) (off : Bool)
  /-- INITIATE_FLR (R308): Initiate FLR at a management endpoint resets the partition's management function and DMA. -/
  | initiateFlr (n : Nat)
  /-- PME_TURN_OFF (R311): PME_Turn_Off at an upstream port is sent down and PME_TO_Ack returned. -/
  | pmeTurnOff (n face : Nat)
  /-- PME_TO_TIMEOUT (R311): PMETO passes and PME_TO_Ack is sent with PAR.ERR.PMETO set. -/
  | pmeToTimeout (n face : Nat)
  /-- WALK_READ_COMPLETION (R329): A host-memory page-table read completes and the walk continues. -/
  | walkReadCompletion (d id : Nat) (ok : Bool) (entry : Word) (ptbad : Bool)
  /-- WALK_READ_TIMEOUT (R329): A page-table read without completion within WTIME ends the walk as fault(walk). -/
  | walkReadTimeout (d id : Nat)
  /-- PTAB_WRITE (R330): A page-table area write is applied on every ACTIVE die. -/
  | ptabWrite (who : Master) (off : Nat) (v : Word)
  /-- PTOWN_WRITE (R331): A change of frame owner zeroes the frame on every die. -/
  | ptownWrite (who : Master) (f : Nat) (v : Word)
  /-- XLTINV_ALL (R335): Invalidate every cached translation. -/
  | xltinvAll (who : Master)
  /-- XLTINV_CONTEXT (R335): Invalidate the cached translations of one context. -/
  | xltinvContext (who : Master) (ctx : Nat)
  /-- XLTINV_RANGE (R335): Invalidate one context's translations over a page range. -/
  | xltinvRange (who : Master) (ctx pages : Nat)
  /-- XLTINV_END (R335): Every die has dropped entries and ended running walks, so BUSY clears. -/
  | xltinvEnd
  /-- PRG_RESPONSE (R339): A PRG Response message answers a page request instance. -/
  | prgResponse (n face tag code : Nat) (ptbad : Bool)
  /-- PRV_SUCCESS (R339): Success re-runs the walk. -/
  | prvSuccess (who : Master) (d tag : Nat) (ptbad : Bool)
  /-- PRV_INVALID_REQUEST (R339): Invalid Request refuses the TLP or ends the chunk. -/
  | prvInvalidRequest (who : Master) (d tag : Nat)
  /-- PRV_RESPONSE_FAILURE (R339): Response Failure refuses the TLP or ends the chunk. -/
  | prvResponseFailure (who : Master) (d tag : Nat)
  /-- DMA_OWNER_WRITE (R341): A write of DMA.CH.CFG.OWNER assigns a channel, or is ignored while the channel is enabled. -/
  | dmaOwnerWrite (d c : Nat) (v : Word)
  /-- DMA_ENABLE (R366): Setting ENABLE runs a channel. -/
  | dmaEnable (d c : Nat) (v : Word)
  /-- DMA_DISABLE (R353): Clearing ENABLE stops the channel and ends the running descriptor ABORTED. -/
  | dmaDisable (d c : Nat) (v : Word)
  /-- DMA_TAIL_WRITE (R343): A TAIL write makes descriptors available to the channel. -/
  | dmaTailWrite (d c : Nat) (v : Word)
  /-- DMA_DESCRIPTOR_FETCH (R343): The channel fetches descriptors from its ring. -/
  | dmaDescriptorFetch (d c : Nat)
  /-- COPY (R345): A COPY descriptor moves data chunk by chunk. -/
  | copy (d c : Nat)
  /-- FILL (R343): A FILL descriptor writes a repeated pattern. -/
  | fill (d c : Nat)
  /-- DMA_CHUNK_ISSUE (R348): The engine issues the next chunk of the chosen channel. -/
  | dmaChunkIssue (d : Nat) (hint : Nat) (ptbad : Bool)
  /-- DMA_READ_COMPLETION (R350): A completion for a channel read is taken by the DMA engine. -/
  | dmaReadCompletion (d c tag : Nat) (ok : Bool) (data : List Byte)
  /-- DMA_READ_TIMEOUT (R350): A channel read times out and the chunk faults with SRCERR. -/
  | dmaReadTimeout (d c tag : Nat)
  /-- DMA_COMPLETION_RECORD (R349): After every write is released, the completion record is written in ring order. -/
  | dmaCompletionRecord (d c : Nat) (ok : Bool)
  /-- DMA_FV_COMPLETE (R352): COMPLETE takes the hardware-mode action. -/
  | dmaFvComplete (who : Master) (d c tag : Nat)
  /-- RETRY (R352): RETRY resumes at the fault point. -/
  | retry (who : Master) (d c tag : Nat)
  /-- STOP (R352): STOP ends the descriptor and clears ENABLE. -/
  | stop (who : Master) (d c tag : Nat)
  /-- FAULT_TAKEN (R452): A fault source set opens or joins a case, contains and escalates. -/
  | faultTaken (d : Nat) (env : WarmEnv)
  /-- ESCALATION_TIMER_EXPIRE (R452): A case's escalation timer expires and the case escalates. -/
  | escalationTimerExpire (d i : Nat)
  /-- QUIET_EXPIRE (R454): A case exits after QUIET, lifting its containment. -/
  | quietExpire (d i : Nat) (pass ok : Bool) (env : RejoinEnv)
  /-- HANDLED (R456): HANDLED clears the case's sticky bits and acknowledges it. -/
  | handled (who : Master) (d tag : Nat) (sets : List FaultRec)
  /-- ESCALATE (R456): ESCALATE escalates the case at once. -/
  | escalate (who : Master) (d tag : Nat)
  /-- RELEASE (R456): RELEASE acknowledges the case and exits it. -/
  | release (who : Master) (d tag : Nat) (pass ok : Bool) (env : RejoinEnv)
  /-- DPC_TRIGGER (R461): A DPC trigger at a virtual port contains the bound port or the lent function's context. -/
  | dpcTrigger (n k : Nat)
  /-- DPC_RELEASE (R461): The host clears DPC Trigger Status and the DPC containment is released. -/
  | dpcRelease (n k : Nat)
  /-- SPAN_ISOLATION_TIMEOUT (R463): Span links to a die stay down for 10 µs, so it is marked LOST or takes itself out. -/
  | spanIsolationTimeout (d : Nat)
  /-- WATCHDOG_EXPIRE (R471): The firmware watchdog expires, setting FLT.ERR.WDOG. -/
  | watchdogExpire (d : Nat)
  /-- KICK (R471): KICK restarts the watchdog. -/
  | kick (d : Nat)
  /-- POLL_FOR_PLATFORM_EVENT_MESSAGE (R476): The BMC polls for, or acknowledges, queued event messages. -/
  | pollForPlatformEventMessage (ack : Bool)
  /-- PLATFORM_EVENT_MESSAGE_RESPONSE (R476): A successful BMC response takes a message from the queue. -/
  | platformEventMessageResponse (ok : Bool)
  /-- EVT_ROUTE_WRITE (R657): A route write applies to deliveries decided after it. -/
  | evtRouteWrite (d e : Nat) (v : Word)
  /-- DOMAIN_REQUEST (R530): A write of PWR.DOM.REQ or HILD.DOM.REQ requests a domain state, or is refused. -/
  | domainRequest (x : DomId) (v : Word)
  /-- DOMAIN_WAKE (R534): An automatic, parent or access wake demands a domain ON. -/
  | domainWake (x : DomId)
  /-- DOMAIN_TRANSITION_END (R533): A domain transition completes and CUR shows the new state. -/
  | domainTransitionEnd (x : DomId)
  /-- DOMAIN_FAIL (R535): A domain misses twice its bound and sets DOMFAIL. -/
  | domainFail (x : DomId)
  /-- BUFB_CLOSE_END (R536): Closing a buffer bank ends and its RET or OFF request is carried out, or refused after 100 ms. -/
  | bufbCloseEnd (d k : Nat)
  /-- RETAINED_ACCESS_WAKE (R537): An access to an SRAM or REC domain in RET is held while the domain wakes. -/
  | retainedAccessWake (d i : Nat)
  /-- PAD_RELEASE (R539): RELEASE in PWR.PAD releases a domain's latched pads, waking it first. -/
  | padRelease (d : Nat) (v : Word)
  /-- TEMP_SAMPLE (R671): A die samples Tj, updates PWR.TEMP and sets thermal bits or AVS band changes. -/
  | tempSample (d : Nat) (tj : Int)
  /-- TEMP_SENSOR_TIMEOUT (R672): A sensor silent for 1 ms is treated as THERMTRIP. -/
  | tempSensorTimeout (d : Nat)
  /-- AVS_ACK (R546): Status Read shows VDone and RELIED takes the requested value. -/
  | avsAck (d : Nat) (accepted vdone : Bool)
  /-- AVS_TIMEOUT (R547): No acknowledgement within 500 µs sets AVSTO. -/
  | avsTimeout (d : Nat)
  /-- AVS_RETRY (R547): 1 ms after a timeout the request is sent again. -/
  | avsRetry (d : Nat)
  /-- RAIL_OUT_OF_RANGE (R664): A rail leaves its range, holding a die in reset or resetting the part. -/
  | railOutOfRange (r : Rail)
  /-- VHILD_LOSS (R665): VHILD below 3.00 V pulls down every GATEH and drives every PERST# low. -/
  | vhildLoss
  /-- VHILD_RETURN (R665): VHILD returns and every slot is OFF with latches cleared. -/
  | vhildReturn
  /-- PRSNT_CHANGE (R559): A PRSNT pin changes, and a high level of at least 10 µs unseats the slot. -/
  | prsntChange (n : Nat) (b low : Bool)
  /-- SLOT_SEATED (R558): Both PRSNT pins have been low for 25 ms, so the slot is seated. -/
  | slotSeated (n : Nat)
  /-- FEED_RANGE_CHANGE (R560): A feed enters or leaves its range and its ORing FET is held off or enabled. -/
  | feedRangeChange (n : Nat) (b : Bool) (mv : Nat)
  /-- REVERSE_TURNOFF (R560): A 10 mV reverse turns an ORing FET off. -/
  | reverseTurnoff (n : Nat) (b : Bool)
  /-- ORING_REENHANCE (R560): A feed 20 mV above the common node for 10 µs re-enhances its gate. -/
  | oringReenhance (n : Nat) (b : Bool)
  /-- FAULT_TIMER_START (R565): The current loop begins limiting and the fault timer starts, deasserting PGOOD in ON. -/
  | faultTimerStart (n : Nat)
  /-- FAULT_TIMER_STOP (R565): The loop has not limited for 10 µs and the fault timer stops. -/
  | faultTimerStop (n : Nat)
  /-- TIMEOUT (R565): The fault timer reaches TFLT and the slot latches off. -/
  | timeout (n : Nat)
  /-- RAMPTO (R565): GATEOK is not reached within TRAMP and the slot latches off. -/
  | rampto (n : Nat)
  /-- FETFAULT (R565): VDS above 1 V for 100 µs with GATEOK latches the slot off. -/
  | fetfault (n : Nat)
  /-- SHORT (R566): The fast comparator detects current above 2 × ILIM and latches the slot off. -/
  | short (n : Nat)
  /-- GATEOK_CHANGE (R564): GATEOK rises or falls, and a fall in ON deasserts PGOOD. -/
  | gateokChange (n : Nat) (on : Bool)
  /-- PGOOD_QUALIFY (R567): After a 1 ms clean window PGOOD asserts, the slot enters ON and its clock is enabled. -/
  | pgoodQualify (n : Nat)
  /-- PERST_RELEASE (R569): TPERST after PGOOD, PERST# is released. -/
  | perstRelease (n : Nat)
  /-- PWREN_SET (R572): PWREN = 1 starts the power-on sequence or clears a latch after a toggle. -/
  | pwrenSet (n : Nat) (v : Word)
  /-- PWREN_CLEAR (R573): PWREN = 0 drives PERST# low and discharges the slot. -/
  | pwrenClear (n : Nat) (v : Word)
  /-- DISCHARGE_END (R573): The rail falls below 0.5 V or 100 ms pass and the slot enters OFF. -/
  | dischargeEnd (n : Nat)
  /-- PROCEED (R572): PROCEED ramps the slot. -/
  | proceed (who : Master) (n tag : Nat)
  /-- ABORT (R572): ABORT clears PWREN and returns the slot to OFF. -/
  | abort (who : Master) (n tag : Nat)
  /-- SEND_BYTE (R587): An SMBus Send Byte transaction. -/
  | sendByte (r : SbbReq) (v : Word)
  /-- RECV_BYTE (R587): An SMBus Receive Byte transaction. -/
  | recvByte (r : SbbReq) (v : Word)
  /-- WRITE_BYTE (R587): An SMBus Write Byte transaction. -/
  | writeByte (r : SbbReq) (v : Word)
  /-- READ_BYTE (R587): An SMBus Read Byte transaction. -/
  | readByte (r : SbbReq) (v : Word)
  /-- WRITE_WORD (R587): An SMBus Write Word transaction. -/
  | writeWord (r : SbbReq) (v : Word)
  /-- READ_WORD (R587): An SMBus Read Word transaction. -/
  | readWord (r : SbbReq) (v : Word)
  /-- BLOCK_WRITE (R587): An SMBus Block Write transaction. -/
  | blockWrite (r : SbbReq) (v : Word)
  /-- BLOCK_READ (R587): An SMBus Block Read transaction. -/
  | blockRead (r : SbbReq) (v : Word)
  /-- I2C_WRITE (R587): An I2C write transaction. -/
  | i2cWrite (r : SbbReq) (v : Word)
  /-- I2C_READ (R587): An I2C write-then-read with repeated START. -/
  | i2cRead (r : SbbReq) (v : Word)
  /-- LOCK (R596): LOCK takes the segment's lock. -/
  | lock (r : SbbReq)
  /-- UNLOCK (R596): UNLOCK releases the segment's lock. -/
  | unlock (r : SbbReq)
  /-- SMBUS_TRANSACTION_END (R589): A transaction ends on the wire and RES and DBUF are updated. -/
  | smbusTransactionEnd (d i status : Nat) (data : List Byte)
  /-- SMBUS_CLOCK_TIMEOUT (R586): SCL held low over 25 ms ends the transaction with TIMEOUT and bus recovery. -/
  | smbusClockTimeout (d i : Nat)
  /-- WINDOW_READ_HOLD_EXPIRE (R592): HTIME passes for a held window read, which completes with PENDING. -/
  | windowReadHoldExpire (n k off : Nat)
  /-- TALLOC (R594): A read of SBB.TALLOC allocates a ticket. -/
  | talloc (d : Nat)
  /-- FREE (R594): FREE collects and frees a ticket. -/
  | free (d t : Nat)
  /-- TICKET_DISCARD (R595): A ticket not submitted or freed within 1 ms is discarded. -/
  | ticketDiscard (d t : Nat)
  /-- LOCK_IDLE_TIMEOUT (R596): LTIME passes since the holder's last transaction and the lock is released. -/
  | lockIdleTimeout (d i : Nat)
  /-- SIDEBAND_POLL (R597): The bridge samples WAKE# and CLKREQ# and sends changes to consumers. -/
  | sidebandPoll (d wake clkreq : Nat)
  /-- HILD_SIGNAL_READ (R597): Every 10 µs the bridge reads PRSNT, PERST and PWRBRK from the Hild die. -/
  | hildSignalRead (d : Nat)
  /-- CLKREQ_REQUEST (R599): A link engine's request drives or releases a slot's CLKREQ#. -/
  | clkreqRequest (d pp : Nat) (on : Bool)
  /-- SEGMENT_SEAL (R610): A recorder segment seals when full, at a freeze, or 100 µs after its last record. -/
  | segmentSeal (d ch owner : Nat)
  /-- TRIGGER_FIRE (R614): A matcher fires, writes TRIG and signals every die, moving to POSTTRIG. -/
  | triggerFire (d i : Nat)
  /-- FREEZE (R614): A write of FREEZE fires the software trigger. -/
  | freeze (d : Nat)
  /-- RECTRIG_EDGE (R640): A falling edge on RECTRIG# fires the matchers that watch it. -/
  | rectrigEdge
  /-- REMOTE_TRIGGER (R614): A trigger from another die writes a TRIG record on this die. -/
  | remoteTrigger (d src : Nat)
  /-- ARM (R615): ARM = 1 starts recording and releases frozen segments. -/
  | arm (d : Nat) (v : Word)
  /-- ANCHOR_START (R617): Every ANCHOR seconds the dies pause the harts and begin an anchor copy. -/
  | anchorStart
  /-- ANCHOR_END (R617): The anchor copy ends with ANCHEND. -/
  | anchorEnd (d : Nat)
  /-- START_REPLAY (R620): START in REPLAY loads the anchor and runs the harts from recorded inputs. -/
  | startReplay (d : Nat) (a : Anchor) (feed : List FeedRec)
  /-- REPLAY_DONE (R620): RFCNT is used up and RSTATE reads DONE. -/
  | replayDone (d : Nat)
  /-- REC_GET_STAT (R618): MCTP command 0x01 returns REC.STAT of each die. -/
  | recGetStat
  /-- REC_GET_SEGMENT (R618): MCTP command 0x02 returns one segment. -/
  | recGetSegment (d seg : Nat)
  /-- REC_MCTP_FREEZE (R618): MCTP command 0x03 freezes every die. -/
  | recMctpFreeze
  /-- REC_MCTP_ARM (R618): MCTP command 0x04 arms the recorder. -/
  | recMctpArm
  /-- DLLP_RECEIVE (R78): A PCIe port receives an Ack, Nak or UpdateFC DLLP, which releases or replays held TLPs and returns credits to the partner side. -/
  | dllpReceive (d pp : Nat) (m : Dllp)
  /-- LINK_LOW_POWER_ENTRY (R68): A PCIe or Nerov link enters electrical idle or LOW_POWER (L0s, L1, L1 substates), or L0p reduces its width. -/
  | linkLowPowerEntry (d pp k width : Nat)
  /-- LINK_LOW_POWER_EXIT (R68): A PCIe link leaves L0s, L1 or its substates, or L0p restores its width, and the link returns to L0. -/
  | linkLowPowerExit (d pp : Nat)
  /-- DISCHARGE_START (R573): 100 µs after PWREN is cleared, GATEH is pulled down by the 1 mA sink and the slot enters DISCHARGE. -/
  | dischargeStart (n : Nat)
  /-- RAMP_VDS_BELOW_200MV (R564): During the ramp, VDS falls below 200 mV and the gate source steps to 1 mA to enhance the hot-swap FET fully. -/
  | rampVdsBelow200mv (n : Nat)
  /-- REJOIN_COPY_END (R467): A rejoining die finishes copying the newest bank and the page-table area, and the lead die issues the capo at which it flips. -/
  | rejoinCopyEnd (d : Nat)
  /-- ILLEGAL_INSTRUCTION (R375): A control core executes a word with a reserved opcode or an undefined FN, which raises ILLEGAL. -/
  | illegalInstruction (d h w : Nat) (uncorrectable : Bool)
  deriving DecidableEq, Repr

end Sys2Proof
end

