-- ==== Sys2Proof/Decode.lean ====
section
/-! DEFINITION. The command that a word spells. The opcode table gives no row any bits: a command is no word of an instruction memory, and the
fields of its row are all empty. -/

namespace Sys2Proof

/-- The command that a word spells by the table's bits: none for every word, since no row has bits. The words of Puven instructions in the
memories are not commands. -/
def decodeTableWord (_nbits _w : Nat) : Option Instr := none

end Sys2Proof
end

