-- ==== Sys2Proof/Machine/Crypto.lean ====
section
/-! DEFINITION. The published functions that the signature engine applies (00 R11): SHA-384 of FIPS 180-4 and the verification of an ECDSA
signature over P-384 of FIPS 186-5. The spec names both standards and does not repeat them (PRESUMED, log entry 83). -/

namespace Sys2Proof.Machine

/-! ### SHA-384 -/

/-- The round constants of FIPS 180-4. -/
def shaK : List Word :=
  [0x428a2f98d728ae22, 0x7137449123ef65cd, 0xb5c0fbcfec4d3b2f, 0xe9b5dba58189dbbc, 0x3956c25bf348b538,
   0x59f111f1b605d019, 0x923f82a4af194f9b, 0xab1c5ed5da6d8118, 0xd807aa98a3030242, 0x12835b0145706fbe,
   0x243185be4ee4b28c, 0x550c7dc3d5ffb4e2, 0x72be5d74f27b896f, 0x80deb1fe3b1696b1, 0x9bdc06a725c71235,
   0xc19bf174cf692694, 0xe49b69c19ef14ad2, 0xefbe4786384f25e3, 0x0fc19dc68b8cd5b5, 0x240ca1cc77ac9c65]
  ++ [0x2de92c6f592b0275, 0x4a7484aa6ea6e483, 0x5cb0a9dcbd41fbd4, 0x76f988da831153b5, 0x983e5152ee66dfab,
   0xa831c66d2db43210, 0xb00327c898fb213f, 0xbf597fc7beef0ee4, 0xc6e00bf33da88fc2, 0xd5a79147930aa725,
   0x06ca6351e003826f, 0x142929670a0e6e70, 0x27b70a8546d22ffc, 0x2e1b21385c26c926, 0x4d2c6dfc5ac42aed,
   0x53380d139d95b3df, 0x650a73548baf63de, 0x766a0abb3c77b2a8, 0x81c2c92e47edaee6, 0x92722c851482353b]
  ++ [0xa2bfe8a14cf10364, 0xa81a664bbc423001, 0xc24b8b70d0f89791, 0xc76c51a30654be30, 0xd192e819d6ef5218,
   0xd69906245565a910, 0xf40e35855771202a, 0x106aa07032bbd1b8, 0x19a4c116b8d2d0c8, 0x1e376c085141ab53,
   0x2748774cdf8eeb99, 0x34b0bcb5e19b48a8, 0x391c0cb3c5c95a63, 0x4ed8aa4ae3418acb, 0x5b9cca4f7763e373,
   0x682e6ff3d6b2b8a3, 0x748f82ee5defb2fc, 0x78a5636f43172f60, 0x84c87814a1f0ab72, 0x8cc702081a6439ec]
  ++ [0x90befffa23631e28, 0xa4506cebde82bde9, 0xbef9a3f7b2c67915, 0xc67178f2e372532b, 0xca273eceea26619c,
   0xd186b8c721c0c207, 0xeada7dd6cde0eb1e, 0xf57d4f7fee6ed178, 0x06f067aa72176fba, 0x0a637dc5a2c898a6,
   0x113f9804bef90dae, 0x1b710b35131c471b, 0x28db77f523047d84, 0x32caab7b40c72493, 0x3c9ebe0a15c9bebc,
   0x431d67c49c100d4c, 0x4cc5d4becb3e42b6, 0x597f299cfc657e2a, 0x5fcb6fab3ad6faec, 0x6c44198c4a475817]

/-- The eight words of a hash in progress. -/
structure Sha where
  a : Word
  b : Word
  c : Word
  d : Word
  e : Word
  f : Word
  g : Word
  h : Word
  deriving DecidableEq, Repr

/-- The hash value that SHA-384 starts from. -/
def shaInit : Sha :=
  { a := 0xcbbb9d5dc1059ed8, b := 0x629a292a367cd507, c := 0x9159015a3070dd17, d := 0x152fecd8f70e5939,
    e := 0x67332667ffc00b31, f := 0x8eb44a8768581511, g := 0xdb0c2e0d64f98fa7, h := 0x47b5481dbefa4fa4 }

/-- The message schedule with `n` more words, newest first. -/
def shaExtend : Nat → List Word → List Word
  | 0, w => w
  | n + 1, w =>
    let x := w.getD 1 0
    let y := w.getD 14 0
    shaExtend n ((((x.rotateRight 19 ^^^ x.rotateRight 61 ^^^ x >>> 6) + w.getD 6 0 + (y.rotateRight 1 ^^^ y.rotateRight 8 ^^^ y >>> 7)
      + w.getD 15 0) : Word) :: w)

/-- One round, with the sum of its constant and its schedule word. -/
def Sha.round (x : Sha) (kw : Word) : Sha :=
  let t1 := x.h + (x.e.rotateRight 14 ^^^ x.e.rotateRight 18 ^^^ x.e.rotateRight 41) + (x.e &&& x.f ^^^ ~~~x.e &&& x.g) + kw
  let t2 := (x.a.rotateRight 28 ^^^ x.a.rotateRight 34 ^^^ x.a.rotateRight 39) + (x.a &&& x.b ^^^ x.a &&& x.c ^^^ x.b &&& x.c)
  { a := t1 + t2, b := x.a, c := x.b, d := x.c, e := x.d + t1, f := x.e, g := x.f, h := x.g }

/-- A block of 128 bytes. -/
def Sha.block (x : Sha) (bs : List Byte) : Sha :=
  let w0 := (List.range 16).map fun k => (BitVec.ofNat 64 (ofBytesBE ((bs.drop (8 * k)).take 8)) : Word)
  let w := (shaExtend 64 w0.reverse).reverse
  let y := (List.zipWith (· + ·) shaK w).foldl Sha.round x
  { a := x.a + y.a, b := x.b + y.b, c := x.c + y.c, d := x.d + y.d, e := x.e + y.e, f := x.f + y.f, g := x.g + y.g, h := x.h + y.h }

/-- The SHA-384 digest of a byte string, as the number that its 48 bytes spell with the first one uppermost. -/
def sha384 (bs : List Byte) : Nat :=
  let n := bs.length
  let m := bs ++ 0x80 :: List.replicate ((239 - n % 128) % 128) 0 ++ (bytesLE 16 (8 * n)).reverse
  let x := (List.range (m.length / 128)).foldl (fun x k => x.block ((m.drop (128 * k)).take 128)) shaInit
  [x.a, x.b, x.c, x.d, x.e, x.f].foldl (fun v y => v * 2 ^ 64 + y.toNat) 0

/-! ### ECDSA over P-384 -/

/-- The prime of the field. -/
def p384 : Nat := 2 ^ 384 - 2 ^ 128 - 2 ^ 96 + 2 ^ 32 - 1

/-- The order of the base point. -/
def n384 : Nat := 0xffffffffffffffffffffffffffffffffffffffffffffffffc7634d81f4372ddf581a0db248b0a77aecec196accc52973

/-- The coefficient b of the curve; a is -3. -/
def b384 : Nat := 0xb3312fa7e23ee7e4988e056be3f82d19181d9c6efe8141120314088f5013875ac656398d8a2ed19d2a85c8edd3ec2aef

/-- A point in Jacobian coordinates; Z = 0 is the point at infinity. -/
structure Point where
  x : Nat
  y : Nat
  z : Nat
  deriving DecidableEq, Repr

/-- The base point. -/
def g384 : Point :=
  { x := 0xaa87ca22be8b05378eb1c71ef320ad746e1d3b628ba79b9859f741e082542a385502f25dbf55296c3a545e3872760ab7
    y := 0x3617de4a96262c6f5d9e98bf9292dc29f8f41dbd289a147ce9da3113b5f0b8c00a60b1ce1d7e819d7a431d7c90ea0e5f
    z := 1 }

/-- Difference in the field. -/
def subP (a b : Nat) : Nat := (a + (p384 - b % p384)) % p384

/-- Power modulo m, over the low `bits` bits of the exponent. -/
def powMod (m a e bits : Nat) : Nat :=
  (List.range bits).foldr (fun i v => let q := v * v % m; if e.testBit i then q * a % m else q) 1

/-- Inverse modulo a prime of at most 384 bits. -/
def invMod (m a : Nat) : Nat := powMod m a (m - 2) 384

/-- Twice a point. -/
def Point.double (q : Point) : Point :=
  let d := q.z * q.z % p384
  let g := q.y * q.y % p384
  let b := q.x * g % p384
  let a := 3 * (subP q.x d * (q.x + d)) % p384
  let x := subP (a * a) (8 * b)
  { x := x, y := subP (a * subP (4 * b) x) (8 * (g * g)), z := 2 * (q.y * q.z) % p384 }

/-- The sum of two points. -/
def Point.add (q r : Point) : Point :=
  if q.z = 0 then r
  else if r.z = 0 then q
  else
    let zq := q.z * q.z % p384
    let zr := r.z * r.z % p384
    let u := q.x * zr % p384
    let s := q.y * (zr * r.z % p384) % p384
    let h := subP (r.x * zq) u
    let k := subP (r.y * (zq * q.z % p384)) s
    if h = 0 then (if k = 0 then q.double else { x := 1, y := 1, z := 0 })
    else
      let h2 := h * h % p384
      let h3 := h2 * h % p384
      let x := subP (k * k) (h3 + 2 * (u * h2))
      { x := x, y := subP (k * subP (u * h2) x) (s * h3), z := h * (q.z * r.z % p384) % p384 }

/-- A multiple of a point. -/
def Point.mul (q : Point) (k : Nat) : Point :=
  (List.range 384).foldr (fun i v => let w := v.double; if k.testBit i then w.add q else w) { x := 1, y := 1, z := 0 }

/-- Whether a signature (r, then s, 48 bytes each) verifies for a digest under a public key, an uncompressed point of 97 bytes. -/
def ecdsaVerify (key : List Byte) (digest : Nat) (sig : List Byte) : Bool :=
  let x := ofBytesBE ((key.drop 1).take 48)
  let y := ofBytesBE ((key.drop 49).take 48)
  let r := ofBytesBE (sig.take 48)
  let s := ofBytesBE ((sig.drop 48).take 48)
  let w := invMod n384 s
  let v := (g384.mul (digest * w % n384)).add (Point.mul { x := x, y := y, z := 1 } (r * w % n384))
  key.head? == some 4 && decide (x < p384) && decide (y < p384) && y * y % p384 == (x * x * x + (p384 - 3) * x + b384) % p384
    && decide (0 < r) && decide (r < n384) && decide (0 < s) && decide (s < n384) && decide (v.z ≠ 0)
    && v.x * invMod p384 (v.z * v.z % p384) % p384 % n384 == r

end Sys2Proof.Machine
end

