-- ==== Sys2Proof/Config.lean ====
section
/-! DEFINITION. What an implementation fixes and the values the spec leaves open: constants without a body, so that
no proof can rest on a value of theirs. -/

namespace Sys2Proof.Config

/-- FREE VALUE (log entry 5). Byte `off` of the boot ROM (11 R405): the spec does not give the ROM's contents. -/
opaque bootRom : Nat → Byte

/-- FREE VALUE (log entry 5). Byte `off` of the key vault (11 R405, R423; 13 R495): contents not in the spec. -/
opaque keyVault : Nat → Byte

/-- FREE VALUE (log entry 5). The reset value of word `dw` of almanac image `img` (08 R286): the spec names the images and not their words. -/
opaque almReset : Nat → Nat → BitVec 32

/-- FREE VALUE (log entry 5). The write mask of word `dw` of almanac image `img` (08 R286). -/
opaque almWrite : Nat → Nat → BitVec 32

/-- FREE VALUE (log entry 5). The write-1-to-clear mask of word `dw` of almanac image `img` (08 R286). -/
opaque almW1c : Nat → Nat → BitVec 32

/-- FREE VALUE (log entry 5). The mask of the bits of word `dw` of almanac image `img` that keep their value across a reset (08 R286). -/
opaque almSticky : Nat → Nat → BitVec 32

/-- FREE VALUE (log entry 5). The word of almanac image `img` that holds the subsystem IDs of a bridge (08 R286, R290). -/
opaque almSsid : Nat → BitVec 10

/-- FREE VALUE (log entry 80). The host's time and the propagation delay that a PTM response of a port carries at a time (08 R287). -/
opaque ptmTime : Nat → Nat → BitVec 64 × BitVec 32

/-- FREE VALUE (log entry 5). The nonce drawn from the entropy source at the n-th part reset (11 R433, R443). -/
opaque nonce : Nat → Word

/-- FREE VALUE (log entry 5). The key digest that a slot of the key vault holds, as a number (11 R433, 13 R496). -/
opaque vaultDigest : Nat → Nat

/-- FREE VALUE (log entry 5). Byte `off` of the empty settings store that the boot ROM places (13 R514). -/
opaque emptyStore : Nat → Byte

/-- FREE VALUE (log entry 5). The maximum payload size, in bytes, that the partner of a global port has been given (06 R222): a
setting of a configuration space that the spec does not lay out. -/
opaque maxPayload : Nat → Nat

/-- FREE VALUE (log entry 5). The maximum read request size, in bytes, of the path behind a global port (09 R345). -/
opaque maxRead : Nat → Nat

/-- FREE VALUE (log entry 53). The rail voltage in mV and the current in mA of a slot at a time of the model's clock (15 R581): what the
converters measure is no state of the part. -/
opaque slotOut : Nat → Nat → BitVec 16 × BitVec 16

/-- FREE VALUE (log entry 71). The weights of the decision feedback equalizer that a lane has adapted to at a time of the model's clock, as the
60 bits of LANE.DFE: die, lane, time (02 R60, R61). -/
opaque adaptedTaps : Nat → Nat → Nat → BitVec 60

/-- FREE VALUE (log entry 6). Whether the receiver's detector of a lane sees signal at a time of the model's clock: die, lane, time (02 R674). -/
opaque signal : Nat → Nat → Nat → Bool

/-- FREE VALUE (log entry 6). What the checker of a lane finds in a tick of the model's clock, in two halves of at most 64 bits: die, lane, time, half.
Bits 0 to 6 the bits compared, 7 to 13 the errors, 14 a valid pattern (02 R74). -/
opaque checker : Nat → Nat → Nat → Nat → BitVec 15

/-- FREE VALUE (log entry 6). What the margining sampler of a lane finds in a tick of the model's clock: die, lane, time. Bits 0 to 7 samples,
8 to 15 errors (02 R75). -/
opaque sampler : Nat → Nat → Nat → BitVec 16

/-- FREE VALUE (log entry 5). The FEC bytes 250 to 255 of a Nerov flit (03 R80): the code is that of the PCI Express Flit Mode. -/
opaque fecBytes : List Byte → BitVec 48

/-- FREE VALUE (log entry 71). The CTLE code that a lane has adapted to at a time of the model's clock: die, lane, time (02 R60, R61). -/
opaque adaptedCtle : Nat → Nat → Nat → BitVec 5

/-- FREE VALUE (log entry 69). The units by which a die that resynchronises slews its count in a tick: die, time (01 R41); only what lies within
the bound of the rule is taken. -/
opaque slewUnits : Nat → Nat → BitVec 8

/-- FREE VALUE (log entry 6). The n-th value that the spec leaves open in a running step (State.freeCtr counts them). -/
opaque freeValue : Nat → Word

end Sys2Proof.Config
end

