-- ==== Sys2Proof/Machine/Memory.lean ====
section
/-! DEFINITION. The byte memories of the part (11 R405): the control SRAM, the boot image store and the recorder store of each
die, in one list keyed by management address. The list is in one canonical form: addresses strictly rising, and no entry
equal to what an unlisted address reads as. -/

namespace Sys2Proof.Machine

/-- A byte memory. -/
abbrev Memory := List Host.Cell

/-- What an unlisted address reads as: zero, as the memories read after zeroing (14 R532, R537; log entry 13). -/
def memDefault : Byte := 0

/-- The byte at an address. -/
def Memory.get : Memory → Nat → Byte
  | [], _ => memDefault
  | (a, b) :: m, x => if a = x then b else Memory.get m x

/-- The memory with a byte written; writing what an unlisted address reads as removes the entry. -/
def Memory.put : Memory → Nat → Byte → Memory
  | [], x, v => if v = memDefault then [] else [(x, v)]
  | (a, b) :: m, x, v =>
    if x < a then (if v = memDefault then (a, b) :: m else (x, v) :: (a, b) :: m)
    else if x = a then (if v = memDefault then m else (x, v) :: m)
    else (a, b) :: Memory.put m x v

/-- Write bytes from an address on. -/
def Memory.putBytes (m : Memory) (x : Nat) : List Byte → Memory
  | [] => m
  | b :: bs => Memory.putBytes (m.put x b) (x + 1) bs

/-- `n` bytes from an address on. -/
def Memory.bytes (m : Memory) (x n : Nat) : List Byte := (List.range n).map fun k => m.get (x + k)

/-- The addresses from `lo` below `hi` read as unlisted again: the memory lost its contents. -/
def Memory.clear (m : Memory) (lo hi : Nat) : Memory := m.filter fun c => !(decide (lo ≤ c.1) && decide (c.1 < hi))

/-- The canonical form, with every address above a bound. -/
def Memory.wfFrom : Memory → Option Nat → Bool
  | [], _ => true
  | (a, b) :: m, lo =>
    (match lo with | none => true | some l => decide (l < a)) && b != memDefault && Memory.wfFrom m (some a)

/-- The canonical form. -/
def Memory.wf (m : Memory) : Bool := Memory.wfFrom m none

/-- The CRC-32 of IEEE 802.3, reflected, over bytes (13 R495). -/
def crc32 (bs : List Byte) : Nat :=
  (bs.foldl (fun c b =>
    (List.range 8).foldl (fun c _ => if c.testBit 0 then (c / 2) ^^^ 0xEDB88320 else c / 2) (c ^^^ b.toNat)) 0xFFFFFFFF) ^^^ 0xFFFFFFFF

/-- The base of a die's window (00 R5). -/
def dieBase (d : Nat) : Nat := (d + 1) * 2 ^ 32
/-- The control SRAM of a die (11 R405). -/
def sramBase (d : Nat) : Nat := dieBase d + 0x10000000
/-- The recorder store of a die (11 R405). -/
def recBase (d : Nat) : Nat := dieBase d + 0x40000000
/-- The boot image store of a die (11 R405). -/
def imgBase (d : Nat) : Nat := dieBase d + 0x03B00000

end Sys2Proof.Machine
end

