-- ==== Sys2Proof/Machine/State.lean ====
section
/-! DEFINITION. The state of the part: its registers, its memories, what each island keeps beside them, and the queue of
commands that wait. -/

namespace Sys2Proof.Machine

/-- The reasons for which a command stops the part with a fault. No rule of the spec stops the part: every command has an
effect, so no meaning answers with a fault. -/
inductive Fault where
  /-- Raised by no meaning: kept so that the type names what a stop would be. Safe: nothing rests on it. -/
  | unreachable
  deriving DecidableEq, Repr

/-- The reasons for which a command is refused. -/
inductive Refusal where
  /-- The command has no meaning in this model yet. Safe: nothing can be proved about its effect. -/
  | notModelled (mnemonic : String)
  deriving DecidableEq, Repr

/-- The state of the part. -/
structure State where
  /-- commands that wait, first in first out | list | the model's own queue | empty -/
  pending : List Instr := []
  /-- true time in units of 1/65,536 ns | number | 01 R39, the model's own clock | 0 -/
  now : Nat := 0
  /-- free values drawn so far | number | the model's own counter (log entry 6) | DESIGN CHOICE 0 -/
  freeCtr : Nat := 0
  /-- fuses | record | 00 R4, 13 R490 | kept by every reset -/
  fuses : Fuses := {}
  /-- registers whose value differs from, or has been set since, part reset | sparse map | 19 R646, R648, R649 | empty: every register reads its reset value -/
  regs : FMap Reg Word := []
  /-- clocks and meridian | record | 01 R39 | reset -/
  clock : ClockSt := {}
  /-- lanes | record | 02 | reset -/
  lane : LaneSt := {}
  /-- link engines: die and window index (port, or 16 + die of a span) | record per link | 03 | reset -/
  links : FMap (Nat × Nat) LinkSt := []
  /-- last retrain tag of a die | 8 per die | 03 R109 | 0 -/
  rtvTag : FMap Nat Nat := []
  /-- fret engines | record | 04 | reset -/
  fret : FretSt := {}
  /-- banks and capos | record | 05 | reset -/
  tab : TabSt := {}
  /-- packet buffers | record | 06 | reset -/
  buf : BufSt := {}
  /-- policing and scheduling | record | 07 | reset -/
  sch : SchSt := {}
  /-- partitions and host faces | record | 08 | reset -/
  par : ParSt := {}
  /-- translation | record | 09 | reset -/
  xlt : XltSt := {}
  /-- DMA engines | record | 09 | reset -/
  dma : DmaSt := {}
  /-- faults and events | record | 12 | reset -/
  flt : FltSt := {}
  /-- power domains and core rails | record | 14 | reset -/
  pwr : PwrSt := {}
  /-- slots of the Hild die | record | 15 | reset -/
  hild : HildSt := {}
  /-- sideband bridges | record | 16 | reset -/
  sbb : SbbSt := {}
  /-- control cores | record | 10 | reset -/
  core : CoreSt := {}
  /-- access gates | record | 11 | reset -/
  gate : GateSt := {}
  /-- start, staging, activation | record | 13 | reset -/
  boot : BootSt := {}
  /-- recorder | record | 17 | reset -/
  recd : RecSt := {}
  /-- control SRAM, boot image store and recorder store | bytes by address | 11 R405 | nothing listed: zeros (log entry 13) -/
  mem : Memory := []
  deriving DecidableEq, Repr

/-- The part just after part reset, before the start sequence runs. -/
def State.reset : State := {}

end Sys2Proof.Machine
end

