-- ==== Sys2Proof/Machine/ResetValues.lean ====
section
/-! DEFINITION. What every register reads after part reset: the field tables, and where they name a fuse, a strap or another rule, what that
rule says. -/

namespace Sys2Proof.Machine

/-- The number of dies of a member (00 R1). -/
def Member.dies : Member → Nat
  | .kf2128 => 2
  | .kf4256 => 4
  | .kf8512 => 8

/-- PART.ID.DEVICE of a member (00 R4). -/
def Member.device : Member → Nat
  | .kf2128 => 0x2128
  | .kf4256 => 0x4256
  | .kf8512 => 0x8512

/-- The base voltage of a die (fuse). -/
def Fuses.vb (fu : Fuses) (d : Nat) : Nat := fu.vbase.get 735 d

/-- SEV and CAP of class `k` after reset (12 R459). -/
def classReset (k : Nat) : Nat × Nat :=
  ([(0, 0), (1, 3), (3, 3), (1, 1), (3, 3), (1, 1), (0, 1), (3, 3), (0, 0), (1, 1), (0, 1), (0, 1), (1, 4), (0, 1), (1, 1),
    (1, 1), (0, 0), (2, 3), (1, 1), (0, 1), (1, 1), (0, 2), (1, 1), (1, 2), (1, 1), (1, 1), (1, 1), (5, 5), (1, 1), (6, 6),
    (5, 5), (1, 1), (6, 6), (1, 5), (1, 1), (3, 3), (0, 1), (0, 1), (1, 1)] : List (Nat × Nat)).getD k (0, 0)

/-- PART.ATIME[f] after reset, in microseconds (01 R33). -/
def atimeReset (f : Nat) : Nat :=
  ([2000, 1000, 200000, 0, 1000, 10000, 20000, 10000000, 10000000, 100] : List Nat).getD f 0

/-- A field's value as it stands in a word. -/
def Field.place (f : Field) (v : Nat) : Nat := (v % 2 ^ (f.hi + 1 - f.lo)) * 2 ^ f.lo

/-- The reset value that the field table gives a register. -/
def RegName.tableReset (n : RegName) : Nat := (n.fields.map (fun f => f.place f.rst)).foldl (· + ·) 0

/-- The default state of a die's domain at part reset: 0 ON, 2 OFF (14 R528). -/
def domDefault (dies d i : Nat) : Nat :=
  if i < 32 then 2
  else if 46 ≤ i ∧ i ≤ 53 then (if i - 46 < dies then 0 else 2)
  else if i = 69 ∨ i = 70 then 2
  else if d < dies then 0 else 2

/-- Whether a die's domain owns pads (14 R538). -/
def domPads (i : Nat) : Bool := decide (i < 16) || i == 69 || i == 70

/-- What a register reads after part reset: its field table, and where the table names a fuse, a strap or another rule,
what that rule says. -/
def Reg.resetValue (fu : Fuses) (r : Reg) : Word :=
  BitVec.ofNat 64 (match r.name with
    | .partId => PartId.DEVICE.place fu.member.device + PartId.DIES.place fu.member.dies + PartId.GRADE.place (b2n fu.gradeE)
        + RegName.partId.tableReset
    | .partLead => PartLead.HILDPATH.place 0xF + PartLead.DEPUTY.place 0xF
    | .partAtime => atimeReset r.i
    | .partFltclass =>
      PartFltclass.SEV.place (classReset r.i).1 + PartFltclass.CAP.place (classReset r.i).2 + 0x1F4
    | .pwrDom =>
      PwrDom.PADS.place (b2n (domPads r.i)) + PwrDom.LATCHED.place (b2n (domPads r.i))
        + PwrDom.CUR.place (domDefault fu.member.dies r.die r.i) + PwrDom.REQ.place (domDefault fu.member.dies r.die r.i)
        + PwrDom.AUTO.place 1
    | .gateCtl => if r.i = 24 then GateCtl.LOCK.place 1 + GateCtl.ARM.place 1 else 0
    | .gateReg0 => if r.i = 24 ∧ r.j = 0 then GateReg0.VALID.place 1 + GateReg0.LOCK.place 1 + GateReg0.LIMIT.place 0xFFFFF else 0
    | .gateReg1 => if r.i = 24 ∧ r.j = 0 then 2 ^ 30 else 0
    | .gateMidgrp =>
      ([0x0101010101010101, 0x0101010101010101, 0x2222222222222222, 0x2222222222222222, 0x4444444433333333, 0x6666666655555555,
        0x7777777777777777, 0x7777777777777777, 0xAAAAAAAAFFFFFF98] : List Nat).getD r.i 0xFFFFFFFFFFFFFFFF
    | .bootVer => BootVer.ROMVER.place fu.romVer + BootVer.SVNFLOOR.place fu.svnFloor
    | .partDbgUid => fu.uid
    | .pwrAvscfg => PwrAvscfg.VBASE.place (fu.vb r.die) + RegName.pwrAvscfg.tableReset
    | n => n.tableReset)

end Sys2Proof.Machine
end

