-- ==== Sys2Proof/Machine/Ops.lean ====
section
/-! DEFINITION. The named operations over registers, memories and the parts of State. Every meaning reads and writes
through them. -/

namespace Sys2Proof.Machine

/-! ### Registers -/

/-- The value that a register holds. -/
def State.reg (s : State) (r : Reg) : Word := s.regs.get (r.resetValue s.fuses) r

/-- The state with a register set. -/
def State.setReg (s : State) (r : Reg) (v : Word) : State := { s with regs := s.regs.set r v }

/-- A field of a register. -/
def State.fld (s : State) (r : Reg) (f : Field) : Nat := getBits (s.reg r) f.hi f.lo

/-- The state with one field of a register set. -/
def State.setFld (s : State) (r : Reg) (f : Field) (v : Nat) : State := s.setReg r (setBits (s.reg r) f.hi f.lo v)

/-- A field of a word that is being written. -/
def Field.of (f : Field) (w : Word) : Nat := getBits w f.hi f.lo

/-- The word with a field replaced. -/
def Field.put (f : Field) (v : Nat) (w : Word) : Word := setBits w f.hi f.lo v

/-- The word with a field replaced by a value that saturates at the field's width. -/
def Field.putSat (f : Field) (v : Nat) (w : Word) : Word := f.put (min v (2 ^ (f.hi + 1 - f.lo) - 1)) w

/-- A field counter incremented by `n`; it saturates (00 R7: RO counters). -/
def State.count (s : State) (r : Reg) (f : Field) (n : Nat) : State :=
  s.setFld r f (satAdd (f.hi + 1 - f.lo) (s.fld r f) n)

/-- A field set to a measured value that saturates at the field's width. -/
def State.setSat (s : State) (r : Reg) (f : Field) (v : Nat) : State := s.setFld r f (min v (2 ^ (f.hi + 1 - f.lo) - 1))

/-! ### Parts of State -/

/-- The state with the part for clocks changed. -/
def State.modClock (s : State) (f : ClockSt → ClockSt) : State := { s with clock := f s.clock }
/-- The state with the part for lanes changed. -/
def State.modLane (s : State) (f : LaneSt → LaneSt) : State := { s with lane := f s.lane }
/-- The state with the part for fret engines changed. -/
def State.modFret (s : State) (f : FretSt → FretSt) : State := { s with fret := f s.fret }
/-- The state with the part for banks and capos changed. -/
def State.modTab (s : State) (f : TabSt → TabSt) : State := { s with tab := f s.tab }
/-- The state with the part for policing and scheduling changed. -/
def State.modSch (s : State) (f : SchSt → SchSt) : State := { s with sch := f s.sch }
/-- The state with the part for partitions and faces changed. -/
def State.modPar (s : State) (f : ParSt → ParSt) : State := { s with par := f s.par }
/-- The state with the part for faults and events changed. -/
def State.modFlt (s : State) (f : FltSt → FltSt) : State := { s with flt := f s.flt }

/-- The link engine of a window. -/
def State.link (s : State) (d i : Nat) : LinkSt := s.links.get {} (d, i)

/-- The state with a link engine changed. -/
def State.modLink (s : State) (d i : Nat) (f : LinkSt → LinkSt) : State :=
  { s with links := s.links.set (d, i) (f (s.link d i)) }

/-- The table store of a die. -/
def State.tabDie (s : State) (d : Nat) : TabDie := s.tab.dies.get {} d

/-- The state with a die's table store changed. -/
def State.modTabDie (s : State) (d : Nat) (f : TabDie → TabDie) : State :=
  s.modTab fun t => { t with dies := t.dies.set d (f (t.dies.get {} d)) }

/-- The packet buffer of a die. -/
def State.bufDie (s : State) (d : Nat) : BufDie := s.buf.dies.get {} d

/-- The state with a die's packet buffer changed. -/
def State.modBufDie (s : State) (d : Nat) (f : BufDie → BufDie) : State :=
  { s with buf := { s.buf with dies := s.buf.dies.set d (f (s.bufDie d)) } }

/-- The translation unit of a die. -/
def State.xltDie (s : State) (d : Nat) : XltDie := s.xlt.dies.get {} d

/-- The state with a die's translation unit changed. -/
def State.modXltDie (s : State) (d : Nat) (f : XltDie → XltDie) : State :=
  { s with xlt := { s.xlt with dies := s.xlt.dies.set d (f (s.xltDie d)) } }

/-- A DMA channel. -/
def State.chan (s : State) (d c : Nat) : ChanSt := s.dma.ch.get {} (d, c)

/-- The state with a DMA channel changed. -/
def State.modChan (s : State) (d c : Nat) (f : ChanSt → ChanSt) : State :=
  { s with dma := { s.dma with ch := s.dma.ch.set (d, c) (f (s.chan d c)) } }

/-- The dynamic state of a flow context. -/
def State.flow (s : State) (n : Nat) : FlowSt := s.sch.flows.get {} n

/-- The state with a flow context's dynamic state changed. -/
def State.modFlow (s : State) (n : Nat) (f : FlowSt → FlowSt) : State :=
  s.modSch fun c => { c with flows := c.flows.set n (f (c.flows.get {} n)) }

/-- An egress queue of a port. -/
def State.queue (s : State) (g q : Nat) : List Pkt := s.sch.queues.get [] (g, q)

/-- The state with an egress queue changed. -/
def State.modQueue (s : State) (g q : Nat) (f : List Pkt → List Pkt) : State :=
  s.modSch fun c => { c with queues := c.queues.set (g, q) (f (c.queues.get [] (g, q))) }

/-- A face of a partition. -/
def State.face (s : State) (n f : Nat) : FaceSt := s.par.face.get {} (n, f)

/-- The state with a face changed. -/
def State.modFace (s : State) (n f : Nat) (g : FaceSt → FaceSt) : State :=
  s.modPar fun p => { p with face := p.face.set (n, f) (g (p.face.get {} (n, f))) }

/-- A virtual downstream port of a partition. -/
def State.vport (s : State) (n k : Nat) : VpSt := s.par.vp.get {} (n, k)

/-- The state with a virtual port changed. -/
def State.modVport (s : State) (n k : Nat) (f : VpSt → VpSt) : State :=
  s.modPar fun p => { p with vp := p.vp.set (n, k) (f (p.vp.get {} (n, k))) }

/-- A fresh free value: a value that the spec leaves open, which nothing constrains (log entry 6). -/
def State.freeWord (s : State) : Word := Config.freeValue s.freeCtr

/-- The state after a free value was drawn. -/
def State.drew (s : State) : State := { s with freeCtr := s.freeCtr + 1 }

/-- A state changed once for each element of a list. -/
def State.forAll {α : Type} (s : State) (l : List α) (f : α → State → State) : State := l.foldl (fun t a => f a t) s

/-! ### Dies and roles -/

/-- The number of dies of the part. -/
def State.dieCount (s : State) : Nat := s.fuses.member.dies

/-- The host partitions of the part (00 R1). -/
def State.partCount (s : State) : Nat := 4 * s.dieCount

/-- The registers of the part-wide region that many rules read. -/
def partMode : Reg := { name := .partMode }
def partLead : Reg := { name := .partLead }
def partDieState : Reg := { name := .partDieState }
def partAssist : Reg := { name := .partAssist }
def partCapo : Reg := { name := .partCapo }
def partAlate : Reg := { name := .partAlate }
def partMerstat : Reg := { name := .partMerstat }

/-- The state code of a die (01 R26). -/
def State.dieState (s : State) (d : Nat) : Nat := getBits (s.reg partDieState) (4 * d + 3) (4 * d)

/-- The state with the code of a die set. -/
def State.setDieState (s : State) (d v : Nat) : State :=
  s.setReg partDieState (setBits (s.reg partDieState) (4 * d + 3) (4 * d) v)

/-- Whether a die is in service: ACTIVE, or OUT_OF_STEP while it reloads pages (01 R24, R26). -/
def State.active (s : State) (d : Nat) : Bool := s.dieState d == 3 || s.dieState d == 4

/-- The dies in service, in order. -/
def State.activeDies (s : State) : List Nat := (List.range s.dieCount).filter s.active

/-- The lead die. -/
def State.lead (s : State) : Nat := s.fld partLead PartLead.LEAD

/-- The deputy die, or 0xF. -/
def State.deputy (s : State) : Nat := s.fld partLead PartLead.DEPUTY

/-- The current mode (01 R27). -/
def State.mode (s : State) : Nat := s.fld partMode PartMode.CUR

/-- MODE.BASE. -/
def State.baseMode (s : State) : Nat := s.fld partMode PartMode.BASE

/-- The forwarding mode in force for ports that are not selected for DIAGNOSTIC (01 R27). -/
def State.fwdMode (s : State) : Nat := if s.mode = 6 then s.baseMode else s.mode

/-- Modes TRANSPARENT, PARTITIONED, SHARED and FEDERATED forward (01 R27). -/
def forwarding (m : Nat) : Bool := m == 2 || m == 3 || m == 4 || m == 5

/-- Whether an index of a die, a port, a lane or a slot exists on the member (00 R3). -/
def State.hasDie (s : State) (d : Nat) : Bool := decide (d < s.dieCount)

/-- The die of a global port. -/
def pdie (g : Nat) : Nat := g / 16
/-- The port number of a global port on its die. -/
def pnum (g : Nat) : Nat := g % 16
/-- The global number of a port. -/
def gport (d pp : Nat) : Nat := d * 16 + pp

/-- A register of a port's window. -/
def preg (n : RegName) (g : Nat) : Reg := { name := n, die := pdie g, i := pnum g }
/-- A register of a link window: a port, or 16 + s for the span link toward die s. -/
def lreg (n : RegName) (d i : Nat) : Reg := { name := n, die := d, i := i }
/-- A die-wide register. -/
def dreg (n : RegName) (d : Nat) : Reg := { name := n, die := d }

/-- The slots served by each die (16 R584). -/
def State.slotsPerDie (s : State) : Nat := 32 / s.dieCount
/-- The die that serves a slot (16 R584). -/
def State.slotDie (s : State) (n : Nat) : Nat := n / s.slotsPerDie
/-- The local channel of a slot (16 R584). -/
def State.slotChan (s : State) (n : Nat) : Nat := n % s.slotsPerDie

/-- The DMA channels of each die (09): 32. -/
def dmaChannels : Nat := 32

/-! ### Time -/

/-- The meridian of a die: its own copy of the count, in 64 bits (01 R39). -/
def State.meridian (s : State) (d : Nat) : Nat := (((s.now : Int) + s.clock.offset.get 0 d) % (2 ^ 64 : Int)).toNat

/-- The meridian of a die in whole nanoseconds. -/
def State.nsOf (s : State) (d : Nat) : Nat := s.meridian d / 65536

/-! ### Lanes and ports -/

/-- The port that a live quad word gives to each of its four lanes (02 R56). -/
def quadPorts (w : Nat) : List (Option Nat) :=
  let lo := w / 256 % 16
  let hi := w / 4096 % 16
  match w % 8 with
  | 1 => [some lo, some lo, some hi, some hi]
  | 2 | 3 | 4 => [some lo, some lo, some lo, some lo]
  | 5 => [some lo, some lo, none, none]
  | _ => [none, none, none, none]

/-- The live word of a quad. -/
def State.quad (s : State) (d q : Nat) : Nat := s.lane.live.get 0 (d, q)

/-- The live port of each of the 64 lanes of a die. -/
def State.lanePorts (s : State) (d : Nat) : List (Option Nat) := ((List.range 16).map fun q => quadPorts (s.quad d q)).flatten

/-- The lanes of a port in the live map. -/
def State.lanesOf (s : State) (d pp : Nat) : List Nat :=
  (List.range 64).filter fun ll => (s.lanePorts d).getD ll none == some pp

/-- Whether a port has lanes in the live map. -/
def State.hasLanes (s : State) (g : Nat) : Bool := !(s.lanesOf (pdie g) (pnum g)).isEmpty

/-- The link state code of a window (03 R104). -/
def State.linkState (s : State) (d i : Nat) : Nat := s.fld (lreg .linkStat d i) LinkStat.STATE

/-- The live status register of a lane. -/
def laneStat (d ll : Nat) : Reg := { name := .laneStat, die := d, i := ll }

/-- The live port of a lane. -/
def State.lanePort (s : State) (d ll : Nat) : Option Nat := (quadPorts (s.quad d (ll / 4))).getD (ll % 4) none

/-- Whether a test of 02 R71 runs on a lane. -/
def State.laneTests (s : State) (d ll : Nat) : Bool :=
  let r : Reg := { name := .laneTest, die := d, i := ll }
  s.fld r LaneTest.LOOP != 0 || s.fld r LaneTest.GEN == 1 || s.fld r LaneTest.CHK == 1

/-- The logical number of a lane within its port: its place, counted from the other end where the order is reversed (02 R57). -/
def State.laneNum (s : State) (d pp ll : Nat) : Nat :=
  let l := s.lanesOf d pp
  let k := l.idxOf ll
  if s.fld (laneStat d ll) LaneStat.REVERSED = 1 then l.length - 1 - k else k

/-- Whether a lane is one of those on which its link trained, which no fault has removed and L0p has not turned off (02 R68, 03 R92). -/
def State.laneRuns (s : State) (d pp ll : Nat) : Bool :=
  let n := s.laneNum d pp ll
  decide (n < (s.link d pp).trained) && (s.fld (lreg .linkLanes d pp) LinkLanes.ACTIVE).testBit n &&
    (s.fld (lreg .linkStat d pp) LinkStat.L0P == 0 || decide (n < s.fld (lreg .linkStat d pp) LinkStat.WIDTH))

/-- Whether a lane of a port transmits: in training after detection, up, in recovery or in repair (02 R674). -/
def State.laneSends (s : State) (d pp ll : Nat) : Bool :=
  let st := s.linkState d pp
  st == 2 || ((st == 3 || st == 4 || st == 8) && s.laneRuns d pp ll)

/-- The rate code at which a lane runs: from the first rate of training until the link goes down (02 R674). -/
def State.laneRateNow (s : State) (d pp ll : Nat) : Nat :=
  let st := s.linkState d pp
  if st = 2 ∨ ((st = 3 ∨ st = 4 ∨ st = 5 ∨ st = 8) ∧ s.laneNum d pp ll < (s.link d pp).trained)
  then s.fld (lreg .linkStat d pp) LinkStat.RATE else 0

/-- LANE.STAT as a read shows it (02 R57, R674): what a lane with a live port shows follows the port's link engine; a lane under test shows TERM,
EIDLE, SIGDET and LOCK as the test drives and finds it. What the receiver's detector sees of a lane whose quad is ON is a free value (log entry 6). -/
def State.laneStatWord (s : State) (d ll : Nat) : Word :=
  let w := s.reg (laneStat d ll)
  let test := s.laneTests d ll
  let on := s.fld { name := .pwrDom, die := d, i := ll / 4 } PwrDom.CUR == 0
  let sig := if test then LaneStat.SIGDET.of w else b2n (on && Config.signal d ll s.now)
  match s.lanePort d ll with
  | none =>
    BitVec.ofNat 64 (LaneStat.TERM.place (if test then LaneStat.TERM.of w else 0) + LaneStat.EIDLE.place (if test then LaneStat.EIDLE.of w else 1)
      + LaneStat.SIGDET.place sig + LaneStat.LOCK.place (if test then LaneStat.LOCK.of w else 0))
  | some pp =>
    let st := s.linkState d pp
    let sends := s.laneSends d pp ll
    BitVec.ofNat 64 (LaneStat.PORT.place pp + LaneStat.LWIDTH.place (s.quad d (ll / 4) % 8) + LaneStat.RATE.place (s.laneRateNow d pp ll)
      + LaneStat.TERM.place (if test then LaneStat.TERM.of w else b2n (st != 0 && st != 7))
      + LaneStat.EIDLE.place (if test then LaneStat.EIDLE.of w else b2n !sends) + LaneStat.SIGDET.place sig
      + LaneStat.LOCK.place (if test then LaneStat.LOCK.of w else if sends then LaneStat.LOCK.of w else 0)
      + LaneStat.POLINV.place (LaneStat.POLINV.of w) + LaneStat.REVERSED.place (LaneStat.REVERSED.of w)
      + LaneStat.LANENUM.place (s.laneNum d pp ll))

/-- Whether the receive equalizers of a lane adapt: its link is in L0, and FREEZE is 0 (02 R60, R61; log entry 71). -/
def State.adapting (s : State) (d ll : Nat) : Bool :=
  match s.lanePort d ll with
  | some pp => s.linkState d pp == 3 && s.laneRuns d pp ll && s.fld { name := .laneRxeq, die := d, i := ll } LaneRxeq.FREEZE == 0
  | none => false

/-- Whether the receiver of a lane uses the stages that a rate code has: the DFE from 8.0 GT/s on, the FFE from 64.0 GT/s on (02 R52, R60). -/
def State.eqOn (s : State) (d ll lowest : Nat) : Nat :=
  match s.lanePort d ll with
  | some pp => b2n (s.laneSends d pp ll && decide (lowest ≤ s.laneRateNow d pp ll))
  | none => 0

/-- LANE.RXEQ as a read shows it: the code in use of a lane that adapts is what it has adapted to (02 R61). -/
def State.rxeqWord (s : State) (d ll : Nat) : Word :=
  let r : Reg := { name := .laneRxeq, die := d, i := ll }
  let w := LaneRxeq.FFEON.put (s.eqOn d ll 6) (LaneRxeq.DFEON.put (s.eqOn d ll 3) (s.reg r))
  if s.adapting d ll = true ∧ s.fld r LaneRxeq.OVR = 0 then LaneRxeq.CTLE_CUR.put (min 28 (Config.adaptedCtle d ll s.now).toNat) w else w

/-- LANE.DFE as a read shows it (02 R61). -/
def State.dfeWord (s : State) (d ll : Nat) : Word :=
  if s.adapting d ll = true ∧ s.eqOn d ll 3 = 1 then BitVec.ofNat 64 (Config.adaptedTaps d ll s.now).toNat
  else s.reg { name := .laneDfe, die := d, i := ll }

/-- The adapted values of a lane stay as they are (02 R60, R61, R69). -/
def holdEq (d ll : Nat) (s : State) : State :=
  if s.adapting d ll then
    (s.setReg { name := .laneRxeq, die := d, i := ll } (s.rxeqWord d ll)).setReg { name := .laneDfe, die := d, i := ll } (s.dfeWord d ll)
  else s

/-- Whether a port's link carries traffic: UP, LOW_POWER or in recovery (03 R104). -/
def State.portUp (s : State) (g : Nat) : Bool := s.linkState (pdie g) (pnum g) == 3

/-- Whether a port is a Nerov port: KIND takes effect at the next training, so a link that has trained keeps its kind (03 R103). -/
def State.isNerov (s : State) (g : Nat) : Bool :=
  let st := s.linkState (pdie g) (pnum g)
  if 2 ≤ st ∧ st ≤ 5 ∨ st = 8 then (s.link (pdie g) (pnum g)).nerov else s.fld (preg .linkCfg g) LinkCfg.KIND == 1

/-- Whether a port is selected for DIAGNOSTIC (02 R71). -/
def State.diagSelected (s : State) (g : Nat) : Bool := s.mode == 6 && (s.lane.selected.get 0 (pdie g)).testBit (pnum g)

/-! ### Banks (05) -/

/-- A word of a bank after part reset: zero, but MODE 1 and PROG 63 of every port entry (05 R171). -/
def bankReset (k : Nat) : Word :=
  if k = 0 then 1
  else if 0x600 ≤ k ∧ k < 0xA00 ∧ k % 8 = 0 then BitVec.ofNat 64 (63 * 2 ^ 40)
  else 0

/-- The bits that word `k` of a bank of a part with `dies` dies holds: reserved fields (05 R170 to R179; 08 R290; 09 R322) and the
entries of units that the member does not have read as zero, and writes to them are ignored (00 R3, R10). -/
def bankMask (dies k : Nat) : Word :=
  if k = 0 then 0x0000FFFF0000000F
  else if k < 0x200 then 0
  else if k < 0x600 then (if k % 16 < 12 then BitVec.allOnes 64 else 0)
  else if k < 0xA00 then
    if 16 * dies ≤ (k - 0x600) / 8 then 0
    else if k % 8 = 0 then 0xFF003F00FFFFFFFF else if k % 8 = 1 then 0xFFFF000000000000 else 0
  else if k < 0xE00 then
    if 4 * dies ≤ (k - 0xA00) / 32 then 0
    else if k % 32 = 0 then 0xFFFF0000FFFFFFFF else if k % 32 = 3 then 0xFFFFFFFFFF000000
    else if k % 32 < 20 then BitVec.allOnes 64 else 0
  else if k < 0x1E00 then
    if 16 * dies ≤ (k - 0xE00) / 32 then 0 else if k % 2 = 0 then 0xFFC00000FFFFFFFF else 0x00000000FFFFFFFF
  else if k < 0x2000 then 0
  else if k < 0x2800 then BitVec.allOnes 64
  else if k < 0x3800 then 0xFF00000000000000
  else if k < 0x4000 then 0
  else if k < 0x14000 then BitVec.allOnes 64
  else if k < 0x16000 then (if k % 2 = 0 then 0xFFFFFFFFFFFF0000 else BitVec.allOnes 64)
  else if k < 0xC0000 then BitVec.allOnes 64
  else if 131072 * dies ≤ k - 0xC0000 then 0
  else if k % 4 = 0 then 0xFFFF0000FFFFFFFF else if k % 4 = 3 then 0x8000000000007FFF else BitVec.allOnes 64

/-- The word of a bank at a word index. -/
def bankWord (b : FMap Nat Word) (k : Nat) : Word := b.get (bankReset k) k

/-- The bank that a die uses for an epoch (05 R184). -/
def TabDie.bankOf (t : TabDie) (capoE : Nat) (e : Nat) : FMap Nat Word :=
  if e = t.newE then t.newest
  else match t.older with
    | some b => if e = t.oldE then b else if e = capoE then t.shadow else t.newest
    | none => if e = capoE then t.shadow else t.newest

/-- The word of a die's bank of an epoch, at a bank offset in bytes. -/
def State.bankAt (s : State) (d e off : Nat) : Word := bankWord ((s.tabDie d).bankOf s.tab.capoE e) (off / 8)

/-- The newest epoch of a die. -/
def State.newE (s : State) (d : Nat) : Nat := (s.tabDie d).newE

/-- Word `w` of the port-table entry of a global port (05 R172). -/
def State.portWord (s : State) (d e g w : Nat) : Word := s.bankAt d e (0x3000 + 64 * g + 8 * w)

/-- OWNER of a port-table entry; a partition that the member does not have is none (00 R3). -/
def State.portOwner (s : State) (d e g : Nat) : Nat :=
  let o := getBits (s.portWord d e g 0) 62 57
  if o < s.partCount then o else 0x3F
/-- FWD of a port-table entry. -/
def State.portFwd (s : State) (d e g : Nat) : Bool := bitOf (s.portWord d e g 0) 63
/-- UP of a port-table entry. -/
def State.portIsUp (s : State) (d e g : Nat) : Bool := bitOf (s.portWord d e g 0) 56

/-- The owner of a port in the newest bank of its own die. -/
def State.ownerOf (s : State) (g : Nat) : Nat := s.portOwner (pdie g) (s.newE (pdie g)) g

/-- Word `w` of the partition-table entry (05 R173). -/
def State.partWord (s : State) (d e n w : Nat) : Word := s.bankAt d e (0x5000 + 256 * n + 8 * w)

/-- VALID of a partition. -/
def State.partValid (s : State) (d e n : Nat) : Bool := decide (n < s.partCount) && bitOf (s.partWord d e n 0) 63
/-- The upstream port of face 0. -/
def State.up0 (s : State) (d e n : Nat) : Nat := getBits (s.partWord d e n 0) 62 56
/-- The upstream port of face 1; a second upstream port on the same die counts as absent (08 R312). -/
def State.up1 (s : State) (d e n : Nat) : Option Nat :=
  let w := s.partWord d e n 0
  if bitOf w 55 ∧ getBits w 54 48 / 16 ≠ getBits w 62 56 / 16 then some (getBits w 54 48) else none
/-- The upstream port of a face. -/
def State.upOf (s : State) (d e n f : Nat) : Option Nat := if f = 0 then some (s.up0 d e n) else s.up1 d e n
/-- Bit `g` of REACH. -/
def State.reach (s : State) (d e n g : Nat) : Bool :=
  if g < 64 then bitOf (s.partWord d e n 1) g else bitOf (s.partWord d e n 2) (g - 64)
/-- Bit `m` of PEERS. -/
def State.peers (s : State) (d e n m : Nat) : Bool := decide (m < s.partCount) && bitOf (s.partWord d e n 0) m

/-- Binding `k` of a partition (08 R290). -/
def State.binding (s : State) (d e n k : Nat) : Nat :=
  getBits (s.partWord d e n (4 + k / 4)) (16 * (k % 4) + 15) (16 * (k % 4))

/-- Words of a translation context (09 R322). -/
def State.ctxWord (s : State) (d e x w : Nat) : Word := s.bankAt d e (0xA0000 + 16 * x + 8 * w)

/-- The partition of a context. -/
def State.ctxPart (s : State) (d e x : Nat) : Nat := getBits (s.ctxWord d e x 0) 62 57

/-- Whether a context translates in an epoch (09 R322, R323). -/
def State.ctxValid (s : State) (d e x : Nat) : Bool :=
  let w0 := s.ctxWord d e x 0
  let w1 := s.ctxWord d e x 1
  bitOf w0 63 && getBits w0 56 55 != 3 && getBits w0 54 53 != 3 && decide (getBits w1 23 18 ≤ 32)
    && decide (getBits w1 17 0 + getBits w1 23 18 ≤ 174080)

/-- The effect of a binding (08 R291, R292): 0 absent, 1 PORT, 2 LENT, 3 EMPTY. -/
def State.bindKind (s : State) (d e n k : Nat) : Nat :=
  let b := s.binding d e n k
  let kind := b / 2 ^ 14
  let g := b / 64 % 128
  if b / 2 ^ 13 % 2 = 1 ∧ s.up1 d e n = none ∧ kind ≠ 0 then 3
  else if kind = 1 then
    if s.portOwner d e g ≠ n ∨ s.portIsUp d e g ∨ pdie g ≥ s.dieCount ∨ !(s.hasLanes g)
      ∨ (List.range k).any (fun j => s.binding d e n j / 2 ^ 14 == 1 && s.binding d e n j / 64 % 128 == g) then 3 else 1
  else if kind = 2 then (if s.ctxPart d e (b / 2 % 4096) ≠ n then 3 else 2)
  else kind

/-- The port of a PORT binding. -/
def State.bindPort (s : State) (d e n k : Nat) : Nat := s.binding d e n k / 64 % 128
/-- The context of a LENT binding. -/
def State.bindCtx (s : State) (d e n k : Nat) : Nat := s.binding d e n k / 2 % 4096
/-- The face of a binding. -/
def State.bindFace (s : State) (d e n k : Nat) : Nat := s.binding d e n k / 2 ^ 13 % 2
/-- The slot of a PORT binding, if it has one. -/
def State.bindSlot (s : State) (d e n k : Nat) : Option Nat :=
  if s.binding d e n k / 32 % 2 = 1 then some (s.binding d e n k % 32) else none

/-- The virtual port of partition `n` that a PORT binding gives to a global port, in the newest bank of a die. -/
def State.vpOfPort (s : State) (d e n g : Nat) : Option Nat :=
  (List.range 64).find? fun k => s.bindKind d e n k == 1 && s.bindPort d e n k == g

/-- The virtual port of partition `n` that a LENT binding gives to a context. -/
def State.vpOfCtx (s : State) (d e n x : Nat) : Option Nat :=
  (List.range 64).find? fun k => s.bindKind d e n k == 2 && s.bindCtx d e n k == x

/-- The port bound to a slot by a PORT binding of any partition, in the newest bank of a die (12 R447). -/
def State.portOfSlot (s : State) (d n : Nat) : Option Nat :=
  let e := s.newE d
  (List.range 32).findSome? fun m =>
    if s.partValid d e m then
      ((List.range 64).find? fun k => s.bindKind d e m k == 1 && s.bindSlot d e m k == some n).map (s.bindPort d e m)
    else none

end Sys2Proof.Machine
end

