-- ==== Sys2Proof/Machine/Flags.lean ====
section
/-! DEFINITION. Sticky bits and events: which event and class a source has (19 R650 to R653), setting a source, asserting an
event, delivering it (12 R474 to R476, 19 R655), and the answers to verdicts (01 R34, R35). -/

namespace Sys2Proof.Machine

/-- The lowest event number of the block of an error register on its die, with the first bit (19 R650 to R653). -/
def eventOf (s : State) (r : Reg) (bit : Nat) : Nat × Nat :=
  match r.name with
  | .linkErr => if r.i < 16 then (r.die, 32 * r.i + bit) else (r.die, 512 + 16 * (r.i - 16) + bit)
  | .fretErr => (r.die, 32 * r.i + 16 + bit)
  | .fltTlerr => (r.die, 32 * r.i + 24 + bit)
  | .tabErr => (r.die, 896 + bit)
  | .bufErr => (r.die, 904 + bit)
  | .schErr => (r.die, 913 + bit)
  | .parErr => (r.die, 918 + bit)
  | .xltErr => (r.die, 923 + bit)
  | .dmaErr => (r.die, 932 + bit)
  | .gateErr => (r.die, 939 + bit)
  | .fltErr => (r.die, 944 + bit)
  | .pwrErr => (r.die, 957 + bit)
  | .sbbErr => (r.die, 961 + bit)
  | .recErr => (r.die, 967 + bit)
  | .partMerstat => (s.lead, if 24 ≤ bit then 976 + (bit - 24) else 984 + (bit - 16))
  | .hildErr => (s.slotDie r.i, 640 + 16 * s.slotChan r.i + bit)
  | _ => (r.die, 1000)

/-- The class of a source (12 R459, 19 R651 to R653). -/
def classOf (r : Reg) (bit : Nat) : Nat :=
  match r.name with
  | .linkErr =>
    if bit ≤ 1 then 5
    else if 16 ≤ r.i then 6
    else ([5, 5, 4, 0, 0, 1, 1, 2, 3] : List Nat).getD bit 3
  | .fretErr => ([11, 12, 11, 11, 14, 13, 9, 13] : List Nat).getD bit 13
  | .fltTlerr => ([7, 8, 10, 11, 11, 11, 2] : List Nat).getD bit 2
  | .tabErr => if bit = 0 ∨ bit = 4 then 14 else 15
  | .bufErr => if bit = 0 ∨ bit = 2 then 16 else if bit = 1 then 17 else 18
  | .schErr => 19
  | .parErr => if bit = 2 ∨ bit = 3 then 15 else 20
  | .xltErr => if bit = 4 ∨ bit = 5 then 22 else if bit = 6 then 14 else if bit = 8 then 15 else 21
  | .dmaErr => 23
  | .gateErr => 24
  | .fltErr => ([38, 38, 26, 26, 25, 25, 27, 28, 29, 30, 30, 31, 32] : List Nat).getD bit 38
  | .pwrErr => 33
  | .sbbErr => 36
  | .recErr => 37
  | .partMerstat => 28
  | .hildErr => if bit < 8 then 34 else 35
  | _ => 38

/-- The die whose FLT block takes the faults of a source (12 R446, 19 R654). -/
def faultDie (s : State) (r : Reg) : Nat :=
  match r.name with
  | .partMerstat => s.lead
  | .hildErr => s.slotDie r.i
  | _ => r.die

/-- Set a fault source: its sticky bit becomes 1, and the fault goes to the input crossing of the die's FLT block
(12 R444, R446; 00 R8). The sources of a die that is not in service are lost with it; the Hild die's wait (19 R654). -/
def raiseFault (fr : FaultRec) (s : State) : State :=
  let d := faultDie s fr.reg
  if s.active d = true ∨ fr.reg.name = .hildErr then
    let s1 := s.setReg fr.reg (setBits (s.reg fr.reg) fr.bit fr.bit 1)
    s1.modFlt fun x => { x with inbox := x.inbox.set d (x.inbox.get [] d ++ [{ fr with rose := !(bitOf (s.reg fr.reg) fr.bit) }]) }
  else s

/-- Set a source that is tied to nothing but its register. -/
def raise (r : Reg) (f : Field) (s : State) : State := raiseFault { reg := r, bit := f.lo } s

/-- Set a source for a fault tied to one packet (12 R447). -/
def raiseTied (r : Reg) (f : Field) (t : TlpRef) (s : State) : State := raiseFault { reg := r, bit := f.lo, tied := some t } s

/-- Set a source of a DMA channel (12 R447). -/
def raiseChan (d c : Nat) (f : Field) (s : State) : State := raiseFault { reg := dreg .dmaErr d, bit := f.lo, chan := some c } s

/-- Whether a fault names a sticky bit that is a fault source (12 R444): an RW1C bit, but not one of EVT.PULSE (19 R656). -/
def FaultRec.isSource (f : FaultRec) : Bool :=
  f.reg.name != .evtPulse && f.reg.name.fields.any fun x => decide (x.acc = .rw1c) && decide (x.lo ≤ f.bit) && decide (f.bit ≤ x.hi)

/-- The bits of a register that faults name. -/
def sourceBits (r : Reg) (l : List FaultRec) : Word :=
  l.foldl (fun w f => if f.reg = r then w ||| BitVec.ofNat 64 (2 ^ f.bit) else w) 0

/-! ### Delivery -/

/-- The route of an event (12 R488). -/
def State.route (_s : State) (d e : Nat) : Reg := { name := .evtRoute, die := d, i := e }

/-- The queue toward the BMC with DEPTH kept (12 R476, R480). -/
def setBmc (q : List BmcMsg) (s : State) : State :=
  (s.modFlt fun x => { x with bmc := q }).setFld { name := .partEvtq } PartEvtq.DEPTH q.length

/-- Deliver a message to the BMC: dropped and counted when 128 wait (12 R476). -/
def toBmc (m : BmcMsg) (s : State) : State :=
  if s.flt.bmc.length ≥ 128 then s.count { name := .partEvtq } PartEvtq.DROPPED 1 else setBmc (s.flt.bmc ++ [m]) s

/-- Whether the endpoint instance of a face qualifies to send a message (08 R310). -/
def State.faceReady (s : State) (d n f : Nat) : Bool :=
  match s.upOf d (s.newE d) n f with
  | none => false
  | some g => (s.face n f).dstate == 0 && (s.face n f).msix && s.portUp g

/-- While an event of a partition is pending, each endpoint instance with PME_En set and its link up sends a PM_PME message (08 R310). -/
def sendPme (d n : Nat) (s : State) : State :=
  s.forAll ((List.range 2).filter fun f => (s.face n f).pmeEn && ((s.upOf d (s.newE d) n f).any s.portUp)) fun f => fun t =>
    t.modFlt fun x => { x with pme := x.pme ++ [(n, f)] }

/-- Send an event's MSI-X message through the lowest face that qualifies, or keep it pending (08 R310, 12 R475). -/
def toEndpoint (n d e : Nat) (s : State) : State :=
  let vec := s.fld (s.route d e) EvtRoute.VEC
  match (List.range 2).find? (s.faceReady d n) with
  | none => sendPme d n (s.modPar fun p => { p with pending := p.pending.set n (p.pending.get [] n ++ [(d, e)]) })
  | some f =>
    if vec ∈ (s.face n f).masked then s.modFace n f fun x => { x with pba := vec :: x.pba.erase vec }
    else s.modFlt fun x => { x with msix := x.msix ++ [(n, f, vec, d, e)] }

/-- Deliver a message for an event that has no case (12 R476). -/
def noCaseMsg (s : State) (d e cls : Nat) : BmcMsg :=
  { die := d, event := e, cls := cls, level := 0xFF, entry := 0xFF, tag := 0, ukind := 0xFF, unit := 0, port := 0x7F,
    part := 0x3F, meridian := s.meridian d }

/-- The Beylu recorder takes an event (12 R474, 17 R606): its engine writes the EVT record at its next turn. -/
def recNote (m : BmcMsg) (s : State) : State := s.modFlt fun x => { x with noted := x.noted ++ [m] }

/-- Deliver an event by its route, with the partition of its case (0x3F for none) and the message for the BMC
(12 R474, R475). -/
def deliverRouted (d e part : Nat) (m : BmcMsg) (s : State) : State :=
  let r := s.route d e
  let p := if s.fld r EvtRoute.PSEL = 1 then s.fld r EvtRoute.PARTN else part
  let s1 := if s.fld r EvtRoute.PEN = 1 ∧ p < s.partCount then toEndpoint p d e s else s
  let s2 := if s.fld r EvtRoute.BMC = 1 ∨ (s.fld r EvtRoute.PEN = 1 ∧ ¬ p < s.partCount) then toBmc m s1 else s1
  if s.fld r EvtRoute.REC = 1 then recNote m s2 else s2

/-- Deliver a verdict event of 19 R655: to the endpoint of the owning partition with code 1, to the BMC with code 2 or when
no partition owns it, by its route in hardware mode. -/
def deliverVerdict (d e mode part : Nat) (s : State) : State :=
  let m := noCaseMsg s d e 0xFF
  if mode = 1 ∧ part < s.partCount then toEndpoint part d e s
  else if mode = 1 ∨ mode = 2 then toBmc m s
  else deliverRouted d e part m s

/-! ### Verdicts -/

/-- The assist mode of a function (01 R32). -/
def State.assist (s : State) (f : Field) : Nat := s.fld partAssist f

/-- A verdict is refused: VREF is set on the die and its event is delivered (01 R35, 19 R656). -/
def refuseVerdict (d : Nat) (s : State) : State :=
  deliverRouted d 1000 0x3F (noCaseMsg s d 1000 0xFF) (s.setFld (dreg .evtPulse d) EvtPulse.VREF 1)

/-- A verdict that arrived after expiry is discarded and counted (01 R34, R38). -/
def lateVerdict (s : State) : State := s.count partAlate PartAlate.COUNT 1

/-- Whether a master may give a verdict for an instance raised in a mode for a partition (01 R32): the endpoint of the
partition with code 1, the BMC with code 2 or when no partition owns the instance; harts where the register says so. -/
def mayAnswer (who : Master) (mode part : Nat) (harts : Bool) : Bool :=
  match who with
  | .hart _ _ => harts
  | .bmc => mode == 2 || (mode == 1 && !(decide (part < 32)))
  | .endpoint n => mode == 1 && n == part
  | .debug => false
  | .dma _ _ => false

/-! ### Levels -/

/-- The bit of a field, when the field is set. -/
def State.bit (s : State) (r : Reg) (b : Nat) : Bool := bitOf (s.reg r) b

/-- Whether an event is asserted (12 R474, 19 R650 to R653): the sticky bit of its source, or the condition of a verdict
event. An event whose unit does not exist never asserts. -/
def State.eventLevel (s : State) (d e : Nat) : Bool :=
  if e < 512 then
    let pp := e / 32
    let o := e % 32
    if !(s.hasLanes (gport d pp)) then false
    else if o ≤ 8 then s.bit (lreg .linkErr d pp) o
    else if o = 9 then (s.lanesOf d pp).any fun ll => s.fld { name := .lanePeg, die := d, i := ll } LanePeg.TAG != 0
    else if o = 10 then s.fld (lreg .linkRtv d pp) LinkRtv.TAG != 0
    else if o = 11 then (List.range 16).any fun k => s.fld { name := .fretTraprec0, die := d, i := pp, j := k } FretTraprec0.VALID == 1
    else if 16 ≤ o ∧ o ≤ 23 then s.bit (lreg .fretErr d pp) (o - 16)
    else if 24 ≤ o ∧ o ≤ 30 then s.bit (lreg .fltTlerr d pp) (o - 24)
    else false
  else if e < 640 then
    let t := (e - 512) / 16
    let b := (e - 512) % 16
    decide (t < s.dieCount) && t != d && decide (b ≤ 8) && s.bit (lreg .linkErr d (16 + t)) b
  else if e < 896 then
    let i := (e - 640) / 16
    let o := (e - 640) % 16
    let n := d * s.slotsPerDie + i
    decide (i < s.slotsPerDie) &&
      (if o ≤ 5 ∨ (8 ≤ o ∧ o ≤ 12) then s.bit { name := .hildErr, i := n } o
       else if o = 13 then s.fld { name := .hildStat, i := n } HildStat.STATE == 1
       else if o = 14 then s.fld { name := .sbbSegSig, die := d, i := i } SbbSegSig.WAKE == 1
       else false)
  else if e ≤ 900 then s.bit (dreg .tabErr d) (e - 896)
  else if 904 ≤ e ∧ e ≤ 912 then s.bit (dreg .bufErr d) (e - 904)
  else if 913 ≤ e ∧ e ≤ 917 then s.bit (dreg .schErr d) (e - 913)
  else if 918 ≤ e ∧ e ≤ 922 then s.bit (dreg .parErr d) (e - 918)
  else if 923 ≤ e ∧ e ≤ 931 then s.bit (dreg .xltErr d) (e - 923)
  else if 932 ≤ e ∧ e ≤ 938 then s.bit (dreg .dmaErr d) (e - 932)
  else if 939 ≤ e ∧ e ≤ 943 then s.bit (dreg .gateErr d) (e - 939)
  else if 944 ≤ e ∧ e ≤ 956 then s.bit (dreg .fltErr d) (e - 944)
  else if 957 ≤ e ∧ e ≤ 960 then s.bit (dreg .pwrErr d) (e - 957)
  else if 961 ≤ e ∧ e ≤ 966 then s.bit (dreg .sbbErr d) (e - 961)
  else if 967 ≤ e ∧ e ≤ 972 then s.bit (dreg .recErr d) (e - 967)
  else if 976 ≤ e ∧ e ≤ 983 then d == s.lead && s.bit partMerstat (24 + (e - 976))
  else if 984 ≤ e ∧ e ≤ 991 then d == s.lead && s.bit partMerstat (16 + (e - 984))
  else if e = 992 then s.fld (dreg .bufLeakv d) BufLeakv.TAG != 0
  else if e = 993 then (List.range 64).any fun i =>
    s.fld { name := .schPxrec, die := d, i := i } SchPxrec.VALID == 1 &&
      s.fld { name := .schPxrec, die := d, i := i } SchPxrec.ACTING == 0
  else if e = 994 then (List.range 64).any fun i => s.fld { name := .xltPrec0, die := d, i := i } XltPrec0.VALID == 1
  else if e = 995 then (List.range 32).any fun c => s.fld { name := .dmaChStat, die := d, i := c } DmaChStat.FTAG != 0
  else if e = 996 then d == s.lead && s.fld { name := .bootActv, die := d } BootActv.TAG != 0
  else if e = 997 then d == s.lead && s.fld { name := .bootMigv, die := d } BootMigv.TAG != 0
  else if e = 998 then s.fld { name := .bootAct, die := d } BootAct.STATE == 4
  else if e = 1000 then s.bit (dreg .evtPulse d) 0
  else false

end Sys2Proof.Machine
end

