-- ==== Sys2Proof/Machine/Gates.lean ====
section
/-! DEFINITION. Management addresses (11 R405), master identities, the access gates with their regions and locks, the debug token, and
the control-island clock (11 R422 to R434). -/

namespace Sys2Proof.Machine

/-! ### Addresses (00 R5, 11 R405, R423) -/

/-- Where a management address leads: a die, a gate target and the offset from the target's first byte; `win` is the offset in the die's
window, or in the part-wide or Hild region. -/
structure Dest where
  die : Nat
  target : Nat
  off : Nat
  win : Nat
  deriving DecidableEq, Repr

/-- The number that stands for the register region beyond the last block: it lies in a region of the map, and every access to it receives an error
response (11 R405; 19 R645; log entry 48). -/
def noTarget : Nat := 31

/-- The target of an offset in a die window (11 R405, R423). -/
def windowTarget (w : Nat) : Option (Nat × Nat) :=
  if 0x03A00000 ≤ w ∧ w < 0x03A40000 then some (22, w - 0x03A00000)
  else if 0x03B00000 ≤ w ∧ w < 0x03B10000 then some (23, w - 0x03B00000)
  else if 0x03B80000 ≤ w ∧ w < 0x03B81000 then some (24, w - 0x03B80000)
  else if w < 0x04800000 then some (w / 0x400000, w % 0x400000)
  else if w < 0x10000000 then some (noTarget, w - 0x04800000)
  else if 0x10000000 ≤ w ∧ w < 0x10400000 then some (18, w - 0x10000000)
  else if 0x20000000 ≤ w ∧ w < 0x23400000 then some (19, w - 0x20000000)
  else if 0x40000000 ≤ w ∧ w < 0x40800000 then some (20, w - 0x40000000)
  else if 0x80000000 ≤ w ∧ w < 0x83000000 then some (21, w - 0x80000000)
  else none

/-- Where an address leads for a master on die `own` (11 R405): none for an address outside every region. -/
def State.decodeAddr (s : State) (own a : Nat) : Option Dest :=
  if a < 2 ^ 28 then
    some (if 0x300 ≤ a ∧ a < 0x800 then ⟨s.lead, 27, a - 0x300, a⟩ else ⟨s.lead, 25, a, a⟩)
  else if 2 ^ 32 ≤ a ∧ a < 9 * 2 ^ 32 then
    (windowTarget (a % 2 ^ 32)).map fun t => ⟨a / 2 ^ 32 - 1, t.1, t.2, a % 2 ^ 32⟩
  else if 0xE000000000 ≤ a ∧ a < 0xE100000000 then
    (windowTarget (a % 2 ^ 32)).map fun t => ⟨own, t.1, t.2, a % 2 ^ 32⟩
  else if 0xF000000000 ≤ a ∧ a < 0xF001000000 then some ⟨s.lead, 26, a - 0xF000000000, a - 0xF000000000⟩
  else none

/-! ### Master identities (11 R422) -/

/-- A hart. -/
def State.hart (s : State) (d h : Nat) : Hart := (s.core.dies.get {} d).hart.get {} h

/-- MSTATE of a hart (10 R392). -/
def Hart.mstate (x : Hart) : Word := x.csr.get 0x10001 0x40

/-- Whether a hart runs in M. -/
def Hart.inM (x : Hart) : Bool := bitOf x.mstate 0

/-- The MID of a master. -/
def State.midOf (s : State) (who : Master) : Nat :=
  match who with
  | .hart d h => 4 * d + 2 * h + b2n (s.hart d h).inM
  | .bmc => 0x80
  | .endpoint n => 0x60 + n
  | .debug => 0x81
  | .dma d c =>
    let o := s.fld { name := .dmaChCfg, die := d, i := c } DmaChCfg.OWNER
    if o < 32 then 0x20 + o else 0x40 + d

/-! ### The decision of a gate (11 R424, R429, R432) -/

def gateCtl (d t : Nat) : Reg := { name := .gateCtl, die := d, i := t }
def gateReg0 (d t r : Nat) : Reg := { name := .gateReg0, die := d, i := t, j := r }
def gateReg1 (d t r : Nat) : Reg := { name := .gateReg1, die := d, i := t, j := r }

/-- The group of a MID in a die's map (11 R440). -/
def State.midGroup (s : State) (d mid : Nat) : Nat :=
  getBits (s.reg { name := .gateMidgrp, die := d, i := mid / 16 }) (4 * (mid % 16) + 3) (4 * (mid % 16))

/-- Whether a valid region covers a page. -/
def State.covers (s : State) (d t r page : Nat) : Bool :=
  s.fld (gateReg0 d t r) GateReg0.VALID == 1 && decide (s.fld (gateReg0 d t r) GateReg0.BASE ≤ page)
    && decide (page ≤ s.fld (gateReg0 d t r) GateReg0.LIMIT)

/-- Whether a region is locked. -/
def State.regionLocked (s : State) (d t r : Nat) : Bool := s.fld (gateReg0 d t r) GateReg0.LOCK == 1

/-- The locked region that covers a page with the lowest number. -/
def State.lockedCover (s : State) (d t page : Nat) : Option Nat :=
  (List.range 64).find? fun r => s.regionLocked d t r && s.covers d t r page

/-- The region that decides for a page: the lowest locked one that covers it, otherwise, with ARM = 1, the lowest one. -/
def State.decides (s : State) (d t page : Nat) : Option Nat :=
  match s.lockedCover d t page with
  | some r => some r
  | none => (List.range 64).find? fun r => s.covers d t r page

/-- Whether a region's permissions let a group read (0), write (1) or fetch (2). -/
def State.permits (s : State) (d t r group need : Nat) : Bool := bitOf (s.reg (gateReg1 d t r)) (3 * group + need)

/-- Whether a gate passes an access to a page: `need` is 0 read, 1 write, 2 fetch. No write passes to a page that a locked region
covers (R429). -/
def State.gatePasses (s : State) (d t mid page need : Nat) : Bool :=
  match s.lockedCover d t page with
  | some r => need != 1 && s.permits d t r (s.midGroup d mid) need
  | none =>
    if s.fld (gateCtl d t) GateCtl.ARM = 0 then true
    else match s.decides d t page with
      | some r => s.permits d t r (s.midGroup d mid) need
      | none => false

/-- Whether the active token's entries let the debug master make an access (R432). -/
def State.tokenPasses (s : State) (d t page need : Nat) : Bool :=
  match s.gate.token with
  | none => false
  | some k =>
    t != 24 && !(need == 1 && (s.lockedCover d t page).isSome) && k.entries.any fun e =>
      bitOf e 63 && getBits e 60 56 == t && (getBits e 55 48).testBit d && decide (getBits e 19 0 ≤ page) && decide (page ≤ getBits e 39 20)
        && (if need = 0 then bitOf e 61 else if need = 1 then bitOf e 62 else false)

/-- Whether an access to a page passes. -/
def State.pageOk (s : State) (d t mid page need : Nat) : Bool :=
  s.gatePasses d t mid page need || (mid == 0x81 && s.tokenPasses d t page need)

/-- The first page of an access of `n` bytes from an offset that does not pass: none when all pass (R425, R426). -/
def State.refusedPage (s : State) (d t mid off n need : Nat) : Option Nat :=
  ((List.range (n / 4096 + 2)).map (· + off / 4096)).find? fun p => decide (p ≤ (off + n - 1) / 4096) && !(s.pageOk d t mid p need)

/-! ### Refusals (11 R427, R428, R442) -/

def gateErr (d : Nat) : Reg := dreg .gateErr d

/-- GATE.FREC captures an access when REFUSED or DBGREF rises from 0. -/
def captureFrec (d mid t acc addr lineoff : Nat) (s : State) : State :=
  if s.fld (gateErr d) GateErr.REFUSED = 1 ∨ s.fld (gateErr d) GateErr.DBGREF = 1 then s
  else (s.setReg (dreg .gateFrec0 d) (BitVec.ofNat 64
      (GateFrec0.VALID.place 1 + GateFrec0.MID.place mid + GateFrec0.TARGET.place t + GateFrec0.ACC.place acc + GateFrec0.ADDRESS.place addr))).setReg
    (dreg .gateFrec1 d) (BitVec.ofNat 64 (GateFrec1.LINEOFF.place lineoff))

/-- A gate refuses an access: REFUSED, or DBGREF for the debug master; BURST for a burst. -/
def gateRefuse (d mid t acc addr lineoff : Nat) (s : State) : State :=
  let s1 := captureFrec d mid t acc addr lineoff s
  let s2 := raise (gateErr d) (if mid = 0x81 then GateErr.DBGREF else GateErr.REFUSED) s1
  if 3 ≤ acc then raise (gateErr d) GateErr.BURST s2 else s2

/-- An access of `n` bytes at a target: `acc` is 0 read, 1 write, 2 fetch, 3 burst read, 4 burst write. Answers whether it passes. -/
def gateAccess (x : Dest) (mid acc addr n : Nat) (s : State) : Bool × State :=
  let need := if acc = 3 then 0 else if acc = 4 then 1 else acc
  match s.refusedPage x.die x.target mid x.off n need with
  | none => (true, s)
  | some p => (false, gateRefuse x.die mid x.target acc addr ((max (p * 4096) x.off - x.off / 64 * 64) / 64) s)

/-- A write that the replication engine of a die makes in its table store, at an offset from the store's first byte (11 R422, R427): where the die's
gate refuses it, it has no effect there. -/
def replicate (d off : Nat) (act : State → State) (s : State) : State :=
  if s.pageOk d 19 (0x58 + d) (off / 4096) 1 then act s
  else gateRefuse d (0x58 + d) 19 1 (0x20000000 + off + (d + 1) * 2 ^ 32) 0 s

/-! ### Writes to the gate's own registers (11 R429, R438 to R440) -/

/-- A write that met a lock: nothing changes, LOCKWR is set (R429). -/
def lockWrite (d : Nat) (s : State) : State := raise (gateErr d) GateErr.LOCKWR s

/-- A write of GATE.CTL (R438): frozen once LOCK is 1. -/
def gateCtlWrite (d t : Nat) (v : Word) (s : State) : State :=
  if s.fld (gateCtl d t) GateCtl.LOCK = 1 then lockWrite d s
  else (s.setFld (gateCtl d t) GateCtl.ARM (GateCtl.ARM.of v)).setFld (gateCtl d t) GateCtl.LOCK (GateCtl.LOCK.of v)

/-- A write of a word of a region (R439): frozen by its LOCK or by its target's. -/
def gateRegWrite (d t r : Nat) (second : Bool) (v : Word) (s : State) : State :=
  if s.regionLocked d t r = true ∨ s.fld (gateCtl d t) GateCtl.LOCK = 1 then lockWrite d s
  else if second then s.setFld (gateReg1 d t r) GateReg1.PERM (GateReg1.PERM.of v)
  else s.setReg (gateReg0 d t r) (BitVec.ofNat 64
    (GateReg0.VALID.place (GateReg0.VALID.of v) + GateReg0.LOCK.place (GateReg0.LOCK.of v) + GateReg0.LIMIT.place (GateReg0.LIMIT.of v)
      + GateReg0.BASE.place (GateReg0.BASE.of v)))

/-- A write of GATE.MIDGRP or GATE.MAPLOCK (R440). -/
def midgrpWrite (d k : Nat) (v : Word) (s : State) : State :=
  if s.fld (dreg .gateMaplock d) GateMaplock.LOCK = 1 then lockWrite d s else s.setReg { name := .gateMidgrp, die := d, i := k } v
def maplockWrite (d : Nat) (v : Word) (s : State) : State :=
  if s.fld (dreg .gateMaplock d) GateMaplock.LOCK = 1 then lockWrite d s
  else s.setFld (dreg .gateMaplock d) GateMaplock.LOCK (GateMaplock.LOCK.of v)

/-- A region is set and locked over a whole target by the part (R429). -/
def lockWhole (d t perm : Nat) (s : State) : State :=
  (s.setReg (gateReg0 d t 0) (BitVec.ofNat 64 (GateReg0.VALID.place 1 + GateReg0.LOCK.place 1 + GateReg0.LIMIT.place 0xFFFFF))).setReg
    (gateReg1 d t 0) (BitVec.ofNat 64 (GateReg1.PERM.place perm))

/-- The region of the patch table when ALMLOCK.LOCK is set: R to every group (R429). -/
def lockPatchGate (s : State) : State := s.forAll (List.range s.dieCount) fun d => lockWhole d 27 0x249249249249

/-! ### Debug tokens (11 R432, R433, R443) -/

def partDbgCtl : Reg := { name := .partDbgCtl }

/-- The 512 bytes of PART.DBG.TOK. -/
def State.tokenBytes (s : State) : List Byte :=
  (List.range 64).flatMap fun i => bytesLE 8 (s.reg { name := .partDbgTok, i := i }).toNat

/-- A little-endian number of `n` bytes in a byte string. -/
def leAt (bs : List Byte) (off n : Nat) : Nat := ofBytesLE ((bs.drop off).take n)

/-- Whether a token entry gives W on a page of a locked region, on a die that it names (R433). -/
def State.entryOnLock (s : State) (e : Word) : Bool :=
  bitOf e 62 && (List.range s.dieCount).any fun d => (getBits e 55 48).testBit d && (List.range 64).any fun r =>
    let t := getBits e 60 56
    s.regionLocked d t r && s.fld (gateReg0 d t r) GateReg0.VALID == 1 && decide (s.fld (gateReg0 d t r) GateReg0.BASE ≤ getBits e 39 20)
      && decide (getBits e 19 0 ≤ s.fld (gateReg0 d t r) GateReg0.LIMIT)

/-- The entries of a token: the valid ones among its first NREG. -/
def tokenEntries (bs : List Byte) : List Word :=
  ((List.range (leAt bs 6 2)).map fun i => BitVec.ofNat 64 (leAt bs (0x20 + 16 * i) 8)).filter fun e => bitOf e 63

/-- The STATUS of a token check (R433, R443): the first failure, or 1. -/
def State.tokenStatus (s : State) (bs : List Byte) : Nat :=
  let key := (bs.drop 0x128).take 97
  if leAt bs 0 4 ≠ 0x7B1ED7A0 ∨ leAt bs 4 2 ≠ 1 ∨ 16 < leAt bs 6 2 ∨ 3 < leAt bs 0x120 1 then 2
  else if leAt bs 8 8 ≠ (s.reg { name := .partDbgUid }).toNat then 3
  else if leAt bs 0x10 8 ≠ (s.reg { name := .partDbgNonce }).toNat then 4
  else if sha384 key ≠ Config.vaultDigest (leAt bs 0x120 1) then 5
  else if !(ecdsaVerify key (sha384 (bs.take 0x190)) ((bs.drop 0x190).take 96)) then 6
  else if (tokenEntries bs).any (fun e => getBits e 60 56 == 24 || s.entryOnLock e) then 7
  else 1

/-- INSTALL (R433): a token that passes replaces the active one; a failure is reported in STATUS and sets TOKEN. -/
def tokenInstall (s : State) : State :=
  let bs := s.tokenBytes
  let st := s.tokenStatus bs
  let s1 := s.setFld partDbgCtl PartDbgCtl.STATUS st
  if st = 1 then
    ({ s1 with gate := { s1.gate with token := some { grants := leAt bs 0x18 4, entries := tokenEntries bs } } }).setFld partDbgCtl PartDbgCtl.ACTIVE 1
  else raise (gateErr s.lead) GateErr.TOKEN s1

/-- INSTALL (R433). -/
def execInstall (_who : Master) (s : State) : Host.Outcome State Fault Refusal := .next (tokenInstall s)

/-- REVOKE withdraws the active token at once (R443). -/
def tokenRevoke (s : State) : State :=
  ({ s with gate := { s.gate with token := none } }).setFld partDbgCtl PartDbgCtl.ACTIVE 0

/-- REVOKE (R443). -/
def execRevoke (_who : Master) (s : State) : Host.Outcome State Fault Refusal := .next (tokenRevoke s)

/-- Whether the active token gives a grant: bit 0 REPLAY, 1 APERTURE, 2 RECDUMP (R432). -/
def State.granted (s : State) (b : Nat) : Bool := s.gate.token.any fun k => k.grants.testBit b

/-- An access of the debug master without a response for 100 µs: DBGREF is set, and the access is recorded as a refused one (R428, R431). -/
def debugTimeout (d addr : Nat) (write : Bool) (s : State) : State :=
  if !(s.hasDie d) then s
  else
    let t := match s.decodeAddr d addr with | some x => x.target | none => 0
    raise (gateErr d) GateErr.DBGREF (captureFrec d 0x81 t (b2n write) addr 0 s)

/-- DEBUG_ACCESS_TIMEOUT (R431). -/
def execDebugAccessTimeout (d addr : Nat) (write : Bool) (s : State) : Host.Outcome State Fault Refusal := .next (debugTimeout d addr write s)

/-! ### The control-island clock (11 R434) -/

/-- A write of CORE.CLK: SEL = 1 is ignored while PLLLOCK is 0. -/
def coreClkSelect (d : Nat) (v : Word) (s : State) : State :=
  if CoreClk.SEL.of v = 1 ∧ s.fld (dreg .coreClk d) CoreClk.PLLLOCK = 0 then s
  else s.setFld (dreg .coreClk d) CoreClk.SEL (CoreClk.SEL.of v)

/-- CORE_CLK_SELECT (R434). -/
def execCoreClkSelect (d : Nat) (v : Word) (s : State) : Host.Outcome State Fault Refusal := .next (coreClkSelect d v s)

end Sys2Proof.Machine
end

