-- ==== Sys2Proof/Machine/Buffer.lean ====
section
/-! DEFINITION. The packet buffer (06): cells, ledgers, zeroing, the audit, reservations. -/

namespace Sys2Proof.Machine

/-! ### Cells -/

/-- A cell of a die. -/
def State.cell (s : State) (d c : Nat) : CellRec := (s.bufDie d).cells.get {} c

/-- The state with a cell changed. -/
def State.modCell (s : State) (d c : Nat) (f : CellRec → CellRec) : State :=
  s.modBufDie d fun b => { b with cells := b.cells.set c (f (b.cells.get {} c)) }

/-- The cells of each die (06 R203). -/
def cellCount : Nat := 196608

/-- Whether a cell lies in a bank that is closed or away (14 R536). -/
def BufDie.away (b : BufDie) (c : Nat) : Bool := decide (c / 16384 ∈ b.closed)

/-- The first cell at or after `c`, within `n`, that is in the zero pool. -/
def firstZero (b : BufDie) : Nat → Nat → Option Nat
  | 0, _ => none
  | n + 1, c => if (b.cells.get {} c).state = 0 ∧ !(b.away c) then some c else firstZero b n (c + 1)

/-- A cell of the zero pool: the hinted one where it is in the pool, else the lowest (06 R208; log entry 10). The pool is empty until start-up
zeroing is complete (06 R229). -/
def BufDie.zeroCell (b : BufDie) (hint : Nat) : Option Nat :=
  if b.ready = false then none
  else if hint < cellCount ∧ (b.cells.get {} hint).state = 0 ∧ !(b.away hint) then some hint else firstZero b cellCount 0

/-- The owner tag of the cells that a writer draws (06 R204, R205). -/
def State.writerOwner (s : State) (w : Writer) : Nat :=
  match w with
  | .pcie g _ => s.ownerOf g
  | .nerov g _ _ => s.ownerOf g
  | .span _ _ _ _ => 0x3D
  | .dma d c => s.fld { name := .dmaChCfg, die := d, i := c } DmaChCfg.OWNER
  | .control _ => 0x3E

/-- The ledger charged at a draw (06 R204); none for a DMA channel, whose draws are charged to its partition's shared account. -/
def Writer.ledger (w : Writer) : Option Ledger :=
  match w with
  | .pcie g c => some (.pciePort g c)
  | .nerov g v c => some (.nerov g v c)
  | .span d e v c => some (.span d e v c)
  | .dma _ _ => none
  | .control _ => some .control

/-- The owner tags that have a recycle pool (06 R208). -/
def ownerTags : List Nat := List.range 32 ++ [0x3D, 0x3E, 0x3F]

/-- The recycle pool of an owner, with the cells of closed banks. -/
def BufDie.rawPool (b : BufDie) (o : Nat) : List Nat := b.recycle.get [] o

/-- The recycle pool of an owner: the free cells of a closed bank have left it (14 R536). -/
def BufDie.pool (b : BufDie) (o : Nat) : List Nat := (b.rawPool o).filter fun c => !(b.away c)

/-- The owner with the largest recycle pool among those that a test admits. -/
def BufDie.largestPool (b : BufDie) (p : Nat → Bool) : Option Nat :=
  (ownerTags.filter fun o => p o && !(b.pool o).isEmpty).foldl
    (fun best o => match best with
      | none => some o
      | some x => if (b.pool x).length < (b.pool o).length then some o else some x) none

/-- The source of a draw: a recycle pool or the zero pool (06 R208). -/
inductive DrawFrom where
  | recycle (o c : Nat)
  | zero (c : Nat)
  | nothing
  deriving DecidableEq, Repr

/-- Where a writer of owner `o` draws its next cell (06 R208). -/
def BufDie.drawFrom (b : BufDie) (o hint : Nat) : DrawFrom :=
  match b.pool o with
  | c :: _ => .recycle o c
  | [] =>
    if o = 0x3D ∨ o = 0x3E then
      match b.largestPool (fun x => x != o) with
      | some x => (match b.pool x with | c :: _ => .recycle x c | [] => .nothing)
      | none => (match b.zeroCell hint with | some c => .zero c | none => .nothing)
    else match b.zeroCell hint with
      | some c => .zero c
      | none => .nothing

/-! ### Ledgers and reservations -/

/-- The cells of a die charged to a ledger. -/
def State.charged (s : State) (d : Nat) (l : Ledger) : Nat :=
  ((s.bufDie d).cells.filter fun x => x.2.ledger == some l).length

/-- The cells in a partition's shared account (06 R214, R235). -/
def State.partUse (s : State) (d n : Nat) : Nat := s.charged d (.partMin n) + s.charged d (.shared n)

/-- The width of a port in lanes. -/
def State.width (s : State) (g : Nat) : Nat := (s.lanesOf (pdie g) (pnum g)).length

/-- INRES in force: the register, or the default of the width (06 R214). -/
def State.inres (s : State) (g : Nat) : Nat :=
  let v := s.fld (preg .bufPres g) BufPres.INRES
  if v ≠ 0 then v
  else match s.width g with
    | 2 => 128
    | 4 => 256
    | 8 => 512
    | 16 => 1024
    | _ => 0

/-- The headroom H of a link in flits (03 R91). -/
def State.headroom (s : State) (d i : Nat) : Nat :=
  max (s.fld (lreg .linkVlhead d i) LinkVlhead.HMIN) (s.fld (lreg .linkVlhead d i) LinkVlhead.HEAD)

/-- The size of a Nerov port's ledger per VL and CLASS (06 R214). -/
def State.nerovLedger (s : State) (g : Nat) : Nat := max (s.inres g / 24) (s.headroom (pdie g) (pnum g) + 17)

/-- The size of a span ledger per VL and CLASS (06 R214). -/
def State.spanLedger (s : State) (d e : Nat) : Nat := s.headroom d (16 + e) + 32

/-- All reservations of a die (06 R218). -/
def State.reserved (s : State) (d : Nat) : Nat :=
  ((List.range 16).map fun pp =>
      let g := gport d pp
      (if s.hasLanes g ∧ s.isNerov g = true then 24 * s.nerovLedger g else s.inres g) + s.fld (preg .bufPres g) BufPres.HOLDRES).sum
    + ((List.range s.dieCount).map fun e => if e = d then 0 else 24 * s.spanLedger d e).sum
    + ((List.range 32).map fun n => s.fld { name := .bufPart, die := d, i := n } BufPart.MINRES).sum
    + 64

/-- The size of the shared pool (06 R214, R218, R233), which has no cell before start-up zeroing is complete (06 R229). -/
def State.sharedSize (s : State) (d : Nat) : Nat :=
  let b := s.bufDie d
  if b.ready = false then 0 else cellCount - 16384 * b.closed.length
    - (b.retired - (b.cells.filter fun x => x.2.state == 5 && b.away x.1).length) - s.reserved d

/-- The shared pool's cells in use. -/
def State.sharedUsed (s : State) (d : Nat) : Nat :=
  ((s.bufDie d).cells.filter fun x => match x.2.ledger with | some (.shared _) => true | some .transit => true | _ => false).length

/-- The cells of a ledger that a die keeps for a writer. -/
def State.ledgerSize (s : State) (l : Ledger) : Nat :=
  match l with
  | .pciePort g c => if c = 0 then s.inres g / 2 else s.inres g / 4
  | .nerov g _ _ => s.nerovLedger g
  | .span d e _ _ => s.spanLedger d e
  | .partMin _ => 0
  | .shared _ => 0
  | .transit => 0
  | .control => 64

/-- Where a cell goes in the shared account of its owner (06 R215): into MINRES first, then into the shared pool below PCAP; a TRANSIT cell
into the TRANSIT account below TCAP. None when it cannot go there. -/
def State.shareLedger (s : State) (d n : Nat) : Option Ledger :=
  let room := decide (s.sharedUsed d < s.sharedSize d)
  if n = 0x3D then
    let cap := s.fld (dreg .bufTcap d) BufTcap.TCAP
    if (cap = 0 ∨ s.charged d .transit < cap) ∧ room then some .transit else none
  else
    let part : Reg := { name := .bufPart, die := d, i := n }
    let cap := if n < 32 then s.fld part BufPart.PCAP else 0
    let minres := if n < 32 then s.fld part BufPart.MINRES else 0
    if s.charged d (.partMin n) < minres then some (.partMin n)
    else if (cap = 0 ∨ s.partUse d n < cap) ∧ room then some (.shared n)
    else none

/-- Whether a ledger has room for one more cell. -/
def State.ledgerRoom (s : State) (d : Nat) (l : Ledger) : Bool := decide (s.charged d l < s.ledgerSize l)

/-- The ledger to which a writer's next cell is charged; none when it has no room (06 R204, R214). -/
def State.drawLedger (s : State) (d : Nat) (w : Writer) : Option Ledger :=
  match w.ledger with
  | some l => if s.ledgerRoom d l then some l else none
  | none => s.shareLedger d (s.writerOwner w)

/-! ### Credits of a PCIe port (06 R216) -/

/-- The cells C_c of a port's class. -/
def State.classCells (s : State) (g c : Nat) : Nat := s.ledgerSize (.pciePort g c)

/-- H_c, the header credits that a port advertises for a class. -/
def State.headerCredits (s : State) (g c : Nat) : Nat := s.classCells g c / 4

/-- D_c, the data credits that a port advertises for a class. -/
def State.dataCredits (s : State) (g c : Nat) : Nat := 16 * (s.classCells g c - (s.headerCredits g c + 3) / 4 - 1)

/-- The largest values that a partner without Scaled Flow Control takes (PCI Express Base Specification; log entry 79). -/
def unscaledH : Nat := 127
def unscaledD : Nat := 2047

/-- A port advertises its credits when its link trains. -/
def advertise (g : Nat) (scaled : Bool) (s : State) : State :=
  s.modLink (pdie g) (pnum g) fun l =>
    { l with advH := [0, 1, 2].map fun c => (c, if scaled then s.headerCredits g c else min unscaledH (s.headerCredits g c)),
             advD := [0, 1, 2].map fun c => (c, if scaled then s.dataCredits g c else min unscaledD (s.dataCredits g c)),
             owed := [], owedH := [] }

/-- The credits of a packet are returned; header credits are withheld while the port throttles (04 R118). -/
def LinkSt.giveBack (l : LinkSt) (throttled : Bool) (c units : Nat) : LinkSt :=
  let m := { l with advD := l.advD.upd 0 c (· + units) }
  if throttled then { m with owedH := m.owedH.upd 0 c (· + 1) } else { m with advH := m.advH.upd 0 c (· + 1) }

/-- An admitted packet uses credits of its class, which its cells hold. -/
def takeCredits (g c units : Nat) (cs : List Nat) (s : State) : State :=
  s.modLink (pdie g) (pnum g) fun l =>
    { l with advH := l.advH.upd 0 c (· - 1), advD := l.advD.upd 0 c (· - units), owed := l.owed ++ [(c, units, cs)] }

/-- The credits of packets that hold no cell of the ingress reservation any more are returned. -/
def returnCredits (g : Nat) (left : List Nat) (s : State) : State :=
  let throttled := decide (g ∈ s.fret.throttle)
  s.modLink (pdie g) (pnum g) fun l =>
    let owed := l.owed.map fun x => (x.1, x.2.1, x.2.2.filter fun c => !(decide (c ∈ left)))
    (owed.filter fun x => x.2.2.isEmpty).foldl (fun m x => m.giveBack throttled x.1 x.2.1) { l with owed := owed.filter fun x => !x.2.2.isEmpty }

/-- The header credits withheld while the port throttled are given to the partner (04 R118). -/
def giveHeaders (g : Nat) (s : State) : State :=
  s.modLink (pdie g) (pnum g) fun l => { l with advH := l.owedH.foldl (fun m x => m.upd 0 x.1 (· + x.2)) l.advH, owedH := [] }

/-- A cell leaves its writer's ledger: the credits of a PCIe port that it held are returned (06 R216). -/
def leaveLedger (d c : Nat) (s : State) : State :=
  match (s.cell d c).ledger with
  | some (.pciePort g _) => returnCredits g [c] s
  | _ => s

/-! ### Draws and records -/

/-- A cell whose REFS is 0 and that is not OPEN enters its owner's recycle pool, or VERIFY when SUSP is 1 (06 R207). One whose descriptor is
uncorrectable stays until the audit retires it (06 R224). -/
def freeCell (d c : Nat) (s0 : State) : State :=
  let x := s0.cell d c
  let s := leaveLedger d c s0
  if x.bad then s0
  else if x.susp then
    (s.modCell d c fun y => { y with state := 4, ledger := none, untagged := 0 }).modBufDie d fun b => { b with verify := b.verify ++ [c] }
  else
    (s.modCell d c fun y => { y with state := 1, ledger := none, untagged := 0 }).modBufDie d fun b =>
      { b with recycle := b.recycle.set x.owner (b.rawPool x.owner ++ [c]) }

/-- Seal the open cell of a writer: its next record goes into a newly drawn cell (06 R205). -/
def sealCell (d : Nat) (w : Writer) (s : State) : State :=
  match (s.bufDie d).openCell.find w with
  | none => s
  | some c =>
    let s1 := (s.modCell d c fun y => { y with state := 3, seen := true }).modBufDie d fun b => { b with openCell := b.openCell.erase w }
    if (s1.cell d c).refs = 0 then freeCell d c s1 else s1

/-- A writer draws a cell: it becomes the writer's open cell, owned and charged as 06 R204 states; the writer's earlier open
cell is sealed and names it as NEXT. A draw waits while no source has a cell, or its ledger has no room (06 R208, R214). -/
def drawCell (d : Nat) (w : Writer) (hint : Nat) (s : State) : Option (Nat × State) :=
  let o := s.writerOwner w
  let take := fun (c : Nat) (s : State) =>
    let prev := (s.bufDie d).openCell.find w
    let s0 := match prev with
      | none => s
      | some p => sealCell d w (s.modCell d p fun y => { y with next := some c })
    let s1 := s0.modCell d c fun y =>
      { y with owner := o, state := 2, susp := false, seen := true, refs := 0, fill := 0, next := none,
               ledger := s.drawLedger d w, untagged := 0, suspect := none, listed := false }
    (c, s1.modBufDie d fun b => { b with openCell := b.openCell.set w c })
  if (s.drawLedger d w).isNone then none
  else match (s.bufDie d).drawFrom o hint with
  | .nothing => none
  | .recycle x c => some (take c (s.modBufDie d fun b => { b with recycle := b.recycle.set x ((b.rawPool x).erase c) }))
  | .zero c => some (take c (s.modCell d c fun y => { y with data := [] }))

/-- Write bytes over the contents of a cell from an offset. -/
def overwrite (old : List Byte) (off : Nat) (new : List Byte) : List Byte :=
  (old ++ List.replicate (off - old.length) 0).take off ++ new ++ old.drop (off + new.length)

/-- Whether a writer may write into its open cell: a cell that has left the writer's ledger is charged to it again with the first record that is
not yet tagged, which takes room there (06 R214). -/
def State.mayFill (s : State) (d : Nat) (w : Writer) (c : Nat) : Bool :=
  match w.ledger with
  | some l => decide ((s.cell d c).ledger = some l) || s.ledgerRoom d l
  | none => true

/-- Write a record contiguously from the writer's open cell on, drawing further cells as they are needed (06 R204). Answers
the cells that the record touches, or none when a draw has to wait. -/
def writeRecord (d : Nat) (w : Writer) (hint : Nat) : Nat → List Byte → State → Option (List Nat × State)
  | 0, _, s => some ([], s)
  | fuel + 1, bs, s =>
    if bs.isEmpty then some ([], s) else
    let fit := fun (c : Nat) (s : State) =>
      let x := s.cell d c
      let room := 256 - 4 * x.fill
      let now := bs.take room
      let s1 := s.modCell d c fun y =>
        { y with data := overwrite y.data (4 * x.fill) now, fill := x.fill + (now.length + 3) / 4, refs := y.refs + 1,
                 seen := true, listed := false, untagged := y.untagged + 1, ledger := w.ledger.or y.ledger }
      match writeRecord d w hint fuel (bs.drop room) s1 with
      | none => none
      | some (cs, s2) => some (c :: cs, s2)
    match (s.bufDie d).openCell.find w with
    | some c => if (s.cell d c).fill < 64 then (if s.mayFill d w c then fit c s else none) else
      (match drawCell d w hint s with | none => none | some (c', s') => fit c' s')
    | none => (match drawCell d w hint s with | none => none | some (c', s') => fit c' s')

/-- The bytes of a record: header, OHC, payload and ECRC digest as received (06 R204). -/
def Tlp.record (t : Tlp) : List Byte := t.raw ++ t.payload ++ (if t.ecrc then (t.digest ++ List.replicate 4 0).take 4 else [])

/-- Store a record for a writer: at most 17 cells and the open one. -/
def storeRecord (d : Nat) (w : Writer) (hint : Nat) (t : Tlp) (s : State) : Option (List Nat × State) :=
  writeRecord d w hint 20 t.record s

/-- One reference to a cell goes away; the cell is freed when none is left (06 R207). -/
def dropRef (d c : Nat) (s : State) : State :=
  let s1 := s.modCell d c fun y => { y with refs := y.refs - 1, seen := true, listed := false }
  if (s1.cell d c).refs = 0 ∧ (s1.cell d c).state = 3 then freeCell d c s1 else s1

/-- One more reference to a cell. -/
def addRef (d c : Nat) (s : State) : State :=
  s.modCell d c fun y => { y with refs := y.refs + 1, seen := true, listed := false }

/-- A holder releases its record's cells. -/
def dropCells (d : Nat) (cs : List Nat) (s : State) : State := s.forAll cs (dropRef d)

/-- A holder takes a reference to a record's cells. -/
def addCells (d : Nat) (cs : List Nat) (s : State) : State := s.forAll cs (addRef d)

/-- A record moves between holders: its cells are seen (06, audit). -/
def touchCells (d : Nat) (cs : List Nat) (s : State) : State :=
  s.forAll cs fun c => fun t => t.modCell d c fun y => { y with seen := true, listed := false }

/-- A cell whose records are all tagged, refused or discarded leaves a writer's ledger for the shared account of its owner; one that cannot move
stays where it is (06 R215). Cells of DMA channels are in that account from the draw on, and those of the control island never leave theirs (06
R204, R214). -/
def moveCell (d c : Nat) (s : State) : State :=
  let x := s.cell d c
  if x.untagged ≠ 0 then s
  else match x.ledger with
    | some (.pciePort _ _) | some (.nerov _ _ _) | some (.span _ _ _ _) =>
      (match s.shareLedger d x.owner with
       | some l => (leaveLedger d c s).modCell d c fun y => { y with ledger := some l }
       | none => s)
    | _ => s

/-- A record in a cell is tagged, refused or discarded (06 R215). -/
def settleCell (d c : Nat) (s : State) : State :=
  moveCell d c (s.modCell d c fun y => { y with untagged := y.untagged - 1, seen := true, listed := false })

/-- A record is tagged, refused or discarded: its cells leave the writer's ledger when they may (06 R215). -/
def settleCells (d : Nat) (cs : List Nat) (s : State) : State := s.forAll cs (settleCell d)

/-- The cells that could not move for want of space move as soon as there is some (06 R215). -/
def settleAll (d : Nat) (s : State) : State := s.forAll ((s.bufDie d).cells.map Prod.fst) (moveCell d)

/-! ### Meanings -/

/-- A draw: the waiting writer gets a cell, or goes on waiting (06 R208). -/
def cellDraw (d : Nat) (w : Writer) (hint : Nat) (s : State) : State :=
  match drawCell d w hint s with
  | some (_, s1) => s1.modBufDie d fun b => { b with waiting := b.waiting.erase w }
  | none => s.modBufDie d fun b => { b with waiting := if w ∈ b.waiting then b.waiting else b.waiting ++ [w] }

/-- CELL_DRAW (06 R208, R211). -/
def execCellDraw (d : Nat) (w : Writer) (hint : Nat) (s : State) : Host.Outcome State Fault Refusal :=
  .next (cellDraw d w hint s)

/-- The number of cells in the zero pool (06 R231). -/
def BufDie.zeroPool (b : BufDie) : Nat :=
  if b.ready = false then 0 else cellCount - 16384 * b.closed.length - (b.cells.filter fun x => x.2.state != 0 && !(b.away x.1)).length

/-- Whether an owner has a cell OPEN or USED. -/
def BufDie.ownerBusy (b : BufDie) (o : Nat) : Bool := b.cells.any fun x => x.2.owner == o && (x.2.state == 2 || x.2.state == 3)

/-- A cell is overwritten with zeros and enters the zero pool (06 R209, R210). -/
def zeroCell (d c : Nat) (s : State) : State :=
  (s.modBufDie d fun b => { b with cells := b.cells.set c {} }).count (dreg .bufZcnt d) BufZcnt.COUNT 1

/-- A cell is retired (06 R225). -/
def retireCell (d c : Nat) (s : State) : State :=
  let s1 := (s.modCell d c fun y => { y with state := 5, ledger := none }).modBufDie d fun b => { b with retired := b.retired + 1 }
  let s2 := raise (dreg .bufErr d) BufErr.RETIRE s1
  if (s2.bufDie d).retired = s2.fld { name := .bufRetlim, die := d } BufRetlim.LIMIT then raise (dreg .bufErr d) BufErr.RETLIM s2 else s2

/-- Start-up of a die's buffer (06 R229): every cell that fails self-test is retired, every other one is zeroed into the zero pool. -/
def bufferStart (failing : List (Nat × Nat)) (d : Nat) (s : State) : State :=
  let bad := ((failing.filter fun x => x.1 == d && decide (x.2 < cellCount)).map Prod.snd).eraseDups
  (s.forAll bad (retireCell d)).count (dreg .bufZcnt d) BufZcnt.COUNT (cellCount - bad.length)
    |>.modBufDie d fun b => { b with ready := true }

/-- One take of the zeroing engine (06 R210): VERIFY cells first, then the oldest cell of an owner that has no cell OPEN or
USED, then the oldest cell of the largest recycle pool. A VERIFY cell is zeroed and read back; `clean` says how it reads. -/
def zeroStep (d : Nat) (clean : Bool) (s : State) : State :=
  let b := s.bufDie d
  if s.fld { name := .bufZcfg, die := d } BufZcfg.ZTARGET ≤ b.zeroPool then s
  else match takeFirst (fun c => !(b.away c)) b.verify with
    | some (c, rest) =>
      let s1 := s.modBufDie d fun b => { b with verify := rest }
      if clean then zeroCell d c s1 else retireCell d c (zeroCell d c s1)
    | none =>
      let idle := ownerTags.find? fun o => !(b.pool o).isEmpty && !(b.ownerBusy o)
      match (match idle with | some o => some o | none => b.largestPool fun _ => true) with
      | none => s
      | some o =>
        match b.pool o with
        | [] => s
        | c :: _ => zeroCell d c (s.modBufDie d fun b => { b with recycle := b.recycle.set o ((b.rawPool o).erase c) })

/-- ZERO_ENGINE_STEP (06 R209, R210, R225). -/
def execZeroEngineStep (d : Nat) (clean : Bool) (s : State) : Host.Outcome State Fault Refusal := .next (zeroStep d clean s)

/-! ### The audit -/

/-- The cells on a die that a packet's holder on that die keeps. -/
def Pkt.cellsOn (p : Pkt) (d : Nat) : List Nat := if pdie p.iport = d ∧ p.src ≠ .part then p.cells else p.tcells

/-- Every reference that a holder of a die keeps, one entry per reference (06, audit). -/
def State.holderCells (s : State) (d : Nat) : List Nat :=
  let ports := (List.range 16).map (gport d)
  let ingress := ports.flatMap fun g =>
    (s.fret.hq.get [] g ++ s.fret.decided.get [] g ++ s.fret.heldBack.get [] g ++ s.fret.toTag.get [] g).flatMap fun p => p.cellsOn d
  let parked := (s.fret.parked.filter fun x => x.1.1 / 16 == d).flatMap fun x => x.2.pkt.cellsOn d
  let queues := (s.sch.queues.filter fun x => x.1.1 / 16 == d || decide (0x8000 ≤ x.1.1)).flatMap fun x => x.2.flatMap fun p => p.cellsOn d
  let holds := (s.sch.flows.filter fun x => x.1 / 32768 == d).flatMap fun x => (x.2.hold ++ x.2.leaving).flatMap fun p => p.cellsOn d
  let b := s.bufDie d
  let spans := b.spanPending.flatMap fun p => p.cells
  let mirrors := b.mirrors.flatMap fun x => x.2.flatMap fun m => m.cells
  let transit := b.transit.flatMap fun p => p.tcells
  let faults := (s.xltDie d).fq.flatMap fun f => f.pkts.flatMap fun p => p.cellsOn d
  let courses := (s.fret.course.filter fun x => x.1 / 16 == d && x.2.live).flatMap fun x => x.2.pkt.cellsOn d
  let walks := ((s.xltDie d).walks.filter fun w => !w.queued).flatMap fun w => w.pkt.cellsOn d
  ingress ++ courses ++ walks ++ parked ++ queues ++ holds ++ spans ++ mirrors ++ transit ++ faults

/-- REFS is set to the references found; a free cell that is referenced leaves its pool (06 R226). -/
def refover (d c f : Nat) (s : State) : State :=
  let x := s.cell d c
  let s1 := if x.state = 1 then s.modBufDie d fun b => { b with recycle := b.recycle.set x.owner ((b.rawPool x.owner).erase c) } else s
  raise (dreg .bufErr d) BufErr.REFOVER
    (s1.modCell d c fun y => { y with refs := f, state := if x.state ≤ 1 then 3 else y.state, seen := true, listed := false })

/-- A leaked cell is reclaimed (06 R227). -/
def reclaimCell (d c f : Nat) (s : State) : State :=
  let s1 := s.modCell d c fun y => { y with refs := f, suspect := none, seen := true, listed := false }
  let s2 := if f = 0 ∧ (s1.cell d c).state = 3 then freeCell d c s1 else s1
  raise (dreg .bufErr d) BufErr.RECLAIM (s2.count { name := .bufAudit, die := d } BufAudit.RECLAIMED 1)

/-- The register of the leak list. -/
def leakRec (d i : Nat) : Reg := { name := .bufLeakrec, die := d, i := i }

/-- The leak instance of a die ends: its list and tag clear (06 R228, R239, R240). -/
def endLeak (d : Nat) (s : State) : State :=
  ((s.forAll (List.range 64) fun i => fun t => t.setReg (leakRec d i) 0).setFld (dreg .bufLeakv d) BufLeakv.TAG 0)
    |>.modBufDie d fun b => { b with leakMode := 0 }

/-- RECLAIM for the waiting leak instance: every listed cell that was not touched (06 R228). -/
def leakReclaim (d : Nat) (s : State) : State :=
  endLeak d (s.forAll (List.range 64) fun i => fun t =>
    let r := leakRec d i
    let c := t.fld r BufLeakrec.CELL
    if t.fld r BufLeakrec.VALID = 1 ∧ (t.cell d c).listed then reclaimCell d c (t.fld r BufLeakrec.FOUND) t else t)

/-- KEEP for the waiting leak instance (06 R228). -/
def leakKeep (d : Nat) (s : State) : State :=
  endLeak d (s.forAll (List.range 64) fun i => fun t =>
    let r := leakRec d i
    let c := t.fld r BufLeakrec.CELL
    if t.fld r BufLeakrec.VALID = 1 ∧ (t.cell d c).listed then
      t.modCell d c fun y => { y with suspect := none, listed := false }
    else t)

/-- The leaked cells of a round form one instance in host-assisted mode (06 R228). -/
def listLeaks (d : Nat) (l : List (Nat × Nat)) (s : State) : State :=
  if l.isEmpty then s
  else if s.fld (dreg .bufLeakv d) BufLeakv.TAG ≠ 0 then s
  else
    let mode := s.assist PartAssist.LEAK
    let tag := nextTag 255 (s.bufDie d).leakTag
    let s1 := s.forAll (l.take 64).zipIdx fun x => fun t =>
      let c := x.1.1
      (t.modCell d c fun y => { y with listed := true }).setReg (leakRec d x.2)
        (BitVec.ofNat 64 (BufLeakrec.VALID.place 1 + BufLeakrec.REFS.place (t.cell d c).refs + BufLeakrec.FOUND.place x.1.2
          + BufLeakrec.CELL.place c))
    let s2 := s1.forAll (l.drop 64) fun x => reclaimCell d x.1 x.2
    deliverVerdict d 992 mode 0x3F
      ((s2.setFld (dreg .bufLeakv d) BufLeakv.TAG tag).modBufDie d fun b =>
        { b with leakTag := tag, leakMode := mode, leakExpired := b.leakExpired.filter (· != tag) })

/-- One audit round (06 R226 to R228, R238). A cell with an uncorrectable descriptor that no holder keeps is retired (06 R224). -/
def auditRound (d : Nat) (s : State) : State :=
  let held := s.holderCells d
  let cells := (s.bufDie d).cells.map Prod.fst
  let round := (s.bufDie d).round + 1
  let s0 := ((s.count { name := .bufAudit, die := d } BufAudit.ROUNDS 1).modBufDie d fun b => { b with round := round }).forAll cells fun c => fun t =>
    t.modCell d c fun y => { y with seen := false }
  let step := fun (c : Nat) (a : State × List (Nat × Nat) × Nat) =>
    let t := a.1
    let x := t.cell d c
    let found := held.count c
    if x.bad = true ∧ found = 0 ∧ (x.state = 2 ∨ x.state = 3) then (retireCell d c (leaveLedger d c t), a.2)
    else if x.state ≤ 1 ∧ 0 < found then (refover d c found t, a.2)
    else if (x.state = 2 ∨ x.state = 3) ∧ x.seen = false then
      if x.refs < found then (refover d c found t, a.2)
      else if found < x.refs then
        if x.suspect = some (x.refs, found, round - 1) then
          (t, (if x.listed then a.2.1 else a.2.1 ++ [(c, found)]), a.2.2)
        else
          (raise (dreg .bufErr d) BufErr.LEAK (t.modCell d c fun y => { y with suspect := some (x.refs, found, round) }), a.2.1, a.2.2 + 1)
      else (t, a.2)
    else (t, a.2)
  let r := cells.foldl (fun a c => step c a) (s0, [], 0)
  let s1 := r.1.setSat { name := .bufAudit, die := d } BufAudit.SUSPECTS r.2.2
  if s1.assist PartAssist.LEAK = 0 then s1.forAll r.2.1 fun x => reclaimCell d x.1 x.2 else listLeaks d r.2.1 s1

/-- AUDIT_ROUND (06 R226 to R228). -/
def execAuditRound (d : Nat) (s : State) : Host.Outcome State Fault Refusal := .next (auditRound d s)

/-- A leak verdict: refused unless its tag names the waiting instance and its master may give it; late when that instance
expired (06 R228, R239; 01 R34, R35). -/
def leakVerdict (who : Master) (d tag : Nat) (apply : State → State) (s : State) : State :=
  let b := s.bufDie d
  if tag ≠ 0 ∧ s.fld (dreg .bufLeakv d) BufLeakv.TAG = tag ∧ mayAnswer who b.leakMode 0x3F true then apply s
  else if tag ∈ b.leakExpired then lateVerdict s
  else refuseVerdict d s

/-- RECLAIM (06 R228). -/
def execReclaim (who : Master) (d tag : Nat) (s : State) : Host.Outcome State Fault Refusal :=
  .next (leakVerdict who d tag (leakReclaim d) s)

/-- LEAKV_KEEP (06 R228). -/
def execLeakvKeep (who : Master) (d tag : Nat) (s : State) : Host.Outcome State Fault Refusal :=
  .next (leakVerdict who d tag (leakKeep d) s)

/-- The assist timer of a leak instance expires, or a management reset begins: RECLAIM (06 R228, 01 R37). -/
def leakExpire (d : Nat) (s : State) : State :=
  let tag := s.fld (dreg .bufLeakv d) BufLeakv.TAG
  if tag = 0 then s else leakReclaim d (s.modBufDie d fun b => { b with leakExpired := tag :: b.leakExpired })

/-! ### Reservations -/

/-- A write of BUF.PRES or BUF.PART: refused, with RESV set, when the shared pool would fall below 16,384 cells (06 R218,
R234, R235). The read-only use fields are not written. -/
def reservationWrite (d : Nat) (part : Bool) (i : Nat) (v : Word) (s : State) : State :=
  let s1 :=
    if part then
      let r : Reg := { name := .bufPart, die := d, i := i }
      (s.setFld r BufPart.PCAP (BufPart.PCAP.of v)).setFld r BufPart.MINRES (BufPart.MINRES.of v)
    else
      let r : Reg := { name := .bufPres, die := d, i := i }
      (s.setFld r BufPres.HOLDRES (BufPres.HOLDRES.of v)).setFld r BufPres.INRES (BufPres.INRES.of v)
  if s1.sharedSize d < 16384 then raise (dreg .bufErr d) BufErr.RESV s else s1

/-- BUF_RESERVATION_WRITE (06 R218, R234, R235). -/
def execBufReservationWrite (d : Nat) (part : Bool) (i : Nat) (v : Word) (s : State) : Host.Outcome State Fault Refusal :=
  .next (if d < s.dieCount ∧ i < (if part then s.partCount else 16) then reservationWrite d part i v s else s)

end Sys2Proof.Machine
end

