-- ==== Sys2Proof/Machine/Path.lean ====
section
/-! DEFINITION. What happens to a packet between its verdict and its release: refusals and the completions they give
(04 R135), flushing (12 R458), streams (04 R145, R146), arrival at an egress port (03 R98), mirror copies (06 R220, R221). -/

namespace Sys2Proof.Machine

/-! ### Packets that the part originates -/

/-- Completion status codes of the PCI Express Base Specification. -/
def cplSC : Nat := 0
def cplUR : Nat := 1
def cplRRS : Nat := 2
def cplCA : Nat := 4

/-- The completion that the part gives to a request. The completer's ID and the header's bytes are the standard's; the
header is three double words (log entry 12). -/
def completionFor (t : Tlp) (status : Nat) (data : List Byte) : Tlp :=
  { kind := if data.isEmpty then 12 else 13, tc := t.tc, attr := t.attr, rid := t.rid, tid := t.rid, tag := t.tag,
    cst := status, bcnt := data.length, payload := data, raw := List.replicate 12 0, flit := t.flit }

/-- TCQ of a port entry for a traffic class (05 R172). -/
def State.tcq (s : State) (d e g tc : Nat) : Nat := getBits (s.portWord d e g 0) (4 * tc + 3) (4 * tc)

/-- The control island writes the record of a packet in PART cells, and the packet joins the port's queue that TCQ names (06 R204, 07 R262);
none while a cell is missing. -/
def placeControl (g : Nat) (t : Tlp) (s : State) : Option State :=
  let d := pdie g
  let e := s.newE d
  let q := s.tcq d e g t.tc
  (storeRecord d (.control d) 0 t s).map fun r =>
    r.2.modQueue g q fun l => l ++ [{ tlp := t, src := .part, iport := g, epoch := e, egress := g, queue := q, tcells := r.1,
                                      time := s.meridian d }]

/-- A packet that the part itself originates, for a port of the die. While the control island finds no cell it waits, behind what waits
already (06 R204, R208, R214). -/
def originate (g : Nat) (t : Tlp) (s : State) : State :=
  let d := pdie g
  let wait := s.modBufDie d fun b => { b with ctlWait := b.ctlWait ++ [(g, t)] }
  if s.active d = false then s
  else if (s.bufDie d).ctlWait ≠ [] then wait
  else (placeControl g t s).getD wait

/-- What the control island of a die has to write and finds cells for is written, in order. -/
def serveControl (d : Nat) : Nat → State → State
  | 0, s => s
  | n + 1, s =>
    match (s.bufDie d).ctlWait with
    | [] => s
    | x :: rest =>
      match placeControl x.1 x.2 (s.modBufDie d fun b => { b with ctlWait := rest }) with
      | some t => serveControl d n t
      | none => s

/-- An access cut at a maximum length: offsets and lengths. -/
def cutAt (m : Nat) : Nat → Nat → Nat → List (Nat × Nat)
  | 0, _, _ => []
  | fuel + 1, off, n => if n = 0 then [] else (off, min m n) :: cutAt m fuel (off + min m n) (n - min m n)

/-- The requester ID of the management endpoint of a face: function 1 of device 0 on the primary bus (08 R283). -/
def State.endpointId (s : State) (n f : Nat) : Nat := (s.face n f).pbus * 256 + 1

/-- The ports' transaction-layer error register (12 R485). -/
def tlerr (g : Nat) : Reg := preg .fltTlerr g

/-! ### The configuration words of a face (08 R286 to R288) -/

/-- The valid entries of the almanac patch table, ascending: image, word, mask, value (08 R288, R321). -/
def State.patches (s : State) : List (Nat × Nat × Nat × Nat) :=
  (List.range 64).filterMap fun i =>
    let r0 : Reg := { name := .partAlmpatch0, i := i }
    let r1 : Reg := { name := .partAlmpatch1, i := i }
    if s.fld r0 PartAlmpatch0.VALID = 1 then
      some (s.fld r0 PartAlmpatch0.IMAGE, s.fld r0 PartAlmpatch0.DWOFF, s.fld r1 PartAlmpatch1.MASK, s.fld r0 PartAlmpatch0.VALUE)
    else none

/-- The image of a function: 0 and 1 are the upstream ports, 2 the management endpoint, 0x80 + k the virtual ports (08 R286). -/
def State.imageOf (s : State) (n fn : Nat) : Nat :=
  if s.mode = 0 then (if fn ≤ 1 then 4 else 5)
  else if fn ≤ 1 then 0
  else if fn = 2 then 3
  else if s.bindKind s.lead (s.newE s.lead) n (fn - 0x80) = 1 then 1 else 2

/-- A word with the patches of a list applied, a later one over an earlier one. -/
def patchWord (img w base : Nat) (l : List (Nat × Nat × Nat × Nat)) : Nat :=
  l.foldl (fun v p => if p.1 = img ∧ p.2.1 = w then (v &&& (0xFFFFFFFF ^^^ p.2.2.1)) ||| (p.2.2.2 &&& p.2.2.1) else v) base

/-- A word with the bits from `lo` to `hi` replaced. -/
def putBits (w hi lo v : Nat) : Nat := w % 2 ^ lo + v % 2 ^ (hi + 1 - lo) * 2 ^ lo + w / 2 ^ (hi + 1) * 2 ^ (hi + 1)

/-- The reset value of a configuration word before patches: the almanac's, with what the rules fix of it (08 R283, R284, R286): the endpoint's
vendor, device and class, every function's subsystem IDs from the partition's record, and the header types; their places are the standard's, but
for the word of a bridge's subsystem IDs, which its image places. -/
def State.cfgBase (s : State) (n fn w : Nat) : Nat :=
  let a := (Config.almReset (s.imageOf n fn) w).toNat
  if w = 3 then (let b := putBits a 22 16 (if fn = 2 then 0 else 1); if fn ≤ 2 ∧ s.mode ≠ 0 then putBits b 23 23 1 else b)
  else if fn = 2 ∧ w = 0 then s.fld { name := .partId } PartId.DEVICE * 2 ^ 16 + 0x1FB7
  else if fn = 2 ∧ w = 2 then putBits a 31 8 0x088000
  else if s.mode ≠ 0 ∧ w = (if fn = 2 then 11 else (Config.almSsid (s.imageOf n fn)).toNat) then
    let x := s.partWord s.lead (s.newE s.lead) n 3
    getBits x 63 48 * 2 ^ 16 + getBits x 47 32
  else a

/-- The reset value of a configuration word, with the patches that the function took at its reset (08 R286, R288). -/
def State.cfgReset (s : State) (n f fn w : Nat) : Nat := patchWord (s.imageOf n fn) w (s.cfgBase n fn w) (s.par.patched.get [] (n, f, fn))

/-- A configuration word of a function of a face: what a host has written, or the reset value (08 R285, R286). -/
def State.cfgWord (s : State) (n f fn w : Nat) : Nat := s.par.cfg.get (s.cfgReset n f fn w) (n, f, fn, w)

/-- Functions of a face take their reset values, with the patches then in the table; sticky bits are kept (08 R286, R288). -/
def cfgResetFns (n f : Nat) (fns : List Nat) (s : State) : State :=
  let ps := s.patches
  let s1 := s.modPar fun p =>
    { p with patched := fns.foldl (fun m fn => if ps.isEmpty then m.erase (n, f, fn) else m.set (n, f, fn) ps) p.patched }
  s1.modPar fun p =>
    { p with cfg := p.cfg.filterMap fun x =>
        if x.1.1 = n ∧ x.1.2.1 = f ∧ x.1.2.2.1 ∈ fns then
          let st := (Config.almSticky (s.imageOf n x.1.2.2.1) x.1.2.2.2).toNat
          let r := s1.cfgReset n f x.1.2.2.1 x.1.2.2.2
          let v := (r &&& (0xFFFFFFFF ^^^ st)) ||| (x.2 &&& st)
          if v = r then none else some (x.1, v)
        else some x }

/-- Every function of a face is reset, as a down link of its upstream port resets what lies below it (PCI Express Base Specification). -/
def faceReset (n f : Nat) (s : State) : State :=
  let ks := (List.range 64).filter fun k =>
    s.bindKind s.lead (s.newE s.lead) n k != 0 && s.bindFace s.lead (s.newE s.lead) n k == f
  let s1 := cfgResetFns n f (f :: 2 :: ks.map (0x80 + ·)) s
  let s2 := s1.forAll ks fun k => fun t => t.modVport n k fun v => { aer := { v.aer with lbms := false }, errMsgs := v.errMsgs }
  s2.modFace n f fun x => { pmeEn := x.pmeEn, turnOff := x.turnOff, wakeSlots := x.wakeSlots, dstate := x.dstate, aer := x.aer }

/-- The face of which a port is the upstream port, in the newest bank of its die. -/
def State.upFace (s : State) (g : Nat) : Option (Nat × Nat) :=
  let d := pdie g
  let e := s.newE d
  let n := s.portOwner d e g
  if s.partValid d e n = false then none
  else if s.up0 d e n = g then some (n, 0)
  else if s.up1 d e n = some g then some (n, 1)
  else none

/-- Bits of Uncorrectable and of Correctable Error Status set, with one of a TLP's header where it is to be logged (12 R459). -/
def Aer.note (unc cor : List Nat) (header : List Byte) (a : Aer) : Aer :=
  { a with unc := unc.foldl (fun x b => x ||| 2 ^ b) a.unc, cor := cor.foldl (fun x b => x ||| 2 ^ b) a.cor,
           header := if a.header.isEmpty then header else a.header }

/-- The error report of the port function of a port changed (12 R459): the upstream port function of an upstream port, the virtual downstream port
of a port that is bound. -/
def portAer (g : Nat) (f : Aer → Aer) (s : State) : State :=
  match s.upFace g with
  | some (n, x) => s.modFace n x fun y => { y with aer := f y.aer }
  | none =>
    let d := pdie g
    let e := s.newE d
    let n := s.portOwner d e g
    match s.vpOfPort d e n g with
    | some k => s.modVport n k fun v => { v with aer := f v.aer }
    | none => s

/-- Surprise Down Error at the virtual port of a port (12 R459); an upstream port shows only that its link is down. -/
def surpriseDown (g : Nat) (s : State) : State :=
  if (s.upFace g).isSome then s else portAer g (Aer.note [5] [] []) s

/-- Bits of Slot Status (PCI Express Base Specification): Power Fault Detected, Presence Detect Changed, Command Completed, Presence Detect
State, Data Link Layer State Changed. -/
def slotPowerFault : Nat := 1
def slotPresence : Nat := 3
def slotCommand : Nat := 4
def slotPresent : Nat := 6
def slotLinkState : Nat := 8

/-- The bit of Slot Control that enables the interrupt of a bit of Slot Status (PCI Express Base Specification). -/
def slotEnable (bit : Nat) : Nat := if bit = slotLinkState then 12 else bit

/-- A virtual port sends its MSI through its face's upstream port, where it is enabled (08 R287): as the ID of the port on the face's internal
bus (08 R283). -/
def vpMsi (n k : Nat) (s : State) : State :=
  let f := s.bindFace s.lead (s.newE s.lead) n k
  match (s.vport n k).msi, s.upOf s.lead (s.newE s.lead) n f with
  | some (a, v), some g =>
    if s.portUp g then
      originate g { kind := 0, addr := a, rid := (s.face n f).sbus * 256 + k % 32 * 8 + k / 32, payload := bytesLE 4 v,
                    raw := List.replicate 12 0, be := 0xF } s
    else s
  | _, _ => s

/-- Bits of Slot Status of a virtual port are set; one that was 0 and whose interrupt is enabled gives a message (08 R287, R306). -/
def vpEvent (n k : Nat) (bits : List Nat) (s : State) : State :=
  let v := s.vport n k
  let on := bits.any fun b => !(v.slotStat.testBit b) && v.slotCtl.testBit (slotEnable b)
  let s1 := s.modVport n k fun v => { v with slotStat := bits.foldl (fun w b => w ||| 2 ^ b) v.slotStat }
  if on ∧ v.slotCtl.testBit 5 = true then vpMsi n k s1 else s1

/-- The port below which a bus number lies: the port bound to the virtual port whose secondary bus it is. -/
def State.portOfBus (s : State) (bus : Nat) : Option Nat :=
  let d := s.lead
  let e := s.newE d
  (List.range 32).findSome? fun m =>
    if s.partValid d e m then
      ((List.range 64).find? fun k => s.bindKind d e m k == 1 && (s.vport m k).sec == bus && bus != 0).map (s.bindPort d e m)
    else none

/-- The borrowers' virtual ports whose lent functions live on a port (08 R287, R307). -/
def State.lentOn (s : State) (g : Nat) : List (Nat × Nat) :=
  let d := s.lead
  let e := s.newE d
  ((List.range 32).filter (s.partValid d e)).flatMap fun m =>
    ((List.range 64).filter fun k => s.bindKind d e m k == 2 &&
      s.portOfBus (getBits (s.ctxWord d e (s.bindCtx d e m k) 0) 31 16 / 256) == some g).map fun k => (m, k)

/-- A bit of Slot Status is set in the virtual port of a partition that is bound to a port and names a slot (08 R305, R306); a change of the link
is also reported to the borrowers of the port's functions (08 R307). -/
def slotStatus (g bit : Nat) (s : State) : State :=
  let d := pdie g
  let e := s.newE d
  let n := s.portOwner d e g
  let s1 := match s.vpOfPort d e n g with
    | some k => if (s.bindSlot d e n k).isSome then vpEvent n k [bit] s else s
    | none => s
  if bit = slotLinkState then (s.lentOn g).foldl (fun t x => vpEvent x.1 x.2 [bit] t) s1 else s1

/-- Whether a PME is pending for a face (08 R311). -/
def State.pmePending (s : State) (n f : Nat) : Bool :=
  ((s.face n f).pmeEn && !(s.par.pending.get [] n).isEmpty) || !(s.face n f).wakeSlots.isEmpty

/-- Whether the host WAKE# output is asserted for a face: its link is in L2 or unpowered, a PME is pending for it, and PAR.WAKE lets it drive the
output (08 R311, R318, R319). -/
def State.wakes (s : State) (n f : Nat) : Bool :=
  match s.upOf s.lead (s.newE s.lead) n f with
  | none => false
  | some g =>
    s.linkState (pdie g) (pnum g) != 3 && (s.face n f).dstate == 4 && s.pmePending n f &&
      s.fld { name := .parWake, die := pdie g, i := n } ParWake.EN == 1

/-- The host WAKE# outputs that are asserted (08 R311, R319; 18). -/
def State.wakeOutputs (s : State) : List Nat :=
  (List.range 32).filter fun o => (List.range 32).any fun n => (List.range 2).any fun f =>
    s.wakes n f && (s.upOf s.lead (s.newE s.lead) n f).any fun g => s.fld { name := .parWake, die := pdie g, i := n } ParWake.OUT == o

/-! ### Faults tied to a packet -/

/-- The reference of a packet for the unit of its fault (12 R447). -/
def State.refOf (s : State) (p : Pkt) : TlpRef :=
  let d := pdie p.iport
  let x := p.mdata.xctx
  { flow := if p.mdata.flow / 2 ^ 18 % 2 = 1 then some (p.mdata.flow % 2 ^ 18) else none,
    xctx := if x / 2 ^ 15 % 2 = 1 then some (x % 4096) else none,
    iport := p.iport,
    part := if x / 2 ^ 15 % 2 = 1 then s.ctxPart d p.epoch (x % 4096) else s.portOwner d p.epoch p.iport }

/-! ### Parking slots -/

/-- The registers of a parking slot (04 R165). -/
def traprec (n : RegName) (g k : Nat) : Reg := { name := n, die := pdie g, i := pnum g, j := k }

/-- The record of a freed parking slot reads as zero (04 R165). -/
def clearTraprec (g k : Nat) (s : State) : State :=
  let s1 := ((s.setReg (traprec .fretTraprec0 g k) 0).setReg (traprec .fretTraprec1 g k) 0).setReg (traprec .fretTraprec2 g k) 0
  s1.forAll (List.range 8) fun j => fun t => t.setReg { name := .fretTrapHdr, die := pdie g, i := pnum g, j := k, k := j } 0

/-- A parking slot was freed. -/
def trapFreed (g k : Nat) (s : State) : State :=
  clearTraprec g k (s.modFret fun x => { x with parked := x.parked.erase (g, k) })

/-! ### Refusal and flush -/

/-- A packet leaves its ingress die's hands untagged, or for good: its cells leave the writer's ledger and its record's
references go. -/
def releaseIngress (p : Pkt) (s : State) : State :=
  match p.src with
  | .port => dropCells (pdie p.iport) p.cells (settleCells (pdie p.iport) p.cells s)
  | .dma d _ _ => dropCells d p.cells (settleCells d p.cells s)
  | .part => s

/-- What a refusal gives the requester (04 R135): a non-posted request receives a completion with UR or CA; a posted request is
logged as an Unsupported Request; a completion is logged as an Unexpected Completion. -/
def refuseAnswer (p : Pkt) (ca : Bool) (s : State) : State :=
  match p.src with
  | .port =>
    let g := p.iport
    if p.tlp.cls = 1 then
      raise (tlerr g) (if ca then FltTlerr.CASENT else FltTlerr.URSENT)
        (originate g (completionFor p.tlp (if ca then cplCA else cplUR) []) s)
    else if p.tlp.cls = 0 then raise (tlerr g) FltTlerr.URSENT s
    else raise (tlerr g) FltTlerr.UNEXPCPL s
  | _ => s

/-- The reason code of a REFUSE is logged (04 R135, R136; log entry 77). -/
def logReason (p : Pkt) (s : State) : State :=
  if p.verdict = 3 ∧ p.src = .port then s.modFret fun x => { x with reasons := x.reasons.set p.iport p.reason } else s

/-- Refuse a packet that has no tag as REFUSE does (04 R135). -/
def refusePkt (p : Pkt) (ca : Bool) (s : State) : State := refuseAnswer p ca (releaseIngress p (logReason p s))

/-- The key of a packet's stream (04 R145, 09 R349). -/
def Pkt.stream (p : Pkt) : StreamKey :=
  match p.src with
  | .dma d c _ => (1024 + d * 32 + c, p.egress, p.tlp.tc)
  | _ => (p.iport, p.egress, p.tlp.tc)

/-- A stream. -/
def State.streamOf (s : State) (k : StreamKey) : Stream := s.fret.streams.get {} k

/-- The state with a stream changed. -/
def State.modStream (s : State) (k : StreamKey) (f : Stream → Stream) : State :=
  s.modFret fun x => { x with streams := x.streams.set k (f (x.streams.get {} k)) }

/-- The next tag to release of a class. -/
def Stream.nextOf (m : Stream) (c : Nat) : Nat := m.next.get 1 c

/-- A write packet of a DMA channel has been released at its egress port, or flushed there (09 R349): its descriptor is the one at the
ring index that the packet's number carries. -/
def dmaReleased (p : Pkt) (s : State) : State :=
  match p.src with
  | .dma d c k => if p.tlp.cls = 0 then s.modChan d c fun x => { x with unreleased := x.unreleased.upd 0 (k / 2 ^ 22) (· - 1) } else s
  | _ => s

/-- Whether every posted tag up to `f` of a stream has been released (04 R145). -/
def Stream.fenceMet (m : Stream) (f : Nat) : Bool := decide ((m.nextOf 0 + 65536 + 65536 - 1 - f) % 65536 < 32768)

/-- Whether a tag of a class has been released. -/
def Stream.released (m : Stream) (c seq : Nat) : Bool := decide ((m.nextOf c + 65536 + 65536 - 1 - seq) % 65536 < 32768)

/-- The tags of a class that went before their turn. -/
def Stream.goneOf (m : Stream) (c : Nat) : List Nat := m.gone.get [] c

/-- The next counter of a class moves past tags that have gone (04 R145; 09 R337). -/
def Stream.skip (c : Nat) : Nat → Stream → Stream
  | 0, m => m
  | n + 1, m =>
    if m.nextOf c ∈ m.goneOf c then
      Stream.skip c n { m with next := m.next.set c ((m.nextOf c + 1) % 65536), gone := m.gone.set c ((m.goneOf c).erase (m.nextOf c)) }
    else m

/-- A tag of a class goes: released, or refused or flushed, which may come before its turn (04 R145; 09 R337; 12 R458). -/
def Stream.retire (c seq : Nat) (m : Stream) : Stream :=
  if m.released c seq = true ∨ seq ∈ m.goneOf c then m
  else Stream.skip c ((m.goneOf c).length + 1) { m with gone := m.gone.set c (seq :: m.goneOf c) }

/-- A tag no longer counts among those that its ingress die has not seen released (04 R148). -/
def reportTag (p : Pkt) (s : State) : State := s.modStream p.stream fun y => { y with outst := y.outst.upd 0 p.tlp.cls (· - 1) }

/-- A tag was released, or flushed: the next counter moves past it, and where the ingress die holds no span-pending
reference the tag is at once reported (04 R145, R148; 09 R337). -/
def advance (p : Pkt) (s : State) : State :=
  let s1 := s.modStream p.stream (Stream.retire p.tlp.cls p.seq)
  if pdie p.iport = p.egress / 16 ∨ 128 ≤ p.egress then reportTag p s1 else s1

/-- A tag that never left its ingress die goes (04 R148; 09 R337). -/
def retireTag (p : Pkt) (s : State) : State := reportTag p (s.modStream p.stream (Stream.retire p.tlp.cls p.seq))

/-- Whether epoch `a` is older than epoch `b`. -/
def olderEpoch (a b : Nat) : Bool := a != b && decide ((b + 65536 - a) % 65536 < 32768)

/-- The packets of an ingress port that have no tag yet. -/
def State.untagged (s : State) (g : Nat) : List Pkt :=
  let c := s.fret.course.get {} g
  s.fret.hq.get [] g ++ (if c.live then [c.pkt] else []) ++ s.fret.decided.get [] g ++ s.fret.heldBack.get [] g ++ s.fret.toTag.get [] g
    ++ (s.fret.parked.filter fun x => x.1.1 == g).map (fun x => x.2.pkt)
    ++ ((s.xltDie (pdie g)).walks.filter fun w => !w.queued && w.pkt.iport == g && w.pkt.src == .port).map (fun w => w.pkt)

/-- The packets of an ingress port that are tagged and not yet released or flushed. -/
def State.tagged (s : State) (g : Nat) : List Pkt :=
  ((s.sch.queues.flatMap fun x => x.2) ++ (s.sch.flows.flatMap fun x => x.2.hold ++ x.2.leaving)
    ++ (s.xltDie (pdie g)).fq.flatMap (fun f => f.pkts)
    ++ (s.bufDie (pdie g)).spanPending.filter fun p => !((s.streamOf p.stream).released p.tlp.cls p.seq)).filter
    fun p => p.iport == g && p.src == .port

/-- The epoch fence of a packet (05 R193): an older posted packet of its port and TC, or for a completion an older completion,
still has to be released. -/
def State.fenceHolds (s : State) (p : Pkt) : Bool :=
  decide (p.epoch ∈ s.tab.fenced) && p.src == .port && !(decide ((p.iport * 8 + p.tlp.tc, p.epoch) ∈ s.tab.lifted)) &&
    (s.untagged p.iport ++ s.tagged p.iport).any fun q =>
      q.tlp.tc == p.tlp.tc && olderEpoch q.epoch p.epoch && (q.tlp.cls == 0 || (p.tlp.cls == 2 && q.tlp.cls == 2))

/-- Whether the head of a queue may be released (04 R145, R146, R149; 05 R193). -/
def State.releasable (s : State) (p : Pkt) : Bool :=
  if p.src = .part then true
  else
    let m := s.streamOf p.stream
    p.seq == m.nextOf p.tlp.cls && (p.tlp.cls == 0 || m.fenceMet p.pfence) && (p.tlp.whole || p.cutThrough) && !(s.fenceHolds p)

/-- A record's copies on the die that held it go: TRANSIT cells on an egress die, the ingress cells at home. -/
def releaseHeld (d : Nat) (p : Pkt) (s : State) : State :=
  match p.src with
  | .part => dropCells d p.tcells s
  | _ => if pdie p.iport = d then dropCells d p.cells s else dropCells d p.tcells s

/-- Whether DPC Completion Control of the request's virtual port is CA (12 R458, R460). -/
def State.flushCA (s : State) (p : Pkt) : Bool :=
  let d := pdie p.iport
  let e := s.newE d
  let n := s.ownerOf p.egress
  match s.vpOfPort d e n p.egress with
  | some k => (s.vport n k).dpcCA
  | none => false

/-- A packet will not be delivered: a non-posted request receives a completion with a status, at its port or at its DMA channel (06 R224; 12
R458). -/
def answerLost (p : Pkt) (status : Nat) (s : State) : State :=
  if p.tlp.cls ≠ 1 then s
  else match p.src with
    | .port => originate p.iport (completionFor p.tlp status []) s
    | .dma d c _ => s.modChan d c fun x => { x with lost := x.lost ++ [p.tlp.tag] }
    | .part => s

/-- Flush a tagged packet that was bound for a port (12 R458, R486): counted, a non-posted request is answered, the tag is
released without delivery. -/
def flushPkt (p : Pkt) (s : State) : State :=
  let g := p.egress
  let s1 := s.count (preg .fltPcnt g) FltPcnt.FLUSHED 1
  let s2 := answerLost p (if s1.flushCA p then cplCA else cplUR) s1
  let s3 := releaseHeld (pdie g) p s2
  if p.src = .part then s3
  else if pdie p.iport = pdie g then dmaReleased p (advance p s3) else advance p s3

/-- Flush a tagged packet that its ingress die holds for a port of another die (12 R458, R464). -/
def flushHome (p : Pkt) (s : State) : State :=
  let s1 := s.count (preg .fltPcnt p.egress) FltPcnt.FLUSHED 1
  let s2 := answerLost p (if s1.flushCA p then cplCA else cplUR) s1
  dmaReleased p (retireTag p (dropCells (pdie p.iport) p.cells s2))

/-- Flush every packet of a port's queues (03 R98). -/
def flushPort (g : Nat) (s : State) : State :=
  s.forAll (List.range 16) fun q => fun t =>
    (t.queue g q).foldl (fun u p => flushPkt p u) (t.modQueue g q fun _ => [])

/-! ### Arrival at the egress -/

/-- The length of a record in cells, rounded up (06 R214). -/
def Pkt.cellLen (p : Pkt) : Nat := (p.tlp.wire + 255) / 256

/-- The cells counted against HOLDRES of a port: its queued records while it is within its grace period (06 R214, R234). -/
def State.holdUse (s : State) (g : Nat) : Nat :=
  if (s.link (pdie g) (pnum g)).grace then
    ((List.range 16).map fun q => ((s.queue g q).map Pkt.cellLen).sum).sum
  else 0

/-- Whether a port's link is one that queued packets wait for: UP, retraining, in a low power state or in repair (03 R98, R104). -/
def State.carries (s : State) (g : Nat) : Bool :=
  let st := s.linkState (pdie g) (pnum g)
  st == 3 || st == 4 || st == 5 || st == 8

/-- A tagged packet reaches its egress port: it is queued while the link carries traffic, held within the grace period while
the hold reservation has room, and flushed on arrival otherwise (03 R98, 07 R262). -/
def arrive (p : Pkt) (s : State) : State :=
  let g := p.egress
  let q := { p with time := s.meridian (pdie g) }
  let put := s.modQueue g p.queue fun l => l ++ [q]
  if s.carries g then put
  else if (s.link (pdie g) (pnum g)).grace ∧ s.holdUse g + p.cellLen ≤ s.fld (preg .bufPres g) BufPres.HOLDRES then
    put.setFld (lreg .linkStat (pdie g) (pnum g)) LinkStat.HELD 1
  else flushPkt q s

/-! ### Mirror copies -/

/-- The register of an analysis port. -/
def mircfg (d a : Nat) : Reg := { name := .bufMircfg, die := d, i := a }

/-- The cells pinned by the copies of an analysis port's queue (06 R236). -/
def State.mirrorUse (s : State) (d a : Nat) : Nat := (((s.bufDie d).mirrors.get [] a).flatMap fun m => m.cells).eraseDups.length

/-- A copy is dropped: counted, its references go (06 R221). -/
def dropMirror (d a : Nat) (m : Mirror) (s : State) : State :=
  dropCells d m.cells (s.count { name := .bufMircnt, die := d, i := a } BufMircnt.DROPPED 1)

/-- The oldest queued copy of a die, with its analysis port. -/
def BufDie.oldestMirror (b : BufDie) : Option (Nat × Mirror) :=
  ((List.range 4).filterMap fun a => (b.mirrors.get [] a).head?.map fun m => (a, m)).foldl
    (fun best x => match best with
      | none => some x
      | some y => if x.2.time < y.2.time then some x else some y) none

/-- Drop queued copies, oldest first, until the shared pool holds SHED free cells (06 R221). -/
def shedMirrors (d : Nat) : Nat → State → State
  | 0, s => s
  | n + 1, s =>
    if s.fld (dreg .bufMirshed d) BufMirshed.SHED ≤ s.sharedSize d - s.sharedUsed d then s
    else match (s.bufDie d).oldestMirror with
      | none => s
      | some (a, m) =>
        shedMirrors d n (dropMirror d a m (s.modBufDie d fun b => { b with mirrors := b.mirrors.set a ((b.mirrors.get [] a).drop 1) }))

/-- The cells that a copy would pin beside those that its queue pins already (06 R221). -/
def State.morePinned (s : State) (d a : Nat) (cs : List Nat) : Nat :=
  let held := ((s.bufDie d).mirrors.get [] a).flatMap fun m => m.cells
  (cs.eraseDups.filter fun c => !(decide (c ∈ held))).length

/-- A mirror copy is placed on an analysis port's queue, or dropped (06 R220, R221). -/
def mirrorTo (d a : Nat) (m : Mirror) (s : State) : State :=
  let g := gport d (s.fld (mircfg d a) BufMircfg.PORT)
  let short := decide (s.sharedSize d - s.sharedUsed d < s.fld (dreg .bufMirshed d) BufMirshed.SHED)
  let drop := s.count { name := .bufMircnt, die := d, i := a } BufMircnt.DROPPED 1
  if s.fld (mircfg d a) BufMircfg.EN = 0 ∨ !(s.portUp g) then drop
  else if short then
    shedMirrors d ((s.bufDie d).mirrors.map fun x => x.2.length).sum (raise (dreg .bufErr d) BufErr.MIRSHED drop)
  else if s.fld (mircfg d a) BufMircfg.MIRLIM < s.mirrorUse d a + s.morePinned d a m.cells then drop
  else (addCells d m.cells s).modBufDie d fun b => { b with mirrors := b.mirrors.set a (b.mirrors.get [] a ++ [m]) }

/-- The mirror word of a port entry (05 R172): MIRIN, MIREG, APORT, TRUNC. -/
def State.mirWord (s : State) (d e g : Nat) : Word := s.portWord d e g 1

/-- Ingress mirroring of a packet whose checks have been decided, refused or not (06 R220). -/
def mirrorIngress (p : Pkt) (refused : Bool) (s : State) : State :=
  let d := pdie p.iport
  let w := s.mirWord d p.epoch p.iport
  if bitOf w 63 ∧ p.src = .port then
    mirrorTo d (getBits w 61 60)
      { pkt := p, cells := p.cells, refused := refused, trunc := getBits w 59 48, time := s.meridian d, port := p.iport,
        flow := !refused && p.verdict == 1 && p.mdata.mirror == getBits w 61 60 } s
  else s

/-- The copy of an FWDM verdict, at tagging; one that MIRIN already made to the same analysis port is not made twice
(06 R220). -/
def mirrorFlow (p : Pkt) (s : State) : State :=
  let d := pdie p.iport
  let w := s.mirWord d p.epoch p.iport
  if p.verdict = 1 ∧ p.src = .port ∧ ¬ (bitOf w 63 ∧ getBits w 61 60 = p.mdata.mirror) then
    mirrorTo d p.mdata.mirror
      { pkt := p, cells := p.cells, flow := true, trunc := 0, time := s.meridian d, port := p.iport } s
  else s

/-- The epoch whose bank an egress die reads: the packet's while it is live there, until the die's own drain, else the newest (05 R184, R188). -/
def State.egressE (s : State) (d e : Nat) : Nat := if d ∈ s.tab.drained then s.newE d else e

/-- Egress mirroring at release, by the bank that 05 R184 names; of the packets of one port set only the first released toward an analysis port
of a die is copied (06 R220). -/
def mirrorEgress (p : Pkt) (s : State) : State :=
  let g := p.egress
  let d := pdie g
  let w := s.mirWord d (s.egressE d p.epoch) g
  let a := getBits w 61 60
  if bitOf w 62 = false ∨ (p.group ≠ 0 ∧ (p.group, a) ∈ (s.bufDie d).copied) then s
  else
    let s1 := if p.group = 0 then s else s.modBufDie d fun b => { b with copied := (p.group, a) :: b.copied }
    mirrorTo d a
      { pkt := p, cells := p.cellsOn d, egressDir := true, trunc := getBits w 59 48, time := s.meridian d, port := g } s1

/-- Whether a packet of a port set is still under way. -/
def State.groupAlive (s : State) (k : Nat) : Bool := (List.range 128).any fun g => (s.tagged g).any fun p => p.group == k

/-- The marks of port sets all of whose packets have gone are dropped. -/
def tidyCopied (d : Nat) (s : State) : State :=
  s.modBufDie d fun b => { b with copied := b.copied.filter fun x => s.groupAlive x.1 }

end Sys2Proof.Machine
end

