-- ==== Sys2Proof/Machine/Links.lean ====
section
/-! DEFINITION. Link engines (03): the Nerov and span transport, PCIe replay, retrain and its verdicts, lane faults, link up,
link down, grace and flush; low power (02 R68 to R70). -/

namespace Sys2Proof.Machine

/-! ### Lanes of a port -/

/-- The state code of a link engine is set. -/
def setLinkState (d i v : Nat) (s : State) : State := s.setFld (lreg .linkStat d i) LinkStat.STATE v

/-- The receive equalizers of every lane of a port stop adapting and keep their values (02 R60, R69). -/
def holdLanes (d pp : Nat) (s : State) : State := s.forAll (s.lanesOf d pp) (holdEq d)

/-! ### The round trip -/

/-- The raw byte rate of a link in tenths of a GB/s (03 R91): rate by lanes in use of a Nerov link; of a span link 8/7 of the capacity of 01 R15
(03 R82; log entry 74). -/
def State.rawRate (s : State) (d i : Nat) : Nat :=
  if 16 ≤ i then (match s.dieCount with | 2 => 12000 | 4 => 4000 | _ => 1715)
  else
    let st := lreg .linkStat d i
    [0, 25, 50, 80, 160, 320, 640, 1280].getD (s.fld st LinkStat.RATE) 0 * s.fld st LinkStat.WIDTH / 8

/-- H_min of a round trip in ns and a rate in tenths of a byte per ns (03 R91). -/
def hmin (rtt rate : Nat) : Nat := ((rtt * rate + 2559) / 2560 + 20 + 15) / 16 * 16

/-- A measured round trip: the headroom first, then the ack timer (03 R87, R91, R105, R106); a larger ledger that takes the
shared pool below 16,384 cells sets RESV (06 R218). -/
def measureRtt (d i rtt : Nat) (s : State) : State :=
  let old := s.headroom d i
  let s1 := s.setSat (lreg .linkVlhead d i) LinkVlhead.HMIN (hmin rtt (s.rawRate d i))
  let s2 := if old < s1.headroom d i ∧ s1.sharedSize d < 16384 then raise (dreg .bufErr d) BufErr.RESV s1 else s1
  (s2.setSat (lreg .linkRtt d i) LinkRtt.RTT rtt).setSat (lreg .linkRtt d i) LinkRtt.ACKT (4 * rtt)

/-- A link engine's transport as a training from DOWN leaves it (03 R83, R84, R97). -/
def LinkSt.fresh (l : LinkSt) : LinkSt :=
  { l with held := [], newQ := [], reorder := [], toCore := [], txNext := 0, rxAck := 0xFFFF, xoffIn := 0, xoffOut := 0, lateAck := none,
           pcieNext := 0, pcieRx := 0, replay := [], bad := [] }

/-- One end of a span link has trained (03 R87, R101, R107): its modules, unused redundant lanes and rate are what the training found (03 R104, R111;
log entry 6), `rtt` is the largest of the 16 echoes. -/
def spanTrained (d e rtt : Nat) (s : State) : State :=
  let i := 16 + e
  let w := s.freeWord.toNat
  let s1 := ((s.setFld (lreg .linkSpstat d i) LinkSpstat.MODULES (w % 256)).setFld (lreg .linkSpstat d i) LinkSpstat.SPARES
    (w / 2 ^ 8 % 256)).setFld (lreg .linkStat d i) LinkStat.RATE (1 + w / 2 ^ 16 % 7)
  let s2 := (s1.drew.setReg (lreg .linkCnt d i) 0).setFld (lreg .linkStat d i) LinkStat.RETRAINS 0
  setLinkState d i 3 (measureRtt d i rtt (s2.modLink d i fun l => { l.fresh with ever := true }))

/-! ### Training held off, DETECT -/

/-- Whether a standing case contains a port at PORT or above with that level applied (12 R450, R461). -/
def State.portContained (s : State) (g : Nat) : Bool :=
  (s.flt.dpcPorts.any fun x => x.2.2 == g) ||
  s.flt.cases.any fun x =>
    x.2.applied.any (· == 3) && s.fld { name := .fltCase0, die := x.1.1, i := x.1.2 } FltCase0.VALID == 1 &&
      s.fld { name := .fltCase0, die := x.1.1, i := x.1.2 } FltCase0.PORT == g

/-- Whether a port's link engine may enter DETECT: ENABLE, lanes in the live map, not held by DIAGNOSTIC, containment, a case
at PART or the state of its die (03 R101, 02 R71, 12 R450, R468). -/
def State.mayTrain (s : State) (d pp : Nat) : Bool :=
  s.fld (lreg .linkCfg d pp) LinkCfg.ENABLE == 1 && s.hasLanes (gport d pp) && !(s.link d pp).diagHold &&
    !(s.portContained (gport d pp)) && !s.flt.partCase && s.active d &&
    !(decide (d ∈ s.flt.rejoining))

/-- A port counts as gone down: its grace period starts, or with GRACE 0 what it holds is flushed (03 R98). -/
def startGrace (d pp : Nat) (s : State) : State :=
  let s1 := s.modLink d pp fun l => { l with grace := decide (s.fld (lreg .linkCfg d pp) LinkCfg.GRACE ≠ 0) }
  let held := (List.range 16).any fun q => !(s.queue (gport d pp) q).isEmpty
  if (s1.link d pp).grace then s1.setFld (lreg .linkStat d pp) LinkStat.HELD (b2n held)
  else flushPort (gport d pp) (s1.setFld (lreg .linkStat d pp) LinkStat.HELD 0)

/-- The link engine of a port enters DETECT: termination is turned on (02 R76, R674). An engine that has lanes but has not
reached UP since they were mapped is treated as gone down at this moment (03 R98). -/
def enterDetect (d pp : Nat) (fresh : Bool) (s : State) : State :=
  if s.mayTrain d pp then
    let s1 := setLinkState d pp 1 s
    if fresh then startGrace d pp (s1.modLink d pp fun l => { l with ever := false }) else s1
  else s

/-! ### CRC -/

/-- The CRC-64 of a byte list, most significant bit first, with the polynomial of 03 R80. -/
def crc64 (init : Nat) (bs : List Byte) : Nat :=
  bs.foldl (fun c b =>
    (List.range 8).foldl (fun c _ =>
      if c.testBit 63 then (c * 2 % 2 ^ 64) ^^^ 0x42F0E1EBA9EA3693 else c * 2 % 2 ^ 64) (c ^^^ (b.toNat * 2 ^ 56))) init

/-- Big-endian bytes of a number. -/
def bytesBE (n v : Nat) : List Byte := (bytesLE n v).reverse

/-- Bytes 0 to 241 of a flit (03 R80). -/
def Flit.bytes (f : Flit) : List Byte :=
  bytesBE 4 (f.seq * 2 ^ 16 + f.typ * 2 ^ 12 + f.vl * 2 ^ 9 + f.cls * 2 ^ 7)
    ++ (f.payload ++ List.replicate (224 - f.payload.length) 0).take 224
    ++ bytesBE 2 f.ack ++ bytesBE 8 f.ackmap ++ bytesBE 3 f.xoff ++ [BitVec.ofNat 8 (b2n f.ackv * 128 + b2n f.fcv * 64)]

/-- The CRC of a flit (03 R80). -/
def Flit.crcOf (f : Flit) : Nat := crc64 0xFFFFFFFFFFFFFFFF f.bytes ^^^ 0xFFFFFFFFFFFFFFFF

/-- Whether a flit passes its checks: CRC, TYPE and CLASS not reserved (03 R81). -/
def Flit.good (f : Flit) : Bool := f.crc == f.crcOf && decide (f.typ ≤ 3) && decide (f.cls ≤ 2)

/-- ACKMAP: which of the 64 flits after ACK the reorder buffer holds (03 R84). -/
def LinkSt.ackmap (l : LinkSt) : Nat :=
  ((List.range 64).map fun k => if l.reorder.any (fun f => f.seq == (l.rxAck + 1 + k) % 65536) then 2 ^ k else 0).sum

/-- A flit as the transmitter sends it: with the current trailer, its CRC, and the FEC bytes, which span links send as zero (03 R80, R84). -/
def LinkSt.trailed (l : LinkSt) (span : Bool) (f : Flit) : Flit :=
  let g := { f with ack := l.rxAck, ackmap := l.ackmap, xoff := l.xoffOut, ackv := true, fcv := true }
  { g with crc := g.crcOf, fec := if span then 0 else (Config.fecBytes (g.bytes ++ bytesBE 8 g.crcOf)).toNat }

/-- The IDLE flit, which carries a trailer when no other flit is ready (03 R81). -/
def LinkSt.idleFlit (l : LinkSt) (span : Bool) : Flit := l.trailed span { typ := 0, seq := l.txNext }

/-! ### Flow control -/

/-- The reserved space left for a VL and CLASS, in flits of a cell each (03 R90, 06 R217). -/
def State.freeSpace (s : State) (d i vl cls : Nat) : Nat :=
  let l : Ledger := if i < 16 then .nerov (gport d i) vl cls else .span d (i - 16) vl cls
  s.ledgerSize l - s.charged d l

/-- The XOFF bits that the receiver sends are brought up to date (03 R90, 06 R217); throttling sets them all (04 R118). -/
def updateXoff (d i : Nat) (s : State) : State :=
  let h := s.headroom d i
  let all := decide (i < 16) && decide (gport d i ∈ s.fret.throttle)
  s.modLink d i fun l =>
    { l with xoffOut := ((List.range 24).map fun k =>
        let free := s.freeSpace d i (k / 3) (k % 3)
        if all ∨ free < h ∨ (l.xoffOut.testBit k ∧ free < h + 16) then 2 ^ k else 0).sum }

/-! ### Transmitter -/

/-- The packet's data cut into flit payloads (03 R81: a packet may start in a new flit). -/
def chunks224 : Nat → List Byte → List (List Byte)
  | 0, _ => []
  | n + 1, bs => if bs.length ≤ 224 then [bs] else bs.take 224 :: chunks224 n (bs.drop 224)

/-- Whether XOFF holds back new DATA flits of a VL and CLASS (03 R90). -/
def LinkSt.blocked (l : LinkSt) (f : Flit) : Bool := f.typ == 1 && l.xoffIn.testBit (3 * f.vl + f.cls)

/-- Send waiting flits for the first time while fewer than 512 are unacknowledged (03 R83, R90). -/
def pump (now : Nat) (span : Bool) : Nat → LinkSt → LinkSt
  | 0, l => l
  | n + 1, l =>
    if 512 ≤ l.held.length then l
    else match takeFirst (fun h => !(l.blocked h.flit)) l.newQ with
      | none => l
      | some (h, rest) =>
        let f := l.trailed span { h.flit with seq := l.txNext }
        pump now span n { l with newQ := rest, txNext := (l.txNext + 1) % 65536, held := l.held ++ [{ h with flit := f, sentAt := now }],
                                 sent := some f }

/-- A link that is up sends what waits; otherwise it waits for the end of idle, recovery or repair (02 R69, 03 R94). -/
def pumpLink (d i : Nat) (s : State) : State :=
  if s.linkState d i = 3 then s.modLink d i (pump s.now (decide (16 ≤ i)) 512) else s

/-- Bytes leave the front of the packet data of some flits; a flit whose data is used up is gone (03 R81). -/
def dropData (mine : Flit → Bool) : Nat → List Flit → List Flit
  | _, [] => []
  | n, f :: r =>
    if mine f = false then f :: dropData mine n r
    else if n = 0 then f :: r
    else if f.payload.length ≤ n then dropData mine (n - f.payload.length) r
    else { f with payload := f.payload.drop n } :: r

/-- The data of a record that the switch core takes leaves the receiver; the next packet may begin in the same flit (03 R81, R85). -/
def consumeFlits (d i vl cls wire : Nat) (s : State) : State :=
  s.modLink d i fun l => { l with toCore := dropData (fun f => f.vl == vl && f.cls == cls) wire l.toCore }

/-- Flits are handed to the transmitter of a Nerov or span link. -/
def queueFlits (d i : Nat) (fs : List HeldFlit) (s : State) : State :=
  pumpLink d i (updateXoff d i (s.modLink d i fun l => { l with newQ := l.newQ ++ fs }))

/-- A packet is handed to the transmitter of a Nerov or span link. -/
def sendFlits (d i : Nat) (p : Pkt) (s : State) : State :=
  let parts := chunks224 20 p.tlp.record
  let last := parts.length - 1
  queueFlits d i (parts.zipIdx.map fun x =>
    { flit := { typ := 1, vl := p.tlp.tc, cls := p.tlp.cls, payload := x.1 }, pkt := if x.2 = last then some p else none }) s

/-- A CTRL flit is sent: a round-trip echo, or the exchange of a lane removal (03 R81, R87, R92). -/
def sendCtrl (d i : Nat) (s : State) : State := queueFlits d i [{ flit := { typ := 3 } }] s

/-! ### Retrain, down, up -/

/-- One end of a link retrains (03 R94, R96, R104, R108). -/
def retrainEnd (d i : Nat) (s : State) : State :=
  setLinkState d i 4 (raise (lreg .linkErr d i) LinkErr.RETRAIN ((holdLanes d i s).count (lreg .linkStat d i) LinkStat.RETRAINS 1))

/-- A link retrains; a span link at both its ends (03 R94, R96). -/
def retrain (d i : Nat) (s : State) : State := if i < 16 then retrainEnd d i s else retrainEnd (i - 16) (16 + d) (retrainEnd d i s)

/-- The state code of a span link is set at both its ends. -/
def setSpanState (d e v : Nat) (s : State) : State := setLinkState e (16 + d) v (setLinkState d (16 + e) v s)

/-- The waiting retrain instance of a link ends (03 R96). -/
def endRetrainInstance (d i : Nat) (s : State) : State :=
  (s.setFld (lreg .linkRtv d i) LinkRtv.TAG 0).modLink d i fun l => { l with rtvMode := 0 }

/-- The peg of a port is abandoned (02 R65): an unfinished one shows `st`, and its instance ends. -/
def endPeg (d pp st : Nat) (s : State) : State :=
  let s1 := s.forAll (s.lanesOf d pp) fun ll => fun t =>
    let r : Reg := { name := .lanePeg, die := d, i := ll }
    let x := t.fld r LanePeg.STATE
    (if 1 ≤ x ∧ x ≤ 4 then t.setFld r LanePeg.STATE st else t).setFld r LanePeg.TAG 0
  (s1.modLane fun l => { l with pegMode := l.pegMode.erase (gport d pp) }).modLink d pp fun l => { l with pegRate := 0 }

/-- A packet of an ingress port of which only a part has arrived. -/
def Pkt.partialOf (p : Pkt) (g : Nat) : Bool := p.iport == g && !p.tlp.whole && p.src == .port

/-- A partial packet of an ingress port is taken out of a list. -/
def dropPartial (g : Nat) (l : List Pkt) : List Pkt := l.filter fun p => !(p.partialOf g)

/-- Whether a partial packet of a port goes cut-through: it waits at its egress, or its egress has begun it (04 R151, R152). -/
def State.cutting (s : State) (g : Nat) : Bool :=
  s.sch.queues.any (fun x => x.2.any fun p => p.partialOf g && p.cutThrough) ||
    s.links.any fun x => x.2.replay.any fun h => h.pkt.partialOf g

/-- An egress port nullifies a packet that it has begun: it is no packet of the link, and it takes no sequence number and no credit (04 R152; PCI
Express Base Specification). -/
def LinkSt.nullify (l : LinkSt) (g : Nat) : LinkSt :=
  (l.replay.filter fun h => h.pkt.partialOf g).foldl (fun m h =>
    let c := h.pkt.tlp.cls
    { m with pcieNext := h.seq, crH := (match m.crH.find c with | none => m.crH | some n => m.crH.set c (n + 1)),
             crD := (match m.crD.find c with | none => m.crD | some n => m.crD.set c (n + (h.pkt.tlp.len + 15) / 16)) })
    { l with replay := l.replay.filter fun h => !(h.pkt.partialOf g) }

/-- The partial packets that a port still receives are dropped, wherever they stand: those without a tag leave their cells, those with one leave
their place in the stream, and a cut-through one is nullified at its egress and sets CTABORT (04 R152). -/
def abortPartial (g : Nat) (s : State) : State :=
  let d := pdie g
  let c := s.fret.course.get {} g
  let parts := fun (l : List Pkt) => l.filter fun p => p.partialOf g
  let early := parts (s.untagged g)
  let gone := parts ((s.sch.queues.flatMap fun x => x.2) ++ (s.sch.flows.flatMap fun x => x.2.hold ++ x.2.leaving)
    ++ (s.xltDie d).fq.flatMap fun f => f.pkts)
  let slots := (s.fret.parked.filter fun x => x.1.1 == g && x.2.pkt.partialOf g).map fun x => x.1.2
  let s1 := s.modFret fun x => { x with
    hq := x.hq.set g (dropPartial g (x.hq.get [] g)), decided := x.decided.set g (dropPartial g (x.decided.get [] g)),
    heldBack := x.heldBack.set g (dropPartial g (x.heldBack.get [] g)), toTag := x.toTag.set g (dropPartial g (x.toTag.get [] g)),
    course := if c.live && c.pkt.partialOf g then x.course.erase g else x.course }
  let s2 := (s1.forAll slots (trapFreed g)).modSch fun c =>
    { c with queues := c.queues.map fun x => (x.1, dropPartial g x.2),
             flows := c.flows.map fun x => (x.1, { x.2 with hold := dropPartial g x.2.hold, leaving := dropPartial g x.2.leaving }) }
  let s3 := s2.modXltDie d fun x =>
    { x with walks := x.walks.filter (fun w => w.queued || !(w.pkt.partialOf g)),
             fq := x.fq.map fun f => { f with pkts := dropPartial g f.pkts } }
  let s4 : State := { s3 with links := s3.links.map fun x => (x.1, x.2.nullify g) }
  let s5 := early.foldl (fun t p => releaseIngress p t) (gone.foldl (fun t p => retireTag p (dropCells d p.cells t)) s4)
  if s.cutting g then raise (preg .fretErr g) FretErr.CTABORT s5 else s5

/-- A PCIe port or Nerov link goes down; `own` is true where the part takes it down on purpose (03 R98, R100, R104, R108;
02 R65; 04 R152). Unacknowledged Nerov flits enter the grace hold as the packets they carry; waiting instances end. A link that went down
by itself enters DETECT where it may train. -/
def linkDown (d pp : Nat) (own : Bool) (s0 : State) : State :=
  let g := gport d pp
  let s := holdLanes d pp s0
  let back := ((s.link d pp).held ++ (s.link d pp).newQ).filterMap fun h => h.pkt
  let s1 := s.modLink d pp fun l =>
    { l.fresh with toCore := l.toCore, crH := [], crD := [], restartCounts := false, stepRate := none, lowPower := 0, trained := 0,
                   fullTrain := false }
  let s2 := back.reverse.foldl (fun t p => t.modQueue g p.queue fun q => p :: q) s1
  let s3 := endPeg d pp 6 (endRetrainInstance d pp (abortPartial g s2))
  let r := lreg .linkStat d pp
  let s4 := (((s3.setFld r LinkStat.RATE 0).setFld r LinkStat.WIDTH 0).setFld r LinkStat.L0P 0).setFld r LinkStat.FLIT 0
  let s5 := (setLinkState d pp 7 s4).setReg (lreg .linkLanes d pp) 0
  let s6 := match s5.upFace g with
    | some (n, f) => faceReset n f s5
    | none => s5
  if own then startGrace d pp (slotStatus g slotLinkState s6)
  else enterDetect d pp false (startGrace d pp (slotStatus g slotLinkState (raise (lreg .linkErr d pp) LinkErr.DOWN s6)))

/-- Whether a link is up in the sense that it can go down: up, in recovery, repair or low power. -/
def State.linkLive (s : State) (d i : Nat) : Bool :=
  let x := s.linkState d i
  x == 3 || x == 4 || x == 5 || x == 8

/-- A port that is detecting or training stops; a peg that runs is abandoned (02 R65). -/
def stopTraining (d pp : Nat) (s : State) : State :=
  endPeg d pp 6 ((setLinkState d pp 7 s).setFld (lreg .linkStat d pp) LinkStat.RATE 0)

/-- The part takes a port's link down on purpose, or stops its training (03 R108, 02 R65). -/
def takeDown (d pp : Nat) (s : State) : State :=
  if s.linkLive d pp then linkDown d pp true s
  else if s.linkState d pp = 1 ∨ s.linkState d pp = 2 then stopTraining d pp s
  else s

/-- Every stream toward an egress port starts afresh (04 R146). -/
def resetStreams (g : Nat) (s : State) : State :=
  s.modFret fun x => { x with streams := x.streams.filter fun y => y.1.2.1 != g }

/-- The pending events of a partition are sent when an instance qualifies (08 R310). -/
def sendPending (d n : Nat) (s : State) : State :=
  if (List.range 2).any (s.faceReady d n) then
    (s.par.pending.get [] n).foldl (fun t x => toEndpoint n x.1 x.2 t)
      (s.modPar fun p => { p with pending := p.pending.set n [] })
  else if (s.par.pending.get [] n).isEmpty then s
  else sendPme d n s

/-- The replay counts of all held packets and flits restart at 0 (03 R96). -/
def LinkSt.restarted (l : LinkSt) : LinkSt :=
  { l with held := l.held.map fun h => { h with replays := 0 }, restartCounts := false, stepRate := none,
           replay := l.replay.map fun h => { h with replays := 0, recovered := false } }

/-- A link reaches UP (03 R97, R98, R107; 04 R146): packets held in grace leave in order; at a training from DOWN the counters start afresh, and
after the grace period or at the first training the streams toward the port do too. A retrain keeps the state of the transport; it ends
at the rate that a STEPDOWN asked for. What waited for the link is sent, and the host WAKE# of the face is released (08 R311). -/
def linkUp (d pp : Nat) (s : State) : State :=
  let g := gport d pp
  let l := s.link d pp
  let r := lreg .linkStat d pp
  let again := decide (s.linkState d pp = 4)
  let s0 := (setLinkState d pp 3 s).setFld r LinkStat.HELD 0
  let s1 := match l.stepRate with
    | some x => if again then s0.setFld r LinkStat.RATE (min x (s0.fld r LinkStat.RATE)) else s0
    | none => s0
  let s2 := if l.restartCounts ∧ again then s1.modLink d pp LinkSt.restarted else s1.modLink d pp fun l => { l with stepRate := none }
  let s3 := if again then s2
    else slotStatus g slotLinkState ((s2.setReg (lreg .linkCnt d pp) 0).setFld r LinkStat.RETRAINS 0)
  let s4 := (if ¬ again ∧ (l.grace = false ∨ l.ever = false) then resetStreams g s3 else s3).modLink d pp fun l =>
    { l with grace := false, ever := true, lowPower := 0, fullTrain := false }
  let n := s4.ownerOf g
  let s5 := if n < 32 ∧ s4.portIsUp d (s4.newE d) g then
      let s6 := match s4.upFace g with
        | some (m, f) => s4.modFace m f fun x => if x.dstate = 4 then { x with dstate := 0 } else x
        | none => s4
      sendPending d n s6
    else s4
  if s5.isNerov g then pumpLink d pp s5 else s5

/-! ### Replay escalation -/

/-- The link-down trigger of a PCIe port or a Nerov link (03 R78, R94, R96): in hardware mode the link goes down; in
host-assisted mode it retrains again, and unless an instance waits, one is raised. -/
def downTrigger (d pp : Nat) (s : State) : State :=
  let mode := s.assist PartAssist.RETRAIN
  if s.fld (lreg .linkRtv d pp) LinkRtv.TAG ≠ 0 then retrain d pp s
  else if mode = 0 then linkDown d pp false s
  else
    let tag := nextTag 255 (s.rtvTag.get 0 d)
    let s1 := retrain d pp s
    let s2 := (({ s1 with rtvTag := s1.rtvTag.set d tag }).setFld (lreg .linkRtv d pp) LinkRtv.TAG tag).modLink d pp fun l =>
      { l with rtvMode := mode, rtvExpired := l.rtvExpired.filter (· != tag) }
    deliverVerdict d (32 * pp + 10) mode (s2.ownerOf (gport d pp)) s2

/-- The path of a packet to its egress die: the direct span link, or the lowest die through which two links are up (03 R100,
01 R14). -/
def State.spanVia (s : State) (d e : Nat) : Nat :=
  if s.linkLive d (16 + e) then e
  else ((List.range s.dieCount).find? fun x => x != d && x != e && s.linkLive d (16 + x) && s.linkLive x (16 + e)).getD e

/-- The ingress die of a cross-die packet notes the die through which it goes. -/
def noteVia (d x : Nat) (p : Pkt) (s : State) : State :=
  let via := if x = pdie p.egress then none else some x
  s.modBufDie d fun b =>
    { b with spanPending := b.spanPending.map fun q =>
        if q.stream = p.stream ∧ q.tlp.cls = p.tlp.cls ∧ q.seq = p.seq then { q with via := via } else q }

/-- A die sends a cross-die packet on the path that stands, again where it was sent before (03 R100, 04 R148). -/
def sendCross (d : Nat) (p : Pkt) (s : State) : State :=
  let x := s.spanVia d (pdie p.egress)
  sendFlits d (16 + x) p (if pdie p.iport = d then noteVia d x p s else s)

/-- One end of a span link that goes down: no grace; the sender resends its held copies (03 R100), those for a lost die apart. What the
receiver has acknowledged stays for the switch core. -/
def spanEndDown (a b : Nat) (s : State) : State :=
  let l := s.link a (16 + b)
  let back := (l.held ++ l.newQ).filterMap fun h => h.pkt
  let s1 := s.modLink a (16 + b) fun l => { l.fresh with toCore := l.toCore }
  let s2 := (setLinkState a (16 + b) 7 (raise (lreg .linkErr a (16 + b)) LinkErr.DOWN s1)).setFld (lreg .linkStat a (16 + b)) LinkStat.RATE 0
  s2.forAll (back.filter fun p => s2.active (pdie p.egress)) (sendCross a)

/-- A span link goes down (03 R100, R108): both ends are down before either resends. -/
def spanDown (d e : Nat) (s : State) : State := spanEndDown e d (spanEndDown d e (setSpanState d e 7 s))

/-- A flit has been replayed: escalation at 4 and 8 replays (03 R94), counted (03 R107). -/
def flitEscalate (d i n : Nat) (s : State) : State :=
  let s1 := s.count (lreg .linkCnt d i) LinkCnt.REPLAYS 1
  let wait := decide (i < 16) && s1.fld (lreg .linkRtv d i) LinkRtv.TAG != 0
  if n = 4 then
    let s2 := raise (lreg .linkErr d i) LinkErr.REPLAYLIM s1
    if 16 ≤ i ∧ (s2.link d i).bad ≠ [] then setSpanState d (i - 16) 8 s2 else retrain d i s2
  else if n = 8 then (if i < 16 then downTrigger d i s1 else spanDown d (i - 16) s1)
  else if 8 < n ∧ wait then retrain d i s1
  else s1

/-- Replay the held flits that a test picks, each with the current trailer; every replay escalates (03 R84, R86, R94). Flits are sent only
in L0. -/
def replayFlits (d i : Nat) (p : HeldFlit → Bool) (s0 : State) : State :=
  if s0.linkState d i ≠ 3 then s0
  else
    let s := updateXoff d i s0
    let hit := (s.link d i).held.filter p
    let stamp := fun (l : LinkSt) (h : HeldFlit) => l.trailed (decide (16 ≤ i)) h.flit
    let s1 := s.modLink d i fun l =>
      { l with held := l.held.map (fun h => if p h then { h with replays := h.replays + 1, sentAt := s.now, flit := stamp l h } else h),
               sent := (hit.getLast?.map (stamp l)).or l.sent }
    hit.foldl (fun t h => flitEscalate d i (h.replays + 1) t) s1

/-! ### Receiver -/

/-- Flits leave the reorder buffer strictly in SEQ order: DATA flits for the switch core; CTRL flits end at the link engine, and what a capo
marker does is the command CAPO_FLIT_RECEIVE (03 R81, R85; 05 R183). -/
def drainReorder : Nat → LinkSt → LinkSt
  | 0, l => l
  | n + 1, l =>
    match takeFirst (fun f => f.seq == (l.rxAck + 1) % 65536) l.reorder with
    | none => l
    | some (f, rest) =>
      drainReorder n { l with reorder := rest, rxAck := f.seq, toCore := if f.typ = 1 then l.toCore ++ [f] else l.toCore }

/-- Classification of a sequenced flit (03 R85). -/
def receiveSeq (d i : Nat) (f : Flit) (s : State) : State :=
  let l := s.link d i
  let dist := (f.seq + 65536 + 65536 - l.rxAck - 1) % 65536
  if dist < 512 then
    if l.reorder.any (fun x => x.seq == f.seq) then s.count (lreg .linkCnt d i) LinkCnt.DUPS 1
    else s.modLink d i fun l => drainReorder 512 { l with reorder := l.reorder ++ [f] }
  else if 65024 ≤ dist then s.count (lreg .linkCnt d i) LinkCnt.DUPS 1
  else raise (lreg .linkErr d i) LinkErr.SEQ s

/-- Whether an acknowledgement names a flit that was never sent (03 R108). -/
def LinkSt.neverSent (l : LinkSt) (ack : Nat) : Bool := decide ((ack + 65536 - l.txNext) % 65536 < 32768)

/-- Every flit of a record on the second leg of a two-hop path is acknowledged: the transit die frees its cells (06 R219). -/
def transitSent (d : Nat) (p : Pkt) (s : State) : State :=
  if p ∈ (s.bufDie d).transit then
    dropCells d p.tcells (s.modBufDie d fun b => { b with transit := b.transit.erase p })
  else s

/-- Whether an acknowledgement covers a flit. -/
def covers (ack seq : Nat) : Bool := decide ((ack + 65536 - seq) % 65536 < 32768)

/-- The trailer's acknowledgement: release what ACK covers, replay what is reported missing (03 R84, R86). One that comes after the ack timer
of a flit that it covers has expired is discarded and counted; the next trailer says the same again (03 R88). -/
def takeAck (d i : Nat) (f : Flit) (s : State) : State :=
  let l := s.link d i
  let top := (List.range 64).foldl (fun a k => if f.ackmap.testBit k then k else a) 0
  if l.neverSent f.ack ∨ (f.ackmap ≠ 0 ∧ l.neverSent ((f.ack + 1 + top) % 65536)) then raise (lreg .linkErr d i) LinkErr.ACKPROTO s
  else if l.lateAck.any (covers f.ack) then (s.count (lreg .linkCnt d i) LinkCnt.LATE 1).modLink d i fun l => { l with lateAck := none }
  else
    let acked := fun (h : HeldFlit) => covers f.ack h.flit.seq
    let s0 := s.modLink d i fun l => { l with held := l.held.filter fun h => !(acked h) }
    let s1 := if i < 16 then s0 else s0.forAll ((l.held.filter acked).filterMap fun h => h.pkt) (transitSent d)
    let rtt := s.fld (lreg .linkRtt d i) LinkRtt.RTT * 65536
    let missing := fun (h : HeldFlit) =>
      let k := (h.flit.seq + 65536 + 65536 - f.ack - 1) % 65536
      f.ackmap != 0 && decide (k < 64) && !(f.ackmap.testBit k) && decide (k < top) && decide (h.sentAt + rtt ≤ s.now)
    pumpLink d i (replayFlits d i missing s1)

/-- A flit arrives (03 R81, R84 to R86, R90; 02 R70): its XOFF bits are in force before anything new is sent. -/
def flitReceive (d i : Nat) (f : Flit) (s : State) : State :=
  if ¬ s.linkLive d i then s
  else if ¬ f.good then raise (lreg .linkErr d i) LinkErr.CRC s
  else
    let s1 := if f.typ = 0 then s else receiveSeq d i f s
    let s2 := updateXoff d i (if f.fcv then s1.modLink d i fun l => { l with xoffIn := f.xoff } else s1)
    if f.ackv then takeAck d i f s2 else if f.fcv then pumpLink d i s2 else s2

/-- FLIT_RECEIVE (03 R85). -/
def execFlitReceive (d i : Nat) (f : Flit) (s : State) : Host.Outcome State Fault Refusal := .next (flitReceive d i f s)

/-- The ack timer of the oldest unacknowledged flit expires: the flit is replayed, and an acknowledgement of it that comes now is late
(03 R86, R88, R94). -/
def ackTimerExpire (d i : Nat) (s : State) : State :=
  match (s.link d i).held with
  | [] => s
  | h :: _ =>
    if s.linkState d i ≠ 3 then s
    else replayFlits d i (fun x => x.flit.seq == h.flit.seq) (s.modLink d i fun l => { l with lateAck := some h.flit.seq })

/-- ACK_TIMER_EXPIRE (03 R86). -/
def execAckTimerExpire (d i : Nat) (s : State) : Host.Outcome State Fault Refusal := .next (ackTimerExpire d i s)

/-- RTT_MEASURE (03 R87): a CTRL echo in L0 measures the round trip of a Nerov or span link anew. -/
def execRttMeasure (d i rtt : Nat) (s : State) : Host.Outcome State Fault Refusal :=
  .next (if s.linkState d i = 3 ∧ (16 ≤ i ∨ s.isNerov (gport d i) = true) then measureRtt d i rtt (sendCtrl d i s) else s)

/-! ### Lane faults -/

/-- A Nerov link removes a logical lane from its striping through a CTRL flit exchange (03 R92). -/
def removeLane (d pp lane : Nat) (s0 : State) : State :=
  let r := lreg .linkLanes d pp
  let s := s0.forAll ((s0.lanesOf d pp).filter fun ll => s0.laneNum d pp ll == lane) (holdEq d)
  let a := s.fld r LinkLanes.ACTIVE
  let b := s.fld r LinkLanes.BAD
  let s1 := (s.setFld r LinkLanes.ACTIVE (a &&& (0xFFFF - 2 ^ lane))).setFld r LinkLanes.BAD (b ||| 2 ^ lane)
  let left := ((List.range 16).filter fun k => (s1.fld r LinkLanes.ACTIVE).testBit k).length
  let s2 := raise (lreg .linkErr d pp) LinkErr.LANE (s1.setFld (lreg .linkStat d pp) LinkStat.WIDTH left)
  if left < 2 then linkDown d pp false s2 else sendCtrl d pp s2

/-- A lane is marked bad (03 R92, R93, R102, R111): a Nerov link removes it from its striping; a span link enters repair, or goes down when
the lane's module (of which `spares` redundant lanes are left) has none. A THRESH of 0 disables marking. -/
def laneMarkedBad (d i lane spares : Nat) (s : State) : State :=
  if s.fld (dreg .linkHealth d) LinkHealth.THRESH = 0 ∨ ¬ s.linkLive d i then s
  else if i < 16 then
    if s.isNerov (gport d i) ∧ lane < 16 ∧ (s.fld (lreg .linkLanes d i) LinkLanes.ACTIVE).testBit lane then removeLane d i lane s
    else s
  else if spares = 0 then spanDown d (i - 16) (raise (lreg .linkErr d i) LinkErr.SPARESOUT s)
  else setSpanState d (i - 16) 8 (s.modLink d i fun l => { l with bad := l.bad ++ [spares] })

/-- One bad lane of a span link is on a redundant lane (03 R93, R108, R111). -/
def repairLane (d i spares : Nat) (s : State) : State :=
  let r := lreg .linkSpstat d i
  let s1 := raise (lreg .linkErr d i) LinkErr.LANE ((s.count r LinkSpstat.REPAIRS 1).setFld r LinkSpstat.SPARES (s.fld r LinkSpstat.SPARES - 1))
  if spares = 1 then raise (lreg .linkErr d i) LinkErr.SPARESOUT s1 else s1

/-- One end of a span link is up again after a repair or a retrain: marked lanes are repaired, and what waited is sent (03 R93, R94). -/
def spanEndUp (d i : Nat) (s : State) : State :=
  let bad := (s.link d i).bad
  pumpLink d i ((setLinkState d i 3 s).forAll bad (repairLane d i) |>.modLink d i fun l => { l with bad := [] })

/-- LANE_MARKED_BAD (03 R92, R93). -/
def execLaneMarkedBad (d i lane spares : Nat) (s : State) : Host.Outcome State Fault Refusal := .next (laneMarkedBad d i lane spares s)

/-! ### PCIe replay -/

/-- N of 03 R78. -/
def State.replayN (s : State) (d pp : Nat) : Nat := s.fld (lreg .linkCfg d pp) LinkCfg.REPLAYN + 1

/-- One packet of the replay buffer is sent again in L0: at N replays the port enters Recovery, once for that packet; at 2 × N after it the
link goes down or its trigger acts (03 R78, R96). -/
def replayTlp (d pp : Nat) (h : HeldTlp) (s : State) : State :=
  let lim := s.replayN d pp
  let n := h.replays + 1
  let enters := decide (lim ≤ n) && !h.recovered
  let s1 := (s.modLink d pp fun l => { l with replay := l.replay.map fun x =>
      if x.seq = h.seq then { x with replays := n, recovered := h.recovered || enters } else x }).count (lreg .linkCnt d pp) LinkCnt.REPLAYS 1
  if enters then retrain d pp (raise (lreg .linkErr d pp) LinkErr.REPLAYLIM s1)
  else if 2 * lim ≤ n then downTrigger d pp s1
  else s1

/-- Replay the packets of the replay buffer that a test picks, in order, as long as the link is in L0 (03 R78). -/
def replayTlps (d pp : Nat) (p : HeldTlp → Bool) (s : State) : State :=
  ((s.link d pp).replay.filter p).foldl (fun t h => if t.linkState d pp = 3 then replayTlp d pp h t else t) s

/-- PCIE_REPLAY_TIMER_EXPIRE (03 R78, R88): an acknowledgement of the oldest packet that comes now is late; the port function reports Replay Timer
Timeout (12 R459). -/
def execPcieReplayTimerExpire (d pp : Nat) (s : State) : Host.Outcome State Fault Refusal :=
  .next (if s.linkState d pp = 3 then
    portAer (gport d pp) (Aer.note [] [12] [])
      (replayTlps d pp (fun _ => true) (s.modLink d pp fun l => { l with lateAck := l.replay.head?.map (·.seq) })) else s)

/-- Whether a PCIe sequence number was never sent. -/
def LinkSt.neverSentTlp (l : LinkSt) (n : Nat) : Bool := decide ((n + 4096 - l.pcieNext) % 4096 < 2048)

/-- What a PCIe acknowledgement up to `n` does: one of a packet that was never sent sets ACKPROTO, one that lost to the replay timer is
discarded and counted, and any other releases what it covers before `next` follows (03 R78, R88, R108). -/
def tlpAck (d pp n : Nat) (next : State → State) (s : State) : State :=
  let l := s.link d pp
  let covered := fun (q : Nat) => decide ((n + 4096 - q) % 4096 < 2048)
  if l.neverSentTlp n then raise (lreg .linkErr d pp) LinkErr.ACKPROTO s
  else if l.lateAck.any covered then (s.count (lreg .linkCnt d pp) LinkCnt.LATE 1).modLink d pp fun l => { l with lateAck := none }
  else next (s.modLink d pp fun l => { l with replay := l.replay.filter fun h => !(covered h.seq) })

/-- A DLLP arrives (03 R77 to R79; 07 R264): an Ack releases held packets, a Nak releases and replays, a selective Nak (Flit Mode) replays one,
UpdateFC returns credits. -/
def dllpReceive (d pp : Nat) (m : Dllp) (s : State) : State :=
  if ¬ s.linkLive d pp then s
  else
    match m with
    | .ack n => tlpAck d pp n id s
    | .nak n => tlpAck d pp n (replayTlps d pp fun _ => true) s
    | .selNak n =>
      if s.fld (lreg .linkStat d pp) LinkStat.FLIT = 0 then s
      else if (s.link d pp).neverSentTlp n then raise (lreg .linkErr d pp) LinkErr.ACKPROTO s
      else replayTlps d pp (fun h => h.seq == n) s
    | .updateFC c h x => s.modLink d pp fun l => { l with crH := l.crH.upd 0 c (· + h), crD := l.crD.upd 0 c (· + x) }

/-- DLLP_RECEIVE (03 R78, R79). -/
def execDllpReceive (d pp : Nat) (m : Dllp) (s : State) : Host.Outcome State Fault Refusal := .next (dllpReceive d pp m s)

/-! ### Retrain verdicts -/

/-- Whether a STEPDOWN is possible (03 R96): not for a Nerov link at 64.0 GT/s nor for a PCIe port at 2.5 GT/s. -/
def State.canStep (s : State) (d pp : Nat) : Bool :=
  let rate := s.fld (lreg .linkStat d pp) LinkStat.RATE
  if s.isNerov (gport d pp) then decide (6 < rate) else decide (1 < rate)

/-- A retrain verdict (03 R96, R109; 01 R34, R35). -/
def retrainVerdict (who : Master) (d pp tag : Nat) (ok : Bool) (apply : State → State) (s : State) : State :=
  let l := s.link d pp
  if tag ≠ 0 ∧ s.fld (lreg .linkRtv d pp) LinkRtv.TAG = tag ∧ mayAnswer who l.rtvMode (s.ownerOf (gport d pp)) true ∧ ok then
    apply (endRetrainInstance d pp s)
  else if tag ∈ l.rtvExpired then lateVerdict (s.count (lreg .linkCnt d pp) LinkCnt.LATE 1)
  else refuseVerdict d s

/-- KEEP (03 R96): the counts restart when the retrain ends, at once where it has ended (log entry 73). -/
def execKeep (who : Master) (d pp tag : Nat) (s : State) : Host.Outcome State Fault Refusal :=
  .next (retrainVerdict who d pp tag true
    (fun t => t.modLink d pp fun l => if t.linkState d pp = 4 then { l with restartCounts := true } else l.restarted) s)

/-- STEPDOWN (03 R96). -/
def execStepdown (who : Master) (d pp tag : Nat) (s : State) : Host.Outcome State Fault Refusal :=
  .next (retrainVerdict who d pp tag (s.canStep d pp)
    (fun t => (retrain d pp t).modLink d pp fun l =>
      { l with restartCounts := true, stepRate := some (t.fld (lreg .linkStat d pp) LinkStat.RATE - 1) }) s)

/-- DOWN (03 R96). -/
def execDown (who : Master) (d pp tag : Nat) (s : State) : Host.Outcome State Fault Refusal :=
  .next (retrainVerdict who d pp tag true (linkDown d pp false) s)

/-- The retrain assist timer expires, or a management reset begins: the link goes down (03 R96, 01 R37). -/
def retrainExpire (d pp : Nat) (s : State) : State :=
  let tag := s.fld (lreg .linkRtv d pp) LinkRtv.TAG
  if tag = 0 then s else (linkDown d pp false s).modLink d pp fun l => { l with rtvExpired := tag :: l.rtvExpired }

/-! ### The peg -/

/-- The peg register of a lane. -/
def lanePeg (d ll : Nat) : Reg := { name := .lanePeg, die := d, i := ll }

/-- The tag of the port's waiting peg instance. -/
def State.pegWaiting (s : State) (d pp : Nat) : Nat :=
  match s.lanesOf d pp with
  | [] => 0
  | ll :: _ => s.fld (lanePeg d ll) LanePeg.TAG

/-- The step of a port's peg (02 R66). -/
def State.pegState (s : State) (d pp : Nat) : Nat :=
  match s.lanesOf d pp with
  | [] => 0
  | ll :: _ => s.fld (lanePeg d ll) LanePeg.STATE

/-- The step of a port's peg is set on every lane. -/
def setPegState (d pp v : Nat) (s : State) : State := s.forAll (s.lanesOf d pp) fun ll => fun t => t.setFld (lanePeg d ll) LanePeg.STATE v

/-- The sweep's figure of merit of a preset. -/
def State.sweepFom (s : State) (d ll k : Nat) : Nat :=
  getBits (s.reg { name := .laneSweep, die := d, i := ll, j := k / 4 }) (16 * (k % 4) + 15) (16 * (k % 4))

/-- Whether a coefficient set satisfies 02 R58 (C-2, C-1, C0, C+1). -/
def coeffOk (cm2 cm1 c0 cp1 : Nat) (pam4 : Bool) : Bool :=
  cm2 + cm1 + c0 + cp1 == 63 && decide (cm2 + cm1 + cp1 + 21 ≤ c0) && decide (cm1 ≤ 15) && decide (cm2 ≤ 7) && (pam4 || cm2 == 0)

/-- Whether a listed coefficient set satisfies 02 R58. -/
def setOk (w : List Nat) (pam4 : Bool) : Bool := coeffOk (w.getD 0 0) (w.getD 1 0) (w.getD 2 0) (w.getD 3 0) pam4

/-- The figures of merit of the sweep, and the best preset (the first of the highest figure) (02 R62, R66). -/
def storeSweep (d ll : Nat) (fom : List Nat) (s : State) : State :=
  let best := (List.range 11).foldl (fun b k => if fom.getD b 0 < fom.getD k 0 then k else b) 0
  let s1 := s.forAll (List.range 11) fun k => fun t =>
    let r : Reg := { name := .laneSweep, die := d, i := ll, j := k / 4 }
    t.setReg r (setBits (t.reg r) (16 * (k % 4) + 15) (16 * (k % 4)) (min 65535 (fom.getD k 0)))
  s1.setFld (lanePeg d ll) LanePeg.BEST best

/-- A set is requested from the partner, and its figure of merit is that of the set in use (02 R62, R66). -/
def requestSet (d ll : Nat) (w : List Nat) (fom : Nat) (s : State) : State :=
  (s.setFld (lanePeg d ll) LanePeg.FOM (min 65535 fom)).modLane fun l => { l with request := l.request.set (d, ll) w }

/-- Refinement around the best preset: of it and at most 12 further sets the one with the highest figure is requested; after a verdict's timer
has expired it is measured once more (02 R62, R63). -/
def refineLane (d ll rate : Nat) (host : Bool) (o : PegLane) (s : State) : State :=
  let b := s.fld (lanePeg d ll) LanePeg.BEST
  let best := ((o.tries.take 12).filter fun x => setOk x.1 (decide (6 ≤ rate))).foldl
    (fun (a : List Nat × Nat) x => if a.2 < x.2 then x else a) ([b], s.sweepFom d ll b)
  requestSet d ll best.1 (if host then o.verify else best.2) s

/-- The peg of a port ends: its assist mode is forgotten. -/
def pegEnd (d pp : Nat) (s : State) : State :=
  (setPegState d pp 5 s).modLane fun l => { l with pegMode := l.pegMode.erase (gport d pp) }

/-- The verdict event of a port's peg is raised with a new tag (02 R63, 01 R34). -/
def pegAsk (d pp mode : Nat) (s : State) : State :=
  let tag := nextTag 255 (s.lane.pegTag.get 0 d)
  let g := gport d pp
  let s1 := s.modLane fun l =>
    { l with pegTag := l.pegTag.set d tag, pegMode := l.pegMode.set g mode, pegExpired := l.pegExpired.filter (· != (g, tag)) }
  let s2 := (setPegState d pp 3 s1).forAll (s1.lanesOf d pp) fun ll => fun t => t.setFld (lanePeg d ll) LanePeg.TAG tag
  deliverVerdict d (32 * pp + 9) mode (s2.ownerOf g) s2

/-- A peg goes on as far as the command says, in host-assisted mode to the verdict event at most (02 R62, R63). Answers whether it has ended. -/
def pegStep (d pp rate : Nat) (o : PegRun) (s : State) : State × Bool :=
  let lanes := s.lanesOf d pp
  let mode := if s.mode = 0 then 0 else s.assist PartAssist.PEG
  let s0 := if (s.link d pp).pegRate = rate ∧ s.pegState d pp ≠ 6 then s
    else setPegState d pp 1 ((s.setFld (lreg .linkStat d pp) LinkStat.RATE rate).modLink d pp fun l => { l with pegRate := rate })
  let refine := fun (t : State) =>
    let host := decide (t.lane.pegMode.get 0 (gport d pp) ≠ 0)
    (pegEnd d pp (t.forAll lanes.zipIdx fun x => refineLane d x.1 rate host (o.lanes.getD x.2 {})), true)
  match s0.pegState d pp with
  | 1 =>
    if o.stage = 1 then (s0, false)
    else
      let s1 := s0.forAll lanes.zipIdx fun x => storeSweep d x.1 (o.lanes.getD x.2 {}).fom
      if mode ≠ 0 then (pegAsk d pp mode s1, false)
      else if o.stage = 2 then (setPegState d pp 2 s1, false)
      else refine s1
  | 2 => if o.stage = 2 then (s0, false) else refine s0
  | 3 => (s0, false)
  | 4 =>
    if o.stage = 4 then (s0, false)
    else
      (pegEnd d pp (s0.forAll lanes.zipIdx fun x => fun t => t.setFld (lanePeg d x.1) LanePeg.FOM (min 65535 (o.lanes.getD x.2 {}).verify)), true)
  | _ => (s0, true)

/-- The pegs of a training, in order of their rates; those already ended in it are not run again (02 R62, 03 R97). -/
def runPegs (d pp : Nat) (r : TrainResult) : List Nat → State → State × Bool
  | [], s => (s, true)
  | rate :: rest, s =>
    let l := s.link d pp
    if rate < l.pegRate ∨ (rate = l.pegRate ∧ s.pegState d pp = 5) then runPegs d pp r rest s
    else
      let x := pegStep d pp rate ((r.pegs.find? fun p => p.rate == rate).getD { rate := rate }) s
      if x.2 then runPegs d pp r rest x.1 else x

/-! ### Training -/

/-- Polarity, reversal, receive equalization and the transmitter's coefficients after training: the override of LANE.TXEQ, or the set that the
partner asked for; a set that breaks R58 at the rate trained does not come into use (02 R57 to R61; log entry 16). -/
def trainLane (d ll num rate : Nat) (r : TrainResult) (s : State) : State :=
  let st := laneStat d ll
  let s1 := ((s.setFld st LaneStat.POLINV (b2n (r.polinv.getD num false))).setFld st LaneStat.REVERSED (b2n r.reversed)).setFld st
    LaneStat.LOCK 1
  let x : Reg := { name := .laneRxeq, die := d, i := ll }
  let s2 := if s1.fld x LaneRxeq.FREEZE = 1 then s1
    else s1.setFld x LaneRxeq.CTLE_CUR (if s1.fld x LaneRxeq.OVR = 1 then s1.fld x LaneRxeq.CTLE else min 28 (r.ctle.getD num 0))
  let t : Reg := { name := .laneTxeq, die := d, i := ll }
  let forced := [s2.fld t LaneTxeq.CM2, s2.fld t LaneTxeq.CM1, s2.fld t LaneTxeq.C0, s2.fld t LaneTxeq.CP1]
  let want := if s2.fld t LaneTxeq.OVR = 1 then (0xF, forced) else r.want.getD num (0xF, [])
  if setOk want.2 (decide (6 ≤ rate)) then
    (s2.setFld t LaneTxeq.PRESET (if want.1 ≤ 10 then want.1 else 0xF)).modLane fun l =>
      { l with tx := l.tx.set (d, ll) want.2, fastFail := l.fastFail.erase (d, ll) }
  else s2.modLane fun l => { l with fastFail := l.fastFail.erase (d, ll) }

/-- The rate a training ends at: what the lanes and the partner reached, at most the target and a STEPDOWN's rate; a Nerov
link trains at 64.0 or 128.0 GT/s, TRATE codes 1 to 5 acting as 6 (02 R52, 03 R96, R103). -/
def State.trainRate (s : State) (d pp : Nat) (r : TrainResult) : Nat :=
  let t := s.fld (lreg .linkCfg d pp) LinkCfg.TRATE
  let nerov := s.isNerov (gport d pp)
  let t1 := if nerov then t else if s.mode = 0 then min t 5 else t
  let t2 := match (s.link d pp).stepRate with | some x => min t1 x | none => t1
  max (if nerov then 6 else 1) (min t2 r.rate)

/-- The lanes of a port on which a training ends: at least one of a PCIe port, two of a Nerov link (03 R92, R97). -/
def State.trainWidth (s : State) (d pp : Nat) (r : TrainResult) : Nat :=
  max (if s.isNerov (gport d pp) then 2 else 1) (min r.width (s.width (gport d pp)))

/-- The rates at which a training runs a peg: 64.0 and, for a target of 128.0, 128.0 GT/s on a Nerov link; on a PCIe port those of the operand, from
8.0 GT/s to the rate reached (02 R62, 03 R77, R97). -/
def State.pegRates (s : State) (d pp : Nat) (r : TrainResult) : List Nat :=
  let top := s.trainRate d pp r
  if s.isNerov (gport d pp) then (if top = 7 then [6, 7] else [6])
  else (r.pegs.map fun p => p.rate).filter fun k => decide (3 ≤ k) && decide (k ≤ top)

/-- The end of a training that reaches UP or L0 (03 R97). A retrain of a Nerov link keeps its equalization, its lanes and its transport; full
retraining keeps what waits to be sent. The 16 CTRL echoes of a Nerov link measure its round trip (03 R87, R91). -/
def trainDone (d pp : Nat) (r : TrainResult) (s : State) : State :=
  let st := lreg .linkStat d pp
  let nerov := s.isNerov (gport d pp)
  let again := decide (s.linkState d pp = 4)
  let full := (s.link d pp).fullTrain
  let keep := again && nerov && !full
  let rate := if keep then ((s.link d pp).stepRate).getD (s.fld st LinkStat.RATE) else s.trainRate d pp r
  let width := if keep then s.fld st LinkStat.WIDTH else s.trainWidth d pp r
  let s1 := ((s.setFld st LinkStat.RATE rate).setFld st LinkStat.WIDTH width).setFld st LinkStat.FLIT
    (b2n (nerov || decide (6 ≤ rate) || (if again then s.fld st LinkStat.FLIT == 1 else r.flit)))
  let s2 := if again && !full then s1
    else
      let s1 := if full then s1 else s1.modLink d pp LinkSt.fresh
      s1.modLink d pp fun l =>
        { l with newQ := l.held ++ l.newQ, held := [], txNext := 0, rxAck := 0xFFFF, reorder := [], noFastExit := false, pegRate := 0,
                 lateAck := none }
  let s3 := if keep then s2
    else ((s2.setFld st LinkStat.L0P 0).setReg (lreg .linkLanes d pp) (BitVec.ofNat 64 (LinkLanes.ACTIVE.place (2 ^ width - 1)))).modLink d pp
      fun l => { l with trained := width }
  let lanes := s3.lanesOf d pp
  let s4 := if again && !full then s3 else s3.forAll lanes.zipIdx fun x => trainLane d x.1 x.2 rate r
  linkUp d pp (if nerov then measureRtt d pp ((r.echoes.take 16).foldl max 0) s4 else if again then s4 else advertise (gport d pp) r.scaled s4)

/-- A training attempt that fails: back to DETECT, TRAIN is set (03 R97); a retrain or Recovery that fails takes the link
down (03 R78, R94). -/
def trainFail (d pp : Nat) (s : State) : State :=
  if s.linkState d pp = 4 then linkDown d pp false s
  else enterDetect d pp false (stopTraining d pp (raise (lreg .linkErr d pp) LinkErr.TRAIN s))

/-- A training begins: the kind of the link is settled, and its lanes run at the first rate (02 R674, 03 R97, R103). -/
def beginTraining (d pp : Nat) (s : State) : State :=
  let nerov := s.fld (lreg .linkCfg d pp) LinkCfg.KIND == 1
  let s1 := (s.setFld (lreg .linkStat d pp) LinkStat.RATE (if nerov then 6 else 1)).modLink d pp fun l => { l with nerov := nerov, pegRate := 0 }
  setLinkState d pp 2 (s1.forAll (s1.lanesOf d pp) fun ll => fun t => t.setFld (laneStat d ll) LaneStat.LOCK 1)

/-- A link trains (03 R97): a peg that waits for a verdict, or a command that does not bring the training through, leaves it in training. -/
def train (d pp : Nat) (r : TrainResult) (s : State) : State :=
  let st := s.linkState d pp
  if ¬ s.mayTrain d pp ∨ st = 3 ∨ st = 5 ∨ st = 8 then s
  else if ¬ r.reached then trainFail d pp s
  else if st = 4 ∧ (s.link d pp).fullTrain = false then trainDone d pp r s
  else
    let s0 := if st = 2 ∨ st = 4 then s else beginTraining d pp s
    let x := runPegs d pp r (s0.pegRates d pp r) s0
    if x.2 ∧ r.through then trainDone d pp r x.1 else x.1

/-- PCIE_LINK_TRAIN (03 R77, R97). -/
def execPcieLinkTrain (d pp : Nat) (r : TrainResult) (s : State) : Host.Outcome State Fault Refusal :=
  .next (if s.isNerov (gport d pp) then s else train d pp r s)

/-- NEROV_TRAIN (03 R97): a partner that is not a Kloend part fails the attempt. -/
def execNerovTrain (d pp : Nat) (r : TrainResult) (s : State) : Host.Outcome State Fault Refusal :=
  .next (if s.isNerov (gport d pp) then train d pp { r with reached := r.reached && r.kloend } s else s)

/-- NEROV_TRAIN_TIMEOUT (03 R97): step 2 was not completed within 24 ms. -/
def execNerovTrainTimeout (d pp : Nat) (s : State) : Host.Outcome State Fault Refusal :=
  .next (if s.isNerov (gport d pp) ∧ s.mayTrain d pp ∧ s.linkState d pp ≠ 3 ∧ s.linkState d pp ≠ 5 then trainFail d pp s else s)

/-- LINK_UP (03 R98): a link in recovery or repair is up again; one that waits to train or trains has reached UP at its target rate on all its
lanes, unless its peg waits for a verdict (log entry 75). -/
def execLinkUp (d i : Nat) (s : State) : Host.Outcome State Fault Refusal :=
  let st := s.linkState d i
  .next (
    if 16 ≤ i then (if st = 4 ∨ st = 8 then spanEndUp (i - 16) (16 + d) (spanEndUp d i s) else s)
    else if ¬ s.mayTrain d i ∨ st = 0 ∨ st = 3 ∨ st = 5 ∨ s.pegWaiting d i ≠ 0 then s
    else if st = 4 ∧ (s.link d i).fullTrain = false then linkUp d i s
    else if st = 4 ∨ st = 2 then trainDone d i {} (if 1 ≤ s.pegState d i ∧ s.pegState d i ≤ 4 then pegEnd d i s else s)
    else trainDone d i {} (beginTraining d i s))

/-- LINK_DOWN (03 R98): through its own or its partner's doing; a link that trains fails its attempt (02 R65). -/
def execLinkDown (d pp : Nat) (s : State) : Host.Outcome State Fault Refusal :=
  .next (if s.linkLive d pp then linkDown d pp false s else if s.linkState d pp = 2 then trainFail d pp s else s)

/-- The grace period ends: held packets are flushed, and those that arrive until the link is up (03 R98). -/
def graceExpire (d pp : Nat) (s : State) : State :=
  if (s.link d pp).grace then
    flushPort (gport d pp) ((s.modLink d pp fun l => { l with grace := false }).setFld (lreg .linkStat d pp) LinkStat.HELD 0)
  else s

/-- GRACE_TIMER_EXPIRE (03 R98). -/
def execGraceTimerExpire (d pp : Nat) (s : State) : Host.Outcome State Fault Refusal := .next (graceExpire d pp s)

/-- SPAN_LINK_DOWN (03 R100). -/
def execSpanLinkDown (d e : Nat) (s : State) : Host.Outcome State Fault Refusal :=
  .next (if d < s.dieCount ∧ e < s.dieCount ∧ d ≠ e ∧ s.linkLive d (16 + e) then spanDown d e s else s)

/-- A write of LINK.CFG (03 R98, R103): GRACE clamps, a TRATE code that the KIND in force does not allow leaves TRATE
unchanged, clearing ENABLE takes the link down on purpose and starts the grace period, setting it lets the engine enter
DETECT. A span window's fields are read-only or reserved. -/
def linkCfgWrite (d i : Nat) (v : Word) (s : State) : State :=
  if 16 ≤ i then s
  else
    let r := lreg .linkCfg d i
    let t := LinkCfg.TRATE.of v
    let ok := if s.isNerov (gport d i) then t = 6 ∨ t = 7 else 1 ≤ t ∧ t ≤ 7
    let was := s.fld r LinkCfg.ENABLE
    let s1 := ((s.setFld r LinkCfg.KIND (LinkCfg.KIND.of v)).setFld r LinkCfg.REPLAYN (LinkCfg.REPLAYN.of v)).setFld r LinkCfg.GRACE
      (min 500 (LinkCfg.GRACE.of v))
    let s2 := if ok then s1.setFld r LinkCfg.TRATE t else s1
    if was = 1 ∧ LinkCfg.ENABLE.of v = 0 then
      let s3 := s2.setFld r LinkCfg.ENABLE 0
      let s4 := if s3.linkLive d i then linkDown d i true s3
        else if s3.hasLanes (gport d i) then startGrace d i (takeDown d i s3)
        else s3
      setLinkState d i 0 s4
    else if was = 0 ∧ LinkCfg.ENABLE.of v = 1 then enterDetect d i true (s2.setFld r LinkCfg.ENABLE 1)
    else s2

/-- LINK_CFG_WRITE (03 R103). -/
def execLinkCfgWrite (d i : Nat) (v : Word) (s : State) : Host.Outcome State Fault Refusal := .next (linkCfgWrite d i v s)

/-! ### Low power -/

/-- A link enters low power: 1 L0s (non-flit PCIe), 2 L1, 3 an L1 substate, 4 electrical idle of a Nerov link, 5 L0p to a width
(Flit Mode, never below x2), 6 L2 (02 R68, R69; 03 R77; 08 R311). -/
def lowPowerEntry (d pp k width : Nat) (s : State) : State :=
  let g := gport d pp
  let st := lreg .linkStat d pp
  let flit := s.fld st LinkStat.FLIT
  let nerov := s.isNerov g
  if s.linkState d pp ≠ 3 then s
  else if k = 5 then
    if ¬ nerov ∧ flit = 1 ∧ (width = 2 ∨ width = 4 ∨ width = 8) ∧ width < s.fld st LinkStat.WIDTH then
      ((s.forAll ((s.lanesOf d pp).filter fun ll => decide (width ≤ s.laneNum d pp ll)) (holdEq d)).setFld st LinkStat.L0P 1).setFld st
        LinkStat.WIDTH width
    else s
  else if (k = 1 ∧ ¬ nerov ∧ flit = 0) ∨ (k = 2 ∧ ¬ nerov) ∨ (k = 3 ∧ ¬ nerov ∧ ¬ s.portIsUp d (s.newE d) g) ∨ (k = 4 ∧ nerov)
      ∨ (k = 6 ∧ ¬ nerov) then
    (setLinkState d pp 5 (holdLanes d pp s)).modLink d pp fun l => { l with lowPower := k }
  else s

/-- LINK_LOW_POWER_ENTRY (02 R68). -/
def execLinkLowPowerEntry (d pp k width : Nat) (s : State) : Host.Outcome State Fault Refusal := .next (lowPowerEntry d pp k width s)

/-- A link returns to L0, or L0p restores the width to which the link had trained (02 R68, 03 R77). -/
def lowPowerExit (d pp : Nat) (s : State) : State :=
  let st := lreg .linkStat d pp
  if s.linkState d pp = 5 ∧ (s.link d pp).lowPower ≠ 4 then (setLinkState d pp 3 s).modLink d pp fun l => { l with lowPower := 0 }
  else if s.linkState d pp = 3 ∧ s.fld st LinkStat.L0P = 1 then (s.setFld st LinkStat.L0P 0).setFld st LinkStat.WIDTH (s.link d pp).trained
  else s

/-- LINK_LOW_POWER_EXIT (02 R68). -/
def execLinkLowPowerExit (d pp : Nat) (s : State) : Host.Outcome State Fault Refusal := .next (lowPowerExit d pp s)

/-- A Nerov link leaves idle by full retraining: with a peg, and with the lanes that were removed (02 R69, R70; 03 R92). Its traffic waits
(log entry 75). -/
def fullRetrain (d pp : Nat) (s : State) : State := (retrain d pp s).modLink d pp fun l => { l with fullTrain := true, lowPower := 0, pegRate := 0 }

/-- A Nerov lane leaves electrical idle by a fast exit, and what waited is sent (02 R69, R70). Three consecutive exits of one lane without lock
end the use of fast exit on the link until it next trains; the link then leaves idle by full retraining. -/
def nerovFastExit (d pp lane : Nat) (locked : Bool) (s : State) : State :=
  let l := s.link d pp
  match (s.lanesOf d pp)[lane]? with
  | none => s
  | some ll =>
    if ¬ s.isNerov (gport d pp) ∨ s.linkState d pp ≠ 5 ∨ l.lowPower ≠ 4 then s
    else if l.noFastExit then fullRetrain d pp s
    else
      let n := if locked then 0 else s.lane.fastFail.get 0 (d, ll) + 1
      let s1 := s.modLane fun x => { x with fastFail := x.fastFail.set (d, ll) n }
      if 3 ≤ n then fullRetrain d pp (s1.modLink d pp fun l => { l with noFastExit := true })
      else
        let s2 := setLinkState d pp 3 (s1.setFld (laneStat d ll) LaneStat.LOCK (b2n locked))
        pumpLink d pp (s2.modLink d pp fun l => { l with lowPower := 0 })

/-- NEROV_FAST_EXIT (02 R69, R70). -/
def execNerovFastExit (d pp lane : Nat) (locked : Bool) (s : State) : Host.Outcome State Fault Refusal :=
  .next (nerovFastExit d pp lane locked s)

end Sys2Proof.Machine
end

