-- ==== Sys2Proof/Machine/Power.lean ====
section
/-! DEFINITION. Power domains (14 R528 to R543), pads, junction temperature (20 R671, R672) and the core rail (14 R544 to
R548). -/

namespace Sys2Proof.Machine

/-! ### Domains -/

/-- The register of a domain; HILD.DOM has the layout of PWR.DOM (14 R542). -/
def DomId.reg (x : DomId) : Reg := if x.hild then { name := .hildDom, i := x.i } else { name := .pwrDom, die := x.d, i := x.i }

/-- A domain of a die. -/
def dom (d i : Nat) : DomId := { hild := false, d := d, i := i }

/-- CUR of a domain: 0 ON, 1 RET, 2 OFF. -/
def State.domCur (s : State) (x : DomId) : Nat := s.fld x.reg PwrDom.CUR

/-- Whether a domain of a die is ON. -/
def State.domOn (s : State) (d i : Nat) : Bool := s.domCur (dom d i) == 0

/-- The sequencer of a domain. -/
def State.domSt (s : State) (x : DomId) : DomSt := s.pwr.dom.get {} x

/-- The state with a domain's sequencer changed. -/
def State.modDom (s : State) (x : DomId) (f : DomSt → DomSt) : State :=
  { s with pwr := { s.pwr with dom := s.pwr.dom.set x (f (s.pwr.dom.get {} x)) } }

/-- Whether a transition of a domain runs. -/
def State.domBusy (s : State) (x : DomId) : Bool := s.fld x.reg PwrDom.BUSY == 1

/-- Whether the domain exists on the member. -/
def State.hasDom (s : State) (x : DomId) : Bool := if x.hild then decide (x.i < 8) else decide (x.d < s.dieCount) && decide (x.i < 72)

/-- The states that a request may name (14 R528, R542): RET and OFF of a pair come through WAIT only. -/
def domAllows (x : DomId) (q : Nat) : Bool :=
  let i := x.i
  if q = 0 then true
  else if x.hild then q == 2 && i != 0
  else if i < 16 ∨ (34 ≤ i ∧ i ≤ 45) ∨ (58 ≤ i ∧ i ≤ 60) ∨ i = 65 ∨ i = 66 ∨ i = 68 ∨ i = 70 then true
  else if i < 32 ∨ (46 ≤ i ∧ i ≤ 53 ∧ i - 46 ≠ x.d) ∨ i = 69 ∨ i = 71 then q == 2
  else false

/-- The parents of a domain, in ascending order (14 R528). -/
def domParents (x : DomId) : List Nat :=
  let i := x.i
  if x.hild then []
  else if 16 ≤ i ∧ i < 32 then [32]
  else if 34 ≤ i ∧ i ≤ 45 then [33]
  else if 46 ≤ i ∧ i ≤ 53 ∧ i - 46 ≠ x.d then [46 + x.d]
  else if i = 55 ∨ i = 56 then [54, 57]
  else if (57 ≤ i ∧ i ≤ 60) ∨ (65 ≤ i ∧ i ≤ 70) then [54]
  else []

/-- Whether a quad holds a lane of the live map. -/
def State.quadUsed (s : State) (d q : Nat) : Bool := (quadPorts (s.quad d q)).any fun p => p.isSome

/-- Whether a quad may leave ON (14 R531). -/
def State.quadIdle (s : State) (d q tgt : Nat) : Bool :=
  !((List.range 4).any fun k => s.laneTests d (4 * q + k)) &&
    (!(s.quadUsed d q) ||
      (tgt == 1 && (quadPorts (s.quad d q)).all fun p => match p with | none => true | some pp => s.linkState d pp == 5))

/-- Whether a port island may leave ON (14 R531). -/
def State.portIdle (s : State) (d pp : Nat) : Bool :=
  let g := gport d pp
  let e := s.newE d
  !(s.hasLanes g) &&
    !((List.range 32).any fun n => s.partValid d e n && (s.up0 d e n == g || s.up1 d e n == some g)) &&
    !(s.fret.parked.any fun x => x.1.1 == g) && (s.fret.heldBack.get [] g).isEmpty &&
    (List.range 16).all (fun q => (s.queue g q).isEmpty) &&
    !(s.fret.streams.any fun x => (x.1.1 == g || x.1.2.1 == g) && x.2.outst.any fun y => y.2 != 0)

/-- Whether a slot is off (15 R579). -/
def State.slotOff (s : State) (n : Nat) : Bool := s.fld { name := .hildStat, i := n } HildStat.STATE == 0

/-- Whether the bridge of a die has no open ticket, held access or powered slot (14 R531). -/
def State.sbbIdle (s : State) (d : Nat) : Bool :=
  (List.range s.slotsPerDie).all (fun i => s.slotOff (d * s.slotsPerDie + i)) &&
    (List.range 32).all (fun t => s.fld { name := .sbbTktRes, die := d, i := t } SbbTktRes.STATE == 0) &&
    !(s.sbb.seg.any fun x => x.1.1 == d && (x.2.running.isSome || !x.2.queue.isEmpty))

/-- The condition under which a domain may leave ON (14 R531, R542). -/
def State.mayLeave (s : State) (x : DomId) (q : Nat) : Bool :=
  let i := x.i
  if x.hild then
    if 1 ≤ i ∧ i ≤ 4 then (List.range 8).all fun k => s.slotOff (8 * (i - 1) + k)
    else if i = 5 ∨ i = 6 then s.fld partLead PartLead.HILDPATH != i - 5
    else true
  else if i < 16 then s.quadIdle x.d i q
  else if i < 32 then s.portIdle x.d (i - 16)
  else if 46 ≤ i ∧ i ≤ 53 then s.linkState x.d (16 + (i - 46)) == 0
  else if i = 68 then (List.range dmaChannels).all fun c => s.fld { name := .dmaChCfg, die := x.d, i := c } DmaChCfg.OWNER == 0x3F
  else if i = 69 then s.sbbIdle x.d
  else if i = 71 then s.fld (dreg .coreClk x.d) CoreClk.SEL == 0
  else true

/-- A domain that has this one as a parent is not OFF (14 R530). -/
def State.childOn (s : State) (x : DomId) : Bool :=
  !x.hild && (List.range 72).any fun k => decide (x.i ∈ domParents (dom x.d k)) && s.domCur (dom x.d k) != 2

/-- STATUS of a domain's register. -/
def domStatus (x : DomId) (v : Nat) (s : State) : State := s.setFld x.reg PwrDom.STATUS v

/-- A transition of one domain starts: pads are latched on the way to RET or OFF (14 R533, R538). -/
def startDomain (x : DomId) (target : Nat) (thenRet : Bool) (s : State) : State :=
  let s1 := (s.setFld x.reg PwrDom.BUSY 1).modDom x fun m => { m with target := target, thenRet := thenRet, closing := none }
  if target ≠ 0 ∧ s.fld x.reg PwrDom.PADS = 1 then s1.setFld x.reg PwrDom.LATCHED 1 else s1

/-- A domain is demanded ON: a transition to RET or OFF that runs is reversed, a domain in RET or OFF wakes (14 R534). -/
def wakeOne (x : DomId) (s : State) : State :=
  let m := s.domSt x
  if s.domBusy x then
    match m.closing with
    | some _ =>
      domStatus x 3 (((s.setFld x.reg PwrDom.BUSY 0).modDom x fun m => { m with closing := none, next := none }).modBufDie x.d fun b =>
        { b with closed := b.closed.erase (x.i - 34) })
    | none =>
      if m.target = 0 then s.modDom x fun m => { m with thenRet := false }
      else domStatus x 3 (s.modDom x fun m => { m with target := 0, thenRet := false })
  else if s.domCur x ≠ 0 then startDomain x 0 false s
  else s

/-- A wake of a domain, its parents first (14 R530, R534). -/
def wakeDomain (x : DomId) (s : State) : State := wakeOne x (s.forAll (domParents x) fun p => wakeOne (dom x.d p))

/-- A bank of cells closes: its free cells leave their pools (14 R536). -/
def closeBank (d k : Nat) (s : State) : State := s.modBufDie d fun b => { b with closed := if k ∈ b.closed then b.closed else b.closed ++ [k] }

/-- A request for a state, taken when no transition runs (14 R530, R531, R536). -/
def beginDomain (x : DomId) (q : Nat) (s : State) : State :=
  let bank := !x.hild && decide (34 ≤ x.i) && decide (x.i ≤ 45)
  if ¬ domAllows x q then domStatus x 2 s
  else if q = s.domCur x then domStatus x 1 s
  else if q = 0 then wakeDomain x s
  else if ¬ s.mayLeave x q then domStatus x 3 s
  else if s.childOn x then domStatus x 4 s
  else if s.domCur x = 2 then startDomain x 0 true (s.forAll (domParents x) fun p => wakeOne (dom x.d p))
  else if bank ∧ s.domCur x = 0 then
    let s1 := closeBank x.d (x.i - 34) s
    if s1.sharedSize x.d < 16384 then domStatus x 6 s
    else (s1.setFld x.reg PwrDom.BUSY 1).modDom x fun m => { m with closing := some q }
  else startDomain x q false s

/-- A request that waited behind a transition is taken (14 R530). -/
def takeNext (x : DomId) (s : State) : State :=
  match (s.domSt x).next with
  | some q => beginDomain x q (s.modDom x fun m => { m with next := none })
  | none => s

/-- A write of PWR.DOM or HILD.DOM (14 R530, R549): AUTO is stored, REQ code 3 is ignored, and a request that meets a running
transition waits in place of an earlier one. -/
def domainRequest (x : DomId) (v : Word) (s : State) : State :=
  if ¬ s.hasDom x then s
  else
    let q := PwrDom.REQ.of v
    let s1 := s.setFld x.reg PwrDom.AUTO (PwrDom.AUTO.of v)
    if q = 3 then s1
    else
      let s2 := s1.setFld x.reg PwrDom.REQ q
      if s2.domBusy x then s2.modDom x fun m => { m with next := some q } else beginDomain x q s2

/-- DOMAIN_REQUEST (14 R530). -/
def execDomainRequest (x : DomId) (v : Word) (s : State) : Host.Outcome State Fault Refusal := .next (domainRequest x v s)

/-- DOMAIN_WAKE (14 R534). -/
def execDomainWake (x : DomId) (s : State) : Host.Outcome State Fault Refusal :=
  .next (if s.hasDom x then wakeDomain x s else s)

/-! ### What a domain loses and gets back -/

/-- The bytes of a control SRAM or recorder store domain (14 R528): base within the window, and size. -/
def domBytes (i : Nat) : Nat × Nat :=
  if 57 ≤ i ∧ i ≤ 60 then (0x10000000 + (i - 57) * 0x100000, 0x100000)
  else if i = 65 ∨ i = 66 then (0x40000000 + (i - 65) * 0x400000, 0x400000)
  else (0, 0)

/-- A domain that reached OFF has lost its contents (14 R529). -/
def domainLost (x : DomId) (s : State) : State :=
  let i := x.i
  let d := x.d
  if x.hild then s
  else if i < 16 then
    s.modLane fun l => { l with tx := (l.tx.erase (d, 4 * i)).erase (d, 4 * i + 1) |>.erase (d, 4 * i + 2) |>.erase (d, 4 * i + 3) }
  else if i < 32 then
    s.modFret fun f => { f with course := f.course.erase (gport d (i - 16)), hq := f.hq.erase (gport d (i - 16)) }
  else if 34 ≤ i ∧ i ≤ 45 then
    s.modBufDie d fun b =>
      let gone := fun (c : Nat) => c / 16384 == i - 34
      { b with cells := b.cells.filter fun y => !(gone y.1) || y.2.state == 5,
               recycle := b.recycle.map fun y => (y.1, y.2.filter fun c => !(gone c)),
               verify := b.verify.filter fun c => !(gone c) }
  else if 46 ≤ i ∧ i ≤ 53 then { s with links := s.links.erase (d, 16 + (i - 46)) }
  else if (57 ≤ i ∧ i ≤ 60) ∨ i = 65 ∨ i = 66 then
    { s with mem := s.mem.clear (dieBase d + (domBytes i).1) (dieBase d + (domBytes i).1 + (domBytes i).2) }
  else if i = 68 then { s with dma := { s.dma with ch := s.dma.ch.filter fun y => y.1.1 != d } }
  else if i = 71 then s.setFld (dreg .coreClk d) CoreClk.PLLLOCK 0
  else if i = 69 then
    { s with sbb := { s.sbb with seg := s.sbb.seg.filter fun y => y.1.1 != d },
             regs := s.regs.filter fun y => !((y.1.name == .sbbSegSig || y.1.name == .sbbSegStat) && y.1.die == d) }
  else s

/-- A domain is ON again, after an entry that a wake reversed or from RET or OFF (14 R534): pads latched at RET entry are released by the part, and those latched at OFF entry stay (14 R539);
a buffer bank that was OFF is zeroed, and opens; the control-island PLL, which locks before CUR reads ON, or a pair clears SEL (14 R540). -/
def domainBack (x : DomId) (was : Nat) (s : State) : State :=
  let i := x.i
  let s1 := if was = 2 then s else s.setFld x.reg PwrDom.LATCHED 0
  if x.hild then s1
  else if was = 0 ∧ ¬ (34 ≤ i ∧ i ≤ 45) then s1
  else if 34 ≤ i ∧ i ≤ 45 then
    let s2 := s1.modBufDie x.d fun b => { b with closed := b.closed.erase (i - 34) }
    let gone := ((s2.bufDie x.d).cells.filter fun y => y.2.state == 5 && y.1 / 16384 == i - 34).length
    if was = 2 then s2.count (dreg .bufZcnt x.d) BufZcnt.COUNT (16384 - gone) else s2
  else if i = 55 ∨ i = 56 then s1.setFld (dreg .coreClk x.d) CoreClk.SEL 0
  else if i = 71 then (s1.setFld (dreg .coreClk x.d) CoreClk.SEL 0).setFld (dreg .coreClk x.d) CoreClk.PLLLOCK 1
  else s1

/-- A PWR.PAD release that waited for its domain ends (14 R539, R550). -/
def padDone (d i : Nat) (s : State) : State :=
  if s.pwr.padWait.find d = some i then
    let r := dreg .pwrPad d
    ({ s with pwr := { s.pwr with padWait := s.pwr.padWait.erase d } }.setFld (dom d i).reg PwrDom.LATCHED 0).setFld r PwrPad.BUSY 0
      |>.setFld r PwrPad.STATUS 1
  else s

/-- A transition ends: CUR shows the new state (14 R532, R533), and a request that waited is taken; on the way from OFF to RET the domain enters
RET now, a bank of cells by closing again (14 R532, R536). -/
def transitionEnd (x : DomId) (s : State) : State :=
  let m := s.domSt x
  if ¬ s.domBusy x ∨ m.closing.isSome then s
  else
    let was := s.domCur x
    let bank := !x.hild && decide (34 ≤ x.i) && decide (x.i ≤ 45)
    let s1 := domStatus x (if m.target = 0 ∧ s.fld x.reg PwrDom.STATUS = 3 ∧ was = 0 then 3 else 1)
      ((s.setFld x.reg PwrDom.CUR m.target).setFld x.reg PwrDom.BUSY 0)
    let s2 := if m.target = 0 then (if x.hild then domainBack x was s1 else padDone x.d x.i (domainBack x was s1))
      else if m.target = 2 then domainLost x s1 else s1
    if m.thenRet then (if bank then beginDomain x 1 s2 else startDomain x 1 false s2) else takeNext x s2

/-- A domain misses twice its bound: it stays in its former state, a failed wake OFF with its pads latched (14 R535). -/
def domainFail (x : DomId) (s : State) : State :=
  let m := s.domSt x
  if ¬ s.domBusy x ∨ m.closing.isSome then s
  else
    let was := s.domCur x
    let s1 := domStatus x 5 (s.setFld x.reg PwrDom.BUSY 0)
    let s2 := if was = 0 then (s1.setFld x.reg PwrDom.LATCHED 0).modBufDie x.d fun b =>
        { b with closed := if x.hild then b.closed else b.closed.filter fun k => k + 34 != x.i } else s1
    let s3 := if s.pwr.padWait.find x.d = some x.i ∧ !x.hild then
        ({ s2 with pwr := { s2.pwr with padWait := s2.pwr.padWait.erase x.d } }.setFld (dreg .pwrPad x.d) PwrPad.BUSY 0).setFld
          (dreg .pwrPad x.d) PwrPad.STATUS 3
      else s2
    let s4 := if x.hild then s3 else raise (dreg .pwrErr x.d) PwrErr.DOMFAIL s3
    takeNext x (s4.modDom x fun m => { m with thenRet := false, target := was })

/-- DOMAIN_FAIL (14 R535). -/
def execDomainFail (x : DomId) (s : State) : Host.Outcome State Fault Refusal := .next (domainFail x s)

/-- Whether every cell of a bank is free or retired (14 R536). -/
def BufDie.bankFree (b : BufDie) (k : Nat) : Bool :=
  b.cells.all fun y => y.1 / 16384 != k || y.2.state == 0 || y.2.state == 1 || y.2.state == 4 || y.2.state == 5

/-- Closing ends and the request is carried out; where it has not ended after 100 ms the request is refused and the bank opens
again (14 R536). -/
def bufbCloseEnd (d k : Nat) (s : State) : State :=
  let x := dom d (34 + k)
  match (s.domSt x).closing with
  | none => s
  | some q =>
    if (s.bufDie d).bankFree k then startDomain x q false s
    else
      takeNext x (domStatus x 3 (((s.setFld x.reg PwrDom.BUSY 0).modDom x fun m => { m with closing := none }).modBufDie d fun b =>
        { b with closed := b.closed.erase k }))

/-- BUFB_CLOSE_END (14 R536). -/
def execBufbCloseEnd (d k : Nat) (s : State) : Host.Outcome State Fault Refusal := .next (bufbCloseEnd d k s)

/-- An access to an SRAM or REC domain in RET is held while the domain wakes (14 R537). -/
def execRetainedAccessWake (d i : Nat) (s : State) : Host.Outcome State Fault Refusal :=
  .next (if ((58 ≤ i ∧ i ≤ 60) ∨ i = 65 ∨ i = 66) ∧ d < s.dieCount ∧ s.domCur (dom d i) = 1 then wakeDomain (dom d i) s else s)

/-- A release of latched pads (14 R539, R550). -/
def padRelease (d : Nat) (v : Word) (s : State) : State :=
  let r := dreg .pwrPad d
  let i := PwrPad.DOM.of v
  if PwrPad.RELEASE.of v = 0 ∨ ¬ d < s.dieCount then s
  else if s.fld r PwrPad.BUSY = 1 then s.setFld r PwrPad.STATUS 4
  else if ¬ domPads i then s.setFld r PwrPad.STATUS 2
  else if s.domCur (dom d i) = 0 ∧ ¬ s.domBusy (dom d i) then (s.setFld (dom d i).reg PwrDom.LATCHED 0).setFld r PwrPad.STATUS 1
  else
    wakeDomain (dom d i) ({ s with pwr := { s.pwr with padWait := s.pwr.padWait.set d i } }.setFld r PwrPad.BUSY 1)

/-- PAD_RELEASE (14 R539). -/
def execPadRelease (d : Nat) (v : Word) (s : State) : Host.Outcome State Fault Refusal := .next (padRelease d v s)

/-- The automatic change of a port island and of a span link: OFF when its condition holds and AUTO is 1 (14 R531). -/
def autoOff (x : DomId) (s : State) : State :=
  if s.fld x.reg PwrDom.AUTO = 1 ∧ s.domCur x = 0 ∧ ¬ s.domBusy x ∧ s.mayLeave x 2 then startDomain x 2 false s else s

/-- The automatic change of a quad: OFF when an apply leaves every lane unused, or a test on an unused quad ends (02 R56, 14 R531), from RET
directly and after a transition that runs (14 R530, R532). -/
def autoQuadOff (d q : Nat) (s : State) : State :=
  let x := dom d q
  if s.quadUsed d q = true ∨ s.fld x.reg PwrDom.AUTO = 0 ∨ s.quadIdle d q 2 = false then s
  else if s.domBusy x then (if (s.domSt x).target = 2 then s else s.modDom x fun m => { m with next := some 2 })
  else if s.domCur x = 2 then s
  else startDomain x 2 false s

/-! ### The core rail -/

/-- A voltage request is sent: a raise leaves RELIED, a lowering takes it down at once; a change of more than 25 mV goes in
steps of at most 25 mV (14 R545, R546). -/
def avsSend (d target : Nat) (s : State) : State :=
  let r := dreg .pwrAvs d
  let now := s.fld r PwrAvs.REQ
  let v := if now = 0 then target else if now + 25 < target then now + 25 else if target + 25 < now then now - 25 else target
  let s1 := (s.setFld r PwrAvs.REQ v).setFld r PwrAvs.STATE 1
  if v < s1.fld r PwrAvs.RELIED then s1.setFld r PwrAvs.RELIED v else s1

/-- The voltage that the temperature band in force asks for (14 R545, R548). -/
def State.avsTarget (s : State) (d : Nat) : Nat :=
  s.fuses.vb d + s.pwr.band.get 30 d + s.fld (dreg .pwrAvscfg d) PwrAvscfg.MARGIN

/-- A request is sent when none waits and the voltage requested is not the one wanted. -/
def avsDrive (d : Nat) (s : State) : State :=
  if s.fld (dreg .pwrAvs d) PwrAvs.STATE = 0 ∧ s.fld (dreg .pwrAvs d) PwrAvs.REQ ≠ s.avsTarget d ∧ s.fld (dreg .pwrAvs d) PwrAvs.REQ ≠ 0 then
    avsSend d (s.avsTarget d) s
  else s

/-- NEED follows the temperature; VLOW is set when it exceeds RELIED (14 R545, R547). -/
def avsNeed (d : Nat) (tj : Int) (s : State) : State :=
  let comp := if tj ≥ 640 then 0 else if tj ≥ 0 then 15 else 30
  let need := s.fuses.vb d + comp + s.fld (dreg .pwrAvscfg d) PwrAvscfg.MARGIN
  let r := dreg .pwrAvs d
  let was := decide (s.fld r PwrAvs.NEED ≤ s.fld r PwrAvs.RELIED)
  let s1 := s.setFld r PwrAvs.NEED need
  if s1.fld r PwrAvs.RELIED ≠ 0 ∧ was ∧ s1.fld r PwrAvs.RELIED < need then raise (dreg .pwrErr d) PwrErr.VLOW s1 else s1

/-- The regulator answers a Voltage Write and Status Read (14 R544, R546): an answer that is no acceptance sets AVSNAK and
is no acknowledgement; one without a waiting request is ignored. -/
def avsAck (d : Nat) (accepted vdone : Bool) (s : State) : State :=
  let r := dreg .pwrAvs d
  if s.fld r PwrAvs.STATE ≠ 1 then s
  else if ¬ accepted then raise (dreg .pwrErr d) PwrErr.AVSNAK s
  else if ¬ vdone then s
  else avsDrive d ((s.setFld r PwrAvs.RELIED (s.fld r PwrAvs.REQ)).setFld r PwrAvs.STATE 0)

/-- AVS_ACK (14 R546). -/
def execAvsAck (d : Nat) (accepted vdone : Bool) (s : State) : Host.Outcome State Fault Refusal := .next (avsAck d accepted vdone s)

/-- No acknowledgement within 500 µs (14 R547). -/
def avsTimeout (d : Nat) (s : State) : State :=
  let r := dreg .pwrAvs d
  if s.fld r PwrAvs.STATE = 1 then raise (dreg .pwrErr d) PwrErr.AVSTO (s.setFld r PwrAvs.STATE 2) else s

/-- The request is sent again 1 ms after the timeout (14 R547). -/
def execAvsRetry (d : Nat) (s : State) : Host.Outcome State Fault Refusal :=
  .next (if s.fld (dreg .pwrAvs d) PwrAvs.STATE = 2 then s.setFld (dreg .pwrAvs d) PwrAvs.STATE 1 else s)

/-! ### Temperature -/

/-- The band that a sample asks for: up at once below an edge + 5 °C, down after 100 ms at or above the edge + 10 °C
(14 R545). -/
def bandOf (s : State) (d : Nat) (tj : Int) : Nat :=
  let long : FMap Nat Nat → Bool := fun m => match m.find d with
    | some t => decide (t + 100000000 * 65536 ≤ s.now)
    | none => false
  let b := s.pwr.band.get 30 d
  let b1 := if b = 30 ∧ long s.pwr.since10 then 15 else b
  let b2 := if b1 = 15 ∧ long s.pwr.since50 then 0 else b1
  if tj < 80 then 30 else if tj < 720 then max 15 b2 else b2

/-- The time since which Tj stands at or above an edge. -/
def since (m : FMap Nat Nat) (d now : Nat) (above : Bool) : FMap Nat Nat :=
  if above then (match m.find d with | some _ => m | none => m.set d now) else m.erase d

/-- The warning limit of the grade in 1/16 °C (20 R671). -/
def State.warnLimit (s : State) : Int := if s.fuses.gradeE then 110 * 16 else 105 * 16
/-- The trip limit of the grade in 1/16 °C (20 R671). -/
def State.tripLimit (s : State) : Int := if s.fuses.gradeE then 120 * 16 else 115 * 16

/-- The thermal bits of a sample (20 R671, R672). -/
def thermal (d : Nat) (tj : Int) (s : State) : State :=
  let s1 :=
    if s.warnLimit ≤ tj ∧ d ∉ s.pwr.warned then
      { raise (dreg .fltErr d) FltErr.THERMWARN s with pwr := { s.pwr with warned := d :: s.pwr.warned } }
    else if tj ≤ s.warnLimit - 80 then { s with pwr := { s.pwr with warned := s.pwr.warned.erase d } }
    else s
  if s.tripLimit ≤ tj ∧ d ∉ s1.pwr.tripped then
    { raise (dreg .fltErr d) FltErr.THERMTRIP s1 with pwr := { s1.pwr with tripped := d :: s1.pwr.tripped } }
  else if tj < s.tripLimit then { s1 with pwr := { s1.pwr with tripped := s1.pwr.tripped.erase d } }
  else s1

/-- A die samples its junction temperature, in 1/16 °C (14 R545, R554; 20 R671). -/
def tempSample (d : Nat) (tj : Int) (s : State) : State :=
  if ¬ d < s.dieCount then s
  else
    let r := dreg .pwrTemp d
    let raw := (tj % 65536).toNat
    let s1 := s.setFld r PwrTemp.TJ raw
    let s2 := if signed 16 (s.fld r PwrTemp.MAX) < tj then s1.setFld r PwrTemp.MAX raw else s1
    let s3 := { s2 with pwr := { s2.pwr with
      since10 := since s2.pwr.since10 d s.now (decide (tj ≥ 160)), since50 := since s2.pwr.since50 d s.now (decide (tj ≥ 800)) } }
    let s4 := { s3 with pwr := { s3.pwr with band := s3.pwr.band.set d (bandOf s3 d tj) } }
    thermal d tj (avsDrive d (avsNeed d tj s4))

/-- MARGIN has been written: NEED follows at the temperature last sampled, and the request follows (14 R545, R547, R552). Before the first
sample NEED stays 0. -/
def avsMargin (d : Nat) (s : State) : State :=
  avsDrive d (if s.fld (dreg .pwrAvs d) PwrAvs.NEED = 0 then s else avsNeed d (signed 16 (s.fld (dreg .pwrTemp d) PwrTemp.TJ)) s)

/-- TEMP_SAMPLE (20 R671). -/
def execTempSample (d : Nat) (tj : Int) (s : State) : Host.Outcome State Fault Refusal := .next (tempSample d tj s)

/-- A sensor silent for 1 ms is treated as having reached THERMTRIP (20 R672). -/
def execTempSensorTimeout (d : Nat) (s : State) : Host.Outcome State Fault Refusal :=
  .next (if d < s.dieCount ∧ d ∉ s.pwr.tripped then
      { raise (dreg .fltErr d) FltErr.THERMTRIP s with pwr := { s.pwr with tripped := d :: s.pwr.tripped } }
    else s)

end Sys2Proof.Machine
end

