-- ==== Sys2Proof/Machine/Hild.lean ====
section
/-! DEFINITION. Slot power and the Hild die (15; 20 R665). -/

namespace Sys2Proof.Machine

/-! ### Registers and states of a slot -/

/-- A register of a slot. -/
def hreg (r : RegName) (n : Nat) : Reg := { name := r, i := n }

/-- STATE of a slot: 0 OFF, 1 waiting for a verdict, 2 RAMP, 3 QUALIFY, 4 ON, 5 LATCHED, 6 DISCHARGE (15 R579). -/
def State.slotState (s : State) (n : Nat) : Nat := s.fld (hreg .hildStat n) HildStat.STATE

/-- A bit of a slot's status. -/
def State.slotBit (s : State) (n : Nat) (f : Field) : Bool := s.fld (hreg .hildStat n) f == 1

/-- A bit of a slot's status is set. -/
def setSlot (n : Nat) (f : Field) (v : Nat) (s : State) : State := s.setFld (hreg .hildStat n) f v

/-- The hidden part of a slot. -/
def State.slot (s : State) (n : Nat) : SlotSt := s.hild.slots.get {} n

/-- The state with the hidden part of a slot changed. -/
def State.modSlot (s : State) (n : Nat) (f : SlotSt → SlotSt) : State :=
  { s with hild := { s.hild with slots := s.hild.slots.set n (f (s.hild.slots.get {} n)) } }

/-- Whether GATEH is driven: RAMP, QUALIFY, ON (15 R557, R566). -/
def State.slotDriven (s : State) (n : Nat) : Bool := s.slotState n == 2 || s.slotState n == 3 || s.slotState n == 4

/-- Whether a path to the Hild die exists (01 R17). -/
def State.hasPath (s : State) : Bool := s.fld partLead PartLead.HILDPATH != 0xF

/-- Whether the gate functions of a slot run: its HSLOT domain is ON and VHILD is in range (15 R557). -/
def State.slotLive (s : State) (n : Nat) : Bool :=
  decide (n < 32) && s.domCur { hild := true, d := 0, i := 1 + n / 8 } == 0 && !s.hild.down

/-- HILD.SUM and HILD.HPV.TAG follow the slots (15 R582, R583). -/
def syncSum (n : Nat) (s : State) : State :=
  let r : Reg := { name := .hildSum }
  let s1 := s.setReg r (setBits (setBits (s.reg r) (32 + n) (32 + n) (b2n (s.slotBit n HildStat.PGOOD))) n n (b2n (s.slotState n == 5)))
  s1.setFld { name := .hildHpv } HildHpv.TAG
    (match s1.hild.waiting with | [] => 0 | m :: _ => s1.fld (hreg .hildStat m) HildStat.HPTAG)

/-- PWRBRK# of a slot (15 R562). -/
def syncBrk (n : Nat) (s : State) : State :=
  let c := hreg .hildCtl n
  let few := !(s.slotBit n HildStat.FEEDA && s.slotBit n HildStat.FEEDB)
  setSlot n HildStat.PWRBRK (b2n (s.fld c HildCtl.BRKREQ == 1 || (s.fld c HildCtl.BRKONE == 1 && few))) s

/-- PERST# goes low and PGOOD is withdrawn (15 R568). -/
def slotUngood (n : Nat) (s : State) : State := setSlot n HildStat.PERSTREL 0 (setSlot n HildStat.PGOOD 0 s)

/-- The waiting hot-plug instance of a slot ends (15 R572). -/
def endHotplug (n : Nat) (s : State) : State :=
  let s1 := (setSlot n HildStat.HPTAG 0 s).modSlot n fun x => { x with mode := 0, owner := 0x3F }
  { s1 with hild := { s1.hild with waiting := s1.hild.waiting.erase n } }

/-- The hot-swap FET is turned off into a state: GATEH by the sink named, PERST# low (15 R559, R571, R573). -/
def slotHalt (n gate state : Nat) (s : State) : State :=
  syncSum n ((setSlot n HildStat.STATE state (setSlot n HildStat.TIMER 0 (setSlot n HildStat.GATEOK 0 (slotUngood n s)))).modSlot n
    fun x => { x with gate := gate, off := false })

/-- The virtual port of a valid partition whose PORT binding names a slot, in the newest bank of the slot's serving die
(15 R572, 08 R306). -/
def State.slotBinding (s : State) (n : Nat) : Option (Nat × Nat) :=
  let d := s.slotDie n
  let e := s.newE d
  (List.range 32).findSome? fun m =>
    if s.partValid d e m then
      ((List.range 64).find? fun k => s.bindKind d e m k == 1 && s.bindSlot d e m k == some n).map fun k => (m, k)
    else none

/-- The partition that owns the port bound to a slot, 0x3F with no valid binding (15 R572). -/
def State.slotOwner (s : State) (n : Nat) : Nat :=
  match s.slotBinding n with
  | some (m, k) => s.portOwner (s.slotDie n) (s.newE (s.slotDie n)) (s.bindPort (s.slotDie n) (s.newE (s.slotDie n)) m k)
  | none => 0x3F

/-- A bit of Slot Status is set in the virtual port bound to a slot. -/
def slotNote (n bit : Nat) (s : State) : State :=
  match s.slotBinding n with
  | some (m, k) => vpEvent m k [bit] s
  | none => s

/-- A trip latches the slot off: GATEH is held by the 1 A sink, PERST# is low, the sticky bit is set (15 R565, R566, R571). -/
def slotTrip (n : Nat) (f : Field) (s : State) : State :=
  if s.slotLive n ∧ s.slotDriven n then
    slotNote n slotPowerFault
      (raise (hreg .hildErr n) f ((slotHalt n 1 5 s).modSlot n fun x => { x with toggle := false }))
  else s

/-! ### Power on -/

/-- The slot ramps (15 R564, R572). With both feeds out of range it latches off with NOFEED (15 R561). -/
def slotRamp (n : Nat) (s : State) : State :=
  let s1 := syncSum n ((setSlot n HildStat.STATE 2 s).modSlot n fun x => { x with gate := 2, off := false })
  if s1.slotBit n HildStat.FEEDA ∨ s1.slotBit n HildStat.FEEDB then s1 else slotTrip n HildErr.NOFEED s1

/-- A slot leaves OFF when it is seated and PWREN is 1: it ramps at once in hardware mode, and waits for a verdict in
host-assisted mode (15 R572). -/
def slotTry (n : Nat) (s : State) : State :=
  if s.slotLive n ∧ s.slotState n = 0 ∧ s.slotBit n HildStat.SEATED ∧ s.fld (hreg .hildCtl n) HildCtl.PWREN = 1 then
    let mode := s.assist PartAssist.HOTPLUG
    if mode = 0 then slotRamp n s
    else
      let tag := nextTag 255 s.hild.hpTag
      let owner := s.slotOwner n
      let s1 := (setSlot n HildStat.HPTAG tag (setSlot n HildStat.STATE 1 s)).modSlot n fun x =>
        { x with mode := mode, owner := owner, expired := x.expired.filter (· != tag) }
      let s2 := syncSum n { s1 with hild := { s1.hild with hpTag := tag, waiting := n :: s1.hild.waiting } }
      deliverVerdict (s.slotDie n) (640 + 16 * s.slotChan n + 13) mode owner s2
  else s

/-- PWREN takes a value (15 R571 to R573). -/
def slotPwren (n : Nat) (on : Bool) (s : State) : State :=
  let s0 := s.setFld (hreg .hildCtl n) HildCtl.PWREN (b2n on)
  let st := s.slotState n
  if on then
    if st = 5 ∧ (s.slot n).toggle then
      slotTry n (syncSum n ((setSlot n HildStat.STATE 0 s0).modSlot n fun x => { x with toggle := false, gate := 0 }))
    else slotTry n s0
  else if st = 5 then s0.modSlot n fun x => { x with toggle := true }
  else if st = 1 then syncSum n (setSlot n HildStat.STATE 0 (endHotplug n s0))
  else if s.slotDriven n then (setSlot n HildStat.PERSTREL 0 s0).modSlot n fun x => { x with off := true }
  else s0

/-- A write of HILD.SLOT.CTL (15 R575), through the Hild path (01 R17). -/
def slotCtl (n : Nat) (on : Bool) (v : Word) (s : State) : State :=
  if s.hasPath ∧ n < 32 ∧ ¬ s.hild.down then
    let c := hreg .hildCtl n
    slotPwren n on (syncBrk n ((s.setFld c HildCtl.BRKREQ (HildCtl.BRKREQ.of v)).setFld c HildCtl.BRKONE (HildCtl.BRKONE.of v)))
  else s

/-- PWREN_SET (15 R572). -/
def execPwrenSet (n : Nat) (v : Word) (s : State) : Host.Outcome State Fault Refusal := .next (slotCtl n true v s)

/-- PWREN_CLEAR (15 R573). -/
def execPwrenClear (n : Nat) (v : Word) (s : State) : Host.Outcome State Fault Refusal := .next (slotCtl n false v s)

/-- A hot-plug verdict (15 R572, R582; 01 R34, R35). -/
def hotplugVerdict (who : Master) (n tag : Nat) (apply : State → State) (s : State) : State :=
  let x := s.slot n
  if ¬ s.hasPath ∨ ¬ n < 32 then s
  else if tag ≠ 0 ∧ s.slotState n = 1 ∧ s.fld (hreg .hildStat n) HildStat.HPTAG = tag ∧ mayAnswer who x.mode x.owner true then
    apply (endHotplug n s)
  else if tag ∈ x.expired then lateVerdict s
  else refuseVerdict (s.slotDie n) s

/-- ABORT clears PWREN and returns the slot to OFF (15 R572). -/
def slotAbort (n : Nat) (s : State) : State :=
  syncSum n (setSlot n HildStat.STATE 0 (s.setFld (hreg .hildCtl n) HildCtl.PWREN 0))

/-- PROCEED (15 R572). -/
def execProceed (who : Master) (n tag : Nat) (s : State) : Host.Outcome State Fault Refusal :=
  .next (hotplugVerdict who n tag (slotRamp n) s)

/-- ABORT (15 R572). -/
def execAbort (who : Master) (n tag : Nat) (s : State) : Host.Outcome State Fault Refusal :=
  .next (hotplugVerdict who n tag (slotAbort n) s)

/-- The assist timer of a slot expires, or a management reset begins: the slot proceeds (15 R572, 01 R37). -/
def hotplugExpire (n : Nat) (s : State) : State :=
  if s.slotState n = 1 then
    let tag := s.fld (hreg .hildStat n) HildStat.HPTAG
    slotRamp n ((endHotplug n s).modSlot n fun x => { x with expired := tag :: x.expired })
  else s

/-! ### Seating -/

/-- A slot becomes unseated: a slot that is not OFF goes OFF without latching, a latched one too (15 R559). -/
def slotUnseat (n : Nat) (s : State) : State :=
  let s1 := slotNote n slotPresence (setSlot n HildStat.SEATED 0 s)
  if s.slotState n = 0 then s1 else slotHalt n 1 0 (endHotplug n s1)

/-- A PRSNT pin takes a level; a high level, which has lasted 10 µs, unseats the slot (15 R558, R559). -/
def prsntChange (n : Nat) (b low : Bool) (s : State) : State :=
  if ¬ n < 32 then s
  else
    let s1 := setSlot n (if b then HildStat.PRSNTB else HildStat.PRSNTA) (b2n low) s
    if low ∨ s.hild.down ∨ ¬ s.slotBit n HildStat.SEATED then s1 else slotUnseat n s1

/-- PRSNT_CHANGE (15 R559). -/
def execPrsntChange (n : Nat) (b low : Bool) (s : State) : Host.Outcome State Fault Refusal := .next (prsntChange n b low s)

/-- Both PRSNT pins have been low for 25 ms: the slot is seated; a LATCHED slot ignores it (15 R558, R571). -/
def slotSeated (n : Nat) (s : State) : State :=
  if n < 32 ∧ ¬ s.hild.down ∧ s.slotBit n HildStat.PRSNTA ∧ s.slotBit n HildStat.PRSNTB ∧ ¬ s.slotBit n HildStat.SEATED then
    slotTry n (slotNote n slotPresence (setSlot n HildStat.SEATED 1 s))
  else s

/-- SLOT_SEATED (15 R558). -/
def execSlotSeated (n : Nat) (s : State) : Host.Outcome State Fault Refusal := .next (slotSeated n s)

/-! ### Feeds -/

/-- A feed's range is judged anew for its voltage in mV: a departure sets its sticky bit and holds its ORing FET off; with both
feeds out of range a driven slot latches off (15 R560, R561). -/
def feedRange (n : Nat) (b : Bool) (mv : Nat) (s : State) : State :=
  let f := hreg .hildFeed n
  let bit := if b then HildStat.FEEDB else HildStat.FEEDA
  let uv := 100 * s.fld f HildFeed.UV
  let ov := 100 * s.fld f HildFeed.OV
  let ok := decide (uv ≤ mv) && decide (mv ≤ ov)
  let was := s.slotBit n bit
  let s1 := setSlot n bit (b2n ok) (s.setSat (hreg .hildTel n) (if b then HildTel.VFB else HildTel.VFA) mv)
  let on := if b then HildStat.ONB else HildStat.ONA
  let s2 := if ok then (if was ∨ ¬ s.slotLive n then s1 else setSlot n on 1 s1) else setSlot n on 0 s1
  let s3 := if was ∧ ¬ ok then
      raise (hreg .hildErr n) (if mv < uv then (if b then HildErr.UVB else HildErr.UVA) else (if b then HildErr.OVB else HildErr.OVA)) s2
    else s2
  let s4 := syncBrk n s3
  if s4.slotBit n HildStat.FEEDA ∨ s4.slotBit n HildStat.FEEDB then s4 else slotTrip n HildErr.NOFEED s4

/-- FEED_RANGE_CHANGE (15 R560). -/
def execFeedRangeChange (n : Nat) (b : Bool) (mv : Nat) (s : State) : Host.Outcome State Fault Refusal :=
  .next (if n < 32 ∧ ¬ s.hild.down then feedRange n b mv s else s)

/-- A 10 mV reverse turns an ORing FET off and sets its sticky bit (15 R560). -/
def execReverseTurnoff (n : Nat) (b : Bool) (s : State) : Host.Outcome State Fault Refusal :=
  .next (if s.slotLive n ∧ s.slotBit n (if b then HildStat.ONB else HildStat.ONA) then
      raise (hreg .hildErr n) (if b then HildErr.REVB else HildErr.REVA) (setSlot n (if b then HildStat.ONB else HildStat.ONA) 0 s)
    else s)

/-- A feed that has stood 20 mV above the common node for 10 µs: its gate is enhanced again (15 R560). -/
def execOringReenhance (n : Nat) (b : Bool) (s : State) : Host.Outcome State Fault Refusal :=
  .next (if s.slotLive n ∧ s.slotBit n (if b then HildStat.FEEDB else HildStat.FEEDA) then
      setSlot n (if b then HildStat.ONB else HildStat.ONA) 1 s
    else s)

/-! ### Ramp, fault timer, power-good -/

/-- In ON, PGOOD deasserts and PERST# goes low; the slot then shows QUALIFY while the gate is enhanced, RAMP otherwise
(15 R567, R568). -/
def slotLosesGood (n : Nat) (s : State) : State :=
  if s.slotState n = 4 then
    syncSum n (setSlot n HildStat.STATE (if s.slotBit n HildStat.GATEOK then 3 else 2) (slotUngood n s))
  else s

/-- The current loop begins to limit: the fault timer starts (15 R565, R568). -/
def execFaultTimerStart (n : Nat) (s : State) : Host.Outcome State Fault Refusal :=
  .next (if s.slotLive n ∧ s.slotDriven n then slotLosesGood n (setSlot n HildStat.TIMER 1 s) else s)

/-- The loop has not limited for 10 µs: the fault timer stops (15 R565). -/
def execFaultTimerStop (n : Nat) (s : State) : Host.Outcome State Fault Refusal :=
  .next (if n < 32 then setSlot n HildStat.TIMER 0 s else s)

/-- The fault timer reaches TFLT (15 R565). -/
def execTimeout (n : Nat) (s : State) : Host.Outcome State Fault Refusal :=
  .next (if s.slotBit n HildStat.TIMER then slotTrip n HildErr.TIMEOUT s else s)

/-- GATEOK was not reached within TRAMP (15 R565). -/
def execRampto (n : Nat) (s : State) : Host.Outcome State Fault Refusal :=
  .next (if s.slotState n = 2 ∧ ¬ s.slotBit n HildStat.GATEOK then slotTrip n HildErr.RAMPTO s else s)

/-- VDS above 1 V for 100 µs in ON with GATEOK (15 R565). -/
def execFetfault (n : Nat) (s : State) : Host.Outcome State Fault Refusal :=
  .next (if s.slotState n = 4 ∧ s.slotBit n HildStat.GATEOK then slotTrip n HildErr.FETFAULT s else s)

/-- The fast comparator trips (15 R566). -/
def execShort (n : Nat) (s : State) : Host.Outcome State Fault Refusal := .next (slotTrip n HildErr.SHORT s)

/-- GATEOK rises or falls; a fall in ON deasserts PGOOD (15 R564, R568). -/
def gateokChange (n : Nat) (on : Bool) (s : State) : State :=
  if s.slotLive n ∧ s.slotDriven n then
    let s1 := setSlot n HildStat.GATEOK (b2n on) s
    if on then (if s.slotState n = 2 then setSlot n HildStat.STATE 3 s1 else s1)
    else
      let s2 := slotLosesGood n s1
      (setSlot n HildStat.STATE 2 s2).modSlot n fun x => { x with gate := 2 }
  else s

/-- GATEOK_CHANGE (15 R564). -/
def execGateokChange (n : Nat) (on : Bool) (s : State) : Host.Outcome State Fault Refusal := .next (gateokChange n on s)

/-- VDS falls below 200 mV in the ramp: the gate source steps to 1 mA (15 R564). -/
def execRampVdsBelow200mv (n : Nat) (s : State) : Host.Outcome State Fault Refusal :=
  .next (if s.slotLive n ∧ s.slotState n = 2 then s.modSlot n fun x => { x with gate := 3 } else s)

/-- A clean qualification window ends: PGOOD asserts and the slot is in ON; the slot's clock is enabled with it
(15 R567, R569; 18 R636). -/
def pgoodQualify (n : Nat) (s : State) : State :=
  if s.slotLive n ∧ s.slotDriven n ∧ s.slotBit n HildStat.GATEOK ∧ ¬ s.slotBit n HildStat.TIMER ∧ ¬ s.slotBit n HildStat.PGOOD then
    syncSum n (setSlot n HildStat.STATE 4 (setSlot n HildStat.PGOOD 1 s))
  else s

/-- PGOOD_QUALIFY (15 R567). -/
def execPgoodQualify (n : Nat) (s : State) : Host.Outcome State Fault Refusal := .next (pgoodQualify n s)

/-- TPERST after PGOOD asserted, PERST# is released (15 R569). -/
def execPerstRelease (n : Nat) (s : State) : Host.Outcome State Fault Refusal :=
  .next (if n < 32 ∧ s.slotBit n HildStat.PGOOD ∧ ¬ (s.slot n).off then setSlot n HildStat.PERSTREL 1 s else s)

/-- 100 µs after PWREN was cleared GATEH is pulled down by the 1 mA sink: DISCHARGE (15 R573). -/
def execDischargeStart (n : Nat) (s : State) : Host.Outcome State Fault Refusal :=
  .next (if n < 32 ∧ (s.slot n).off ∧ s.slotDriven n then slotHalt n 0 6 s else s)

/-- The rail has fallen below 0.5 V, or 100 ms have passed: OFF (15 R573). -/
def execDischargeEnd (n : Nat) (s : State) : Host.Outcome State Fault Refusal :=
  .next (if n < 32 ∧ s.slotState n = 6 then slotTry n (syncSum n (setSlot n HildStat.STATE 0 s)) else s)

/-! ### The supply and resets -/

/-- The ORing FETs of a slot are held off: its HSLOT domain is not ON, or VHILD is out of range (15 R557). -/
def oringOff (n : Nat) (s : State) : State := setSlot n HildStat.ONA 0 (setSlot n HildStat.ONB 0 s)

/-- DOMAIN_TRANSITION_END (14 R533): with its HSLOT domain ON, a seated slot with PWREN set powers on; with it OFF, the resistors hold the gates off
(15 R557, R572). -/
def execDomainTransitionEnd (x : DomId) (s : State) : Host.Outcome State Fault Refusal :=
  let s1 := transitionEnd x s
  .next (if x.hild ∧ 1 ≤ x.i ∧ x.i ≤ 4 then
      s1.forAll (List.range 8) fun k => if s1.domCur x = 0 then slotTry (8 * (x.i - 1) + k) else oringOff (8 * (x.i - 1) + k)
    else s1)

/-- A slot is forced OFF: PERST# low, GATEH held by the 1 A sink, any instance withdrawn. -/
def slotForceOff (n : Nat) (s : State) : State := slotHalt n 1 0 (endHotplug n s)

/-- VHILD falls below 3.00 V: every GATEH is pulled down and every PERST# driven low (20 R665). -/
def vhildLoss (s : State) : State :=
  let s1 := s.forAll (List.range 32) fun n => fun t => oringOff n (setSlot n HildStat.SEATED 0 (slotForceOff n t))
  { s1 with hild := { s1.hild with down := true } }

/-- VHILD_LOSS (20 R665). -/
def execVhildLoss (s : State) : Host.Outcome State Fault Refusal := .next (vhildLoss s)

/-- The registers of the Hild region. -/
def hildNames : List RegName := [.hildHpv, .hildSum, .hildDom, .hildCtl, .hildCfg, .hildTime, .hildFeed, .hildStat, .hildErr, .hildTel]

/-- The Hild die's control logic returns to reset: every slot OFF, latches cleared, every HILD register at its reset value; the
pins and feeds read as they stand (15 R574, 20 R665). -/
def hildReset (s : State) : State :=
  let s1 : State := { s with regs := s.regs.filter fun x => decide (x.1.name ∉ hildNames), hild := {},
                             pwr := { s.pwr with dom := s.pwr.dom.filter fun x => !x.1.hild } }
  s1.forAll (List.range 32) fun n => fun t =>
    let va := s.fld (hreg .hildTel n) HildTel.VFA
    let vb := s.fld (hreg .hildTel n) HildTel.VFB
    let t1 := setSlot n HildStat.PRSNTA (b2n (s.slotBit n HildStat.PRSNTA)) (setSlot n HildStat.PRSNTB (b2n (s.slotBit n HildStat.PRSNTB)) t)
    feedRange n true vb (feedRange n false va t1)

/-- VHILD returns (20 R665). -/
def execVhildReturn (s : State) : Host.Outcome State Fault Refusal := .next (if s.hild.down then hildReset s else s)

end Sys2Proof.Machine
end

