-- ==== Sys2Proof/Machine/Sideband.lean ====
section
/-! DEFINITION. The sideband bridges (16): transactions, host windows, tickets, locks, signals. -/

namespace Sys2Proof.Machine

/-! ### Records -/

/-- A segment of a die. -/
def State.seg (s : State) (d i : Nat) : SegSt := s.sbb.seg.get {} (d, i)

/-- The state with a segment changed. -/
def State.modSeg (s : State) (d i : Nat) (f : SegSt → SegSt) : State :=
  { s with sbb := { s.sbb with seg := s.sbb.seg.set (d, i) (f (s.sbb.seg.get {} (d, i))) } }

/-- A host window. -/
def State.win (s : State) (n k : Nat) : WinSt := s.sbb.win.get {} (n, k)

/-- The state with a host window changed. -/
def State.modWin (s : State) (n k : Nat) (f : WinSt → WinSt) : State :=
  { s with sbb := { s.sbb with win := s.sbb.win.set (n, k) (f (s.sbb.win.get {} (n, k))) } }

/-- RES of a ticket. -/
def tktRes (d t : Nat) : Reg := { name := .sbbTktRes, die := d, i := t }

/-- PROT, SLOT and LEN of a descriptor (16 R587). -/
def xferProt (v : Word) : Nat := getBits v 63 60
def xferSlot (v : Word) : Nat := getBits v 52 48
def xferLen (v : Word) : Nat := getBits v 5 0

/-- Whether a descriptor ends at once with BADXFER (16 R587). -/
def badXfer (v : Word) : Bool :=
  let p := xferProt v
  p == 0 || decide (13 ≤ p) || decide (32 < xferLen v) || (xferLen v == 0 && decide (7 ≤ p) && decide (p ≤ 10)) ||
    getBits v 59 53 != 0 || getBits v 40 40 != 0 || getBits v 30 6 != 0

/-- The slot that a window acts on: the slot of binding k, where it is a PORT binding with SLOTV in the newest bank on the die
that holds the face (16 R590). -/
def State.winSlot (s : State) (n k : Nat) : Option Nat :=
  let d := pdie (s.up0 s.lead (s.newE s.lead) n)
  let e := s.newE d
  if s.partValid d e n ∧ s.bindKind d e n k = 1 then s.bindSlot d e n k else none

/-- Whether the bridge of a die serves transactions: SBB domain ON, die ACTIVE (16 R585, R588). -/
def State.sbbUp (s : State) (d : Nat) : Bool := s.domOn d 69 && s.active d

/-- SBB.SEG.STAT follows the segment (16 R605). -/
def segSync (d i : Nat) (s : State) : State :=
  let r : Reg := { name := .sbbSegStat, die := d, i := i }
  let g := s.seg d i
  let s1 := ((s.setFld r SbbSegStat.LOCKED (b2n g.holder.isSome)).setFld r SbbSegStat.QDEPTH g.queue.length).setFld r SbbSegStat.BUSY
    (b2n g.running.isSome)
  match g.holder with
  | none => (s1.setFld r SbbSegStat.OKIND 0).setFld r SbbSegStat.OWNER 0
  | some (.window n k) => (s1.setFld r SbbSegStat.OKIND 1).setFld r SbbSegStat.OWNER (n * 64 + k)
  | some (.ticket _ t) => (s1.setFld r SbbSegStat.OKIND 2).setFld r SbbSegStat.OWNER t

/-! ### Outcomes -/

/-- Data bytes into four DBUF words. -/
def dbufWords (data : List Byte) : List Nat := (List.range 4).map fun j => ofBytesLE ((data.drop (8 * j)).take 8)

/-- A transaction ends: RES, and the data of a read, reach its requester; a fault status sets its sticky bit (16 R588, R603,
R604). -/
def sbbDone (d : Nat) (x : SbbTxn) (status : Nat) (data : List Byte) (s : State) : State :=
  let reads := xferProt x.xfer == 2 || xferProt x.xfer == 4 || xferProt x.xfer == 6 || xferProt x.xfer == 8 || xferProt x.xfer == 10
  let s1 := s.count (dreg .sbbCnt d) SbbCnt.XFERS 1
  let s2 := if status = 3 then raise (dreg .sbbErr d) SbbErr.BUSTO s1
    else if status = 4 then raise (dreg .sbbErr d) SbbErr.BUSERR s1
    else if status = 5 then raise (dreg .sbbErr d) SbbErr.PEC s1 else s1
  match x.who with
  | none => s2
  | some (.window n k) =>
    s2.modWin n k fun w =>
      { w with state := 4, status := status, count := min 63 data.length, busy := false, queue := w.queue.drop 1,
               dbuf := if reads then (dbufWords data).zipIdx.foldl (fun m y => m.set y.2 (BitVec.ofNat 64 y.1)) w.dbuf else w.dbuf }
  | some (.ticket _ t) =>
    let r := tktRes d t
    let s3 := ((s2.setFld r SbbTktRes.STATE 4).setFld r SbbTktRes.STATUS status).setFld r SbbTktRes.COUNT (min 63 data.length)
    if reads then
      s3.forAll (dbufWords data).zipIdx fun y => fun u => u.setReg { name := .sbbTktDbuf, die := d, i := t, j := y.2 } (BitVec.ofNat 64 y.1)
    else s3

/-- A requester's transaction is shown in a state. -/
def sbbState (d : Nat) (who : Option SbbReq) (v : Nat) (s : State) : State :=
  match who with
  | none => s
  | some (.window n k) => s.modWin n k fun w => { w with state := v }
  | some (.ticket _ t) => s.setFld (tktRes d t) SbbTktRes.STATE v

/-- A transaction joins its segment (16 R589). -/
def sbbQueue (d i : Nat) (who : SbbReq) (v : Word) (s : State) : State :=
  sbbState d (some who) 2
    (s.modSeg d i fun g => { g with queue := g.queue ++ [{ who := some who, xfer := v, held := g.holder == some who }] })

/-- The writes at the front of a host window's queue take effect until one has become a transaction (16 R591). -/
def winPump (n k : Nat) : Nat → State → State
  | 0, s => s
  | f + 1, s =>
    let w := s.win n k
    if w.busy then s
    else match w.queue with
      | [] => s
      | .dbuf j v :: rest => winPump n k f (s.modWin n k fun w => { w with queue := rest, dbuf := w.dbuf.set j v })
      | op :: _ =>
        let v := match op with
          | .lock on => BitVec.ofNat 64 ((if on then 11 else 12) * 2 ^ 60)
          | .xfer v => v
          | .dbuf _ v => v
        let s1 := s.modWin n k fun w =>
          { w with busy := true, seq := (w.seq + 1) % 256, xfer := match op with | .xfer v => v | _ => w.xfer }
        let fail := fun (st : Nat) =>
          winPump n k f (s1.modWin n k fun w => { w with state := 4, status := st, count := 0, busy := false, queue := w.queue.drop 1 })
        if badXfer v then fail 8
        else match s.winSlot n k with
          | none => fail 6
          | some sl => sbbQueue (s.slotDie sl) (s.slotChan sl) (.window n k) v s1

/-- The next transaction that may run on a segment: the holder's under a lock, else the oldest (16 R589, R596). -/
def SegSt.pick (g : SegSt) : Option (SbbTxn × List SbbTxn) :=
  takeFirst (fun x => match g.holder with | none => true | some h => x.who == some h) g.queue

/-- A segment takes transactions until one is on the wire: LOCK and UNLOCK, UNAVAIL and LOCKLOST end at once
(16 R585, R588, R589, R596). -/
def segPump (d i : Nat) : Nat → State → State
  | 0, s => segSync d i s
  | f + 1, s =>
    let g := s.seg d i
    if g.running.isSome then segSync d i s
    else match g.pick with
      | none => segSync d i s
      | some (x, rest) =>
        let s1 := s.modSeg d i fun g => { g with queue := rest }
        let fin := fun (st : Nat) (s : State) =>
          let s2 := sbbDone d x st [] s
          segPump d i f (match x.who with | some (.window n k) => winPump n k 9 s2 | _ => s2)
        let bound : Bool := match x.who with
          | some (.window n k) => (match s.winSlot n k with | some sl => s.slotDie sl == d && s.slotChan sl == i | none => false)
          | _ => true
        if x.held ∧ (g.holder ≠ x.who ∨ x.who = none) then fin 9 s1
        else if ¬ s.sbbUp d ∨ bound = false then fin 6 s1
        else if xferProt x.xfer = 11 then fin 0 (s1.modSeg d i fun g => { g with holder := x.who })
        else if xferProt x.xfer = 12 then
          fin 0 (if g.holder = x.who then s1.modSeg d i fun g => { g with holder := none } else s1)
        else segSync d i (sbbState d x.who 3 (s1.modSeg d i fun g => { g with running := some x }))

/-- The bound of one run of a segment's queue. -/
def segFuel : Nat := 4096

/-- A write enters a host window's queue, or is discarded when eight wait (16 R591). -/
def winWrite (n k : Nat) (op : SbbWrite) (s : State) : State :=
  let d := match s.winSlot n k with | some sl => s.slotDie sl | none => pdie (s.up0 s.lead (s.newE s.lead) n)
  if 8 ≤ (s.win n k).queue.length then
    raise (dreg .sbbErr d) SbbErr.OVERRUN ((s.modWin n k fun w => { w with ovr := true }).count (dreg .sbbCnt d) SbbCnt.OVERRUNS 1)
  else
    let s1 := winPump n k 9 (s.modWin n k fun w => { w with queue := w.queue ++ [op] })
    match s.winSlot n k with
    | some sl => segPump (s.slotDie sl) (s.slotChan sl) segFuel s1
    | none => s1

/-- A ticket's XFER is written (16 R594): a ticket that is neither allocated nor done ignores it. -/
def tktSubmit (d t : Nat) (v : Word) (s : State) : State :=
  let r := tktRes d t
  let st := s.fld r SbbTktRes.STATE
  if ¬ (st = 1 ∨ st = 4) ∨ 32 ≤ t then s
  else
    let s1 := (s.setReg { name := .sbbTktXfer, die := d, i := t } v).setFld r SbbTktRes.SEQ ((s.fld r SbbTktRes.SEQ + 1) % 256)
    let sl := xferSlot v
    let done := fun (c : Nat) => ((s1.setFld r SbbTktRes.STATE 4).setFld r SbbTktRes.STATUS c).setFld r SbbTktRes.COUNT 0
    if badXfer v then done 8
    else if s.slotDie sl ≠ d then done 6
    else segPump d (s.slotChan sl) segFuel (sbbQueue d (s.slotChan sl) (.ticket d t) v s1)

/-- The descriptor with a protocol code. -/
def withProt (p : Nat) (v : Word) : Word := setBits v 63 60 p

/-- A transaction is started by a write of XFER: in a host window, or in a ticket (16 R591, R594). -/
def sbbStart (r : SbbReq) (v : Word) (s : State) : State :=
  match r with
  | .window n k => if n < 32 ∧ k < 64 then winWrite n k (.xfer v) s else s
  | .ticket d t => if d < s.dieCount then tktSubmit d t v s else s

/-- SEND_BYTE (16 R587). -/
def execSendByte (r : SbbReq) (v : Word) (s : State) : Host.Outcome State Fault Refusal := .next (sbbStart r (withProt 1 v) s)
/-- RECV_BYTE (16 R587). -/
def execRecvByte (r : SbbReq) (v : Word) (s : State) : Host.Outcome State Fault Refusal := .next (sbbStart r (withProt 2 v) s)
/-- WRITE_BYTE (16 R587). -/
def execWriteByte (r : SbbReq) (v : Word) (s : State) : Host.Outcome State Fault Refusal := .next (sbbStart r (withProt 3 v) s)
/-- READ_BYTE (16 R587). -/
def execReadByte (r : SbbReq) (v : Word) (s : State) : Host.Outcome State Fault Refusal := .next (sbbStart r (withProt 4 v) s)
/-- WRITE_WORD (16 R587). -/
def execWriteWord (r : SbbReq) (v : Word) (s : State) : Host.Outcome State Fault Refusal := .next (sbbStart r (withProt 5 v) s)
/-- READ_WORD (16 R587). -/
def execReadWord (r : SbbReq) (v : Word) (s : State) : Host.Outcome State Fault Refusal := .next (sbbStart r (withProt 6 v) s)
/-- BLOCK_WRITE (16 R587). -/
def execBlockWrite (r : SbbReq) (v : Word) (s : State) : Host.Outcome State Fault Refusal := .next (sbbStart r (withProt 7 v) s)
/-- BLOCK_READ (16 R587). -/
def execBlockRead (r : SbbReq) (v : Word) (s : State) : Host.Outcome State Fault Refusal := .next (sbbStart r (withProt 8 v) s)
/-- I2C_WRITE (16 R587). -/
def execI2cWrite (r : SbbReq) (v : Word) (s : State) : Host.Outcome State Fault Refusal := .next (sbbStart r (withProt 9 v) s)
/-- I2C_READ (16 R587). -/
def execI2cRead (r : SbbReq) (v : Word) (s : State) : Host.Outcome State Fault Refusal := .next (sbbStart r (withProt 10 v) s)

/-- LOCK or UNLOCK: a window's CTL.LOCK, or a ticket's descriptor for the slot of its last one (16 R591, R596). -/
def sbbLock (r : SbbReq) (on : Bool) (s : State) : State :=
  match r with
  | .window n k => if n < 32 ∧ k < 64 then winWrite n k (.lock on) s else s
  | .ticket d t =>
    if d < s.dieCount then
      let v := s.reg { name := .sbbTktXfer, die := d, i := t }
      tktSubmit d t (BitVec.ofNat 64 ((if on then 11 else 12) * 2 ^ 60 + xferSlot v * 2 ^ 48)) s
    else s

/-- LOCK (16 R596). -/
def execLock (r : SbbReq) (s : State) : Host.Outcome State Fault Refusal := .next (sbbLock r true s)

/-- UNLOCK (16 R596). -/
def execUnlock (r : SbbReq) (s : State) : Host.Outcome State Fault Refusal := .next (sbbLock r false s)

/-- The transaction on the wire ends with a status and data; the window's next write and the segment's next transaction
follow (16 R588, R589). -/
def txnEnd (d i status : Nat) (data : List Byte) (s : State) : State :=
  match (s.seg d i).running with
  | none => s
  | some x =>
    let s1 := sbbDone d x status data (s.modSeg d i fun g => { g with running := none })
    let s2 := match x.who with | some (.window n k) => winPump n k 9 s1 | _ => s1
    segPump d i segFuel s2

/-- SMBUS_TRANSACTION_END (16 R589). -/
def execSmbusTransactionEnd (d i status : Nat) (data : List Byte) (s : State) : Host.Outcome State Fault Refusal :=
  .next (if status ≤ 5 ∧ data.length ≤ 32 then txnEnd d i status data s else s)

/-- SMBUS_CLOCK_TIMEOUT (16 R586): TIMEOUT, then bus recovery. -/
def execSmbusClockTimeout (d i : Nat) (s : State) : Host.Outcome State Fault Refusal := .next (txnEnd d i 3 [] s)

/-! ### Reads of a host window -/

/-- RES of a window as a word (16 R588). -/
def WinSt.res (w : WinSt) : Nat := w.state * 2 ^ 60 + w.status * 2 ^ 56 + w.count * 2 ^ 48 + w.seq * 2 ^ 40

/-- Whether a window holds its segment's lock. -/
def State.winLocked (s : State) (n k : Nat) : Bool := s.sbb.seg.any fun x => x.2.holder == some (.window n k)

/-- The register of a window at an offset (16 R593). -/
def State.winRead (s : State) (n k off : Nat) : Word :=
  let w := s.win n k
  if off = 0 then BitVec.ofNat 64 (w.queue.length * 2 ^ 12 + b2n w.ovr * 4 + b2n (s.winLocked n k) * 2)
  else if off = 8 then w.xfer
  else if off = 0x10 then BitVec.ofNat 64 w.res
  else if off = 0x18 then
    (match s.winSlot n k with | some sl => s.reg { name := .sbbSegSig, die := s.slotDie sl, i := s.slotChan sl } | none => 0)
  else if 0x100 ≤ off ∧ off ≤ 0x118 ∧ off % 8 = 0 then w.dbuf.get 0 ((off - 0x100) / 8)
  else 0

/-- HTIME passes for a held read of a window whose writes have not finished: a read of RES shows PENDING (16 R592). -/
def windowHoldExpire (n k off : Nat) (s : State) : State :=
  if (s.win n k).queue.isEmpty then s
  else
    let v := if off = 0x10 then BitVec.ofNat 64 { s.win n k with status := 0xF }.res else s.winRead n k off
    { s with sbb := { s.sbb with replies := s.sbb.replies ++ [(n, k, off, v)] } }

/-- WINDOW_READ_HOLD_EXPIRE (16 R592). -/
def execWindowReadHoldExpire (n k off : Nat) (s : State) : Host.Outcome State Fault Refusal := .next (windowHoldExpire n k off s)

/-! ### Tickets -/

/-- A read of SBB.TALLOC allocates the lowest free ticket, or answers 0xFF (16 R594). -/
def talloc (d : Nat) (s : State) : State :=
  if ¬ d < s.dieCount then s
  else match firstBelow (fun t => s.fld (tktRes d t) SbbTktRes.STATE == 0) 32 with
    | none => s.setFld (dreg .sbbTalloc d) SbbTalloc.TICKET 0xFF
    | some t => (s.setFld (tktRes d t) SbbTktRes.STATE 1).setFld (dreg .sbbTalloc d) SbbTalloc.TICKET t

/-- TALLOC (16 R594). -/
def execTalloc (d : Nat) (s : State) : Host.Outcome State Fault Refusal := .next (talloc d s)

/-- A ticket becomes free. Its transaction is not withdrawn: it runs, or completes on the wire, for nobody (16 R595). -/
def tktFree (d t : Nat) (s : State) : State :=
  let me : Option SbbReq := some (.ticket d t)
  let s1 := s.setFld (tktRes d t) SbbTktRes.STATE 0
  s1.forAll (List.range s.slotsPerDie) fun i => fun u =>
    segSync d i (u.modSeg d i fun g =>
      { g with queue := g.queue.map fun x => if x.who == me then { x with who := none } else x,
               running := g.running.map fun x => if x.who == me then { x with who := none } else x })

/-- A lock that a requester holds on a die is released (16 R596). -/
def dropLock (d : Nat) (who : SbbReq) (s : State) : State :=
  s.forAll (List.range s.slotsPerDie) fun i => fun u =>
    if (u.seg d i).holder = some who then segPump d i segFuel (u.modSeg d i fun g => { g with holder := none }) else u

/-- FREE (16 R594). -/
def execFree (d t : Nat) (s : State) : Host.Outcome State Fault Refusal :=
  .next (if d < s.dieCount ∧ t < 32 ∧ s.fld (tktRes d t) SbbTktRes.STATE ≠ 0 then tktFree d t s else s)

/-- A ticket not submitted, or not freed, within 1 ms is discarded, with the lock it holds (16 R595, R596). -/
def ticketDiscard (d t : Nat) (s : State) : State :=
  let st := s.fld (tktRes d t) SbbTktRes.STATE
  if d < s.dieCount ∧ t < 32 ∧ (st = 1 ∨ st = 4) then
    raise (dreg .sbbErr d) SbbErr.TKTDISC ((dropLock d (.ticket d t) (tktFree d t s)).count (dreg .sbbCnt d) SbbCnt.DISCARDS 1)
  else s

/-- TICKET_DISCARD (16 R595). -/
def execTicketDiscard (d t : Nat) (s : State) : Host.Outcome State Fault Refusal := .next (ticketDiscard d t s)

/-- LTIME passes since the holder's last transaction: the lock is released (16 R596). -/
def lockIdle (d i : Nat) (s : State) : State :=
  let g := s.seg d i
  if g.holder.isSome ∧ g.running.isNone then
    segPump d i segFuel (raise (dreg .sbbErr d) SbbErr.LOCKTO (s.modSeg d i fun g => { g with holder := none }))
  else s

/-- LOCK_IDLE_TIMEOUT (16 R596). -/
def execLockIdleTimeout (d i : Nat) (s : State) : Host.Outcome State Fault Refusal := .next (lockIdle d i s)

/-! ### Resets -/

/-- A management reset: every ticket is discarded without counting and every ticket's lock released (16 R601). -/
def sbbMgmtReset (d : Nat) (s : State) : State :=
  s.forAll (List.range 32) fun t => fun u => dropLock d (.ticket d t) (tktFree d t u)

/-- An FLR of a partition: the queues of its windows are emptied, their locks released, RES shows ABORTED, and the segments go on with what
others have queued (16 R601). -/
def sbbFlr (n : Nat) (s : State) : State :=
  let t := s.forAll (List.range 64) fun k => fun u =>
    let me : SbbReq := .window n k
    let u1 := if (u.win n k).queue.isEmpty then u else u.modWin n k fun w => { w with queue := [], busy := false, state := 4, status := 7 }
    { u1 with sbb := { u1.sbb with seg := u1.sbb.seg.map fun x =>
        (x.1, { x.2 with queue := x.2.queue.filter fun y => y.who != some me,
                         running := x.2.running.map fun y => if y.who == some me then { y with who := none } else y,
                         holder := if x.2.holder == some me then none else x.2.holder }) } }
  t.forAll (t.sbb.seg.map (·.1)) fun y => segPump y.1 y.2 segFuel

/-- The serving die is not ACTIVE: window transactions for its channels end with UNAVAIL and locks on them are lost (16 R601). -/
def sbbDieLost (d : Nat) (s : State) : State :=
  s.forAll (List.range s.slotsPerDie) fun i => fun u =>
    segPump d i segFuel (txnEnd d i 6 [] (u.modSeg d i fun g => { g with holder := none }))

/-! ### Signals -/

/-- A count of changes steps modulo 256. -/
def chg (r : Reg) (f : Field) (s : State) : State := s.setFld r f ((s.fld r f + 1) % 256)

/-- The face whose binding names a slot takes a change of its WAKE# (16 R598, 08 R311). -/
def wakeFace (n : Nat) (on : Bool) (s : State) : State :=
  match s.slotBinding n with
  | none => s
  | some (m, k) =>
    let f := s.bindFace (s.slotDie n) (s.newE (s.slotDie n)) m k
    s.modFace m f fun x => { x with wakeSlots := if on then n :: x.wakeSlots.erase n else x.wakeSlots.erase n }

/-- A poll of WAKE# and CLKREQ# of the channels of a die: each change is counted and sent to its consumers (16 R597, R598). -/
def sidebandPoll (d wake clkreq : Nat) (s : State) : State :=
  if ¬ s.sbbUp d then s
  else s.forAll (List.range s.slotsPerDie) fun i => fun u =>
    let r : Reg := { name := .sbbSegSig, die := d, i := i }
    let g := u.seg d i
    let w := wake.testBit i
    let c := clkreq.testBit i
    let n := d * u.slotsPerDie + i
    let u1 := if w = g.wake then u else
      let t := wakeFace n w (chg r SbbSegSig.WAKECHG (u.setFld r SbbSegSig.WAKE (b2n w)))
      if w then deliverRouted d (640 + 16 * i + 14) 0x3F (noCaseMsg t d (640 + 16 * i + 14) 0xFF) t else t
    let u2 := if c = g.clkreq then u1 else chg r SbbSegSig.CLKCHG (u1.setFld r SbbSegSig.CLKREQ (b2n c))
    u2.modSeg d i fun g => { g with wake := w, clkreq := c }

/-- SIDEBAND_POLL (16 R597). -/
def execSidebandPoll (d wake clkreq : Nat) (s : State) : Host.Outcome State Fault Refusal := .next (sidebandPoll d wake clkreq s)

/-- The bridge reads PRSNT, PERST and PWRBRK of its slots through the Hild path; without a path they keep their last reading
and STALE reads 1 (16 R597). -/
def hildSignalRead (d : Nat) (s : State) : State :=
  if ¬ s.sbbUp d then s
  else s.forAll (List.range s.slotsPerDie) fun i => fun u =>
    let r : Reg := { name := .sbbSegSig, die := d, i := i }
    if ¬ u.hasPath then u.setFld r SbbSegSig.STALE 1
    else
      let n := d * u.slotsPerDie + i
      let a := b2n (u.slotBit n HildStat.PRSNTA)
      let b := b2n (u.slotBit n HildStat.PRSNTB)
      let u1 := if u.fld r SbbSegSig.PRSNTA = a ∧ u.fld r SbbSegSig.PRSNTB = b then u else chg r SbbSegSig.PRSCHG u
      ((((u1.setFld r SbbSegSig.STALE 0).setFld r SbbSegSig.PRSNTA a).setFld r SbbSegSig.PRSNTB b).setFld r SbbSegSig.PERST
        (b2n !(u.slotBit n HildStat.PERSTREL))).setFld r SbbSegSig.PWRBRK (b2n (u.slotBit n HildStat.PWRBRK))

/-- HILD_SIGNAL_READ (16 R597). -/
def execHildSignalRead (d : Nat) (s : State) : Host.Outcome State Fault Refusal := .next (hildSignalRead d s)

/-- The link engine of a port requests CLKREQ# of the bound slot, or ends its request (16 R599). -/
def clkreqRequest (d pp : Nat) (on : Bool) (s : State) : State :=
  let g := gport d pp
  let e := s.newE d
  let n := s.portOwner d e g
  match s.vpOfPort d e n g with
  | none => s
  | some k =>
    match s.bindSlot d e n k with
    | none => s
    | some sl =>
      if s.sbbUp (s.slotDie sl) then
        { s with sbb := { s.sbb with clkOut := if on then sl :: s.sbb.clkOut.erase sl else s.sbb.clkOut.erase sl } }
      else s

/-- CLKREQ_REQUEST (16 R599). -/
def execClkreqRequest (d pp : Nat) (on : Bool) (s : State) : Host.Outcome State Fault Refusal := .next (clkreqRequest d pp on s)

end Sys2Proof.Machine
end

