-- ==== Sys2Proof/Machine/Recorder.lean ====
section
/-! DEFINITION. The Beylu recorder (17): segments and records in the recorder store, triggers and freezing, streaming, anchors,
dumping. -/

namespace Sys2Proof.Machine

/-! ### Parts -/

/-- A die's recorder. -/
def State.recDie (s : State) (d : Nat) : RecDie := s.recd.dies.get {} d

/-- The state with a die's recorder changed. -/
def State.modRec (s : State) (d : Nat) (f : RecDie → RecDie) : State :=
  { s with recd := { s.recd with dies := s.recd.dies.set d (f (s.recd.dies.get {} d)) } }

/-- STATE of a recorder: 0 IDLE, 1 RUNNING, 2 POSTTRIG, 3 FROZEN, 4 REPLAY (17 R625). -/
def State.recState (s : State) (d : Nat) : Nat := s.fld (dreg .recStat d) RecStat.STATE

/-- The address of a segment (17 R610). -/
def segAddr (d seg : Nat) : Nat := recBase d + 4096 * seg

/-- Bytes written at an offset of a segment. -/
def putSeg (d seg off : Nat) (bs : List Byte) (s : State) : State := { s with mem := s.mem.putBytes (segAddr d seg + off) bs }

/-- Whether the engine may take a segment: its REC domain is ON (17 R622). -/
def State.segOn (s : State) (d seg : Nat) : Bool := s.domOn d (65 + seg / 1024)

/-! ### Segments -/

/-- The segment that the engine takes next: one of the store not used yet, or the oldest sealed one that is not frozen
(17 R610). -/
def State.nextSeg (s : State) (d : Nat) : Option Nat :=
  let r := s.recDie d
  match r.skipped.find? (s.segOn d) with
  | some g => some g
  | none =>
    if r.fresh < 2048 ∧ s.segOn d r.fresh then some r.fresh
    else if r.fresh < 1024 ∧ s.segOn d 1024 then some 1024
    else r.sealed.find? fun x => decide (x ∉ r.frozen) && s.segOn d x

/-- The segments left to take (17 R610). -/
def RecDie.left (r : RecDie) : Nat := (2048 - r.fresh) + r.skipped.length + (r.sealed.filter fun x => decide (x ∉ r.frozen)).length

/-- A segment is taken for a channel and owner: zeroed whole, its header begun (17 R610 to R612). Channels other than control
leave at least CRES segments. -/
def takeSeg (d ch owner : Nat) (s : State) : Option (OpenSeg × State) :=
  if ch ≠ 0 ∧ (s.recDie d).left ≤ 8 * s.fld (dreg .recCfg d) RecCfg.CRES then none
  else match s.nextSeg d with
    | none => none
    | some g =>
      let seq := s.fld (dreg .recStat d) RecStat.SEQ
      let s1 := { s with mem := s.mem.clear (segAddr d g) (segAddr d g + 4096) }
      let head := bytesLE 4 0x4245594C ++ bytesLE 4 (ch + d * 2 ^ 8 + owner * 2 ^ 16) ++ bytesLE 8 seq ++ bytesLE 8 (s.meridian d)
        ++ bytesLE 8 (s.meridian d) ++ bytesLE 4 (s.fld partMerstat PartMerstat.WRAPS) ++ bytesLE 4 0
        ++ bytesLE 4 (s.fld (dreg .bootVer d) BootVer.IMGVER)
      let s2 := (putSeg d g 0 head s1).setFld (dreg .recStat d) RecStat.SEQ (seq + 1)
      some ({ seg := g },
        s2.modRec d fun r => { r with fresh := if r.fresh ≤ g ∧ g ∉ r.sealed then g + 1 else r.fresh,
                                      skipped := if r.fresh ≤ g ∧ g ∉ r.sealed then r.skipped ++ (List.range (g - r.fresh)).map (· + r.fresh)
                                        else r.skipped.erase g, sealed := r.sealed.erase g,
                                      openSeg := r.openSeg.set (ch, owner) { seg := g } })

/-- The sink of a die: the upstream port of the face named in REC.SCFG (17 R616). -/
def State.sinkPort (s : State) (d : Nat) : Option Nat :=
  let r := dreg .recScfg d
  let n := s.fld r RecScfg.PART
  if n < 32 then s.upOf d (s.newE d) n (s.fld r RecScfg.FACE) else none

/-- A sealed segment is streamed to the sink, in writes that the sink's port may carry: PART segments and those of the sink's partition
(17 R616). -/
def streamSeg (d seg owner : Nat) (s : State) : State :=
  let c := dreg .recScfg d
  let p : Reg := dreg .recSptr d
  let size := s.fld c RecScfg.SIZE
  let head := s.fld p RecSptr.HEAD
  if s.fld (dreg .recCtl d) RecCtl.STREAM = 0 ∨ s.fld c RecScfg.EN = 0 ∨ s.fld (dreg .recStat d) RecStat.BROKEN = 1
      ∨ (owner ≠ 0x3E ∧ owner ≠ s.fld c RecScfg.PART) then s
  else if size ≤ (head + 2 ^ 32 - s.fld p RecSptr.TAIL) % 2 ^ 32 then
    raise (dreg .recErr d) RecErr.SINKFULL (s.setFld (dreg .recStat d) RecStat.BROKEN 1)
  else match s.sinkPort d with
    | none => raise (dreg .recErr d) RecErr.SINKERR (s.setFld (dreg .recStat d) RecStat.BROKEN 1)
    | some g =>
      let data := s.mem.bytes (segAddr d seg) 4096
      let base := s.fld (dreg .recSink d) RecSink.BASE * 4096 + (head % size) * 4096
      (s.forAll (cutAt (max 4 (Config.maxPayload g)) 1024 0 4096) fun y =>
        originate g { kind := 0, rid := s.endpointId (s.fld c RecScfg.PART) (s.fld c RecScfg.FACE), addr := base + y.1,
                      payload := (data.drop y.1).take y.2, raw := List.replicate 16 0, be := 0xFF }).setFld p RecSptr.HEAD (head + 1)

/-- STATE reads FROZEN, and the segments that are open or sealed are frozen (17 R615). -/
def freezeAll (d : Nat) (s : State) : State :=
  (s.setFld (dreg .recStat d) RecStat.STATE 3).modRec d fun r =>
    { r with frozen := (r.sealed ++ r.openSeg.map fun x => x.2.seg), sealed := r.sealed ++ r.openSeg.map (fun x => x.2.seg), openSeg := [], post := none }

/-- The header of a segment is completed: SEALED and the CRC over bytes 0x00 to 0x2B and the records (17 R612). -/
def closeSeg (d : Nat) (o : OpenSeg) (s : State) : State :=
  let s1 := putSeg d o.seg 7 [BitVec.ofNat 8 (o.flags ||| 8)] s
  putSeg d o.seg 0x2C (bytesLE 4 (crc32 (s1.mem.bytes (segAddr d o.seg) 0x2C ++ s1.mem.bytes (segAddr d o.seg + 64) o.used))) s1

/-- The recorder freezes: every open segment is sealed and streamed, and every sealed one is frozen (17 R615, R616). -/
def freeze (d : Nat) (s : State) : State :=
  freezeAll d (s.forAll (s.recDie d).openSeg fun x => fun t => streamSeg d x.2.seg x.1.2 (closeSeg d x.2 t))

/-- The open segment of a channel is sealed, streamed, and counted after a trigger (17 R610, R615, R616). -/
def sealSeg (d ch owner : Nat) (s : State) : State :=
  match (s.recDie d).openSeg.find (ch, owner) with
  | none => s
  | some o =>
    let s1 := streamSeg d o.seg owner (closeSeg d o s)
    let s2 := s1.modRec d fun r =>
      { r with openSeg := r.openSeg.erase (ch, owner), sealed := r.sealed ++ [o.seg], post := if s1.recState d = 2 then r.post.map fun n => n - 1 else r.post }
    if s2.recState d = 2 ∧ (s2.recDie d).post = some 0 then freeze d s2 else s2

/-! ### Records -/

/-- A record as bytes (17 R613): a 16-byte head, and the body in 16-byte units. AUX bit 31 shows a time-faulted die. -/
def recBytes (s : State) (d : Nat) (r : RecBody) : List Byte :=
  let pad := (16 - r.body.length % 16) % 16
  let body := r.body ++ List.replicate pad 0
  let tf := b2n (decide (d ∈ s.clock.timeFault))
  bytesLE 1 r.typ ++ bytesLE 1 ((16 + body.length) / 16) ++ bytesLE 2 r.src ++ bytesLE 4 (tf * 2 ^ 31 + r.aux % 2 ^ 31)
    ++ bytesLE 8 (s.meridian d) ++ body

/-- A record is written into the open segment of its channel. -/
def writeRec (d ch owner : Nat) (o : OpenSeg) (r : RecBody) (s : State) : State :=
  let bs := recBytes s d r
  let tf := b2n (decide (d ∈ s.clock.timeFault))
  let fl := o.flags ||| tf ||| (if r.typ = 0x30 then 2 else 0) ||| (if r.typ = 0x31 then 4 else 0)
  let s1 := putSeg d o.seg (64 + o.used) bs s
  let s2 := putSeg d o.seg 0x18 (bytesLE 8 (s.meridian d)) (putSeg d o.seg 7 [BitVec.ofNat 8 fl] s1)
  let s3 := putSeg d o.seg 0x24 (bytesLE 2 (o.used + bs.length) ++ bytesLE 2 (o.nrec + 1)) s2
  let o1 : OpenSeg := { o with used := o.used + bs.length, nrec := o.nrec + 1, flags := fl }
  s3.modRec d fun x => { x with openSeg := x.openSeg.set (ch, owner) o1 }

/-- A record finds room in its channel: the open segment, or one newly taken; none when there is no capacity (17 R610).
An open segment whose domain is no longer ON is left as it is (R622). -/
def placeRec (d ch owner : Nat) (r : RecBody) (s : State) : Option State :=
  let need := (recBytes s d r).length
  let go := fun (s : State) =>
    match takeSeg d ch owner s with
    | none => none
    | some (o, s1) => some (writeRec d ch owner o r s1)
  match (s.recDie d).openSeg.find (ch, owner) with
  | some o =>
    if ¬ s.segOn d o.seg then go (s.modRec d fun x => { x with openSeg := x.openSeg.erase (ch, owner), sealed := x.sealed ++ [o.seg] })
    else if o.used + need ≤ 4032 then some (writeRec d ch owner o r s) else go (sealSeg d ch owner s)
  | none => go s

/-- A record is dropped: counted, and a GAP record will precede the channel's next one (17 R610). -/
def dropRec (d ch : Nat) (s : State) : State :=
  let m := s.meridian d
  raise (dreg .recErr d) RecErr.DROP
    ((s.count (dreg .recCnt d) RecCnt.DROPPED 1).modRec d fun r =>
      { r with gap := r.gap.set ch (match r.gap.find ch with | some (n, a, _) => (n + 1, a, m) | none => (1, m, m)) })

/-- A record of the header or payload channel: preceded by a GAP where records were dropped (17 R610). -/
def recData (d ch owner : Nat) (r : RecBody) (s : State) : State :=
  let go := fun (s : State) => (placeRec d ch owner r s).getD (dropRec d ch s)
  match (s.recDie d).gap.find ch with
  | none => go s
  | some (n, a, b) =>
    match placeRec d ch owner { typ := 0x30, src := 0, aux := 0, body := bytesLE 8 ch ++ bytesLE 8 n ++ bytesLE 8 a ++ bytesLE 8 b } s with
    | none => dropRec d ch s
    | some t => go (t.modRec d fun x => { x with gap := x.gap.erase ch })

/-- Control records that waited for capacity are written in order. -/
def drainStaged (d : Nat) : Nat → State → State
  | 0, s => s
  | n + 1, s =>
    match (s.recDie d).staged with
    | [] => s
    | r :: rest =>
      match placeRec d 0 0x3E r s with
      | none => s
      | some t => drainStaged d n (t.modRec d fun x => { x with staged := rest })

/-- A record of the control channel, never dropped (17 R608). -/
def recCtrl (d : Nat) (r : RecBody) (s : State) : State :=
  if s.recState d = 1 ∨ s.recState d = 2 then drainStaged d 513 (s.modRec d fun x => { x with staged := x.staged ++ [r] }) else s

/-- Whether the staging queue of the control channel is full while the recorder records (17 R608, R615). -/
def State.recFull (s : State) (d : Nat) : Bool :=
  (s.recState d == 1 || s.recState d == 2) && decide (512 ≤ (s.recDie d).staged.length)

/-- A hart or a foreign write waits for the control channel, which STALL and STALLS show (17 R608). -/
def recStall (d : Nat) (s : State) : State := raise (dreg .recErr d) RecErr.STALL (s.count (dreg .recCnt d) RecCnt.STALLS 1)

/-- A hart reaches an input that is recorded: while the control channel's staging queue is full it waits there (17 R608). -/
def reachInput (d : Nat) (act : State → State) (s : State) : State :=
  let t := drainStaged d 513 s
  if t.recFull d then recStall d t else act t

/-- The events that the router gave to the recorder become EVT records: class, level, case entry and tag (17 R613). -/
def recDrain (s : State) : State :=
  (s.flt.noted).foldl (fun t m =>
    recCtrl m.die { typ := 0x20, src := m.event, aux := 0, body := bytesLE 8 (m.cls + m.level * 2 ^ 8 + m.entry * 2 ^ 16 + m.tag * 2 ^ 24) } t)
    (s.modFlt fun x => { x with noted := [] })

/-- Whether the sampler of a point records this packet: one in 2^SAMPLE (17 R626). -/
def sampled (d : Nat) (k : Nat × Nat) (sample : Nat) (s : State) : Bool × State :=
  let n := (s.recDie d).seen.get 0 k
  (n % 2 ^ sample == 0, s.modRec d fun r => { r with seen := r.seen.set k (n + 1) })

/-- A header, and where PAY is set a payload, is recorded at a point: 0 ingress, 1 egress of a port, 2 span send, 3 span receive
(17 R606, R613, R626). `tag` is the forwarding tag of 04 R147 or zeros, `mword` the metadata word, `info` the epoch, verdict
code and program slot. -/
def recHdr (d point unit owner : Nat) (tag : List Byte) (info mword : Nat) (raw payload : List Byte) (s : State) : State :=
  if ¬ (s.recState d = 1 ∨ s.recState d = 2) then s
  else
    let sel : Reg := { name := .recSel, die := d, i := unit % 16 }
    let on := if point = 0 then s.fld sel RecSel.IN == 1 else if point = 1 then s.fld sel RecSel.OUT == 1
      else if point = 2 then (s.reg (dreg .recSpsel d)).toNat.testBit unit else (s.reg (dreg .recSpsel d)).toNat.testBit (8 + unit)
    if on then
      let port := decide (point ≤ 1)
      let pick := sampled d (point, unit) (if port then s.fld sel RecSel.SAMPLE else 0) s
      if pick.1 then
        let pad := (16 - raw.length % 16) % 16
        let s1 := recData d 1 0x3E
          { typ := 1, src := point * 2 ^ 14 + unit, aux := 0,
            body := tag ++ bytesLE 8 info ++ bytesLE 8 mword ++ raw ++ List.replicate pad 0 } pick.2
        if port ∧ s.fld sel RecSel.PAY = 1 then
          recData d 2 owner { typ := 2, src := point * 2 ^ 14 + unit, aux := 0, body := tag ++ payload.take (64 * s.fld sel RecSel.PAYMAX) } s1
        else s1
      else pick.2
    else s

/-! ### Sealing, triggers, freezing -/

/-- SEGMENT_SEAL (17 R610). -/
def execSegmentSeal (d ch owner : Nat) (s : State) : Host.Outcome State Fault Refusal := .next (sealSeg d ch owner s)

/-- The recorder trigger event is an edge toward the hart that its route names (17 R614, 19 R652). -/
def triggerEdge (d : Nat) (s : State) : State :=
  let r := s.route d 999
  let s1 := if s.fld r EvtRoute.HEN = 1 then
      let h := s.fld r EvtRoute.HART
      let v := s.fld r EvtRoute.INPUT
      { s with core := { s.core with dies := s.core.dies.upd {} d fun c =>
          { c with hart := c.hart.upd {} h fun x => { x with edges := v :: x.edges.erase v } } } }
    else s
  deliverRouted d 999 0x3F (noCaseMsg s1 d 999 0xFF) s1

/-- A trigger on a die (17 R614, R615): the first in RUNNING starts the post-trigger count, one in POSTTRIG is recorded, one
while FROZEN or IDLE is ignored. -/
def trigger (d matcher tdie : Nat) (s : State) : State :=
  let note := fun (s : State) => recCtrl d { typ := 0x31, src := 0, aux := 0, body := bytesLE 8 matcher ++ bytesLE 8 tdie } s
  let r := dreg .recStat d
  if s.recState d = 1 then
    let n := 8 * s.fld (dreg .recCfg d) RecCfg.POST
    let s1 := ((note s).setFld r RecStat.TDIE tdie).setFld r RecStat.TMATCH matcher
    let s2 := triggerEdge d ((s1.setFld r RecStat.STATE 2).modRec d fun x => { x with post := some n })
    if n = 0 then freeze d s2 else s2
  else if s.recState d = 2 then triggerEdge d (note s)
  else s

/-- Whether an enabled matcher may fire (17 R614, R627): its event has risen, a case of its class has reached its level, or it watches RECTRIG#; the
reserved kinds never fire. The trigger event itself is an edge. -/
def State.mayFire (s : State) (d i : Nat) : Bool :=
  let r : Reg := { name := .recTrig, die := d, i := i }
  decide (i < 8) && s.fld r RecTrig.EN == 1 &&
    (match s.fld r RecTrig.KIND with
     | 0 => s.eventLevel d (s.fld r RecTrig.EVENT) || s.fld r RecTrig.EVENT == 999
     | 1 => s.flt.cases.any fun y => y.1.1 == d && s.fld { name := .fltCase0, die := d, i := y.1.2 } FltCase0.VALID == 1
              && s.fld { name := .fltCase0, die := d, i := y.1.2 } FltCase0.CLASS == s.fld r RecTrig.CLASS
              && decide (s.fld r RecTrig.LEVEL ≤ s.fld { name := .fltCase0, die := d, i := y.1.2 } FltCase0.LEVEL)
     | 2 => true
     | _ => false)

/-- TRIGGER_FIRE (17 R614): an enabled matcher of a die. -/
def execTriggerFire (d i : Nat) (s : State) : Host.Outcome State Fault Refusal := .next (if s.mayFire d i then trigger d i d s else s)

/-- The matcher that a software trigger names: the lowest enabled one, or 0 (17 R614, R627). -/
def State.softMatcher (s : State) (d : Nat) : Nat :=
  (firstBelow (fun i => s.fld { name := .recTrig, die := d, i := i } RecTrig.EN == 1) 8).getD 0

/-- FREEZE (17 R614, R623). -/
def execFreeze (d : Nat) (s : State) : Host.Outcome State Fault Refusal :=
  .next (if d < s.dieCount then trigger d (s.softMatcher d) d s else s)

/-- A falling edge on RECTRIG# fires the matchers that watch it, in ascending order (17 R614, R615; 18 R640). -/
def rectrig (s : State) : State :=
  s.forAll s.activeDies fun d => fun t => t.forAll (List.range 8) fun i => fun u =>
    let r : Reg := { name := .recTrig, die := d, i := i }
    if u.fld r RecTrig.EN = 1 ∧ u.fld r RecTrig.KIND = 2 then trigger d i d u else u

/-- RECTRIG_EDGE (18 R640). -/
def execRectrigEdge (s : State) : Host.Outcome State Fault Refusal := .next (rectrig s)

/-- REMOTE_TRIGGER (17 R614): a trigger that arose on another die. -/
def execRemoteTrigger (d src : Nat) (s : State) : Host.Outcome State Fault Refusal :=
  .next (if d < s.dieCount then trigger d 0xF src s else s)

/-- A write of REC.CTL's stored bits: ARM = 1 records, and after FROZEN releases every frozen segment; ARM = 0 stops
(17 R615, R616, R623). -/
def armWrite (d : Nat) (v : Word) (s : State) : State :=
  let r := dreg .recCtl d
  let st := dreg .recStat d
  let s1 := ((s.setFld r RecCtl.ARM (RecCtl.ARM.of v)).setFld r RecCtl.STREAM (RecCtl.STREAM.of v)).setFld r RecCtl.STOPMISS (RecCtl.STOPMISS.of v)
  if RecCtl.ARM.of v = 1 then
    let s2 := s1.setFld st RecStat.BROKEN 0
    if s.recState d = 3 then (s2.setFld st RecStat.STATE 1).modRec d fun x => { x with frozen := [], post := none }
    else if s.recState d = 0 then (s2.setFld st RecStat.STATE 1).modRec d fun x => { x with post := none }
    else s2
  else if s.recState d = 1 ∨ s.recState d = 2 then s1.setFld st RecStat.STATE 0
  else s1

/-- ARM (17 R615). -/
def execArm (d : Nat) (v : Word) (s : State) : Host.Outcome State Fault Refusal :=
  .next (if d < s.dieCount then armWrite d v s else s)

/-! ### Anchors -/

/-- The numbers of the CSRs that hold a value of their own, beside EVCFG (10 R391). -/
def csrNumbers : List Nat :=
  [0x001, 0x002, 0x003, 0x004, 0x005, 0x006, 0x040, 0x041, 0x042, 0x043, 0x044, 0x045, 0x046, 0x047, 0x048, 0x049]

/-- The value of a CSR after reset (10 R391, R392). -/
def csrReset (n : Nat) : Word :=
  if n = 0x40 then 0x10001 else if n = 0x49 then 0xFFFFFFFFFFFFFFFF else if n = 0x80 then 0x1B001 else 0

/-- The bytes of a hart's checkpoint in an ANCHBEGIN record: pc, ICOUNT, reservation, g1 to g31, the
CSRs, and the stored byte of each EVCFG (10 R399, 17 R617). -/
def Hart.anchorBytes (h : Hart) : List Byte :=
  bytesLE 8 h.pc ++ bytesLE 8 h.icount ++ bytesLE 8 (match h.res with | none => 0 | some a => 2 ^ 63 + a)
    ++ ((List.range 31).map fun k => bytesLE 8 (h.regs.get 0 (k + 1)).toNat).flatten
    ++ (csrNumbers.map fun n => bytesLE 8 (h.csr.get (csrReset n) n).toNat).flatten
    ++ (List.range 256).map fun v => BitVec.ofNat 8 (h.csr.get 0 (0x100 + v)).toNat

/-- The dies' anchor begins: both harts take an anchor checkpoint, and the contents to copy are those of this instant
(17 R617). -/
def anchorStart (s : State) : State :=
  if s.fld (dreg .recCfg s.lead) RecCfg.ANCHOR = 0 then s
  else s.forAll s.activeDies fun d => fun t =>
    let run := decide (t.recState d = 1) || decide (t.recState d = 2)
    if t.fld (dreg .recCtl d) RecCtl.STREAM = 1 ∧ run = true ∧ t.fld (dreg .recStat d) RecStat.ANCH = 0 then
      let c := t.core.dies.get {} d
      let t1 := recData d 3 0x3E
        { typ := 0x40, src := 0, aux := 0, body := (c.hart.get {} 0).anchorBytes ++ (c.hart.get {} 1).anchorBytes } t
      let x := t1.tabDie d
      let snap : AnchorSnap :=
          { sram := t1.mem.filter (fun y => decide (sramBase d ≤ y.1) && decide (y.1 < sramBase d + 0x400000)), newest := x.newest,
            shadow := x.shadow, ptab := t1.xlt.ptab }
      (t1.setFld (dreg .recStat d) RecStat.ANCH 1).modRec d fun r => { r with anchor := some snap }
    else t

/-- ANCHOR_START (17 R617). -/
def execAnchorStart (s : State) : Host.Outcome State Fault Refusal := .next (anchorStart s)

/-- The 64 bytes of a line of a word map. -/
def wordLine (m : FMap Nat Word) (dflt : Nat → Word) (line : Nat) : List Byte :=
  ((List.range 8).map fun k => bytesLE 8 (m.get (dflt (8 * line + k)) (8 * line + k)).toNat).flatten

/-- A line of eight words of a bank, as its views show it (05 R166, R169). -/
def bankLine (dies : Nat) (m : FMap Nat Word) (line : Nat) : List Byte :=
  ((List.range 8).map fun k => bytesLE 8 (bankWord m (8 * line + k) &&& bankMask dies (8 * line + k)).toNat).flatten

/-- ANCHDATA records of `n` lines from a reader, at most 62 lines a record. -/
def anchData (d base n : Nat) (line : Nat → List Byte) (s : State) : State :=
  s.forAll (List.range ((n + 61) / 62)) fun k => fun t =>
    let m := min 62 (n - 62 * k)
    recData d 3 0x3E
      { typ := 0x41, src := 0, aux := 0,
        body := bytesLE 8 (base + 64 * 62 * k) ++ bytesLE 8 m ++ ((List.range m).map fun j => line (62 * k + j)).flatten } t

/-- The copy of an anchor ends: every line of the control SRAM and the table store, with its value at the anchor's instant, and
ANCHEND; with streaming broken the anchor is void, and a recorder that has frozen takes no records (17 R615, R617). -/
def anchorEnd (d : Nat) (s : State) : State :=
  match (s.recDie d).anchor with
  | none => s
  | some a =>
    let s0 := (s.setFld (dreg .recStat d) RecStat.ANCH 0).modRec d fun r => { r with anchor := none }
    if s.fld (dreg .recStat d) RecStat.BROKEN = 1 then raise (dreg .recErr d) RecErr.ANCHFAIL s0
    else if ¬ (s.recState d = 1 ∨ s.recState d = 2) then s0
    else
      let s1 := anchData d (sramBase d) 65536 (fun l => Memory.bytes a.sram (sramBase d + 64 * l) 64) s0
      let s2 := anchData d (dieBase d + 0x20000000) 229376 (bankLine s.dieCount a.shadow) s1
      let s3 := anchData d (dieBase d + 0x21000000) 229376 (bankLine s.dieCount a.newest) s2
      let s4 := anchData d (dieBase d + 0x23000000) 65536 (wordLine a.ptab fun _ => 0) s3
      recData d 3 0x3E { typ := 0x42, src := 0, aux := 0, body := bytesLE 8 589824 ++ bytesLE 8 0 } s4

/-- ANCHOR_END (17 R617). -/
def execAnchorEnd (d : Nat) (s : State) : Host.Outcome State Fault Refusal := .next (anchorEnd d s)

/-! ### The BMC's commands -/

/-- A reply to the BMC. -/
def recReply (cmd d seg : Nat) (bs : List Byte) (s : State) : State :=
  { s with recd := { s.recd with replies := s.recd.replies ++ [(cmd, d, seg, bs)] } }

/-- REC_GET_STAT (17 R618): REC.STAT of each die. -/
def execRecGetStat (s : State) : Host.Outcome State Fault Refusal :=
  .next (s.forAll (List.range s.dieCount) fun d => fun t => recReply 1 d 0 (bytesLE 8 (t.reg (dreg .recStat d)).toNat) t)

/-- REC_GET_SEGMENT (17 R618): 4,096 bytes. -/
def execRecGetSegment (d seg : Nat) (s : State) : Host.Outcome State Fault Refusal :=
  .next (if d < s.dieCount ∧ seg < 2048 then recReply 2 d seg (s.mem.bytes (segAddr d seg) 4096) s else s)

/-- REC_MCTP_FREEZE (17 R618): as a FREEZE write on every die. -/
def execRecMctpFreeze (s : State) : Host.Outcome State Fault Refusal :=
  .next (s.forAll s.activeDies fun d => fun t => trigger d (t.softMatcher d) d t)

/-- REC_MCTP_ARM (17 R618). -/
def execRecMctpArm (s : State) : Host.Outcome State Fault Refusal :=
  .next (s.forAll s.activeDies fun d => fun t => armWrite d (BitVec.ofNat 64 ((t.reg (dreg .recCtl d)).toNat ||| 2 ^ 31)) t)

end Sys2Proof.Machine
end

