-- ==== Sys2Proof/Machine/Lanes.lean ====
section
/-! DEFINITION. Lanes (02): the lane map and its apply, transmitter override, peg verdicts, tests. -/

namespace Sys2Proof.Machine

/-! ### The lane map -/

/-- The staged map of a die. -/
def State.stagedMap (s : State) (d : Nat) : List Nat := (List.range 16).map fun q => (s.reg { name := .laneQmap, die := d, i := q }).toNat

/-- Whether the word of a quad fits the table of 02 R56 beside its neighbours. -/
def quadFits (m : List Nat) (q : Nat) : Bool :=
  let w := m.getD q 0
  let lo := fun (k : Nat) => m.getD k 0 / 256 % 16
  let wd := fun (k : Nat) => m.getD k 0 % 8
  match w % 8 with
  | 0 | 1 | 2 | 5 => true
  | 3 => let a := q / 2 * 2; wd a == 3 && wd (a + 1) == 3 && lo a == lo (a + 1)
  | 4 => let a := q / 4 * 4; (List.range 4).all fun k => wd (a + k) == 4 && lo (a + k) == lo a
  | _ => false

/-- The port of each lane group of a map (02 R53, R56). -/
def laneGroups (m : List Nat) : List Nat :=
  (List.range 16).flatMap fun q =>
    let w := m.getD q 0
    let lo := w / 256 % 16
    match w % 8 with
    | 1 => [lo, w / 4096 % 16]
    | 2 | 5 => [lo]
    | 3 => if q % 2 = 0 then [lo] else []
    | 4 => if q % 4 = 0 then [lo] else []
    | _ => []

/-- The lanes of a port in a map. -/
def mapLanes (m : List Nat) (pp : Nat) : List Nat :=
  let ports := (m.map quadPorts).flatten
  (List.range 64).filter fun ll => ports.getD ll none == some pp

/-- The lowest refusal code that applies to an apply, or 1 (02 R54, R55). -/
def applyStatus (d : Nat) (s : State) : Nat :=
  let m := s.stagedMap d
  let g := laneGroups m
  if (List.range 16).any (fun q => !(quadFits m q)) then 2
  else if g.length ≠ g.eraseDups.length then 3
  else if (List.range 16).any (fun q => s.fld (dom d q).reg PwrDom.LATCHED == 1 &&
      ((quadPorts (s.quad d q)).zip (quadPorts (m.getD q 0))).any (fun p => p.1.isNone && p.2.isSome)) then 4
  else if s.fld (dreg .laneMapctl d) LaneMapctl.BUSY = 1 then 5
  else if s.mode = 0 ∨ s.mode = 7 then 6
  else 1

/-- A lane whose port changes shows nothing of the last training; a test that runs on it goes on (02 R57; DESIGN CHOICE,
log entry 76). -/
def clearLane (d ll : Nat) (s : State) : State :=
  let r := laneStat d ll
  let s1 := (s.setFld r LaneStat.POLINV 0).setFld r LaneStat.REVERSED 0
  if s.laneTests d ll then s1 else s1.setFld r LaneStat.LOCK 0

/-- A map becomes live: ports whose lanes differ go down by the part's own act and retrain, ports that gain lanes enter DETECT
(02 R54, R76; 03 R98). BUSY shows 1 until time next passes (02 R55). DESIGN CHOICE: a test on a lane that the map
assigns goes on, and BUSY ends at the next tick (log entry 76). -/
def makeLive (d : Nat) (m : List Nat) (s : State) : State :=
  let old := (List.range 16).map (s.quad d)
  let differs := fun (pp : Nat) => mapLanes old pp != mapLanes m pp
  let downs := (List.range 16).filter fun pp => differs pp && !(mapLanes old pp).isEmpty
  let s1 := s.forAll downs fun pp => takeDown d pp
  let s2 := s1.modLane fun l =>
    { l with live := m.zipIdx.foldl (fun f x => f.set (d, x.2) x.1) l.live,
             wasMapped := ((List.range 16).filter fun q => (quadPorts (m.getD q 0)).any fun p => p.isSome).map (fun q => (d, q)) ++ l.wasMapped }
  let moved := (List.range 64).filter fun ll => (quadPorts (old.getD (ll / 4) 0)).getD (ll % 4) none != s2.lanePort d ll
  let s3 := s2.forAll moved (clearLane d)
  let s4 := s3.forAll ((List.range 16).filter differs) fun pp => fun t =>
    if (mapLanes m pp).isEmpty then setLinkState d pp 0 t
    else enterDetect d pp true (setLinkState d pp 0 t)
  let r := dreg .laneMapctl d
  let s5 := (s4.setFld r LaneMapctl.CHANGED ((downs.map fun pp => 2 ^ pp).sum)).setFld r LaneMapctl.BUSY
    (b2n ((List.range 16).any differs))
  s5.forAll (List.range 16) fun q => fun t => if (d, q) ∈ t.lane.wasMapped then autoQuadOff d q t else t

/-- APPLY: the staged map is checked, and becomes live where it passes (02 R54). -/
def applyMap (d : Nat) (s : State) : State :=
  if ¬ d < s.dieCount then s
  else
    let c := applyStatus d s
    let s1 := s.setFld (dreg .laneMapctl d) LaneMapctl.STATUS c
    if c = 1 then makeLive d (s.stagedMap d) s1 else s1

/-- APPLY (02 R54). -/
def execApply (d : Nat) (s : State) : Host.Outcome State Fault Refusal := .next (applyMap d s)

/-! ### Transmitter equalization -/

/-- The rate that a lane runs at, or would run at: its trained rate, or the target rate of its live port, at which TRATE 1 to 5 of a Nerov port
act as 6 (03 R103; log entry 16). -/
def State.laneRate (s : State) (d ll : Nat) : Nat :=
  match s.lanePort d ll with
  | none => 0
  | some pp =>
    let r := s.laneRateNow d pp ll
    let t := s.fld (lreg .linkCfg d pp) LinkCfg.TRATE
    if r ≠ 0 then r else if s.isNerov (gport d pp) then max 6 t else t

/-- A write of LANE.TXEQ: with OVR = 1 and coefficients that break 02 R58 the register does not change (02 R59). -/
def txeqWrite (d ll : Nat) (v : Word) (s : State) : State :=
  let r : Reg := { name := .laneTxeq, die := d, i := ll }
  if ¬ (d < s.dieCount ∧ ll < 64) then s
  else if LaneTxeq.OVR.of v = 1 ∧
      ¬ coeffOk (LaneTxeq.CM2.of v) (LaneTxeq.CM1.of v) (LaneTxeq.C0.of v) (LaneTxeq.CP1.of v) (decide (6 ≤ s.laneRate d ll)) then s
  else
    ((((s.setFld r LaneTxeq.OVR (LaneTxeq.OVR.of v)).setFld r LaneTxeq.CM2 (LaneTxeq.CM2.of v)).setFld r LaneTxeq.CM1
      (LaneTxeq.CM1.of v)).setFld r LaneTxeq.C0 (LaneTxeq.C0.of v)).setFld r LaneTxeq.CP1 (LaneTxeq.CP1.of v)

/-- LANE_TXEQ_WRITE (02 R59). -/
def execLaneTxeqWrite (d ll : Nat) (v : Word) (s : State) : Host.Outcome State Fault Refusal := .next (txeqWrite d ll v s)

/-! ### Peg verdicts -/

/-- Whether the verdict field of a lane names a preset 0 to 10 or coefficients that satisfy 02 R58 at the rate of the peg (02 R64). -/
def State.pegFieldOk (s : State) (d pp ll : Nat) : Bool :=
  let r := lanePeg d ll
  if s.fld r LanePeg.VUSE = 1 then
    coeffOk (s.fld r LanePeg.VCM2) (s.fld r LanePeg.VCM1) (s.fld r LanePeg.VC0) (s.fld r LanePeg.VCP1) (decide (6 ≤ (s.link d pp).pegRate))
  else decide (s.fld r LanePeg.VPRESET ≤ 10)

/-- The set that the verdict field of a lane names (02 R64). -/
def State.pegSet (s : State) (d ll : Nat) : List Nat :=
  let r := lanePeg d ll
  if s.fld r LanePeg.VUSE = 1 then [s.fld r LanePeg.VCM2, s.fld r LanePeg.VCM1, s.fld r LanePeg.VC0, s.fld r LanePeg.VCP1]
  else [s.fld r LanePeg.VPRESET]

/-- The waiting instance of a port ends and its peg goes on in a step: the verification of the sets of a verdict, or the refinement (02 R63). -/
def pegGoOn (d pp st : Nat) (s : State) : State :=
  (setPegState d pp st s).forAll (s.lanesOf d pp) fun ll => fun t => t.setFld (lanePeg d ll) LanePeg.TAG 0

/-- A peg verdict is applied on all lanes at once: its sets are requested from the partner (02 R64). -/
def pegApply (d pp : Nat) (s : State) : State :=
  pegGoOn d pp 4 (s.forAll (s.lanesOf d pp) fun ll => fun t =>
    t.modLane fun l => { l with request := l.request.set (d, ll) (t.pegSet d ll) })

/-- A peg verdict (02 R64; 01 R34, R35). -/
def pegVerdict (who : Master) (d : Nat) (v : Word) (s : State) : State :=
  let pp := LanePeggo.PORT.of v
  let tag := LanePeggo.TAG.of v
  let g := gport d pp
  if LanePeggo.GO.of v = 0 ∨ ¬ d < s.dieCount then s
  else if tag ≠ 0 ∧ s.pegWaiting d pp = tag ∧ (s.lanesOf d pp).all (s.pegFieldOk d pp) ∧
      mayAnswer who (s.lane.pegMode.get 0 g) (s.ownerOf g) true then pegApply d pp s
  else if (g, tag) ∈ s.lane.pegExpired then lateVerdict s
  else refuseVerdict d s

/-- PEGGO (02 R64). -/
def execPeggo (who : Master) (d : Nat) (v : Word) (s : State) : Host.Outcome State Fault Refusal := .next (pegVerdict who d v s)

/-- The peg's assist timer expires, or a management reset begins: refinement as in hardware mode (02 R63, 01 R37). -/
def pegExpire (d pp : Nat) (s : State) : State :=
  let tag := s.pegWaiting d pp
  if tag = 0 then s
  else pegGoOn d pp 2 (s.modLane fun l => { l with pegExpired := (gport d pp, tag) :: l.pegExpired })

/-! ### Tests -/

/-- Whether a loopback, generator or checker is permitted on a lane (02 R71). -/
def State.testAllowed (s : State) (d ll : Nat) : Bool :=
  match s.lanePort d ll with
  | some pp => s.diagSelected (gport d pp)
  | none => s.mode != 0 && s.mode != 7

/-- Whether a pattern is valid at a rate code; a lane without a rate takes any (02 R72, log entry 16). -/
def patternOk (pat rate : Nat) : Bool :=
  if pat = 5 ∨ pat = 6 then rate == 0 || decide (6 ≤ rate)
  else if 1 ≤ pat ∧ pat ≤ 4 then decide (rate < 6)
  else true

/-- The counters of a lane. -/
def laneErrcnt (d ll : Nat) : Reg := { name := .laneErrcnt, die := d, i := ll }
def laneBitcnt (d ll : Nat) : Reg := { name := .laneBitcnt, die := d, i := ll }

/-- Both counters clear (02 R73). -/
def clearCounts (d ll : Nat) (s : State) : State := (s.setReg (laneErrcnt d ll) 0).setReg (laneBitcnt d ll) 0

/-- A 64-bit counter that saturates. -/
def addCount (r : Reg) (n : Nat) (s : State) : State := s.setReg r (BitVec.ofNat 64 (satAdd 64 (s.reg r).toNat n))

/-- One inverted generator bit (02 R73, R74). DESIGN CHOICE: a synchronised checker of the lane counts it whatever LOOP is (log entry 76). -/
def injectError (d ll : Nat) (s : State) : State :=
  let r : Reg := { name := .laneTest, die := d, i := ll }
  if s.fld r LaneTest.GEN = 1 ∧ s.fld r LaneTest.CHK = 1 ∧ s.fld r LaneTest.SYNC = 1 then addCount (laneErrcnt d ll) 1 s else s

/-- What a lane under test shows of its pads and receiver (02 R674). -/
def setTestElec (d ll term eidle sig lock : Nat) (s : State) : State :=
  let r := laneStat d ll
  (((s.setFld r LaneStat.TERM term).setFld r LaneStat.EIDLE eidle).setFld r LaneStat.SIGDET sig).setFld r LaneStat.LOCK lock

/-- The last test of a lane ends: the lane is idle again, and an unused quad's domain may go OFF (02 R56, R674). -/
def laneTestEnd (d ll : Nat) (s : State) : State :=
  let r : Reg := { name := .laneTest, die := d, i := ll }
  let s1 := ((((s.setFld r LaneTest.LOOP 0).setFld r LaneTest.GEN 0).setFld r LaneTest.CHK 0).setFld r LaneTest.SYNC 0).setFld r
    LaneTest.STATUS 0
  autoQuadOff d (ll / 4) (setTestElec d ll 0 1 0 0 s1)

/-- A write of LANE.TEST (02 R71 to R74): what the receiver finds is the test's environment. DESIGN CHOICE: a reserved LOOP or PAT code leaves that field
as it is, and a pattern that is not valid for the lane's rate is refused whether the generator or checker is on or not (log entry 76). -/
def laneTest (d ll : Nat) (v : Word) (rx : LaneRx) (s : State) : State :=
  let r : Reg := { name := .laneTest, die := d, i := ll }
  let lp := if LaneTest.LOOP.of v ≤ 3 then LaneTest.LOOP.of v else s.fld r LaneTest.LOOP
  let pat := if LaneTest.PAT.of v ≤ 7 then LaneTest.PAT.of v else s.fld r LaneTest.PAT
  let gen := LaneTest.GEN.of v
  let chk := LaneTest.CHK.of v
  let some1 := decide (lp ≠ 0) || gen == 1 || chk == 1
  let s0 := if LaneTest.CLR.of v = 1 then clearCounts d ll s else s
  if ¬ (d < s.dieCount ∧ ll < 64) then s
  else if some1 = true ∧ ¬ s.testAllowed d ll then s0.setFld r LaneTest.STATUS 2
  else if ¬ patternOk pat (s.laneRate d ll) then s0.setFld r LaneTest.STATUS 3
  else if some1 = false then
    let s1 := s0.setFld r LaneTest.PAT pat
    if s.laneTests d ll then laneTestEnd d ll s1 else s1.setFld r LaneTest.STATUS 0
  else
    let s1 := ((((s0.setFld r LaneTest.LOOP lp).setFld r LaneTest.PAT pat).setFld r LaneTest.GEN gen).setFld r LaneTest.CHK chk).setFld r
      LaneTest.STATUS 1
    let sync := decide (chk = 1) && rx.sync
    let s2 := s1.setFld r LaneTest.SYNC (b2n sync)
    let drives := decide (gen = 1 ∧ lp ≠ 1) || decide (lp = 3)
    let s3 := setTestElec d ll (b2n (decide (lp ≠ 1))) (b2n !drives) (b2n rx.sigdet) (b2n rx.lock) s2
    let s4 := if sync then addCount (laneBitcnt d ll) rx.bits (addCount (laneErrcnt d ll) rx.errors s3) else s3
    if LaneTest.INJECT.of v = 1 then injectError d ll s4 else s4

/-- A checker compares a stretch of at most 64 bits (02 R74): one that is not synchronised locks on to a valid pattern; one that is counts, and
more than 32 errors end its synchronisation. What it finds is a free value (log entry 6). -/
def checkStretch (d ll k : Nat) (s : State) : State :=
  let r : Reg := { name := .laneTest, die := d, i := ll }
  let x := (Config.checker d ll s.now k).toNat
  let bits := min 64 (x % 128)
  let errors := min bits (x / 128 % 128)
  if s.fld r LaneTest.SYNC = 0 then (if x / 2 ^ 14 = 1 then s.setFld r LaneTest.SYNC 1 else s)
  else
    let s1 := addCount (laneBitcnt d ll) bits (addCount (laneErrcnt d ll) errors s)
    if 32 < errors then s1.setFld r LaneTest.SYNC 0 else s1

/-- The lanes of the part whose checker runs. -/
def State.checking (s : State) : List (Nat × Nat) :=
  s.regs.filterMap fun x => if x.1.name = .laneTest ∧ LaneTest.CHK.of x.2 = 1 then some (x.1.die, x.1.i) else none

/-- The running checkers in a tick (02 R74). -/
def checkTick (s : State) : State := s.forAll s.checking fun x => fun t => checkStretch x.1 x.2 1 (checkStretch x.1 x.2 0 t)

/-! ### Margining -/

/-- The steps of a direction: 32 of timing each side, up to 50 % of a unit interval; 64 of voltage each way, up to 0.15 V (02 R75). -/
def marginSteps (dir : Nat) : Nat := if dir < 2 then 32 else 64

/-- Whether a lane may be margined: its link is in L0 at 16.0 GT/s or more and carries data on the lane (02 R75). -/
def State.marginOk (s : State) (d ll : Nat) : Bool :=
  match s.lanePort d ll with
  | some pp => s.linkState d pp == 3 && s.laneRuns d pp ll && decide (4 ≤ s.laneRateNow d pp ll)
  | none => false

/-- A margining request to a lane (02 R75): the sampler is not the data sampler, so nothing else changes. A step that the lane cannot take is
refused. -/
def marginReq (d ll : Nat) (q : MarginReq) (s : State) : State :=
  s.modLane fun l =>
    let m := l.margin.get {} (d, ll)
    let m1 : Margin := match q with
      | .limit n => { m with limit := min 63 n }
      | .clear => { m with errors := 0 }
      | .normal => { limit := m.limit }
      | .step dir n =>
        if s.marginOk d ll ∧ dir < 4 ∧ n ≤ marginSteps dir then { limit := m.limit, status := 1, dir := dir, step := n }
        else { m with status := 3 }
    { l with margin := l.margin.set (d, ll) m1 }

/-- A running step samples; more errors than the limit end it, and so does the end of L0 (02 R75). What the sampler finds is a free value (log
entry 6). -/
def marginTick (s : State) : State :=
  s.modLane fun l =>
    { l with margin := l.margin.map fun x =>
        let m := x.2
        if m.status ≠ 1 then x
        else if s.marginOk x.1.1 x.1.2 = false then (x.1, { limit := m.limit })
        else
          let v := (Config.sampler x.1.1 x.1.2 s.now).toNat
          let m1 := { m with samples := m.samples + v % 256, errors := m.errors + min (v % 256) (v / 256) }
          (x.1, if m1.limit < m1.errors then { m1 with status := 2 } else m1) }

/-- LANE_TEST_WRITE (02 R71, R73). -/
def execLaneTestWrite (d ll : Nat) (v : Word) (rx : LaneRx) (s : State) : Host.Outcome State Fault Refusal := .next (laneTest d ll v rx s)

/-- INJECT (02 R73). -/
def execInject (d ll : Nat) (s : State) : Host.Outcome State Fault Refusal :=
  .next (if d < s.dieCount ∧ ll < 64 then injectError d ll s else s)

/-- CLR (02 R73). -/
def execClr (d ll : Nat) (s : State) : Host.Outcome State Fault Refusal :=
  .next (if d < s.dieCount ∧ ll < 64 then clearCounts d ll s else s)

/-- LANE_TEST_END (02 R71, R56). -/
def execLaneTestEnd (d ll : Nat) (s : State) : Host.Outcome State Fault Refusal :=
  .next (if d < s.dieCount ∧ ll < 64 ∧ s.laneTests d ll then laneTestEnd d ll s else s)

/-! ### DIAGNOSTIC -/

/-- The ports selected for DIAGNOSTIC stop, go down by the part's own act and are held out of DETECT (02 R71). -/
def diagTakeDown (s : State) : State :=
  s.forAll s.activeDies fun d => fun t =>
    let sel := t.fld (dreg .laneDiagsel d) LaneDiagsel.PORTS
    let t1 := t.modLane fun l => { l with selected := l.selected.set d sel }
    t1.forAll ((List.range 16).filter fun pp => sel.testBit pp) fun pp => fun u =>
      setLinkState d pp 0 ((takeDown d pp u).modLink d pp fun l => { l with diagHold := true })

/-- DIAGNOSTIC ends: LOOP, GEN and CHK clear on the lanes of every selected port, and its engine enters DETECT (02 R71). -/
def diagRelease (s : State) : State :=
  s.forAll s.activeDies fun d => fun t =>
    let sel := t.lane.selected.get 0 d
    let t1 := t.forAll ((List.range 16).filter fun pp => sel.testBit pp) fun pp => fun u =>
      let u1 := u.forAll (u.lanesOf d pp) fun ll => fun w => if w.laneTests d ll then laneTestEnd d ll w else w
      enterDetect d pp false (u1.modLink d pp fun l => { l with diagHold := false })
    t1.modLane fun l => { l with selected := l.selected.erase d }

end Sys2Proof.Machine
end

