-- ==== Sys2Proof/Machine/Policing.lean ====
section
/-! DEFINITION. Policing (07 R242 to R261): flow contexts, buckets, colours, red traffic, hold queues, policing exceptions; and
tagging, which gives a packet its place in its stream (04 R145 to R148) and sends it to its egress die (06 R219). -/

namespace Sys2Proof.Machine

/-! ### Flow contexts -/

/-- A flow context of a bank (05 R179). -/
structure FlowCtx where
  valid : Bool
  owner : Nat
  aware : Bool
  red : Nat
  demq : Nat
  csrc : Nat
  cir : Nat
  pir : Nat
  cbs : Nat
  pbs : Nat
  chain : Bool
  nxt : Nat
  deriving DecidableEq, Repr

/-- The bank offset of the flow contexts, and the contexts of each die (05 R170, 04 R136). -/
def flowBase : Nat := 0x600000
def flowsPerDie : Nat := 32768

/-- A flow context from its four words (05 R179). -/
def FlowCtx.ofWords (w : Nat → Word) : FlowCtx :=
  { valid := bitOf (w 0) 63, owner := getBits (w 0) 62 57, aware := bitOf (w 0) 56, red := getBits (w 0) 55 54, demq := getBits (w 0) 53 50,
    csrc := getBits (w 0) 49 48, cir := getBits (w 1) 63 32, pir := getBits (w 1) 31 0, cbs := getBits (w 2) 63 32,
    pbs := getBits (w 2) 31 0, chain := bitOf (w 3) 63, nxt := getBits (w 3) 14 0 }

/-- Word `k` of a flow context in the bank that a die uses for an epoch. -/
def State.flowWord (s : State) (d e n k : Nat) : Word := s.bankAt d e (flowBase + 32 * n + 8 * k)

/-- A flow context by its global number, in the bank that a die uses for an epoch (05 R179). -/
def State.flowCtx (s : State) (d e n : Nat) : FlowCtx := FlowCtx.ofWords (s.flowWord d e n)

/-- The flow context that polices a packet, or its next stage: a packet of the translation fault queue carries a copy (05 R191). -/
def State.flowFor (s : State) (d : Nat) (p : Pkt) (n : Nat) (second : Bool) : FlowCtx :=
  if p.fctx.isEmpty then s.flowCtx d p.epoch n
  else FlowCtx.ofWords fun k => p.fctx.getD (k + (if second then 4 else 0)) 0

/-- Parameters with which a context does not police (07 R248). -/
def FlowCtx.bad (c : FlowCtx) : Bool := c.pir == 0 || decide (c.pir < c.cir) || c.pbs == 0

/-- The flow context that a packet's FLOW names (04 R133). -/
def Pkt.flow? (p : Pkt) : Option Nat := if p.mdata.flow / 2 ^ 18 % 2 = 1 then some (p.mdata.flow % 2 ^ 18) else none

/-! ### Buckets -/

/-- Fixed point: bytes in 1/2^24 (07 R244). -/
def fix : Nat := 2 ^ 24

/-- One bucket after `dt` ns: level and remainder; a full bucket keeps no remainder (07 R244). -/
def refillOne (level rem rate size dt : Nat) : Nat × Nat :=
  let num := rate * dt * fix + rem
  let v := level + num / 8000
  if size * fix ≤ v then (size * fix, 0) else (v, num % 8000)

/-- The nanoseconds elapsed, over the wrap of the meridian (01 R40). -/
def nsSince (now last : Nat) : Nat := (now + 2 ^ 48 - last) % 2 ^ 48

/-- Both buckets of a context refilled (07 R244). -/
def FlowSt.refill (f : FlowSt) (c : FlowCtx) (now : Nat) : FlowSt :=
  let dt := nsSince now f.last
  let a := refillOne f.tc f.remC c.cir c.cbs dt
  let b := refillOne f.tp f.remP c.pir c.pbs dt
  { f with tc := a.1, remC := a.2, tp := b.1, remP := b.2, last := now }

/-- The colour of a length against the levels: 0 green, 1 yellow, 2 red; `pre` is the pre-colour, green for a colour-blind
context (07 R245). -/
def FlowSt.colour (f : FlowSt) (b pre : Nat) : Nat :=
  if pre = 2 ∨ f.tp < b * fix then 2
  else if pre = 1 ∨ f.tc < b * fix then 1
  else 0

/-- The debit of a colour (07 R245). -/
def FlowSt.debit (f : FlowSt) (b col : Nat) : FlowSt :=
  if col = 2 then f
  else if col = 1 then { f with tp := f.tp - b * fix }
  else { f with tp := f.tp - b * fix, tc := f.tc - b * fix }

/-- The pre-colour of a stage (07 R246): `prev` is the colour of the stage before it. A packet that did not arrive on a Nerov
link is green, and code 3 of a Nerov header is green. -/
def preColour (c : FlowCtx) (p : Pkt) (nerov : Bool) (prev : Option Nat) : Nat :=
  if !c.aware then 0
  else if c.csrc = 1 then prev.getD 0
  else if nerov ∧ p.tlp.precolour ≠ 3 then p.tlp.precolour else 0

/-! ### Exceptions -/

/-- An entry of SCH.PXREC. -/
def pxrec (d i : Nat) : Reg := { name := .schPxrec, die := d, i := i }

/-- A red packet is counted (07 R254, R272, R275). -/
def countRed (d n : Nat) (s : State) : State :=
  let s1 := s.modFlow n fun f => { f with reds := satAdd 32 f.reds 1 }
  let f := s.flow n
  if f.xstate = 0 then s1 else s1.count (pxrec d f.xent) SchPxrec.REDS 1

/-- A policing exception instance is raised in a free entry; none when all 64 are in use (07 R259, R261). -/
def raisePx (d n owner : Nat) (s : State) : Option State :=
  match firstBelow (fun i => s.fld (pxrec d i) SchPxrec.VALID == 0) 64 with
  | none => none
  | some i =>
    let mode := s.assist PartAssist.POLICE
    let tag := nextTag 255 (s.sch.pxTag.get 0 d)
    let v := SchPxrec.VALID.place 1 + SchPxrec.TAG.place tag + SchPxrec.FLOW.place (n % flowsPerDie)
    let s1 := (s.setReg (pxrec d i) (BitVec.ofNat 64 v)).modSch fun c =>
      { c with pxTag := c.pxTag.set d tag, pxExpired := c.pxExpired.filter (· != (d, tag)) }
    let s2 := s1.modFlow n fun f => { f with xstate := 1, xact := 0, xent := i, xmode := mode }
    some (deliverVerdict d 993 mode owner s2)

/-- The instance of a context ends: its entry is freed (07 R261, R249). -/
def endPx (n : Nat) (s : State) : State :=
  let f := s.flow n
  if f.xstate = 0 then s
  else (s.setReg (pxrec (n / flowsPerDie) f.xent) 0).modFlow n fun f => { f with xstate := 0, xact := 0, xent := 0, xmode := 0 }

/-- The action of an instance takes force (07 R260). -/
def actPx (n act : Nat) (s : State) : State :=
  let f := s.flow n
  (s.setFld (pxrec (n / flowsPerDie) f.xent) SchPxrec.ACTING 1).modFlow n fun f => { f with xstate := 2, xact := act }

/-- The context whose instance stands in an entry. -/
def State.pxFlow (s : State) (d i : Nat) : Nat := d * flowsPerDie + s.fld (pxrec d i) SchPxrec.FLOW

/-- A policing verdict: the tag names a waiting instance and its master may give it; late when the instance took its action
by expiry (07 R260, R271; 01 R34, R35). -/
def pxVerdict (who : Master) (d tag act : Nat) (s : State) : State :=
  match firstBelow (fun i => s.fld (pxrec d i) SchPxrec.VALID == 1 && s.fld (pxrec d i) SchPxrec.ACTING == 0
      && s.fld (pxrec d i) SchPxrec.TAG == tag) 64 with
  | some i =>
    let n := s.pxFlow d i
    if mayAnswer who (s.flow n).xmode (s.flowCtx d (s.newE d) n).owner true then actPx n act s else refuseVerdict d s
  | none =>
    if (d, tag) ∈ s.sch.pxExpired then lateVerdict s
    else refuseVerdict d s

/-- PXV_RED (07 R260). -/
def execPxvRed (who : Master) (d tag : Nat) (s : State) : Host.Outcome State Fault Refusal := .next (pxVerdict who d tag 0 s)
/-- PXV_HOLD (07 R260). -/
def execPxvHold (who : Master) (d tag : Nat) (s : State) : Host.Outcome State Fault Refusal := .next (pxVerdict who d tag 1 s)
/-- PXV_DEMOTE (07 R260). -/
def execPxvDemote (who : Master) (d tag : Nat) (s : State) : Host.Outcome State Fault Refusal := .next (pxVerdict who d tag 2 s)
/-- PXV_REFUSE (07 R260). -/
def execPxvRefuse (who : Master) (d tag : Nat) (s : State) : Host.Outcome State Fault Refusal := .next (pxVerdict who d tag 3 s)

/-- The assist timer of a policing instance expires, or a management reset begins: ACTION 0 (07 R260, R269). -/
def pxExpire (d i : Nat) (s : State) : State :=
  if s.fld (pxrec d i) SchPxrec.VALID = 1 ∧ s.fld (pxrec d i) SchPxrec.ACTING = 0 then
    (actPx (s.pxFlow d i) 0 s).modSch fun c => { c with pxExpired := (d, s.fld (pxrec d i) SchPxrec.TAG) :: c.pxExpired }
  else s

/-- PX_QUIET_EXPIRE (07 R261). -/
def execPxQuietExpire (flow : Nat) (s : State) : Host.Outcome State Fault Refusal :=
  .next (if (s.flow flow).xstate = 2 then endPx flow s else s)

/-! ### Metering -/

/-- Whether a flow's hold queue is not empty: held packets, and those that policing has held and tagging has not yet queued. -/
def State.holding (s : State) (d n : Nat) : Bool :=
  !(s.flow n).hold.isEmpty ||
    (List.range 16).any fun pp => (s.fret.toTag.get [] (gport d pp)).any fun p => p.hold && p.flow? == some n

/-- The first packet of a newer epoch clips each level to the new sizes (05 R180). -/
def clipFlow (n : Nat) (c : FlowCtx) (e newest : Nat) (s : State) : State :=
  if e = newest ∧ (s.flow n).clipE ≠ e then
    s.modFlow n fun f => { f with tc := min f.tc (c.cbs * fix), tp := min f.tp (c.pbs * fix), clipE := e }
  else s

/-- What policing decides. -/
inductive Policed where
  | pass (p : Pkt)
  | refuse (p : Pkt)
  deriving DecidableEq, Repr

/-- The red action: 0 hold, 1 demote, 2 refuse a non-posted request and hold what else there is (07 R250, R259, R260). -/
def redAction (red xact : Nat) (xstate : Nat) (holdVerdict : Bool) : Nat :=
  let r := if red = 3 then 0 else red
  if holdVerdict then 0
  else if xstate = 1 then 0
  else if xstate = 2 then (if xact = 0 then r else xact - 1)
  else r

/-- A red packet is held, demoted or refused (07 R250 to R252). -/
def redPkt (d n act : Nat) (demq : Nat) (p : Pkt) (s : State) : Policed × State :=
  if act = 1 then (.pass { p with colour := 2, demq := some demq }, s)
  else if act = 2 ∧ p.tlp.cls = 1 then
    (.refuse { p with colour := 2 },
      raiseTied (dreg .schErr d) SchErr.REFUSED (s.refOf p) (s.modFlow n fun f => { f with refused := satAdd 32 f.refused 1 }))
  else (.pass { p with colour := 2, hold := true }, s)

/-- Policing of a packet at forwarding entry on its ingress die (07 R242 to R261). -/
def police (d : Nat) (p : Pkt) (s : State) : Policed × State :=
  match p.flow? with
  | none => (.pass { p with colour := 3 }, s)
  | some n =>
    let c := s.flowFor d p n false
    let err := fun (f : Field) (s : State) => raiseTied (dreg .schErr d) f (s.refOf p) s
    if !c.valid then (.pass { p with colour := 3 }, s)
    else if c.bad then (.pass { p with colour := 3 }, err SchErr.BADFLOW s)
    else
      let s0 := clipFlow n c p.epoch (s.newE d) s
      if s0.holding d n then (.pass { p with colour := 2, hold := true }, countRed d n s0)
      else
        let b := p.tlp.wire
        let now := s0.nsOf d
        let nerov := p.src == .port && s0.isNerov p.iport
        let s1 := s0.modFlow n fun f => f.refill c now
        let k1 := (s1.flow n).colour b (preColour c p nerov none)
        let m := d * flowsPerDie + c.nxt
        let c2 := s1.flowFor d p m true
        let stage2 := c.chain && c2.valid && !c2.bad
        let s2 := if !c.chain then s1
          else if !c2.valid then err SchErr.CHAIN s1
          else if c2.bad then err SchErr.BADFLOW s1
          else
            let t := (clipFlow m c2 p.epoch (s1.newE d) s1).modFlow m fun f => f.refill c2 now
            if c2.chain then err SchErr.CHAIN t else t
        let k2 := if stage2 then (s2.flow m).colour b (preColour c2 p nerov (some k1)) else k1
        if k2 ≠ 2 then
          let s3 := s2.modFlow n fun f => f.debit b k1
          (.pass { p with colour := k2 }, if stage2 then s3.modFlow m fun f => f.debit b k2 else s3)
        else
          let s3 := countRed d n s2
          let f := s3.flow n
          let act := redAction c.red f.xact f.xstate (p.verdict == 2)
          if p.verdict ≠ 2 ∧ f.xstate = 0 ∧ s3.assist PartAssist.POLICE ≠ 0 then
            match raisePx d n c.owner s3 with
            | some s4 => redPkt d n 0 c.demq p s4
            | none => redPkt d n act c.demq p (err SchErr.PXFULL s3)
          else redPkt d n act c.demq p s3

/-! ### Forwarding tags -/

/-- The forwarding tag (04 R147). -/
def Pkt.tagWord (p : Pkt) : Nat :=
  p.epoch * 2 ^ 112 + p.seq * 2 ^ 96 + p.pfence * 2 ^ 80 + p.tlp.cls * 2 ^ 78 + p.tlp.tc * 2 ^ 75 + p.iport % 128 * 2 ^ 68
    + p.egress % 65536 * 2 ^ 52 + p.queue * 2 ^ 48 + p.mdata.flow % 2 ^ 19 * 2 ^ 29 + p.colour * 2 ^ 27 + b2n p.demoted * 2 ^ 26

/-- The metadata word of a packet, as word 1 of FRET.TRAPREC (04 R165). A QUEUE that is not set shows 0. -/
def Meta.word (m : Meta) : Nat :=
  m.egress * 2 ^ 48 + (m.queue.getD 0) * 2 ^ 44 + m.flow * 2 ^ 25 + m.mirror * 2 ^ 23 + m.xctx * 2 ^ 7 + m.noct * 2 ^ 6

/-- PROG of a port's entry in an epoch (05 R172, 04 R121). -/
def State.progOf (s : State) (e g : Nat) : Nat := getBits (s.portWord (pdie g) e g 0) 45 40

/-- Epoch, verdict code and program slot in 8 bytes (17 R613): the epoch lowest, then the code, then the slot. -/
def State.infoWord (s : State) (p : Pkt) : Nat := p.epoch + p.verdict * 2 ^ 16 + s.progOf p.epoch p.iport * 2 ^ 24

/-- A packet is recorded at a point (17 R606, R611, R613): payload segments are owned by the packet's partition. -/
def recPkt (d point unit : Nat) (tagged : Bool) (p : Pkt) (s : State) : State :=
  let m := (s.refOf p).part
  recHdr d point unit (if m < 32 then m else 0x3E) (bytesLE 16 (if tagged then p.tagWord else 0)) (s.infoWord p) p.mdata.word p.tlp.raw
    p.tlp.payload s

/-- PME_TO_Ack goes upstream, the link enters L2, and the endpoint of the face is in D3cold (08 R311). -/
def turnOffDone (n f g : Nat) (s : State) : State :=
  let s1 := s.modFace n f fun x => { x with turnOff := none, dstate := 4 }
  let ack : Tlp := { kind := 10, mcode := 0x1B, mroute := 5, rid := (s.face n f).pbus * 256, raw := List.replicate 12 0 }
  lowPowerEntry (pdie g) (pnum g) 6 0 (originate g ack s1)

/-- A PME_TO_Ack of a device below a face is gathered: with the last one the face's own goes upstream (08 R311). -/
def gatherAck (g : Nat) (s : State) : State :=
  let d := pdie g
  let e := s.newE d
  let n := s.portOwner d e g
  match s.vpOfPort d e n g with
  | none => s
  | some k =>
    let f := s.bindFace d e n k
    match (s.face n f).turnOff, s.upOf d e n f with
    | some l, some u =>
      let s1 := s.modFace n f fun x => { x with turnOff := some (l.erase g) }
      if l.erase g = [] ∧ g ∈ l then turnOffDone n f u s1 else s1
    | _, _ => s

/-- A local target takes a packet in stream order: its tag and its cells go (04 R134, R145). -/
def takeLocal (p : Pkt) (s : State) : State := dropCells (pdie p.iport) p.cells (advance p s)

/-- A virtual port answers a PTM Request with the host's time; the dialogue is stamped with the meridian (08 R287; log entry 80). -/
def ptmRespond (p : Pkt) (s : State) : State :=
  let g := p.iport
  let x := Config.ptmTime g s.now
  originate g { kind := 11, mcode := 0x53, mroute := 4, addr := x.1.toNat, payload := bytesLE 4 x.2.toNat, raw := List.replicate 16 0 }
    (s.modPar fun y => { y with ptm := y.ptm.set g (s.meridian (pdie g)) })

/-- What a message does at the local target that takes it: PME_TO_Ack, and PTM Request at a virtual port (08 R287, R311). -/
def localMsg (p : Pkt) (s : State) : State :=
  if p.tlp.kind ≠ 10 then s
  else if p.tlp.mcode = 0x1B then gatherAck p.iport s
  else if p.tlp.mcode = 0x52 ∧ 0x8080 ≤ p.egress then ptmRespond p s
  else s

/-- A local target takes what waits for it in stream order: a configuration request stays for the control island, anything else is taken at
once (04 R134, R145, R146; 08 R283, R285). -/
def drainLocal (x : Nat) : Nat → State → State
  | 0, s => s
  | n + 1, s =>
    match takeFirst (fun p => !p.tlp.isCfg && s.releasable p) (s.queue x 0) with
    | none => s
    | some (p, rest) =>
      let s1 := takeLocal p (s.modQueue x 0 fun _ => rest)
      drainLocal x n (localMsg p s1)

/-- What waits for a local target goes on. -/
def serveLocal (x : Nat) (s : State) : State := drainLocal x (s.queue x 0).length s

/-- A tagged packet for a local target (04 R134; 08 R283). -/
def placeLocal (p : Pkt) (s : State) : State := serveLocal p.egress (s.modQueue p.egress 0 fun l => l ++ [p])

/-- A tagged packet goes to its egress: into the port's queue on the same die, or over the span with the ingress die keeping
its cells (04 R148, 06 R219). Its cells are seen as it moves (06, audit). -/
def toEgress (p : Pkt) (s0 : State) : State :=
  let d := pdie p.iport
  let e := pdie p.egress
  let s := touchCells d p.cells s0
  if 128 ≤ p.egress then placeLocal p s
  else if e = d then arrive p s
  else if s.active e = false then flushHome p s
  else
    let s1 := s.modBufDie d fun b => { b with spanPending := b.spanPending ++ [p] }
    let x := s1.spanVia d e
    sendCross d p (recPkt d 2 x true p s1)

/-- The tags of a class of a stream that are given and not yet reported released (04 R148). -/
def State.outst (s : State) (p : Pkt) : Nat := (s.streamOf p.stream).outst.get 0 p.tlp.cls

/-- The tag of 04 R145. -/
def giveTag (p : Pkt) (s : State) : Pkt × State :=
  let c := p.tlp.cls
  let m := s.streamOf p.stream
  let n := (m.count.get 0 c + 1) % 65536
  let fence := if c = 0 then n else m.count.get 0 0
  ({ p with seq := n, pfence := fence },
    s.modStream p.stream fun y => { y with count := y.count.set c n, outst := y.outst.upd 0 c (· + 1) })

/-- The egress queue of a packet: QUEUE, or TCQ of the egress port in its epoch, then demotion (07 R251, R262). -/
def fixQueue (p : Pkt) (s : State) : Pkt :=
  let q := match p.mdata.queue with
    | some q => q
    | none => s.tcq (pdie p.iport) p.epoch p.egress p.tlp.tc
  match p.demq with
  | some dq => { p with queue := max q dq, demoted := decide (q < dq) }
  | none => { p with queue := q }

/-! ### Hold queues -/

/-- The head of a hold queue with the copies of the same packet for a port set's members. -/
def takeHeld : List Pkt → List Pkt × List Pkt
  | [] => ([], [])
  | p :: r => (p :: r.takeWhile fun q => decide (q.copy ≠ 0), r.dropWhile fun q => decide (q.copy ≠ 0))

/-- Packets leave a hold queue for their egress queues (07 R255). -/
def sendHeld (ps : List Pkt) (s : State) : State := s.forAll ps fun p => toEgress { p with hold := false }

/-- Whether the levels let a head of length `b` leave (07 R255). -/
def FlowSt.lets (f : FlowSt) (c : FlowCtx) (b : Nat) : Bool := decide (b * fix ≤ f.tp) || decide (c.pbs * fix ≤ f.tp)

/-- The debit of a packet that leaves a hold queue (07 R255). -/
def FlowSt.leave (f : FlowSt) (b : Nat) : FlowSt :=
  { f with tp := f.tp - b * fix, tc := if b * fix ≤ f.tc then f.tc - b * fix else f.tc }

/-- A hold queue releases at most one packet (07 R249, R255 to R257): packets of an ended queue first, without the test; with
the context not valid in the newest epoch, or breaking R248 there, without the test; else when the newest epoch's parameters,
the second stage's included, let the head leave. -/
def holdRelease (n : Nat) (s : State) : State :=
  let d := n / flowsPerDie
  let f := s.flow n
  let e := s.newE d
  let c := s.flowCtx d e n
  if !f.leaving.isEmpty then
    let t := takeHeld f.leaving
    sendHeld t.1 (s.modFlow n fun f => { f with leaving := t.2 })
  else match f.hold with
    | [] => s
    | p :: _ =>
      let t := takeHeld f.hold
      let go := fun (s : State) => sendHeld t.1 (s.modFlow n fun f => { f with hold := t.2 })
      if !c.valid then go s
      else if c.bad then go (raiseTied (dreg .schErr d) SchErr.BADFLOW (s.refOf p) s)
      else
        let b := p.tlp.wire
        let now := s.nsOf d
        let m := d * flowsPerDie + c.nxt
        let c2 := s.flowCtx d e m
        let two := c.chain && c2.valid && !c2.bad
        let s1 := s.modFlow n fun f => f.refill c now
        let s2 := if two then s1.modFlow m fun f => f.refill c2 now else s1
        if (s2.flow n).lets c b ∧ (two = false ∨ (s2.flow m).lets c2 b) then
          let s3 := s2.modFlow n fun f => f.leave b
          go (if two then s3.modFlow m fun f => f.leave b else s3)
        else s2

/-- HOLD_QUEUE_RELEASE (07 R255). -/
def execHoldQueueRelease (flow : Nat) (s : State) : Host.Outcome State Fault Refusal := .next (holdRelease flow s)

/-- HOLD_AGE_EXPIRE (07 R258): nothing is done to the packet. -/
def execHoldAgeExpire (flow : Nat) (s : State) : Host.Outcome State Fault Refusal :=
  .next (match (s.flow flow).hold with
    | [] => s
    | p :: _ => raiseTied (dreg .schErr (flow / flowsPerDie)) SchErr.HOLDAGE (s.refOf p) s)

/-- A die flips to a bank in which a context has become valid, or stopped being so (07 R249, R257): its state starts afresh, and
packets of the ended queue go on leaving. -/
def flowFlip (n : Nat) (was now : FlowCtx) (e : Nat) (s : State) : State :=
  if now.valid ∧ !was.valid then
    (endPx n s).modFlow n fun f =>
      { f with tc := now.cbs * fix, tp := now.pbs * fix, remC := 0, remP := 0, last := s.nsOf (n / flowsPerDie), reds := 0, refused := 0,
               leaving := f.leaving ++ f.hold, hold := [], clipE := e }
  else s

/-! ### Tagging -/

/-- Lane count × rate of a port's link in units of 0.1 GT/s (02 R52, 04 R151). -/
def State.laneSpeed (s : State) (g : Nat) : Nat :=
  s.fld (lreg .linkStat (pdie g) (pnum g)) LinkStat.WIDTH
    * [0, 25, 50, 80, 160, 320, 640, 1280].getD (s.fld (lreg .linkStat (pdie g) (pnum g)) LinkStat.RATE) 0

/-- Whether the part carries a packet cut-through (04 R151): its verdict is FWD and NOCT 0, both PCIe ports of one die enable its
TC, the egress is no faster than the ingress, its flow colours it green, its queue is empty and its stream has nothing
unreleased. -/
def State.cutAllowed (s : State) (p : Pkt) : Bool :=
  let a := p.iport
  let b := p.egress
  p.src == .port && p.verdict == 0 && p.mdata.noct == 0 && pdie a == pdie b && !(s.isNerov a) && !(s.isNerov b) &&
    (s.fld (preg .fretPcfg a) FretPcfg.CTTC).testBit p.tlp.tc && (s.fld (preg .fretPcfg b) FretPcfg.CTTC).testBit p.tlp.tc &&
    decide (s.laneSpeed b ≤ s.laneSpeed a) && !p.parked && (p.colour == 0 || p.colour == 3) && (s.queue b p.queue).isEmpty &&
    (s.streamOf p.stream).outst.all (fun x => x.2 == 0)

/-- A tagged packet joins its flow's hold queue, or goes to its egress (07 R253). -/
def placeTagged (p : Pkt) (s : State) : State :=
  if p.hold then
    match p.flow? with
    | some n => s.modFlow n fun f => { f with hold := f.hold ++ [{ p with time := s.meridian (pdie p.iport) }] }
    | none => toEgress p s
  else toEgress p s

end Sys2Proof.Machine
end

