-- ==== Sys2Proof/Machine/Scheduler.lean ====
section
/-! DEFINITION. Egress scheduling (07 R262 to R266), release (04 R145, R146; 05 R193; 06 R219 to R224), mirror copies as they are
sent (06 R222), latency sampling (07 R267, R268). -/

namespace Sys2Proof.Machine

/-! ### Release conditions -/

/-- Whether the partner can take a packet (07 R264): credits of its class on a PCIe port that is not within a cut-through packet, no XOFF of its
VL and CLASS on a Nerov port. -/
def State.canTake (s : State) (g : Nat) (t : Tlp) : Bool :=
  let l := s.link (pdie g) (pnum g)
  if s.isNerov g then !(l.xoffIn.testBit (3 * t.tc + t.cls))
  else l.replay.all (fun h => h.pkt.tlp.whole) && (match l.crH.find t.cls with | none => true | some n => decide (1 ≤ n)) &&
    (match l.crD.find t.cls with | none => true | some n => decide ((t.len + 15) / 16 ≤ n))

/-! ### Shapers -/

/-- The shaper's register. -/
def qshape (g q : Nat) : Reg := { name := .schQshape, die := pdie g, i := pnum g, j := q }
/-- The class and quantum of a queue. -/
def qcfg (g q : Nat) : Reg := { name := .schQcfg, die := pdie g, i := pnum g, j := q }

/-- The scheduler of a port. -/
def State.schedOf (s : State) (g : Nat) : SchedSt := s.sch.sched.get {} g

/-- The state with a port's scheduler changed. -/
def State.modSched (s : State) (g : Nat) (f : SchedSt → SchedSt) : State :=
  s.modSch fun c => { c with sched := c.sched.set g (f (c.sched.get {} g)) }

/-- A queue's shaper refilled (07 R266, R244). -/
def refillShaper (g : Nat) (s : State) (q : Nat) : State :=
  let rate := s.fld (qshape g q) SchQshape.RATE
  let burst := s.fld (qshape g q) SchQshape.BURST
  let now := s.nsOf (pdie g)
  let x := s.schedOf g
  let num := rate * nsSince now (x.last.get 0 q) * fix + x.rem.get 0 q
  let v := x.level.get 0 q + (num / 8000 : Nat)
  let full := decide ((burst * fix : Nat) ≤ v)
  s.modSched g fun y =>
    { y with last := y.last.set q now, rem := y.rem.set q (if full then 0 else num % 8000),
             level := y.level.set q (if full then (burst * fix : Nat) else v) }

/-- Whether a queue conforms to its shaper; RATE 0 disables it (07 R266). -/
def State.conforms (s : State) (g q : Nat) : Bool :=
  s.fld (qshape g q) SchQshape.RATE == 0 || decide (0 ≤ (s.schedOf g).level.get 0 q)

/-- QSHAPE_WRITE (07 R266, R277): the level becomes BURST. -/
def qshapeWrite (d pp q : Nat) (v : Word) (s : State) : State :=
  let g := gport d pp
  (s.setReg (qshape g q) v).modSched g fun y =>
    { y with level := y.level.set q ((SchQshape.BURST.of v * fix : Nat) : Int), rem := y.rem.set q 0, last := y.last.set q (s.nsOf d) }

/-- QSHAPE_WRITE (07 R266). -/
def execQshapeWrite (d pp q : Nat) (v : Word) (s : State) : Host.Outcome State Fault Refusal :=
  .next (if d < s.dieCount ∧ pp < 16 ∧ q < 16 then qshapeWrite d pp q v s else s)

/-! ### Selection -/

/-- Whether a queue of a port may send (07 R264). -/
def State.eligible (s : State) (g q : Nat) : Bool :=
  match s.queue g q with
  | [] => false
  | p :: _ => s.releasable p && s.conforms g q && s.canTake g p.tlp

/-- The next member of the round-robin group after a queue, cyclically (07 R265). -/
def nextMember (member : Nat → Bool) (q : Nat) : Nat :=
  (((List.range 16).map fun k => (q + 1 + k) % 16).find? member).getD q

/-- The round-robin group's selection (07 R265). `elig`, `len` and `single` describe each queue's head: whether it may be sent, its
length, and whether the queue is empty after it. -/
def groupSelect (member elig : Nat → Bool) (quantum len : Nat → Nat) (single : Nat → Bool) : Nat → SchedSt → Option (Nat × SchedSt)
  | 0, _ => none
  | n + 1, x =>
    let q := x.rr
    let skip := fun (y : SchedSt) =>
      groupSelect member elig quantum len single n { y with visited := y.visited.set q false, rr := nextMember member q }
    if member q ∧ elig q then
      let y := if x.visited.get false q then x
        else { x with deficit := x.deficit.upd 0 q (· + quantum q * 64), visited := x.visited.set q true }
      let df := y.deficit.get 0 q
      if len q ≤ df then
        some (q, if single q then { y with deficit := y.deficit.set q 0, visited := y.visited.set q false, rr := nextMember member q }
          else { y with deficit := y.deficit.set q (df - len q) })
      else skip y
    else skip x

/-- The passes of a selection: each adds a quantum of at least 64 bytes, and no packet is longer than 4,160 bytes. -/
def selectFuel : Nat := 2048

/-- Strict queues in order, with the group at the place of its lowest member (07 R265). -/
def selectQueue (sp elig : Nat → Bool) (quantum len : Nat → Nat) (single : Nat → Bool) (x : SchedSt) : List Nat → Option (Nat × SchedSt)
  | [] => none
  | q :: r =>
    let member := fun k => !(sp k)
    let pos := firstBelow member 16
    if pos = some q ∧ (List.range 16).any (fun k => member k && elig k) then groupSelect member elig quantum len single selectFuel x
    else if sp q ∧ elig q then some (q, x)
    else selectQueue sp elig quantum len single x r

/-! ### Sending -/

/-- A packet as it goes over a Nerov link: its header carries the COLOUR of its tag, green for code 3 (07 R246). -/
def Pkt.withColour (p : Pkt) : Pkt := { p with tlp := { p.tlp with precolour := if p.colour = 3 then 0 else p.colour } }

/-- A packet is given to a port's link: the replay buffer and the credits of a PCIe port, flits of a Nerov link (03 R78, R79, R83;
07 R264). -/
def transmit (g : Nat) (p : Pkt) (s : State) : State :=
  let d := pdie g
  let pp := pnum g
  if s.isNerov g then sendFlits d pp p.withColour s
  else
    let c := p.tlp.cls
    s.modLink d pp fun l =>
      { l with replay := l.replay ++ [{ seq := l.pcieNext, pkt := p }], pcieNext := (l.pcieNext + 1) % 4096,
               crH := (match l.crH.find c with | none => l.crH | some n => l.crH.set c (n - 1)),
               crD := (match l.crD.find c with | none => l.crD | some n => l.crD.set c (n - (p.tlp.len + 15) / 16)) }

/-- A non-posted request sent to a fabric destination awaits its completion (05 R194). -/
def noteFabric (p : Pkt) (s : State) : State :=
  if p.tlp.cls = 1 ∧ p.mdata.egress / 2 ^ 14 = 3 ∧ p.mdata.egress ≠ 0xFFFF then
    s.modFret fun x => { x with fabric := (p.tlp.rid, p.tlp.tag) :: x.fabric }
  else s

/-- The last completion of a request to a fabric destination has come back (05 R194). -/
def fabricBack (t : Tlp) (s : State) : State :=
  if t.cls = 2 ∧ (t.cst ≠ 0 ∨ t.bcnt ≤ t.len) then s.modFret fun x => { x with fabric := x.fabric.erase (t.rid, t.tag) } else s

/-- What the read of a record's cells on a die finds, with its effect (06 R223, R224): a corrected error marks the cell; an uncorrectable
descriptor counts as an uncorrectable word of the header in every record that touches the cell (log entry 79). -/
def readCells (d : Nat) (p : Pkt) (cs : List Nat) (ecc : Ecc) (s : State) : Ecc × State :=
  let lost := fun (t : State) => (Ecc.header, raiseTied (dreg .bufErr d) BufErr.UNCOR (s.refOf p) t)
  if cs.any fun c => (s.cell d c).bad then lost s
  else match ecc with
    | .clean => (.clean, s)
    | .corrected c => (.clean, if c ∈ cs then raise (dreg .bufErr d) BufErr.CORR (s.modCell d c fun y => { y with susp := true }) else s)
    | .payload => (.payload, raiseTied (dreg .bufErr d) BufErr.UNCOR (s.refOf p) s)
    | .header => lost s
    | .descriptor c =>
      if c ∈ cs then
        lost ((s.modCell d c fun y => { y with bad := true, state := 3 }).modBufDie d fun b => { b with openCell := b.openCell.filter fun x => x.2 != c })
      else (.clean, s)

/-- A record that cannot be read is not delivered: a non-posted request receives CA (06 R224). -/
def unreadable (p : Pkt) (s : State) : State :=
  let s1 := answerLost p cplCA s
  if p.tlp.cls = 1 ∧ p.src = .port then raise (tlerr p.iport) FltTlerr.CASENT s1 else s1

/-- The packet as it is sent: poisoned where its payload has an uncorrectable word (06 R224). -/
def Pkt.poisoned (p : Pkt) (ecc : Ecc) : Pkt := if ecc = .payload then { p with tlp := { p.tlp with ep := 1 } } else p

/-- A packet is released at its egress port (04 R145; 06 R219, R220, R223, R224): what the read of its cells finds decides whether it
is sent as it is, poisoned, or not at all; its tag is released in each case. -/
def releasePkt (g : Nat) (p : Pkt) (ecc : Ecc) (s : State) : State :=
  let d := pdie g
  let r := readCells d p (p.cellsOn d) ecc s
  let sent := p.poisoned r.1
  let s2 := if r.1 = .header then unreadable p r.2
    else noteFabric p (transmit g sent (recPkt d 1 g true sent (mirrorEgress sent r.2)))
  let s3 := releaseHeld d p s2
  if p.src = .part then s3
  else
    let s4 := advance p s3
    if pdie p.iport = d then dmaReleased p s4 else s4

/-! ### Mirror copies -/

/-- The double words of a number, most significant first, each as its four bytes in address order (06 R222). -/
def dwBytes (ws : List Nat) : List Byte := (ws.map fun w => bytesLE 4 w).flatten

/-- The message that carries a mirror copy (06 R222): the places of the message code, the target ID and the vendor ID in the header are those of
the PCI Express Base Specification (log entry 12). -/
def mirrorTlp (s : State) (d a : Nat) (m : Mirror) : Tlp :=
  let r := m.pkt.tlp.record
  let g := gport d (s.fld (mircfg d a) BufMircfg.PORT)
  let lim := min (min m.pkt.tlp.wire (if m.trunc = 0 then m.pkt.tlp.wire else 64 * m.trunc)) (Config.maxPayload g - 16) / 4 * 4
  let carried := r.take lim
  let dw2 := b2n m.egressDir * 2 ^ 31 + b2n (decide (carried.length < r.length)) * 2 ^ 30 + b2n m.refused * 2 ^ 29 + b2n m.flow * 2 ^ 28
    + m.port * 2 ^ 21 + m.pkt.epoch
  let dw3 := m.pkt.tlp.wire * 2 ^ 16 + carried.length
  { kind := 11, mcode := 0x7F, mroute := 2, tid := s.fld (mircfg d a) BufMircfg.TID,
    raw := List.replicate 7 0 ++ [0x7F] ++ bytesBE 2 (s.fld (mircfg d a) BufMircfg.TID) ++ bytesBE 2 0x1FB7
      ++ bytesBE 4 (2 ^ 24 + d * 2 ^ 16 + a * 2 ^ 8),
    payload := dwBytes [m.time / 2 ^ 32, m.time % 2 ^ 32, dw2, dw3] ++ carried, flit := 1 }

/-- The analysis port of a die that a port serves, with a copy waiting. -/
def State.mirrorOf (s : State) (d pp : Nat) : Option (Nat × Mirror) :=
  (List.range 4).findSome? fun a =>
    if s.fld (mircfg d a) BufMircfg.PORT = pp then ((s.bufDie d).mirrors.get [] a).head?.map fun m => (a, m) else none

/-- The mirror queue's head is sent when no queue may send (06 R221, R222), or dropped where its cells cannot be read (06 R224). -/
def sendMirror (d pp : Nat) (ecc : Ecc) (s : State) : State :=
  match s.mirrorOf d pp with
  | none => s
  | some (a, m) =>
    let t := mirrorTlp s d a m
    if s.canTake (gport d pp) t then
      let r := readCells d m.pkt m.cells ecc (s.modBufDie d fun b => { b with mirrors := b.mirrors.set a ((b.mirrors.get [] a).drop 1) })
      if r.1 = .header then dropMirror d a m r.2
      else
        dropCells d m.cells (transmit (gport d pp)
            (({ tlp := t, src := .part, iport := gport d pp, egress := gport d pp } : Pkt).poisoned r.1) r.2)
          |>.count { name := .bufMircnt, die := d, i := a } BufMircnt.SENT 1
    else s

/-- One selection of a port's scheduler (07 R264 to R266): refill, then the test, then the debit. -/
def schedulerSelect (d pp : Nat) (ecc : Ecc) (s : State) : State :=
  let g := gport d pp
  if s.linkState d pp ≠ 3 then s
  else
    let s1 := (List.range 16).foldl (refillShaper g) s
    let head := fun q => (s1.queue g q).headD {}
    let sp := fun q => s1.fld (qcfg g q) SchQcfg.SP == 1
    match selectQueue sp (s1.eligible g) (fun q => s1.fld (qcfg g q) SchQcfg.QUANTUM) (fun q => (head q).tlp.wire)
        (fun q => decide ((s1.queue g q).length = 1)) (s1.schedOf g) (List.range 16) with
    | none => sendMirror d pp ecc s1
    | some (q, x) =>
      let p := head q
      let s2 := (s1.modSched g fun _ => x).modQueue g q fun l => l.drop 1
      let s3 := if s2.fld (qshape g q) SchQshape.RATE = 0 then s2
        else s2.modSched g fun y => { y with level := y.level.set q (y.level.get 0 q - (p.tlp.wire * fix : Nat)) }
      releasePkt g p ecc s3

/-- SCHEDULER_SELECT (07 R265). -/
def execSchedulerSelect (d pp : Nat) (ecc : Ecc) (s : State) : Host.Outcome State Fault Refusal := .next (schedulerSelect d pp ecc s)

/-! ### Records that cross the span -/

/-- Whether two packets carry one tag (04 R147). -/
def Pkt.sameTag (p q : Pkt) : Bool := p.src != .part && q.src != .part && p.stream == q.stream && p.tlp.cls == q.tlp.cls && p.seq == q.seq

/-- Whether a tag has been released, or flushed before its turn (04 R145, R148). -/
def State.tagGone (s : State) (p : Pkt) : Bool :=
  let m := s.streamOf p.stream
  p.src != .part && (m.released p.tlp.cls p.seq || decide (p.seq ∈ m.goneOf p.tlp.cls))

/-- Whether the egress die already holds a tag, in a queue or waiting for its flip, or has released it (04 R148; 05 R185). -/
def State.hasTag (s : State) (p : Pkt) : Bool :=
  s.tagGone p || ((List.range 16).any fun q => (s.queue p.egress q).any p.sameTag) ||
    (s.bufDie (pdie p.egress)).spanWait.any fun x => p.sameTag x.2

/-- A record is written into TRANSIT cells and queued at its egress, or sent on along a two-hop path (06 R219). A record that finds no
cell is not taken: its flits stay with the sender. -/
def takeRecord (d e : Nat) (p : Pkt) (hint : Nat) (s : State) : State :=
  match storeRecord d (.span d e p.tlp.tc p.tlp.cls) hint p.tlp s with
  | none => s
  | some (cs, s1) =>
    let q : Pkt := { p with tcells := cs }
    let s2 := recPkt d 3 e true q (consumeFlits d (16 + e) p.tlp.tc p.tlp.cls p.tlp.wire s1)
    let s2 := updateXoff d (16 + e) s2
    if pdie p.egress = d then arrive q (settleCells d cs s2)
    else sendFlits d (16 + pdie p.egress) q (s2.modBufDie d fun b => { b with transit := b.transit ++ [q] })

/-- A cross-die packet whose record could not be read on the way leaves its place in the stream (06 R224). -/
def lostCross (p : Pkt) (s : State) : State :=
  let h := pdie p.iport
  match takeFirst p.sameTag (s.bufDie h).spanPending with
  | none => s
  | some (q, rest) => dmaReleased q (retireTag q (dropCells h q.cells (unreadable q (s.modBufDie h fun b => { b with spanPending := rest }))))

/-- A cross-die record arrives (04 R148; 05 R185; 06 R219, R223, R224): what the sending die found in its cells decides whether it comes as it
is, poisoned, or not at all; a copy of a tag that the egress die has is discarded; a record of an epoch to which an out-of-step die has not
flipped waits. -/
def spanRecord (d e : Nat) (p : Pkt) (hint : Nat) (ecc : Ecc) (s : State) : State :=
  if s.active d = true ∧ s.active e = true ∧ d ≠ e ∧ (p.src = .part ∨ s.active (pdie p.iport) = true) then
    let r := readCells e p (p.cellsOn e) ecc s
    if r.1 = .header then (if s.hasTag p then r.2 else lostCross p r.2)
    else
      let q := p.poisoned r.1
      if pdie p.egress = d ∧ s.hasTag p = true then r.2
      else if pdie p.egress = d ∧ s.dieState d = 4 ∧ olderEpoch (s.newE d) p.epoch = true then
        r.2.modBufDie d fun b => { b with spanWait := b.spanWait ++ [(e, q)] }
      else takeRecord d e q hint r.2
  else s

/-- SPAN_RECORD_RECEIVE (06 R219). -/
def execSpanRecordReceive (d e : Nat) (p : Pkt) (hint : Nat) (ecc : Ecc) (s : State) : Host.Outcome State Fault Refusal :=
  .next (spanRecord d e p hint ecc s)

/-- The egress die reports a tag that it has released: the ingress die drops its span-pending reference (04 R148, 06 R219). -/
def releaseReport (d iport egress tc cls seq : Nat) (s : State) : State :=
  match takeFirst (fun p => p.stream == (iport, egress, tc) && p.tlp.cls == cls && p.seq == seq && s.tagGone p) (s.bufDie d).spanPending with
  | none => s
  | some (p, rest) => dmaReleased p (dropCells d p.cells (reportTag p (s.modBufDie d fun b => { b with spanPending := rest })))

/-- SPAN_RELEASE_REPORT (06 R219). -/
def execSpanReleaseReport (d iport egress tc cls seq : Nat) (s : State) : Host.Outcome State Fault Refusal :=
  .next (releaseReport d iport egress tc cls seq s)

/-! ### Latency sampling -/

/-- The depth of a queue in units of 64 bytes (07 R267). -/
def State.depth (s : State) (g q : Nat) : Nat := (((s.queue g q).map fun p => p.tlp.wire).sum + 63) / 64

/-- The bin of a value (07 R267). -/
def histBin (scale v : Nat) : Nat := if v < 2 ^ scale then 0 else min 15 (Nat.log2 v - scale + 1)

/-- A histogram counter goes up by one, saturating. -/
def bump (g q k b : Nat) (s : State) : State :=
  s.modSch fun c => { c with hist := c.hist.upd 0 (g, q, k, b) fun n => satAdd 32 n 1 }

/-- One tick of a port (07 R267). -/
def histTick (d pp : Nat) (s : State) : State :=
  let g := gport d pp
  let r := preg .schHcfg g
  if s.fld r SchHcfg.EN = 0 then s
  else s.forAll (List.range 16) fun q => fun t =>
    let depth := t.depth g q
    let delay := match t.queue g q with
      | [] => 0
      | p :: _ => ((t.meridian d + 2 ^ 64 - p.time) % 2 ^ 64) / 65536
    let u := bump g q 1 (histBin (t.fld r SchHcfg.DSCALE) delay) (bump g q 0 (histBin (t.fld r SchHcfg.ZSCALE) depth) t)
    u.modSch fun c => { c with maxDepth := c.maxDepth.set (g, q) (max (c.maxDepth.get 0 (g, q)) (min depth (2 ^ 24 - 1))) }

/-- HIST_TICK (07 R267). -/
def execHistTick (d pp : Nat) (s : State) : Host.Outcome State Fault Refusal := .next (histTick d pp s)

/-- A snapshot (07 R268, R280): the live counters and MAXDEPTH go to the read set and are cleared. -/
def snap (d pp : Nat) (s : State) : State :=
  let g := gport d pp
  let s1 := s.forAll (List.range 16) fun q => fun t => t.forAll (List.range 32) fun kb => fun u =>
    u.setReg { name := .schHist, die := d, i := pp, j := q, k := kb } (BitVec.ofNat 64 (s.sch.hist.get 0 (g, q, kb / 16, kb % 16)))
  let s2 := s1.modSch fun c =>
    { c with hist := c.hist.filter fun x => x.1.1 != g,
             maxRead := (List.range 16).foldl (fun m q => m.set (g, q) (c.maxDepth.get 0 (g, q))) c.maxRead,
             maxDepth := c.maxDepth.filter fun x => x.1.1 != g }
  s2.setFld (preg .schHctl g) SchHctl.SNAPSEQ ((s2.fld (preg .schHctl g) SchHctl.SNAPSEQ + 1) % 65536)

/-- SNAP (07 R268). -/
def execSnap (d pp : Nat) (s : State) : Host.Outcome State Fault Refusal :=
  .next (if d < s.dieCount ∧ pp < 16 then snap d pp s else s)

end Sys2Proof.Machine
end

