-- ==== Sys2Proof/Machine/Operands.lean ====
section
/-! DEFINITION. The operand forms and operations of the Puven base subset, shared by fret courses and harts (04 R123 to R125, 10
R370): register reads and writes, the computations, the branches, and the decoder and rules of fret programs (04 R123, R144). -/

namespace Sys2Proof.Machine

/-! ### Registers -/

/-- A general register; g0 reads as zero (04 R124, 10 R371). -/
def rget (regs : FMap Nat Word) (i : Nat) : Word := if i % 32 = 0 then 0 else regs.get 0 (i % 32)

/-- A general register written; writes of g0 are discarded (04 R124, 10 R371). -/
def rset (regs : FMap Nat Word) (i : Nat) (v : Word) : FMap Nat Word := if i % 32 = 0 then regs else regs.set (i % 32) v

/-- A number of 16 bits sign-extended to a word. -/
def sext16 (n : Nat) : Word := (BitVec.ofNat 16 n).signExtend 64

/-- A number of 16 bits zero-extended to a word. -/
def zext16 (n : Nat) : Word := BitVec.ofNat 64 (n % 65536)

/-! ### Computations (04 R125) -/

/-- The register-register operations. -/
inductive AluOp where
  | add | sub | and | or | xor | sll | srl | sra | slt | sltu | min | minu | max | maxu
  deriving DecidableEq, Repr

/-- The low six bits of a shift amount (04 R124). -/
def shamt (b : Word) : Nat := b.toNat % 64

/-- A comparison's result as a word. -/
def flagWord (b : Bool) : Word := if b then 1 else 0

/-- What a register-register operation computes. -/
def AluOp.eval : AluOp → Word → Word → Word
  | .add, a, b => a + b
  | .sub, a, b => a - b
  | .and, a, b => a &&& b
  | .or, a, b => a ||| b
  | .xor, a, b => a ^^^ b
  | .sll, a, b => a <<< shamt b
  | .srl, a, b => a >>> shamt b
  | .sra, a, b => a.sshiftRight (shamt b)
  | .slt, a, b => flagWord (a.slt b)
  | .sltu, a, b => flagWord (a.ult b)
  | .min, a, b => if a.slt b then a else b
  | .minu, a, b => if a.ult b then a else b
  | .max, a, b => if a.slt b then b else a
  | .maxu, a, b => if a.ult b then b else a

/-- The counts of zero and of set bits. -/
inductive CntOp where
  | clz | ctz | popc
  deriving DecidableEq, Repr

/-- What a count computes: 64 where no bit is set for CLZ and CTZ. -/
def CntOp.eval : CntOp → Word → Word
  | .clz, a => BitVec.ofNat 64 (((List.range 64).find? fun i => a.getLsbD (63 - i)).getD 64)
  | .ctz, a => BitVec.ofNat 64 (((List.range 64).find? fun i => a.getLsbD i).getD 64)
  | .popc, a => BitVec.ofNat 64 (((List.range 64).filter fun i => a.getLsbD i).length)

/-- The register-immediate operations. -/
inductive ImmOp where
  | addi | andi | ori | xori | slli | srli | srai | slti | sltui
  deriving DecidableEq, Repr

/-- What a register-immediate operation computes (04 R124): ADDI, SLTI and SLTUI extend the sign. -/
def ImmOp.eval : ImmOp → Word → Nat → Word
  | .addi, a, n => a + sext16 n
  | .andi, a, n => a &&& zext16 n
  | .ori, a, n => a ||| zext16 n
  | .xori, a, n => a ^^^ zext16 n
  | .slli, a, n => a <<< (n % 64)
  | .srli, a, n => a >>> (n % 64)
  | .srai, a, n => a.sshiftRight (n % 64)
  | .slti, a, n => flagWord (a.slt (sext16 n))
  | .sltui, a, n => flagWord (a.ult (sext16 n))

/-- LUI: the sign-extended immediate in bits [63:16] (04 R124). -/
def luiWord (n : Nat) : Word := sext16 n <<< 16

/-- The position and the length that EXTU and INSU name. -/
def bitPos (imm : Nat) : Nat := imm % 64
def bitLen (imm : Nat) : Nat := imm / 64 % 64 + 1

/-- EXTU: bits above 63 read as 0. -/
def extuWord (a : Word) (imm : Nat) : Word := BitVec.ofNat 64 (a.toNat / 2 ^ bitPos imm % 2 ^ bitLen imm)

/-- INSU: bits above 63 are not written. -/
def insuWord (old a : Word) (imm : Nat) : Word :=
  let m : Word := BitVec.ofNat 64 ((2 ^ bitLen imm - 1) * 2 ^ bitPos imm)
  (old &&& ~~~m) ||| (BitVec.ofNat 64 (a.toNat % 2 ^ bitLen imm * 2 ^ bitPos imm) &&& m)

/-- The conditional branches. -/
inductive BrOp where
  | beq | bne | blt | bge | bltu | bgeu
  deriving DecidableEq, Repr

/-- Whether a branch is taken. -/
def BrOp.taken : BrOp → Word → Word → Bool
  | .beq, a, b => a == b
  | .bne, a, b => a != b
  | .blt, a, b => a.slt b
  | .bge, a, b => !(a.slt b)
  | .bltu, a, b => a.ult b
  | .bgeu, a, b => !(a.ult b)

/-! ### Instructions of fret programs -/

/-- An instruction of a fret program: the base subset of 04 R125, which harts execute too, and the fret-only instructions. -/
inductive FOp where
  | alu (o : AluOp) (rd ra rb : Nat)
  | cmov (nz : Bool) (rd ra rb : Nat)
  | cnt (o : CntOp) (rd ra : Nat)
  | imm (o : ImmOp) (rd ra n : Nat)
  | lui (rd n : Nat)
  | extu (rd ra n : Nat)
  | insu (rd ra n : Nat)
  | br (o : BrOp) (ra rb off : Nat)
  | jmp (off : Nat)
  | btst (on : Bool) (ra bit off : Nat)
  | hxf (rd sel : Nat)
  | hxb (rd n : Nat)
  | lk (rd ra rb handle : Nat)
  | lkf (rd ra : Nat)
  | mset (field ra : Nat)
  | mseti (field n : Nat)
  | v (code n : Nat)
  deriving DecidableEq, Repr

/-- What an instruction of the base subset does to the general registers, and the offset of a branch that it takes. A fret-only
instruction does neither here. -/
def FOp.base (o : FOp) (r : FMap Nat Word) : FMap Nat Word × Option Nat :=
  match o with
  | .alu f rd ra rb => (rset r rd (f.eval (rget r ra) (rget r rb)), none)
  | .cmov nz rd ra rb => (if (rget r rb != 0) = nz then rset r rd (rget r ra) else r, none)
  | .cnt f rd ra => (rset r rd (f.eval (rget r ra)), none)
  | .imm f rd ra n => (rset r rd (f.eval (rget r ra) n), none)
  | .lui rd n => (rset r rd (luiWord n), none)
  | .extu rd ra n => (rset r rd (extuWord (rget r ra) n), none)
  | .insu rd ra n => (rset r rd (insuWord (rget r rd) (rget r ra) n), none)
  | .br f ra rb off => (r, if f.taken (rget r ra) (rget r rb) then some off else none)
  | .jmp off => (r, some off)
  | .btst on ra bit off => (r, if bitOf (rget r ra) (bit % 64) = on then some off else none)
  | _ => (r, none)

/-! ### The decoder of fret programs -/

/-- The register-register operation of a function code (04 R125). -/
def aluOf (fn rd ra rb : Nat) : Option FOp :=
  match fn with
  | 0x000 => some (.alu .add rd ra rb)
  | 0x001 => some (.alu .sub rd ra rb)
  | 0x002 => some (.alu .and rd ra rb)
  | 0x003 => some (.alu .or rd ra rb)
  | 0x004 => some (.alu .xor rd ra rb)
  | 0x005 => some (.alu .sll rd ra rb)
  | 0x006 => some (.alu .srl rd ra rb)
  | 0x007 => some (.alu .sra rd ra rb)
  | 0x008 => some (.alu .slt rd ra rb)
  | 0x009 => some (.alu .sltu rd ra rb)
  | 0x00A => some (.alu .min rd ra rb)
  | 0x00B => some (.alu .minu rd ra rb)
  | 0x00C => some (.alu .max rd ra rb)
  | 0x00D => some (.alu .maxu rd ra rb)
  | 0x00E => some (.cmov false rd ra rb)
  | 0x00F => some (.cmov true rd ra rb)
  | 0x010 => if rb = 0 then some (.cnt .clz rd ra) else none
  | 0x011 => if rb = 0 then some (.cnt .ctz rd ra) else none
  | 0x012 => if rb = 0 then some (.cnt .popc rd ra) else none
  | _ => none

/-- The instruction that a word spells in a fret program (04 R123, R125 to R135): fields that must be 0 are 0, selectors,
metadata fields and verdict codes are defined, and HXB stays within 64 bytes (rule 3 of R144). -/
def fretDecode (w : Nat) : Option FOp :=
  let op := w % 64
  let rd := w / 2 ^ 6 % 32
  let ra := w / 2 ^ 11 % 32
  let n := w / 2 ^ 16 % 65536
  let fn := w / 2 ^ 21 % 2048
  let rb := w / 2 ^ 16 % 32
  let bit := w / 2 ^ 11 % 64
  let boff := w / 2 ^ 17 % 32768
  match op with
  | 0x01 => aluOf fn rd ra rb
  | 0x04 => some (.imm .addi rd ra n)
  | 0x05 => some (.imm .andi rd ra n)
  | 0x06 => some (.imm .ori rd ra n)
  | 0x07 => some (.imm .xori rd ra n)
  | 0x08 => some (.imm .slli rd ra n)
  | 0x09 => some (.imm .srli rd ra n)
  | 0x0A => some (.imm .srai rd ra n)
  | 0x0B => some (.imm .slti rd ra n)
  | 0x0C => some (.imm .sltui rd ra n)
  | 0x0D => if ra = 0 then some (.lui rd n) else none
  | 0x0E => some (.extu rd ra n)
  | 0x0F => some (.insu rd ra n)
  | 0x10 => some (.br .beq rd ra n)
  | 0x11 => some (.br .bne rd ra n)
  | 0x12 => some (.br .blt rd ra n)
  | 0x13 => some (.br .bge rd ra n)
  | 0x14 => some (.br .bltu rd ra n)
  | 0x15 => some (.br .bgeu rd ra n)
  | 0x16 => if rd = 0 ∧ ra = 0 then some (.jmp n) else none
  | 0x17 => some (.btst true rd bit boff)
  | 0x18 => some (.btst false rd bit boff)
  | 0x38 => if ra = 0 ∧ n ≤ 0x1C then some (.hxf rd n) else none
  | 0x39 => if ra = 0 ∧ n / 1024 = 0 ∧ n % 128 + n / 128 + 1 ≤ 64 then some (.hxb rd n) else none
  | 0x3A => if fn < 16 then some (.lk rd ra rb fn) else none
  | 0x3B => if n = 0 then some (.lkf rd ra) else none
  | 0x3C => if n = 0 ∧ rd ≤ 5 then some (.mset rd ra) else none
  | 0x3D => if ra = 0 ∧ rd ≤ 5 then some (.mseti rd n) else none
  | 0x3E => if ra = 0 ∧ rd ≤ 4 then some (.v rd n) else none
  | _ => none

/-! ### The loader's rules (04 R144) -/

/-- The register fields of an instruction. A V has none. -/
def FOp.regFields : FOp → List Nat
  | .alu _ rd ra rb | .cmov _ rd ra rb => [rd, ra, rb]
  | .cnt _ rd ra | .imm _ rd ra _ | .extu rd ra _ | .insu rd ra _ | .lkf rd ra => [rd, ra]
  | .lui rd _ | .hxf rd _ | .hxb rd _ => [rd]
  | .br _ ra rb _ => [ra, rb]
  | .btst _ ra _ _ => [ra]
  | .lk rd ra rb _ => [rd, ra, rb]
  | .mset _ ra => [ra]
  | .jmp _ | .mseti _ _ | .v _ _ => []

/-- The registers that an instruction reads or writes (rule 7). -/
def FOp.touches : FOp → List Nat
  | .alu _ rd ra rb | .cmov _ rd ra rb => [rd, ra, rb]
  | o => o.regFields

/-- The offset of a branch. -/
def FOp.branch : FOp → Option Nat
  | .br _ _ _ off | .jmp off | .btst _ _ _ off => some off
  | _ => none

/-- The result register of a lookup. -/
def FOp.lookup : FOp → Option Nat
  | .lk rd _ _ _ => some rd
  | .lkf rd _ => some rd
  | _ => none

/-- Whether an instruction is LKF. -/
def FOp.isLkf : FOp → Bool
  | .lkf _ _ => true
  | _ => false

/-- Whether an instruction is a verdict. -/
def FOp.isV : FOp → Bool
  | .v _ _ => true
  | _ => false

/-- The slot at which rule 6 is first broken: the fifth lookup, or the second LKF. -/
def rule6 (p : List FOp) : Option Nat :=
  firstBelow (fun k =>
    let pre := p.take (k + 1)
    (((p.getD k (.v 0 0)).lookup.isSome && decide (4 < (pre.filter fun o => o.lookup.isSome).length)) ||
      ((p.getD k (.v 0 0)).isLkf && decide (1 < (pre.filter FOp.isLkf).length)))) p.length

/-- The slot at which rule 7 is first broken: an instruction in the five slots after a lookup that reads or writes its RD. -/
def rule7 (p : List FOp) : Option Nat :=
  firstBelow (fun k => (List.range k).any fun j =>
    decide (k ≤ j + 5) && (match (p.getD j (.v 0 0)).lookup with
      | none => false
      | some rd => decide (rd ∈ (p.getD k (.v 0 0)).touches))) p.length

/-- The check of a staged program: the STATUS of the first rule broken and BADIDX; 1 and 0x3F when every rule holds (04 R144,
R155). -/
def loadCheck (words : List Nat) (len slot : Nat) : Nat × Nat :=
  let ops := (words.take len).map fretDecode
  let p := ops.map fun o => o.getD (.v 0 0)
  if len = 0 ∨ 24 < len then (2, 0x3F)
  else match firstBelow (fun k => (ops.getD k none).isNone) len with
    | some k => (3, k)
    | none =>
      match firstBelow (fun k => (p.getD k (.v 0 0)).regFields.any fun r => decide (16 ≤ r)) len with
      | some k => (4, k)
      | none =>
        match firstBelow (fun k => match (p.getD k (.v 0 0)).branch with
            | none => false
            | some off => off == 0 || decide (len ≤ k + off)) len with
        | some k => (5, k)
        | none =>
          match rule6 p with
          | some k => (6, k)
          | none =>
            match rule7 p with
            | some k => (7, k)
            | none =>
              if !(p.getD (len - 1) (.jmp 0)).isV then (8, len - 1)
              else if slot = 63 then (9, 0x3F)
              else (1, 0x3F)

end Sys2Proof.Machine
end

