-- ==== Sys2Proof/Machine/Activation.lean ====
section
/-! DEFINITION. The registers of the start and of an activation, and the beginning of an activation, which a capo may hold back (13 R507,
R508, R510, R517, R522). -/

namespace Sys2Proof.Machine

/-! ### Registers of the start -/

/-- Every die in service. -/
def State.onActive (s : State) (f : Nat → State → State) : State := s.forAll s.activeDies f

def bootStat (d : Nat) : Reg := dreg .bootStat d
def bootVer (d : Nat) : Reg := dreg .bootVer d
def bootCause (d : Nat) : Reg := dreg .bootCause d
def bootAct (d : Nat) : Reg := dreg .bootAct d

/-- A part of BootSt changed. -/
def State.modBoot (s : State) (f : BootSt → BootSt) : State := { s with boot := f s.boot }

/-- PHASE on every die in service (R517). -/
def setPhase (v : Nat) (s : State) : State := s.onActive fun d => fun t => t.setFld (bootStat d) BootStat.PHASE v

/-- A field of BOOT.ACT, the same on every die in service (R522). -/
def setAct (f : Field) (v : Nat) (s : State) : State := s.onActive fun d => fun t => t.setFld (bootAct d) f v

/-- A field of BOOT.ACT. -/
def State.act (s : State) (f : Field) : Nat := s.fld (bootAct s.lead) f

/-- Whether a trial runs (R511). -/
def State.trial (s : State) : Bool := s.fld (bootStat s.lead) BootStat.TRIAL == 1

/-- An accepted activation begins (R508, R510): it is armed on the KF-8512, and elsewhere the pause begins, with the handover event on
every die in service. -/
def activationBegin (s : State) : State :=
  let s1 := s.modBoot fun b => { b with actWaits := false }
  if s.dieCount = 8 then setAct BootAct.BUSY 0 (setAct BootAct.STATE 5 s1)
  else
    let s2 := setPhase 6 (setAct BootAct.BUSY 1 (setAct BootAct.STATE 4 s1))
    (s2.modBoot fun b => { b with needReady := s.activeDies, needResume := [], copied := false }).onActive fun d => fun t =>
      deliverRouted d 998 0x3F (noCaseMsg t d 998 0xFF) t

/-- An activation that waited for a capo begins when BUSY has cleared (R507). -/
def activationPoll (s : State) : State :=
  if s.boot.actWaits ∧ s.fld partCapo PartCapo.BUSY = 0 then activationBegin s else s

end Sys2Proof.Machine
end

