-- ==== Sys2Proof/Machine/Tables.lean ====
section
/-! DEFINITION. Staging writes, capos, retirement and bank sync, the epoch fence, the scrub, and mode transitions (05 R166 to R202,
R673; 01 R24, R27 to R31; 08 R289, R292, R294). -/

namespace Sys2Proof.Machine

/-! ### Banks -/

/-- A bank in words: 224 pages of 8,192 words (05 R166). -/
def bankWords : Nat := 224 * 8192

/-- The page of a word. -/
def pageOf (k : Nat) : Nat := k / 8192

/-- The digest of a page (05 R181): the CRC-64 over its words, each most significant byte first, with initial value 0 and no final
XOR. -/
def pageDigest (dies : Nat) (b : FMap Nat Word) (p : Nat) : Nat :=
  crc64 0 ((List.range 8192).flatMap fun i => bytesBE 8 (bankWord b (8192 * p + i) &&& bankMask dies (8192 * p + i)).toNat)

/-- The word indices that two banks list. -/
def bankKeys (a b : FMap Nat Word) : List Nat := (a.map (·.1) ++ b.map (·.1)).eraseDups

/-- The pages in which two banks hold different words. -/
def diffPages (a b : FMap Nat Word) : List Nat :=
  ((bankKeys a b).filter fun k => bankWord a k != bankWord b k).map pageOf |>.eraseDups

/-- The page of a bank copied from another bank. -/
def copyPage (p : Nat) (src dst : FMap Nat Word) : FMap Nat Word :=
  src.filter (fun x => pageOf x.1 == p) ++ dst.filter fun x => pageOf x.1 != p

/-! ### Staging -/

/-- Whether an older epoch is live on an active die, or a sync runs (05 R166, R189). -/
def State.twoEpochs (s : State) : Bool := s.activeDies.any fun d => (s.tabDie d).older.isSome || (s.tabDie d).syncing

/-- Whether a capo has started and not every die has flipped (05 R195). -/
def State.capoRuns (s : State) : Bool := s.fld partCapo PartCapo.BUSY == 1

/-- Whether the shadow banks take no writes: staging writes enter the queue (05 R166, R183, R189). -/
def State.stageClosed (s : State) : Bool := s.capoRuns || s.twoEpochs

/-- A page joins a list of pages. -/
def addPage (p : Nat) (l : List Nat) : List Nat := if p ∈ l then l else l ++ [p]

/-- One staged word reaches the shadow bank of every active die, through its replication engine (05 R168, R181; 11 R422): a word that is replaced is whole afterwards, but where the old one
was uncorrectable the page's digest becomes invalid. Reserved fields and entries of absent units stay zero (00 R3, R10). -/
def applyStaged (k : Nat) (v : Word) (s : State) : State :=
  (s.forAll s.activeDies fun d => replicate d (8 * k) fun t => t.modTabDie d fun x =>
    { x with shadow := x.shadow.set k (v &&& bankMask s.dieCount k), written := addPage (pageOf k) x.written,
             badPages := if (d, k) ∈ s.tab.soft then addPage (pageOf k) x.badPages else x.badPages }).modTab
    fun t => { t with soft := t.soft.filter fun x => x.2 != k }

/-- A staging write that the lead die has accepted (05 R168, R189): at most 4,096 wait in the queue, further ones are held without
completion. -/
def stageWord (k : Nat) (v : Word) (s : State) : State :=
  if s.stageClosed then
    if s.tab.queue.length < 4096 then s.modTab fun t => { t with queue := t.queue ++ [(k, v)] }
    else s.modTab fun t => { t with heldWrites := t.heldWrites ++ [(k, v)] }
  else applyStaged k v s

/-- The word that the next capo would carry: the lead die's shadow bank, or the newest bank that the sync copies into it, with the
waiting writes applied (05 R189, R194). -/
def State.carried (s : State) (k : Nat) : Word :=
  let t := s.tabDie s.lead
  let base := bankWord (if s.twoEpochs then t.newest else t.shadow) k
  (s.tab.queue ++ s.tab.heldWrites).foldl (fun w x => if x.1 = k then x.2 else w) base

/-- The program loads whose words the lead die has accepted by now end (04 R120, R155). -/
def endLoads (s : State) : State :=
  (s.forAll s.fret.loading fun d => fun t =>
    (t.setFld (dreg .fretLoad d) FretLoad.BUSY 0).setFld (dreg .fretLoad d) FretLoad.STATUS 1).modFret fun x => { x with loading := [] }

/-- The queue's writes, held ones included, are applied in order (05 R189). -/
def drainQueue (s : State) : State :=
  endLoads ((s.tab.queue ++ s.tab.heldWrites).foldl (fun t x => applyStaged x.1 x.2 t) (s.modTab fun t => { t with queue := [], heldWrites := [] }))

/-- A staging write through a view (05 R167 to R169), received by die `via`: aligned 8-byte writes below the bank's end, but not to
the control block or the program store. DESIGN CHOICE: PROTECT is set on the die through which the write came, for 05 R169 names none (log
entry 78). -/
def stagingWrite (via off : Nat) (v : Word) (width : Nat) (s : State) : State :=
  if width ≠ 8 ∨ off % 8 ≠ 0 ∨ 8 * bankWords ≤ off ∨ s.flt.noLead = true then s
  else if off < 0x3000 then (if s.active via then raise (dreg .tabErr via) TabErr.PROTECT s else s)
  else stageWord (off / 8) v s

/-- The die through which a master's accesses reach the part-wide region. -/
def State.viaDie (s : State) (who : Master) : Nat :=
  match who with
  | .hart d _ => d
  | .dma d _ => d
  | .endpoint n => s.up0 s.lead (s.newE s.lead) n / 16
  | _ => s.lead

/-- STAGING_WRITE (05 R168, R181); `worn` are the dies on which the word that it replaces is uncorrectable. -/
def execStagingWrite (who : Master) (off : Nat) (v : Word) (width : Nat) (worn : List Nat) (s : State) : Host.Outcome State Fault Refusal :=
  .next (stagingWrite (s.viaDie who) off v width (s.modTab fun t => { t with soft := (worn.map fun d => (d, off / 8)) ++ t.soft }))

/-- FRET.PSEL.STAGED is PROG of the port's entry in the shadow bank (05 R168, R172). -/
def stageProg (d pp prog : Nat) (s : State) : State :=
  let k := 0x600 + 8 * gport d pp
  stageWord k (setBits (s.carried k) 45 40 prog) s

/-! ### The flip -/

/-- Whether a valid handle descriptor binds no table because of its size or its place (05 R175). -/
def descBad (w0 w1 : Word) : Bool :=
  let kind := getBits w0 62 61
  let base := getBits w0 31 0
  let size := getBits w1 31 0
  bitOf w0 63 &&
    (match kind with
     | 0 => !(decide (1 ≤ size) && decide (size ≤ 65536) && 2 ^ Nat.log2 size == size) || decide (174080 < base + 4 * size)
     | 3 => decide (174080 < base + (size + 3) / 4)
     | _ => decide (16384 < base + size))

/-- Whether a bank holds a valid descriptor that binds no table for one of these reasons. -/
def anyDescBad (b : FMap Nat Word) : Bool :=
  b.any fun x => decide (0xE00 ≤ x.1) && decide (x.1 < 0x1E00) &&
    descBad (bankWord b (x.1 / 2 * 2)) (bankWord b (x.1 / 2 * 2 + 1))

/-- Whether a bank holds a context treated as not valid (09 R323). -/
def State.anyCtxBad (s : State) (d e : Nat) : Bool :=
  ((s.tabDie d).bankOf s.tab.capoE e).any fun x => decide (0x14000 ≤ x.1) && decide (x.1 < 0x16000) &&
    bitOf (s.ctxWord d e ((x.1 - 0x14000) / 2) 0) 63 && !(s.ctxValid d e ((x.1 - 0x14000) / 2))

/-- Whether a binding of a valid partition is treated as EMPTY (08 R292). -/
def State.anyBindingBad (s : State) (d e : Nat) : Bool :=
  (List.range 32).any fun n => s.partValid d e n && (List.range 64).any fun k =>
    s.binding d e n k / 2 ^ 14 != 0 && s.binding d e n k / 2 ^ 14 != 3 && s.bindKind d e n k == 3 ||
      (s.binding d e n k / 2 ^ 14 == 3 && s.binding d e n k / 2 ^ 13 % 2 == 1 && s.up1 d e n == none)

/-- Whether a valid partition's upstream ports lie on one die (08 R312). -/
def State.anyDual (s : State) (d e : Nat) : Bool :=
  (List.range 32).any fun n => s.partValid d e n &&
    (let w := s.partWord d e n 0
     bitOf w 55 && getBits w 54 48 / 16 == getBits w 62 56 / 16)

/-- The generation of a context in an epoch of a die (09 R333). -/
def State.genOf (s : State) (d x e : Nat) : Nat := (s.xltDie d).gen.get 0 (x, e)

/-- Contexts whose 16 bytes differ get a new generation; the others keep theirs (09 R333). -/
def flipGens (d : Nat) (old now : FMap Nat Word) (oldE newE : Nat) (s : State) : State :=
  let changed := ((bankKeys old now).filter fun k => decide (0x14000 ≤ k) && decide (k < 0x16000) && bankWord old k != bankWord now k).map
    (fun k => (k - 0x14000) / 2) |>.eraseDups
  s.modXltDie d fun x =>
    let kept := (x.gen.filter fun g => g.1.2 == oldE).map fun g => ((g.1.1, newE), g.2)
    let base := x.gen.filter fun g => g.1.2 != newE
    { x with gen := changed.foldl (fun m c => m.set (c, newE) (x.gen.get 0 (c, oldE) + 1)) (kept ++ base) }

/-- The flow contexts of a die that either bank lists. -/
def flowKeys (d : Nat) (old now : FMap Nat Word) : List Nat :=
  ((bankKeys old now).filter fun k => decide (0xC0000 ≤ k)).map (fun k => (k - 0xC0000) / 4) |>.eraseDups |>.filter fun n => n / flowsPerDie == d

/-- The writers of a port (06 R204). -/
def Writer.ofPort (w : Writer) (g : Nat) : Bool :=
  match w with
  | .pcie h _ => h == g
  | .nerov h _ _ => h == g
  | _ => false

/-- A port whose OWNER changed seals its open cells (06 R205). -/
def sealPort (g : Nat) (s : State) : State :=
  ((s.bufDie (pdie g)).openCell.map (·.1)).foldl (fun t w => if w.ofPort g then sealCell (pdie g) w t else t) s

/-- The virtual ports whose binding to a port of the die ends are removed by surprise (08 R298). -/
def unbindPorts (d oldE newE : Nat) (s : State) : State :=
  s.forAll (List.range 32) fun n => fun t => t.forAll (List.range 64) fun k => fun u =>
    if s.bindKind d oldE n k = 1 ∧ pdie (s.bindPort d oldE n k) = d ∧ s.partValid d oldE n = true
        ∧ ¬ (s.bindKind d newE n k = 1 ∧ s.bindPort d newE n k = s.bindPort d oldE n k ∧ s.partValid d newE n = true) then
      vpEvent n k [slotPresence, slotLinkState] u
    else u

/-- The CAPO record of a flip (17 R613). -/
def recFlip (d e : Nat) (s : State) : State :=
  recCtrl d { typ := 0x16, src := 0, aux := 0,
              body := bytesLE 8 e ++ bytesLE 8 (crc64 0 ((List.range 224).flatMap fun p => bytesBE 8 (pageDigest s.dieCount (s.tabDie d).newest p))) } s

/-- A die flips: its shadow bank becomes the newest bank, which takes the new epoch; the ports of a die that rejoined train then (12 R467; 05 R183, R175; 06 R205; 07 R249; 08 R292, R298,
R312; 09 R323, R333). -/
def flipDie (d : Nat) (s : State) : State :=
  let t := s.tabDie d
  let e := s.tab.capoE
  let k0 := bankWord t.shadow 0
  let now := t.shadow.set 0 (setBits k0 47 32 e)
  let s1 := s.modTabDie d fun x =>
    { x with older := some x.newest, oldE := x.newE, newest := now, newE := e, shadow := x.newest, flipAt := s.meridian d,
             badPages := x.badNewest, badNewest := x.badPages }
  let s2 := (s1.count (dreg .tabCnt d) TabCnt.FLIPS 1).setDieState d 3
  let s3 := if anyDescBad now then raise (dreg .tabErr d) TabErr.DESC s2 else s2
  let s4 := if s3.anyCtxBad d e then raise (dreg .xltErr d) XltErr.BADCTX s3 else s3
  let s5 := if s4.anyBindingBad d e then raise (dreg .parErr d) ParErr.BINDING s4 else s4
  let s6 := if s5.anyDual d e then raise (dreg .parErr d) ParErr.DUAL s5 else s5
  let s7 := flipGens d t.newest now t.newE e s6
  let s8 := (flowKeys d t.newest now).foldl (fun u n => flowFlip n (u.flowCtx d t.newE n) (u.flowCtx d e n) e u) s7
  let s9 := s8.forAll (List.range 16) fun pp => fun u =>
    if u.portOwner d t.newE (gport d pp) = u.portOwner d e (gport d pp) then u else sealPort (gport d pp) u
  let s10 := recFlip d e (unbindPorts d t.newE e s9)
  let late := (s10.bufDie d).spanWait
  let s11 := late.foldl (fun u x => if u.hasTag x.2 then u else takeRecord d x.1 x.2 0 u) (s10.modBufDie d fun b => { b with spanWait := [] })
  if d ∈ s.flt.rejoining then
    (s11.modFlt fun x => { x with rejoining := x.rejoining.erase d }).forAll (List.range 16) fun pp => enterDetect d pp false
  else s11

/-! ### The capo -/

/-- The mode that a transition leaves in force everywhere (01 R27, R31). -/
def setMode (m : Nat) (s : State) : State :=
  let s1 := (s.setFld partMode PartMode.CUR m).setFld partMode PartMode.BASE m
  (s1.setFld partMode PartMode.BUSY 0).setFld partMode PartMode.STATUS 1

/-- A follow number at or before another, modulo 65,536. -/
def seqUpTo (a b : Nat) : Bool := decide ((b + 65536 - a) % 65536 < 32768)

/-- The register of the follow protocol of a partition. -/
def followReg (n : Nat) : Reg := { name := .partFollow, i := n }

/-- HELD of PART.FOLLOW counts the held completions (08 R320). -/
def setHeld (n : Nat) (l : List (Nat × Nat × Tlp × Nat)) (s : State) : State :=
  (s.modPar fun p => { p with held := p.held.set n l }).setFld (followReg n) PartFollow.HELD (min 255 l.length)

/-- A held completion is returned through its face's upstream port (08 R294). -/
def returnHeld (n : Nat) (x : Nat × Nat × Tlp × Nat) (s : State) : State :=
  match s.upOf s.lead (s.newE s.lead) n x.2.1 with
  | some g => originate g x.2.2.1 s
  | none => s

/-- A capo that started after the ACK write has flipped everywhere: held completions up to ACK are returned in FSEQ order (08
R294). -/
def followRelease (s : State) : State :=
  s.forAll (List.range 32) fun n => fun t =>
    match t.tab.ackAtStart.find n with
    | none => t
    | some a =>
      let l := t.par.held.get [] n
      let go := l.filter fun x => seqUpTo x.1 a
      let t1 := go.foldl (fun u x => returnHeld n x u) t
      (setHeld n (l.filter fun x => !(seqUpTo x.1 a)) t1).setFld (followReg n) PartFollow.DONE a

/-- Every active die has flipped (05 R182, R195; 01 R29). -/
def capoDone (s : State) : State :=
  let s1 := (s.setFld partCapo PartCapo.BUSY 0).setFld partCapo PartCapo.STATUS 1
  let s2 := match s1.tab.mode with
    | some (m, _) => setMode m s1
    | none => s1
  activationPoll (followRelease (s2.modTab fun t => { t with mode := none, flits := [] }))

/-- A die that has to flip flips; the capo ends with the last of them (05 R183, R185, R186). -/
def capoFlip (d : Nat) (s : State) : State :=
  if d ∈ s.tab.toFlip then
    let s1 := (flipDie d s).modTab fun t => { t with toFlip := t.toFlip.erase d, flits := t.flits.erase d }
    if s1.tab.toFlip.isEmpty then capoDone s1 else s1
  else s

/-- The pages in which a die's shadow bank does not match the lead die's (05 R181, R183): contents first, the digest only where
they differ (log entry 9). -/
def State.mismatch (s : State) (d : Nat) : List Nat :=
  let t := s.tabDie d
  let l := s.tabDie s.lead
  (t.badPages ++ (diffPages t.shadow l.shadow).filter fun p => pageDigest s.dieCount t.shadow p != pageDigest s.dieCount l.shadow p).eraseDups

/-- Whether a die reports the boot ROM and image versions of the lead die (05 R183; 01 R24). -/
def State.sameVersion (s : State) (d : Nat) : Bool :=
  s.fld (bootVer d) BootVer.IMGVER == s.fld (bootVer s.lead) BootVer.IMGVER && s.fld (bootVer d) BootVer.ROMVER == s.fld (bootVer s.lead) BootVer.ROMVER

/-- The lead die sends a CAPO flit of the capo's epoch to a die, sequenced like any flit: on their span link, or through a die that relays it unchanged
(03 R81; 05 R183, R185; log entry 78). -/
def sendCapoFlit (d : Nat) (s : State) : State :=
  let f : HeldFlit := { flit := { typ := 2, payload := bytesBE 2 s.tab.capoE ++ List.replicate 222 0 } }
  let x := s.spanVia s.lead d
  let s0 := s.modTab fun t => { t with flits := t.flits.erase d ++ [d] }
  let s1 := if d = s.lead then s0 else queueFlits s.lead (16 + x) [f] s0
  if x = d then s1 else queueFlits x (16 + d) [f] s1

/-- Steps 3 and 4 of a capo (05 R183, R186): versions and digests are compared; a die with a differing version is left out and will be isolated, dies
with a mismatch go out of step, the lead die flips and sends a CAPO flit to each other die. -/
def capoCompare (s0 : State) : State :=
  let off := s0.tab.toFlip.filter fun d => !(s0.sameVersion d)
  let s := s0.modTab fun t => { t with toFlip := t.toFlip.filter s0.sameVersion, differ := t.differ ++ off }
  let others := s.tab.toFlip.filter fun d => d != s.lead
  let s1 := s.forAll others fun d => fun t =>
    let bad := t.mismatch d
    if bad.isEmpty then sendCapoFlit d t
    else raise (dreg .tabErr d) TabErr.DIGEST ((t.modTabDie d fun x => { x with reload := bad }).setDieState d 4)
  capoFlip s.lead (s1.setFld { name := .partEpoch } PartEpoch.NEW s1.tab.capoE)

/-- The MODE field of every shadow control block (05 R170, R182, R186). -/
def shadowMode (m : Nat) (s : State) : State := applyStaged 0 (setBits (bankWord (s.tabDie s.lead).shadow 0) 3 0 m) s

/-- A capo is abandoned (05 R186): the staged contents stay, a MODE that a request wrote is put back, and the request ends. -/
def capoAbandon (s : State) : State :=
  let s1 := (s.setFld partCapo PartCapo.BUSY 0).setFld partCapo PartCapo.STATUS 5
  let s2 := match s1.tab.mode with
    | none => s1
    | some (_, old) =>
      let t := if s.capoRuns then shadowMode old s1 else s1
      (t.setFld partMode PartMode.BUSY 0).setFld partMode PartMode.STATUS 6
  let s3 := s2.modTab fun t =>
    { t with waiting := false, applying := false, toFlip := [], flits := [], mode := none, capoE := (s.tabDie s.lead).newE }
  activationPoll (if s3.stageClosed then s3 else drainQueue s3)

/-- Steps 1 and 2 of a capo (05 R182, R183, R193): the shadow contents are closed, and every staging write accepted before is applied. -/
def capoStart (s : State) : State :=
  let e := (s.newE s.lead + 1) % 65536
  let s1 := (s.setFld partCapo PartCapo.BUSY 1).setFld partCapo PartCapo.STATUS 0
  let s2 := match s1.tab.mode with
    | some (m, _) => shadowMode m s1
    | none => s1
  let fence := s.fld partCapo PartCapo.FENCE == 1
  s2.modTab fun t =>
    { t with waiting := false, applying := true, toFlip := s.activeDies, flits := [], capoE := e,
             mode := t.mode.map fun x => (x.1, getBits (bankWord (s.tabDie s.lead).shadow 0) 3 0),
             fenced := if fence then e :: t.fenced.erase e else t.fenced.erase e,
             lifted := t.lifted.filter fun x => x.2 != e,
             ackAtStart := (List.range 32).map fun n => (n, s.fld (followReg n) PartFollow.ACK) }

/-- Whether the lead die has a page to reload and no die to reload it from (05 R186, R673). -/
def State.capoStuck (s : State) : Bool :=
  !(s.tabDie s.lead).badPages.isEmpty && (s.deputy == 0xF || !(s.active s.deputy))

/-- The staged writes of a capo have been applied on every die (05 R183, R673): the lead die's bad shadow pages are reloaded from the deputy first;
without one the capo is abandoned. -/
def capoTick (s : State) : State :=
  if s.capoRuns = true ∧ s.tab.applying = true then
    let s1 := s.modTab fun t => { t with applying := false }
    let bad := (s1.tabDie s1.lead).badPages
    if bad.isEmpty then capoCompare s1
    else if s1.capoStuck then capoAbandon s1
    else s1.modTabDie s1.lead fun x => { x with reload := bad }
  else s

/-- Whether a capo is in progress, a drain before one included, or waits (05 R182). DESIGN CHOICE: a mode request whose precondition still waits for
the staging queue holds the place of its capo (log entry 78). -/
def State.capoTaken (s : State) : Bool := s.capoRuns || s.tab.waiting || s.tab.drain.isSome || s.tab.check.isSome

/-- A capo is issued, by GO or by an accepted mode request (05 R182). -/
def issueCapo (s : State) : State :=
  if s.twoEpochs then (s.setFld partCapo PartCapo.STATUS 2).modTab fun t => { t with waiting := true }
  else capoStart s

/-- GO with FENCE in PART.CAPO (05 R182, R195). -/
def goCapo (fence : Bool) (s : State) : State :=
  let s1 := s.setFld partCapo PartCapo.FENCE (b2n fence)
  if s.mode = 0 ∨ s.mode = 7 then s1.setFld partCapo PartCapo.STATUS 4
  else if s.capoTaken then s1.setFld partCapo PartCapo.STATUS 3
  else issueCapo s1

/-- GO (05 R182). -/
def execGo (_who : Master) (fence : Bool) (s : State) : Host.Outcome State Fault Refusal := .next (goCapo fence s)

/-- CAPO_FLIT_RECEIVE (05 R183, R185): a die that has already flipped ignores the flit. -/
def execCapoFlitReceive (d : Nat) (s : State) : Host.Outcome State Fault Refusal :=
  .next (if d ∈ s.tab.flits then capoFlip d s else s)

/-! ### Reload and scrub -/

/-- The die from which a die reloads a page: the lead, or the deputy for the lead itself (05 R181, R673; 01 R24). -/
def State.reloadFrom (s : State) (d : Nat) : Nat := if d = s.lead then s.deputy else s.lead

/-- A page is reloaded from another die, in every bank that both hold under the same epoch (05 R181). -/
def reloadPage (d p : Nat) (s : State) : State :=
  let r := s.tabDie (s.reloadFrom d)
  let s1 := s.modTabDie d fun x =>
    { x with shadow := if x.newE = r.newE then copyPage p r.shadow x.shadow else copyPage p r.newest x.shadow,
             newest := if x.newE = r.newE then copyPage p r.newest x.newest
               else match r.older with
                 | some b => if r.oldE = x.newE then copyPage p b x.newest else x.newest
                 | none => x.newest,
             older := match x.older, r.older with
               | some a, some b => if x.oldE = r.oldE then some (copyPage p b a) else some a
               | a, _ => a,
             badPages := x.badPages.erase p, badNewest := x.badNewest.erase p, reload := x.reload.erase p }
  s1.count (dreg .tabCnt d) TabCnt.RELOADS 1

/-- The reload of the next page of a die ends (05 R185, R673): when none is left, a die out of step gets a catch-up CAPO flit, and a
capo that waited for the lead die's pages goes on. -/
def pageReloadEnd (d : Nat) (s : State) : State :=
  match (s.tabDie d).reload with
  | [] => s
  | p :: rest =>
    if s.reloadFrom d = 0xF then s
    else
      let s1 := reloadPage d p s
      if !rest.isEmpty then s1
      else if s1.dieState d = 4 then sendCapoFlit d s1
      else if d = s1.lead ∧ s1.capoRuns = true ∧ s1.tab.applying = false ∧ d ∈ s1.tab.toFlip then capoCompare s1
      else s1

/-- PAGE_RELOAD_END (05 R185). -/
def execPageReloadEnd (d : Nat) (s : State) : Host.Outcome State Fault Refusal := .next (pageReloadEnd d s)

/-- A die knows that a page of its newest bank, or of its other one, holds an uncorrectable word or fails its digest: it will reload it (05 R181,
R673; 04 R143). -/
def markPage (d p : Nat) (newest : Bool) (s : State) : State :=
  s.modTabDie d fun x =>
    { x with badPages := if newest then x.badPages else addPage p x.badPages,
             badNewest := if newest then addPage p x.badNewest else x.badNewest, reload := addPage p x.reload }

/-- SCRUB_PASS (05 R181): the single-bit errors are corrected, and a bad page of a bank, 0 the newest, is reloaded. -/
def execScrubPass (d corrected : Nat) (badPage : Option (Nat × Nat)) (s : State) : Host.Outcome State Fault Refusal :=
  .next (if d < s.dieCount then
      let s1 := s.modTabDie d fun x => { x with corrected := x.corrected + corrected }
      match badPage with
      | none => s1
      | some (p, bank) => if p < 224 then markPage d p (bank == 0) (raise (dreg .tabErr d) TabErr.SCRUB s1) else s1
    else s)

/-! ### Drain and retirement -/

/-- The unsettled packets and chunks of an epoch on a die (04 R115, 05 R188). -/
def State.unsettled (s : State) (d e : Nat) : Nat :=
  ((List.range 16).flatMap fun pp => (s.untagged (gport d pp)).filter fun p => p.epoch == e).length +
    ((List.range 32).flatMap fun c => ((s.chan d c).chunks ++ (s.chan d c).xlating.toList).filter fun k => k.epoch == e).length

/-- A die reports its older epoch drained (05 R188, R202). -/
def epochDrained (d : Nat) (s : State) : State :=
  let t := s.tabDie d
  if t.older.isSome ∧ d ∉ s.tab.drained ∧ s.unsettled d t.oldE = 0 then
    let ns := min 65535 (((s.meridian d + 2 ^ 64 - t.flipAt) % 2 ^ 64) / 65536)
    let s1 := s.modTab fun x => { x with drained := d :: x.drained }
    let r := dreg .tabDrain d
    (s1.setFld r TabDrain.LAST ns).setFld r TabDrain.MAX (max ns (s.fld r TabDrain.MAX))
  else s

/-- EPOCH_DRAINED (05 R188). -/
def execEpochDrained (d : Nat) (s : State) : Host.Outcome State Fault Refusal := .next (epochDrained d s)

/-- The older epoch retires when every active die has flipped and reported it drained (05 R188, R189; 09 R333): the freed bank becomes
the shadow bank, which each die syncs. -/
def epochRetire (s : State) : State :=
  let dies := s.activeDies
  if s.tab.toFlip.isEmpty ∧ dies.any (fun d => (s.tabDie d).older.isSome) = true ∧ dies.all (fun d => decide (d ∈ s.tab.drained)) = true then
    let s1 := s.forAll dies fun d => fun t =>
      let e := t.newE d
      let t1 := t.modTabDie d fun x =>
        { x with older := none, oldE := x.newE, syncing := true, syncPages := x.written, written := [] }
      t1.modXltDie d fun x =>
        { x with gen := x.gen.filter (fun g => g.1.2 == e), cache := x.cache.filter fun c => c.gen == x.gen.get 0 (c.ctx, e) }
    (s1.setFld { name := .partEpoch } PartEpoch.OLD (s1.newE s1.lead)).modTab fun t => { t with drained := [] }
  else s

/-- EPOCH_RETIRE (05 R188). -/
def execEpochRetire (s : State) : Host.Outcome State Fault Refusal := .next (epochRetire s)

/-- Whether a packet of an older epoch still holds the fence of a port and TC (05 R193). -/
def State.fenceActive (s : State) (g tc e : Nat) : Bool :=
  decide (e ∈ s.tab.fenced) && !(decide ((g * 8 + tc, e) ∈ s.tab.lifted)) &&
    (s.untagged g ++ s.tagged g).any fun q => q.tlp.tc == tc && olderEpoch q.epoch e && (q.tlp.cls == 0 || q.tlp.cls == 2)

/-- FTIME has passed since the port's flip: the fence of a port and TC is lifted (05 R193). -/
def fenceExpire (d pp tc : Nat) (s : State) : State :=
  let g := gport d pp
  let e := s.newE d
  if s.fenceActive g tc e then raise (dreg .tabErr d) TabErr.FENCE (s.modTab fun t => { t with lifted := (g * 8 + tc, e) :: t.lifted })
  else s

/-- FENCE_TIMER_EXPIRE (05 R193). -/
def execFenceTimerExpire (d pp tc : Nat) (s : State) : Host.Outcome State Fault Refusal := .next (fenceExpire d pp tc s)

/-! ### Mode transitions -/

/-- A word of a port entry as the next capo would carry it. -/
def State.carriedPort (s : State) (g : Nat) : Word := s.carried (0x600 + 8 * g)
/-- A word of a partition entry as the next capo would carry it. -/
def State.carriedPart (s : State) (n w : Nat) : Word := s.carried (0xA00 + 32 * n + w)

/-- Whether a valid partition has an upstream port in the carried contents (05 R194). -/
def State.carriedUp (s : State) (n : Nat) : Bool :=
  bitOf (s.carriedPart n 0) 63 && (List.range 128).any fun g => getBits (s.carriedPort g) 62 57 == n && bitOf (s.carriedPort g) 56

/-- Whether a Nerov link is trained (01 R29): UP, or a state that only a trained link reaches (03 R104). -/
def State.nerovUp (s : State) : Bool :=
  s.activeDies.any fun d => (List.range 16).any fun pp => s.isNerov (gport d pp) && s.linkState d pp ∈ [3, 4, 5, 8]

/-- The precondition of a transition on the shadow contents (05 R194; 01 R29). -/
def State.modeReady (s : State) (cur m : Nat) : Bool :=
  if cur = 3 ∧ m = 2 then decide (((List.range s.partCount).filter s.carriedUp).length ≤ 1)
  else if cur = 4 ∧ m = 3 then
    (List.range s.partCount).all fun n =>
      !(bitOf (s.carriedPart n 0) 63) ||
        (getBits (s.carriedPart n 0) 31 0 == 0 && (List.range 128).all fun g =>
          let o := getBits (s.carriedPort g) 62 57
          !(bitOf (s.carriedPart n (1 + g / 64)) (g % 64)) || o == n || decide (s.partCount ≤ o))
  else if cur = 4 ∧ m = 5 then s.nerovUp
  else if cur = 5 ∧ m = 4 then
    (List.range 4096).all fun f =>
      !(bitOf (bankWord (s.tabDie s.lead).newest (0x2800 + f)) 63) && !(bitOf (s.carried (0x2800 + f)) 63)
  else true

/-- The transitions that a capo carries (01 R29). -/
def byCapo (cur m : Nat) : Bool :=
  (cur == 1 && forwarding m) || (forwarding cur && m == 1) ||
    ((cur, m) ∈ [(2, 3), (3, 2), (3, 4), (4, 3), (4, 5), (5, 4)])

/-- The answer to a refused request. -/
def modeRefuse (v : Nat) (s : State) : State := s.setFld partMode PartMode.STATUS v

/-- The first accepted transition out of HELD locks the patch table (08 R289). -/
def patchAuto (s : State) : State :=
  if s.mode = 1 ∧ s.fld { name := .partAlmlock } PartAlmlock.LOCK = 0 then
    raise (dreg .parErr s.lead) ParErr.PATCHAUTO (lockPatchGate (s.setFld { name := .partAlmlock } PartAlmlock.LOCK 1))
  else s

/-- The capo of an accepted mode request is issued (05 R182). -/
def modeCapo (m : Nat) (s : State) : State :=
  issueCapo (s.modTab fun t => { t with mode := some (m, s.mode), drain := none })

/-- A mode request that a capo carries has met its precondition: the capo is issued, after the drain where the table asks for one (05 R194). -/
def modeAccept (cur m : Nat) (s : State) : State :=
  let s1 := (patchAuto s).setFld partMode PartMode.BUSY 1
  if (cur, m) = (4, 3) ∨ (cur, m) = (5, 4) then s1.modTab fun t => { t with drain := some m } else modeCapo m s1

/-- The staging queue has been applied: a precondition that waited for it is answered (05 R194). -/
def checkEnd (s : State) : State :=
  match s.tab.check with
  | none => s
  | some (m, ok) =>
    let s1 := s.modTab fun t => { t with check := none }
    if ok then modeAccept s.mode m s1 else modeRefuse 5 (s1.setFld partMode PartMode.BUSY 0)

/-- No older epoch is live and no sync runs: the queue is applied, and a capo that waits for it starts (05 R182, R189, R194). -/
def syncsOver (s : State) : State :=
  if s.stageClosed then s
  else
    let s1 := drainQueue s
    if s1.tab.waiting then capoStart s1 else checkEnd s1

/-- The bank sync of a die ends (05 R189). -/
def bankSyncEnd (d : Nat) (s : State) : State :=
  if (s.tabDie d).syncing then
    syncsOver (s.modTabDie d fun x =>
      { x with shadow := x.syncPages.foldl (fun b p => copyPage p x.newest b) x.shadow, syncing := false, syncPages := [] })
  else s

/-- BANK_SYNC_END (05 R189). -/
def execBankSyncEnd (d : Nat) (s : State) : Host.Outcome State Fault Refusal := .next (bankSyncEnd d s)

/-- The lane map of REPLAY (17 R619): lanes 0 to 15 of die 0 are port 0.00, and no other lane is mapped; port 0.00 enters DETECT. -/
def replayMap (s : State) : State :=
  s.forAll s.activeDies fun d => makeLive d (List.replicate 4 (if d = 0 then 4 else 0) ++ List.replicate 12 0)

/-- A request for DIAGNOSTIC is accepted (01 R29, 02 R71). -/
def diagRequest (s : State) : State :=
  diagTakeDown ((s.setFld partMode PartMode.BUSY 1).modTab fun t => { t with request := some 6 })

/-- A request to leave DIAGNOSTIC is accepted (01 R29, 02 R71). -/
def diagLeave (m : Nat) (s : State) : State :=
  diagRelease ((s.setFld partMode PartMode.BUSY 1).modTab fun t => { t with request := some m })

/-- Whether a recording, of a part with `r.1` dies that ran the image version `r.2`, is one that this part may replay (17 R619). -/
def State.recordingFits (s : State) (r : Nat × Nat) : Bool :=
  r.1 == s.dieCount && r.2 == s.fld { name := .bootVer, die := s.lead } BootVer.IMGVER

/-- A write of a mode code to PART.MODE.REQ (01 R29 to R31; 05 R182, R194; 17 R619). `rec` is the DIES and the IMGVER of the recording that a
request for REPLAY is about. DESIGN CHOICE: while an accepted transition is in progress STATUS keeps the outcome of the request before it
(01 R31 gives outcomes only; log entry 49). -/
def modeReq (rec : Nat × Nat) (m : Nat) (s : State) : State :=
  let cur := s.mode
  if cur = 0 then modeRefuse 4 s
  else if s.fld partMode PartMode.BUSY = 1 then modeRefuse 3 s
  else if cur = 7 then modeRefuse 2 s
  else if m = 6 ∧ cur ≠ 6 then diagRequest (if cur = 1 then patchAuto s else s)
  else if cur = 6 then (if m = s.baseMode then diagLeave m s else modeRefuse 2 s)
  else if m = 7 then
    if cur ≠ 1 then modeRefuse 2 s
    else match s.gate.token with
      | none => modeRefuse 4 s
      | some t =>
        if t.grants % 2 = 0 then modeRefuse 4 s
        else if s.recordingFits rec = false then modeRefuse 5 s
        else replayMap (patchAuto ((s.setFld partMode PartMode.BUSY 1).modTab fun t => { t with request := some 7 }))
  else if byCapo cur m then
    if s.capoTaken then modeRefuse 3 (s.setFld partCapo PartCapo.STATUS 3)
    else if ¬ (s.tab.queue.isEmpty = true ∧ s.tab.heldWrites.isEmpty = true) then
      (s.setFld partMode PartMode.BUSY 1).modTab fun t => { t with check := some (m, s.modeReady cur m) }
    else if !(s.modeReady cur m) then modeRefuse 5 s
    else modeAccept cur m s
  else modeRefuse 2 s

/-- MODE_REQ_MINIMAL (01 R29). -/
def execModeReqMinimal (s : State) : Host.Outcome State Fault Refusal := .next (modeReq (0, 0) 0 s)
/-- MODE_REQ_HELD (01 R29). -/
def execModeReqHeld (s : State) : Host.Outcome State Fault Refusal := .next (modeReq (0, 0) 1 s)
/-- MODE_REQ_TRANSPARENT (01 R29). -/
def execModeReqTransparent (s : State) : Host.Outcome State Fault Refusal := .next (modeReq (0, 0) 2 s)
/-- MODE_REQ_PARTITIONED (01 R29). -/
def execModeReqPartitioned (s : State) : Host.Outcome State Fault Refusal := .next (modeReq (0, 0) 3 s)
/-- MODE_REQ_SHARED (01 R29). -/
def execModeReqShared (s : State) : Host.Outcome State Fault Refusal := .next (modeReq (0, 0) 4 s)
/-- MODE_REQ_FEDERATED (01 R29). -/
def execModeReqFederated (s : State) : Host.Outcome State Fault Refusal := .next (modeReq (0, 0) 5 s)
/-- MODE_REQ_DIAGNOSTIC (01 R29). -/
def execModeReqDiagnostic (s : State) : Host.Outcome State Fault Refusal := .next (modeReq (0, 0) 6 s)
/-- MODE_REQ_REPLAY (01 R29, 17 R619): for a recording of a part with so many dies and of so numbered an image. -/
def execModeReqReplay (dies imgver : Nat) (s : State) : Host.Outcome State Fault Refusal := .next (modeReq (dies, imgver) 7 s)

/-- Every selected port's link is down: CUR reads DIAGNOSTIC, and BASE keeps the mode before (01 R29). -/
def diagnosticEntryEnd (s : State) : State :=
  if s.tab.request = some 6 then
    let b := s.mode
    (setMode 6 (s.modTab fun t => { t with request := none })).setFld partMode PartMode.BASE b
  else s

/-- DIAGNOSTIC_ENTRY_END (01 R29). -/
def execDiagnosticEntryEnd (s : State) : Host.Outcome State Fault Refusal := .next (diagnosticEntryEnd s)

/-- Every selected port has entered DETECT: CUR reads BASE (01 R29). -/
def diagnosticExitEnd (s : State) : State :=
  if s.mode = 6 then
    match s.tab.request with
    | some m => setMode m (s.modTab fun t => { t with request := none })
    | none => s
  else s

/-- DIAGNOSTIC_EXIT_END (01 R29). -/
def execDiagnosticExitEnd (s : State) : Host.Outcome State Fault Refusal := .next (diagnosticExitEnd s)

/-- The lane map of REPLAY is applied and port 0.00 has entered DETECT (01 R29, 17 R619). -/
def replayEntryEnd (s : State) : State :=
  if s.tab.request = some 7 then setMode 7 (s.modTab fun t => { t with request := none }) else s

/-- REPLAY_ENTRY_END (01 R29). -/
def execReplayEntryEnd (s : State) : Host.Outcome State Fault Refusal := .next (replayEntryEnd s)

/-- Whether a packet with XCTX set is unreleased, wherever it stands (05 R194). -/
def State.xctxLeft (s : State) : Bool :=
  let x := fun (p : Pkt) => decide (p.mdata.xctx / 2 ^ 15 % 2 = 1) && p.src != .part
  s.sch.queues.any (fun y => y.2.any x) || s.sch.flows.any (fun y => (y.2.hold ++ y.2.leaving).any x) ||
    s.activeDies.any fun d =>
      (s.xltDie d).fq.any (fun f => f.pkts.any x) || (s.xltDie d).walks.any (fun w => x w.pkt) ||
        (s.bufDie d).spanPending.any (fun p => x p && !((s.streamOf p.stream).released p.tlp.cls p.seq)) ||
        (List.range 16).any fun pp => (s.untagged (gport d pp)).any x

/-- Whether a channel still has a read outstanding or waits on a translation fault (05 R194). -/
def ChanSt.reading (z : ChanSt) : Bool :=
  z.parked || !z.fetching.isEmpty || z.chunks.any (fun k => k.reads.any fun r => r.data.isNone) ||
    z.endings.any fun e => e.reads.any fun r => r.data.isNone

/-- Whether a drain has ended (05 R194): toward PARTITIONED no channel has a read outstanding, no translation fault is pending, no packet with XCTX
is unreleased; toward SHARED no non-posted request to a fabric destination awaits its completion. -/
def State.drainOver (s : State) (m : Nat) : Bool :=
  if m = 3 then
    !s.xctxLeft && s.activeDies.all fun d => (s.xltDie d).fq.isEmpty && (List.range 32).all fun c => !(s.chan d c).reading
  else s.fret.fabric.isEmpty

/-- PARTITION_DRAIN_END (05 R194): the capo is issued. -/
def execPartitionDrainEnd (s : State) : Host.Outcome State Fault Refusal :=
  .next (match s.tab.drain with
    | some m => if s.drainOver m then modeCapo m s else s
    | none => s)

/-- PARTITION_DRAIN_TIMEOUT (05 R194): the request is refused and what it stopped resumes. -/
def execPartitionDrainTimeout (s : State) : Host.Outcome State Fault Refusal :=
  .next (match s.tab.drain with
    | some _ => modeRefuse 5 ((s.setFld partMode PartMode.BUSY 0).modTab fun t => { t with drain := none })
    | none => s)

end Sys2Proof.Machine
end

