-- ==== Sys2Proof/Machine/Fret.lean ====
section
/-! DEFINITION. Fret engines (04 R112 to R165): header extraction, lookups, courses, the verdict stage, traps, re-runs, program loads,
and the transparent program of slot 63. -/

namespace Sys2Proof.Machine

/-! ### Header extraction (04 R126, R127) -/

/-- The header field that a selector names: 0 where the packet has no such field. -/
def hxfField (s : State) (p : Pkt) (sel : Nat) : Nat :=
  let t := p.tlp
  let msg := t.kind = 10 ∨ t.kind = 11
  let io := t.kind = 4 ∨ t.kind = 5
  let only := fun (c : Bool) (v : Nat) => if c then v else 0
  match sel with
  | 0x00 => t.kind % 16
  | 0x01 => t.cls
  | 0x02 => t.tc % 8
  | 0x03 => t.attr % 8
  | 0x04 => t.len % 2 ^ 13
  | 0x05 => t.wire % 2 ^ 13
  | 0x06 => only (t.isMem || decide io || (decide msg && t.mroute == 1)) (t.addr % 2 ^ 64)
  | 0x07 => only t.isMem (t.atype % 4)
  | 0x08 => t.rid % 65536
  | 0x09 => t.tag % 2 ^ 14
  | 0x0A => only (t.pv % 2 == 1) (t.pasid % 2 ^ 20)
  | 0x0B => t.pv % 2
  | 0x0C => only (t.pv % 2 == 1) (t.pmr % 2)
  | 0x0D => only (t.pv % 2 == 1) (t.exe % 2)
  | 0x0E => if t.cls = 2 then t.rid % 65536 else only (t.isCfg || (decide msg && t.mroute == 2)) (t.tid % 65536)
  | 0x0F => only (t.cls == 2) (t.cid % 65536)
  | 0x10 => only (t.cls == 2) (t.cst % 8)
  | 0x11 => only (t.cls == 2) (t.bcnt % 2 ^ 13)
  | 0x12 => only (decide msg) (t.mcode % 256)
  | 0x13 => only (decide msg) (t.mroute % 8)
  | 0x14 => t.ep % 2
  | 0x15 => only t.isMem (t.th % 2)
  | 0x16 => only (t.isMem && t.th % 2 == 1) (t.st % 65536)
  | 0x17 => only (t.isMem || decide io || t.isCfg) (t.be % 256)
  | 0x18 => p.iport % 128
  | 0x19 => s.portOwner (pdie p.iport) p.epoch p.iport
  | 0x1A => p.epoch % 65536
  | 0x1B => t.flit % 2
  | 0x1C => t.ohc % 32
  | _ => 0

/-- The header bytes that HXB reads: bytes beyond the end of the header read as 0. -/
def hxbBytes (p : Pkt) (n : Nat) : Nat :=
  ofBytesBE (((p.tlp.raw.take 64 ++ List.replicate 128 0).drop (n % 128)).take (n / 128 % 8 + 1))

/-! ### Lookups (04 R128 to R130; 05 R175 to R178) -/

/-- The bucket of a key (05 R176). -/
def bucketOf (lo hi size : Nat) : Nat :=
  let x := lo ^^^ hi
  let y := x ^^^ (x >>> 32)
  (y ^^^ (y >>> 16)) % size

/-- The action word of the first slot of a bucket with an equal key (05 R176). -/
def State.exact (s : State) (d e slot lo hi : Nat) : Word :=
  let w := fun i k => s.bankAt d e (0xB0000 + 32 * (slot + i) + 8 * k)
  match (List.range 4).find? fun i => bitOf (w i 2) 63 && (w i 0).toNat == lo && (w i 1).toNat == hi with
  | some i => w i 2
  | none => 0

/-- Whether an LPM entry matches (05 R177). -/
def lpmHit (w0 w1 w2 w3 ra : Word) (qual : Nat) : Bool :=
  let n := getBits w1 6 0
  bitOf w2 63 && decide (n ≤ 64) && getBits w3 15 0 == qual && ra.toNat / 2 ^ (64 - n) == w0.toNat / 2 ^ (64 - n)

/-- The longest matching prefix; of equal lengths the lower index (05 R177). -/
def State.lpm (s : State) (d e base size : Nat) (ra : Word) (qual : Nat) : Word :=
  let w := fun i k => s.bankAt d e (0x20000 + 32 * (base + i) + 8 * k)
  match (List.range size).foldl (fun (best : Option (Nat × Word)) i =>
      if lpmHit (w i 0) (w i 1) (w i 2) (w i 3) ra qual then
        let n := getBits (w i 1) 6 0
        (match best with
         | some b => if b.1 < n then some (n, w i 2) else some b
         | none => some (n, w i 2))
      else best) none with
  | some b => b.2
  | none => 0

/-- The RANGE entry with the lowest index that holds the value (05 R177). -/
def State.rangeHit (s : State) (d e base size : Nat) (ra : Word) (qual : Nat) : Word :=
  let w := fun i k => s.bankAt d e (0x20000 + 32 * (base + i) + 8 * k)
  match (List.range size).find? fun i =>
      bitOf (w i 2) 63 && getBits (w i 3) 15 0 == qual && decide (w i 0 ≤ ra) && decide (ra ≤ w i 1) with
  | some i => w i 2
  | none => 0

/-- LK: the action word, or 0 for a miss (04 R128, R129; 05 R175). -/
def State.lookup (s : State) (d e g h : Nat) (ra rb : Word) : Word :=
  let w0 := s.bankAt d e (0x7000 + 256 * g + 16 * h)
  let w1 := s.bankAt d e (0x7000 + 256 * g + 16 * h + 8)
  let base := getBits w0 31 0
  let size := getBits w1 31 0
  if !(bitOf w0 63) || descBad w0 w1 then 0
  else match getBits w0 62 61 with
    | 0 =>
      let key := (rb.toNat * 2 ^ 64 + ra.toNat) % 2 ^ (getBits w0 60 54 + 1)
      s.exact d e (base + 4 * bucketOf (key % 2 ^ 64) (key / 2 ^ 64) size) (key % 2 ^ 64) (key / 2 ^ 64)
    | 1 => s.lpm d e base size ra (getBits rb 15 0)
    | 2 => s.rangeHit d e base size ra (getBits rb 15 0)
    | _ => if ra.toNat < size then s.bankAt d e (0xB0000 + 32 * (base + ra.toNat / 4) + 8 * (ra.toNat % 4)) else 0

/-- LKF: word 0 of a flow context of the ingress die, or 0 (04 R130). -/
def State.lookupFlow (s : State) (d e : Nat) (ra : Word) : Word :=
  if ra.toNat / flowsPerDie = d then s.bankAt d e (flowBase + 32 * ra.toNat) else 0

/-! ### Courses (04 R116, R133, R135) -/

/-- A metadata field set (04 R133). -/
def Meta.setField (m : Meta) (f v : Nat) : Meta :=
  match f with
  | 0 => { m with egress := v % 65536 }
  | 1 => { m with queue := some (v % 16) }
  | 2 => { m with flow := v % 2 ^ 19 }
  | 3 => { m with mirror := v % 4 }
  | 4 => { m with noct := v % 2 }
  | 5 => { m with xctx := v % 65536 }
  | _ => m

/-- A lookup of a course that read an uncorrectable word marks it (04 R143). -/
def Course.found (c : Course) (ecc : LookupEcc) : Course :=
  if ecc.bad.isSome ∧ c.bad = false then { c with bad := true, behind := ecc.behind } else c

/-- What an instruction does to a course: slot k with a taken offset continues at k + OFF (04 R123); a lookup that reads an
uncorrectable word marks the course (04 R143). -/
def Course.step (s : State) (g : Nat) (ecc : LookupEcc) (o : FOp) (c : Course) : Course :=
  let d := pdie g
  let e := c.pkt.epoch
  let next := { c with slot := c.slot + 1 }
  match o with
  | .hxf rd sel => { next with regs := rset c.regs rd (BitVec.ofNat 64 (hxfField s c.pkt sel)) }
  | .hxb rd n => { next with regs := rset c.regs rd (BitVec.ofNat 64 (hxbBytes c.pkt n)) }
  | .lk rd ra rb h =>
    let x := next.found ecc
    { x with regs := rset c.regs rd (s.lookup d e g (h % 16) (rget c.regs ra) (rget c.regs rb)) }
  | .lkf rd ra =>
    let x := next.found ecc
    { x with regs := rset c.regs rd (s.lookupFlow d e (rget c.regs ra)) }
  | .mset f ra => { next with mdata := c.mdata.setField f (rget c.regs ra).toNat }
  | .mseti f n => { next with mdata := c.mdata.setField f (n % 65536) }
  | .v code n => { c with verdict := some (code, n % 65536) }
  | o =>
    let r := o.base c.regs
    match r.2 with
    | some off => { c with regs := r.1, slot := c.slot + off % 65536 }
    | none => { next with regs := r.1 }

/-- The instruction word of a program slot (05 R169, R170). -/
def State.progWord (s : State) (d e prog slot : Nat) : Nat :=
  let w := (s.bankAt d e (0x1000 + 128 * prog + 8 * (slot / 2))).toNat
  if slot % 2 = 0 then w % 2 ^ 32 else w / 2 ^ 32

/-- A course runs until its verdict, or until a word that is no instruction. -/
def Course.run (s : State) (g : Nat) (ecc : LookupEcc) : Nat → Course → Course
  | 0, c => c
  | n + 1, c =>
    if c.verdict.isSome ∨ 24 ≤ c.slot then c
    else match fretDecode (s.progWord (pdie g) c.pkt.epoch c.prog c.slot) with
      | none => c
      | some o => Course.run s g ecc n (c.step s g ecc o)

/-! ### The transparent program (04 R119, R153; 01 R27) -/

/-- Whether a window register pair of a bridge holds an address: base and limit words of 16 bits with 20 bits of address below
(PCI Express Base Specification). -/
def inWindow (w addr : Nat) : Bool :=
  let base := w % 65536 / 16 * 2 ^ 20
  let limit := w / 65536 / 16 * 2 ^ 20 + (2 ^ 20 - 1)
  decide (base ≤ addr) && decide (addr ≤ limit)

/-- The prefetchable window, with the upper halves. -/
def inPrefetch (w up lim addr : Nat) : Bool :=
  decide (w % 65536 / 16 * 2 ^ 20 + up * 2 ^ 32 ≤ addr) && decide (addr ≤ w / 65536 / 16 * 2 ^ 20 + lim * 2 ^ 32 + (2 ^ 20 - 1))

/-- Whether a bridge function forwards a memory address downstream. -/
def State.bridgeMem (s : State) (n f fn addr : Nat) : Bool :=
  inWindow (s.cfgWord n f fn 8) addr || inPrefetch (s.cfgWord n f fn 9) (s.cfgWord n f fn 10) (s.cfgWord n f fn 11) addr

/-- Whether a bridge function forwards an I/O address downstream. -/
def State.bridgeIo (s : State) (n f fn addr : Nat) : Bool :=
  let w := s.cfgWord n f fn 7
  let u := s.cfgWord n f fn 12
  decide (w % 256 / 16 * 4096 + u % 65536 * 65536 ≤ addr) && decide (addr ≤ w / 256 % 256 / 16 * 4096 + u / 65536 * 65536 + 4095)

/-- The virtual ports of a face that lead to ports: virtual port and global port. In MINIMAL the ports 1 to 4 of die 0 stand below port
0.00 (01 R27). -/
def State.downPorts (s : State) (d e n f : Nat) : List (Nat × Nat) :=
  if s.mode = 0 then (List.range 4).map fun k => (k, k + 1)
  else ((List.range 64).filter fun k => s.bindKind d e n k == 1 && s.bindFace d e n k == f).map fun k => (k, s.bindPort d e n k)

/-- The face of an ingress port, and whether it is the upstream port. -/
def State.faceOfPort (s : State) (d e n g : Nat) : Nat × Bool :=
  if s.mode = 0 then (0, g == 0)
  else if s.up0 d e n = g then (0, true)
  else if s.up1 d e n = some g then (1, true)
  else match s.vpOfPort d e n g with
    | some k => (s.bindFace d e n k, false)
    | none => (0, false)

/-- Codes of EGRESS (04 R134). -/
def egressLocal (code : Nat) : Nat := 0x8000 + code
def egressNone : Nat := 0xFFFF

/-- Where the transparent program sends a packet: by the bus numbers and the base and limit registers of the upstream and the downstream bridges of
the face (04 R153). What comes from above goes down where the upstream bridge and a downstream one pass it; what comes from below goes to another
downstream bridge that passes it, and else up, but not where the upstream bridge passes it down. DESIGN CHOICE: a miss names no destination, so check
1 of 04 R136 refuses the packet (log entry 77). -/
def State.transparent (s : State) (p : Pkt) : Nat :=
  let g := p.iport
  let d := pdie g
  let e := p.epoch
  let t := p.tlp
  let n := if s.mode = 0 then 0 else s.portOwner d e g
  let fu := s.faceOfPort d e n g
  let f := fu.1
  let up := fu.2
  let upPort := if s.mode = 0 then 0 else (s.upOf d e n f).getD 0xFFFF
  let downs := s.downPorts d e n f
  let x := s.face n f
  let byBus := fun (id : Nat) =>
    let bus := id / 256
    let below := decide (x.sbus ≠ 0 ∧ x.sbus ≤ bus ∧ bus ≤ x.subbus)
    if up = true ∧ below = false then egressNone
    else match downs.find? fun k => below && decide ((s.vport n k.1).sec ≤ bus) && decide (bus ≤ (s.vport n k.1).sub) && (s.vport n k.1).sec != 0 with
      | some k => k.2
      | none =>
        if bus = x.sbus ∧ x.sbus ≠ 0 then egressLocal (0x80 + id / 8 % 32 + 32 * (id % 8))
        else if up = true ∨ below = true then egressNone else upPort
  let byAddr := fun (below : Bool) (hit : Nat → Bool) =>
    if up = true ∧ below = false then egressNone
    else match downs.find? fun k => below && hit (0x80 + k.1) with
      | some k => k.2
      | none => if up = true ∨ below = true then egressNone else upPort
  if t.isCfg then
    if !up then egressNone
    else if t.kind = 6 ∨ t.kind = 7 then
      (if t.tid % 256 = 0 then egressLocal f else if t.tid % 256 = 1 ∧ s.mode ≠ 0 then egressLocal 2 else egressNone)
    else byBus t.tid
  else if t.isMem then
    (if up = true ∧ s.bridgeMem n f f t.addr = false then (if s.mode = 0 then egressNone else egressLocal 2)
     else byAddr (s.bridgeMem n f f t.addr) fun k => s.bridgeMem n f k t.addr)
  else if t.kind = 4 ∨ t.kind = 5 then byAddr (s.bridgeIo n f f t.addr) fun k => s.bridgeIo n f k t.addr
  else if t.cls = 2 then byBus t.rid
  else match t.mroute with
    | 0 => if up then egressNone else upPort
    | 1 => byAddr (s.bridgeMem n f f t.addr) fun k => s.bridgeMem n f k t.addr
    | 2 => byBus t.tid
    | 3 => egressNone
    | _ => egressLocal f

/-! ### Throttling (04 R118) -/

/-- The threshold of the header queue: THROTTLE, of which 0 is stored as 1, in units of 4. -/
def State.throttleAt (s : State) (g : Nat) : Nat := 4 * max 1 (s.fld (preg .fretPcfg g) FretPcfg.THROTTLE)

/-- Throttling starts above the threshold and ends at half of it, and the header credits withheld are given (06 R216). -/
def throttleUpdate (g : Nat) (s : State) : State :=
  let n := (s.fret.hq.get [] g).length
  let t := if s.throttleAt g < n then s.modFret fun x => { x with throttle := if g ∈ x.throttle then x.throttle else g :: x.throttle }
    else if n ≤ s.throttleAt g / 2 then giveHeaders g (s.modFret fun x => { x with throttle := x.throttle.erase g })
    else s
  if t.isNerov g then updateXoff (pdie g) (pnum g) t else t

/-- A port's header queue changed. -/
def modHq (g : Nat) (f : List Pkt → List Pkt) (s : State) : State :=
  throttleUpdate g (s.modFret fun x => { x with hq := x.hq.set g (f (x.hq.get [] g)) })

/-! ### The verdict stage (04 R135, R138 to R143) -/

/-- A verdict counted (04 R164). -/
def countVerdict (g v : Nat) (s : State) : State :=
  s.count { name := .fretVcnt, die := pdie g, i := pnum g, j := v } FretVcnt.COUNT 1

/-- The record of a parked packet (04 R165). -/
def writeTraprec (g k slot prog tag : Nat) (p : Pkt) (s : State) : State :=
  let w0 := FretTraprec0.VALID.place 1 + FretTraprec0.TAG.place tag + FretTraprec0.CODE.place p.reason + FretTraprec0.EPOCH.place p.epoch
    + FretTraprec0.CLASS.place p.tlp.cls + FretTraprec0.TC.place p.tlp.tc + FretTraprec0.PSLOT.place slot + FretTraprec0.PROG.place prog
  let s1 := ((s.setReg (traprec .fretTraprec0 g k) (BitVec.ofNat 64 w0)).setReg (traprec .fretTraprec1 g k) (BitVec.ofNat 64 p.mdata.word)).setReg
    (traprec .fretTraprec2 g k) (BitVec.ofNat 64 (s.meridian (pdie g)))
  s1.forAll (List.range 8) fun j => fun t =>
    t.setReg { name := .fretTrapHdr, die := pdie g, i := pnum g, j := k, k := j }
      (BitVec.ofNat 64 (ofBytesBE (((p.tlp.raw.take 64 ++ List.replicate 64 0).drop (8 * j)).take 8)))

/-- A verdict that does not trap takes effect: REFUSE refuses, the others go to forwarding entry (04 R135; 06 R220). -/
def decidePkt (p : Pkt) (s : State) : State :=
  if p.verdict = 3 then refusePkt p (p.reason.testBit 15) (mirrorIngress p true s)
  else s.modFret fun x => { x with decided := x.decided.set p.iport (x.decided.get [] p.iport ++ [p]) }

/-- The fallback of a trap (04 R139, R140). -/
def trapFallback (p : Pkt) (s : State) : State :=
  let q : Pkt := if s.fld (dreg .fretTrapcfg (pdie p.iport)) FretTrapcfg.FALLBACK = 0 then { p with verdict := 3, reason := 0xFF10 }
    else { p with verdict := 0, reason := 0 }
  decidePkt q (countVerdict p.iport q.verdict s)

/-- A TRAP verdict parks the packet, or takes the fallback at once when all 16 slots are in use (04 R138, R140). DESIGN CHOICE: of the free slots
the lowest is taken (log entry 77). -/
def parkPkt (slot : Nat) (p : Pkt) (s : State) : State :=
  let g := p.iport
  let d := pdie g
  match firstBelow (fun k => (s.fret.parked.find (g, k)).isNone) 16 with
  | none => trapFallback p (raise (preg .fretErr g) FretErr.TRAPFULL s)
  | some k =>
    let tag := nextTag 255 (s.fret.trapTag.get 0 d)
    let s1 := s.modFret fun x =>
      { x with parked := x.parked.set (g, k) { pkt := p, tag := tag }, trapTag := x.trapTag.set d tag,
               trapExpired := x.trapExpired.filter fun y => !(pdie y.1 == d && y.2.2 == tag) }
    let e := 32 * pnum g + 11
    deliverRouted d e 0x3F (noCaseMsg s1 d e 0xFF) (writeTraprec g k slot (s.progOf p.epoch g) tag p s1)

/-- Whether a packet that stands before another one of its port and TC holds it back (04 R141). -/
def holdsBack (q p : Pkt) : Bool := q.tlp.tc == p.tlp.tc && (q.tlp.cls == 0 || (q.tlp.cls == 2 && p.tlp.cls == 2))

/-- Whether a parked packet holds a packet of the same port back (04 R141). -/
def State.heldByTrap (s : State) (p : Pkt) : Bool := s.fret.parked.any fun x => x.1.1 == p.iport && holdsBack x.2.pkt p

/-- A verdict takes effect; `slot` is where a TRAP stood. -/
def takeVerdict (slot : Nat) (p : Pkt) (s : State) : State := if p.verdict = 4 then parkPkt slot p s else decidePkt p s

/-- Held-back packets of a port go on, in order, as far as no parked packet holds them (04 R141). -/
def releaseHeldBack (g : Nat) : List Pkt → State → State
  | [], s => s
  | p :: r, s =>
    if s.heldByTrap p ∨ (s.fret.heldBack.get [] g).any (fun q => holdsBack q p) then
      releaseHeldBack g r (s.modFret fun x => { x with heldBack := x.heldBack.set g (x.heldBack.get [] g ++ [p]) })
    else releaseHeldBack g r (takeVerdict p.seq { p with seq := 0 } s)

/-- After the decision of a parked packet its port's held-back packets go on. -/
def resumeHeldBack (g : Nat) (s : State) : State :=
  releaseHeldBack g (s.fret.heldBack.get [] g) (s.modFret fun x => { x with heldBack := x.heldBack.set g [] })

/-- The verdict stage (04 R112, R135, R141, R143; 17 R606). A re-run puts the packet back to the head of the header queue, before the headers that
stood behind it in the courses, each of which counts; a held-back packet keeps the slot of its verdict in its tag's place until it goes on. -/
def verdictStage (g : Nat) (s : State) : State :=
  let c := s.fret.course.get {} g
  let s1 := s.modFret fun x => { x with course := x.course.erase g }
  if c.bad then
    let s2 := modHq g (fun l => c.pkt :: l) s1
    (s2.modFret fun x => { x with stopped := if g ∈ x.stopped then x.stopped else g :: x.stopped }).count
      (dreg .fretDiecnt (pdie g)) FretDiecnt.RERUNS (1 + min c.behind (s.fret.hq.get [] g).length)
  else match c.verdict with
    | none => s
    | some (v, n) =>
      let p : Pkt := { c.pkt with mdata := c.mdata, verdict := v, reason := n }
      let s2 := recPkt (pdie g) 0 g false p (countVerdict g v s1)
      if s2.heldByTrap p ∨ (s2.fret.heldBack.get [] g).any (fun q => holdsBack q p) then
        s2.modFret fun x => { x with heldBack := x.heldBack.set g (x.heldBack.get [] g ++ [{ p with seq := c.slot }]) }
      else takeVerdict c.slot p s2

/-- A course that holds a verdict, or a mark of a bad word at its end, goes to the verdict stage; otherwise it is kept. -/
def putCourse (g : Nat) (c : Course) (s : State) : State :=
  let s1 := s.modFret fun x => { x with course := x.course.set g c }
  if c.verdict.isSome then verdictStage g s1 else s1

/-- A lookup of a port read an uncorrectable word of the bank of an epoch: TBLUNCOR is set and the die will reload the page (04 R143). -/
def tableWordBad (g k e : Nat) (s : State) : State :=
  raise (preg .fretErr g) FretErr.TBLUNCOR (markPage (pdie g) (pageOf k) (e == s.newE (pdie g)) s)

/-- What the lookups of a port find in the words that they read: corrections are counted, an uncorrectable word is marked (04 R132, R143). -/
def noteEcc (g e : Nat) (ecc : LookupEcc) (s : State) : State :=
  let s1 := if ecc.corrected = 0 then s else s.modTabDie (pdie g) fun x => { x with corrected := x.corrected + ecc.corrected }
  match ecc.bad with
  | some k => tableWordBad g k e s1
  | none => s1

/-- The verdict of a program that holds a word which is no instruction: the spec gives none, so it is a free value (log entry 18). -/
def freeVerdict (s : State) : Nat × Nat := (s.freeWord.toNat % 5, s.freeWord.toNat / 8 % 65536)

/-- The effective mode of a packet (01 R30; 05 R170): MINIMAL by the start, otherwise MODE of its epoch's bank. -/
def State.modeOf (s : State) (p : Pkt) : Nat := if s.mode = 0 then 0 else getBits (s.bankAt (pdie p.iport) p.epoch 0) 3 0

/-- In HELD the port answers a configuration request with Request Retry Status, any other non-posted request with UR, and discards and
logs the rest (04 R153). -/
def heldAnswer (p : Pkt) (s : State) : State :=
  if p.tlp.isCfg then
    originate p.iport (completionFor p.tlp cplRRS []) (releaseIngress p s)
  else refusePkt p false s

/-- The destination of a packet in REPLAY: the upstream port function or the management endpoint of the replay face (17 R619). -/
def replayEgress (p : Pkt) : Nat :=
  if p.tlp.kind = 6 ∨ p.tlp.kind = 7 then
    (if p.tlp.tid % 256 = 0 then egressLocal 0 else if p.tlp.tid % 256 = 1 then egressLocal 2 else egressNone)
  else if p.tlp.isMem then egressLocal 2
  else egressNone

/-- The head of a port's header queue enters a course (04 R114, R116, R121, R153). With `single` the instructions then come one by one; else
the program runs to its verdict. -/
def enterCourse (g : Nat) (single : Bool) (ecc : LookupEcc) (s : State) : State :=
  match s.fret.hq.get [] g with
  | [] => s
  | p :: _ =>
    if g ∈ s.fret.stopped ∨ (s.fret.course.get {} g).live = true then s
    else
      let s1 := modHq g (fun l => l.drop 1) s
      let m := s.modeOf p
      let prog := s.progOf p.epoch g
      let c : Course := { pkt := p, prog := prog, live := true }
      if s.mode = 7 then putCourse g { c with mdata := { egress := replayEgress p }, verdict := some (0, 0) } s1
      else if m = 1 then heldAnswer p s1
      else
        if m = 0 ∨ prog = 63 then putCourse g { c with mdata := { egress := s.transparent p }, verdict := some (0, 0) } s1
        else if single then putCourse g c s1
        else
          let r := Course.run s g ecc 25 c
          let s2 := if r.bad = true ∨ ecc.bad.isNone then noteEcc g p.epoch ecc s1 else s1
          match r.verdict with
          | some _ => putCourse g r s2
          | none => putCourse g { r with verdict := some (freeVerdict s2) } s2.drew

/-- HEADER_ENTER_COURSE (04 R116). -/
def execHeaderEnterCourse (d pp : Nat) (single : Bool) (ecc : LookupEcc) (s : State) : Host.Outcome State Fault Refusal :=
  .next (if d < s.dieCount ∧ pp < 16 then enterCourse (gport d pp) single ecc s else s)

/-- One instruction of a program executes on a port's course. -/
def courseInstr (g : Nat) (o : FOp) (ecc : LookupEcc) (s : State) : State :=
  let c := s.fret.course.get {} g
  if c.live = true ∧ c.verdict.isNone ∧ c.slot < 24 then
    putCourse g (c.step s g ecc o) (noteEcc g c.pkt.epoch ecc s)
  else s

/-- TABLE_WORD_FETCHED (04 R143): the fetched copy stands in the lookup path and the courses restart. -/
def execTableWordFetched (d pp : Nat) (s : State) : Host.Outcome State Fault Refusal :=
  .next (s.modFret fun x => { x with stopped := x.stopped.erase (gport d pp) })

/-! ### Trap verdicts (04 R138, R139) -/

/-- A control core's verdict for a parked packet (04 R138, R139, R158); a verdict that lost to its timer is counted, whatever its slot holds by then
(01 R34, R35). DESIGN CHOICE: TRAPV names no reason code, so that of a REFUSE is 0, whose bit 15 is clear: UR, not CA (log entry 77). -/
def trapVerdict (d : Nat) (v : Word) (code : Nat) (s : State) : State :=
  let g := gport d (FretTrapv.PORT.of v)
  let k := FretTrapv.SLOT.of v
  let tag := FretTrapv.TAG.of v
  match (s.fret.parked.find (g, k)).filter fun x => x.tag == tag with
  | some x =>
    let md := if FretTrapv.OVR.of v = 1 then { x.pkt.mdata with egress := FretTrapv.EGRESS.of v, queue := some (FretTrapv.QUEUE.of v) }
      else x.pkt.mdata
    resumeHeldBack g (decidePkt { x.pkt with mdata := md, verdict := code, reason := 0, parked := true }
      (countVerdict g code (trapFreed g k s)))
  | none => if (g, k, tag) ∈ s.fret.trapExpired then s.count (dreg .fretDiecnt d) FretDiecnt.LATE 1 else refuseVerdict d s

/-- TRAPV_FWD (04 R138). -/
def execTrapvFwd (d : Nat) (v : Word) (s : State) : Host.Outcome State Fault Refusal := .next (trapVerdict d v 0 s)
/-- TRAPV_FWDM (04 R138). -/
def execTrapvFwdm (d : Nat) (v : Word) (s : State) : Host.Outcome State Fault Refusal := .next (trapVerdict d v 1 s)
/-- TRAPV_HOLD (04 R138). -/
def execTrapvHold (d : Nat) (v : Word) (s : State) : Host.Outcome State Fault Refusal := .next (trapVerdict d v 2 s)
/-- TRAPV_REFUSE (04 R138). -/
def execTrapvRefuse (d : Nat) (v : Word) (s : State) : Host.Outcome State Fault Refusal := .next (trapVerdict d v 3 s)

/-- The trap timer of a parking slot expires (04 R139). -/
def trapExpire (g k : Nat) (s : State) : State :=
  match s.fret.parked.find (g, k) with
  | none => s
  | some x =>
    let s1 := (trapFreed g k s).modFret fun y => { y with trapExpired := (g, k, x.tag) :: y.trapExpired }
    resumeHeldBack g (trapFallback { x.pkt with parked := true } s1)

/-- TRAP_TIMER_EXPIRE (04 R139). -/
def execTrapTimerExpire (d pp slot : Nat) (s : State) : Host.Outcome State Fault Refusal := .next (trapExpire (gport d pp) slot s)

/-! ### Loading a program (04 R120, R122, R144, R155) -/

/-- The register of a staged instruction word. -/
def fretStage (d i : Nat) : Reg := { name := .fretStage, die := d, i := i }

/-- A load whose rules hold: its words go to the slot of the shadow bank as staging writes (04 R120). -/
def copyProgram (d slot len : Nat) (s : State) : State :=
  s.forAll (List.range ((len + 1) / 2)) fun j => fun t =>
    let k := (0x1000 + 128 * slot) / 8 + j
    let lo := (t.reg (fretStage d (2 * j))).toNat % 2 ^ 32
    let hi := if 2 * j + 1 < len then (t.reg (fretStage d (2 * j + 1))).toNat % 2 ^ 32 else (t.carried k).toNat / 2 ^ 32
    stageWord k (BitVec.ofNat 64 (hi * 2 ^ 32 + lo)) t

/-- FRET.LOAD written with GO (04 R120, R122, R155): BUSY while the lead die has not accepted every word (05 R168, R189). -/
def fretLoad (d : Nat) (v : Word) (s : State) : State :=
  let r := dreg .fretLoad d
  let slot := FretLoad.SLOT.of v
  let len := FretLoad.LEN.of v
  let s1 := (s.setFld r FretLoad.SLOT slot).setFld r FretLoad.LEN len
  let answer := fun (st bad : Nat) (t : State) => (t.setFld r FretLoad.STATUS st).setFld r FretLoad.BADIDX bad
  if s.fld r FretLoad.BUSY = 1 then answer 12 0x3F s1
  else if s.mode = 0 ∨ s.mode = 7 then answer 11 0x3F s1
  else if s.capoRuns = true ∧ d ∈ s.tab.toFlip then answer 10 0x3F s1
  else
    let c := loadCheck ((List.range 24).map fun i => (s.reg (fretStage d i)).toNat % 2 ^ 32) len slot
    if c.1 = 1 then
      let t := copyProgram d slot len s1
      if t.tab.heldWrites.isEmpty then answer 1 0x3F t
      else ((answer 0 0x3F t).setFld r FretLoad.BUSY 1).modFret fun x => { x with loading := d :: x.loading.erase d }
    else answer c.1 c.2 s1

/-- FRET_LOAD (04 R120). -/
def execFretLoad (d : Nat) (v : Word) (s : State) : Host.Outcome State Fault Refusal :=
  .next (if d < s.dieCount then (if FretLoad.GO.of v = 1 then fretLoad d v s
    else (s.setFld (dreg .fretLoad d) FretLoad.SLOT (FretLoad.SLOT.of v)).setFld (dreg .fretLoad d) FretLoad.LEN (FretLoad.LEN.of v)) else s)

end Sys2Proof.Machine
end

