-- ==== Sys2Proof/Machine/Xlt.lean ====
section
/-! DEFINITION. Fabric translation (09 R322 to R335): contexts, windows, page tables and their walks, the translation cache and its
invalidation, the page-table area. -/

namespace Sys2Proof.Machine

/-! ### Windows (09 R324) -/

/-- What a window record says for an address. -/
structure Win where
  addr : Nat
  egress : Nat
  rd : Bool
  wr : Bool
  pt : Bool
  deriving DecidableEq, Repr

/-- The window of a context that covers an address: of overlapping records the lowest slot (09 R324). -/
def State.window (s : State) (d e : Nat) (w1 : Word) (a : Nat) : Option Win :=
  (List.range (getBits w1 23 18)).findSome? fun i =>
    let w := fun k => s.bankAt d e (0xB0000 + 32 * (getBits w1 17 0 + i) + 8 * k)
    let vb := getBits (w 0) 63 12
    let vl := getBits (w 1) 63 12
    if bitOf (w 0) 0 ∧ vb ≤ a / 4096 ∧ a / 4096 ≤ vl then
      some { addr := (getBits (w 2) 63 12 * 4096 + (a - vb * 4096)) % 2 ^ 64, egress := getBits (w 3) 63 48, rd := bitOf (w 3) 47,
             wr := bitOf (w 3) 46, pt := bitOf (w 3) 45 }
    else none

/-! ### Page tables (09 R328) -/

/-- The owner of a frame of the page-table area (09 R331). -/
def State.frameOwner (s : State) (f : Nat) : Nat := s.fld { name := .partPtown, i := f } PartPtown.OWNER

/-- A word of the page-table area. -/
def State.ptabWord (s : State) (k : Nat) : Word := s.xlt.ptab.get 0 k

/-- What an entry of a table says: a fault with its cause (0 not present, 1 permission, 2 owner, 3 walk), a page, or the next table
(09 R328, R359); or that the gate refused its read at an offset of the table store (11 R427). -/
inductive PtStep where
  | fault (cause : Nat)
  | page (out size : Nat) (r w : Bool)
  | next (t : Nat)
  | refused (off : Nat)
  deriving DecidableEq, Repr

/-- One entry of a walk at a level (09 R328). -/
def ptStep (lvl : Nat) (e : Word) (rd wr : Bool) : PtStep :=
  let p := bitOf e 0
  let r := bitOf e 1
  let w := bitOf e 2
  let leaf := bitOf e 3
  let addr := getBits e 51 12
  if !p ∨ (lvl = 4 ∧ leaf = true) then .fault 0
  else if lvl = 1 ∨ leaf = true then
    let size := 2 ^ (12 + 9 * (lvl - 1))
    if addr * 4096 % size ≠ 0 then .fault 0
    else if (wr = true ∧ w = false) ∨ (rd = true ∧ r = false) then .fault 1
    else .page (addr * 4096) size r w
  else .next addr

/-- The index of an input address in a table of a level. -/
def ptIndex (lvl a : Nat) : Nat := a / 2 ^ (12 + 9 * (lvl - 1)) % 512

/-- The offset of the page-table area in the table store (05 R166). -/
def ptabOff : Nat := 0x3000000

/-- A walk in the page-table area from a frame on (09 R328); every read passes the die's table-store gate (11 R422, R423). -/
def walkTab (s : State) (d part a : Nat) (rd wr : Bool) : Nat → Nat → PtStep
  | 0, _ => .fault 0
  | lvl + 1, t =>
    if 1024 ≤ t ∨ s.frameOwner t ≠ part then .fault 2
    else if s.pageOk d 19 (0x48 + d) (ptabOff / 4096 + t) 0 = false then .refused (ptabOff + 4096 * t + 8 * ptIndex (lvl + 1) a)
    else match ptStep (lvl + 1) (s.ptabWord (512 * t + ptIndex (lvl + 1) a)) rd wr with
      | .next u => walkTab s d part a rd wr lvl u
      | x => x

/-! ### The cache (09 R333) -/

/-- The cached translation of an address for a context in a generation that permits the access. -/
def State.cached (s : State) (d x gen a : Nat) (rd wr : Bool) : Option XltEntry :=
  (s.xltDie d).cache.find? fun c =>
    c.ctx == x && c.gen == gen && decide (c.page * 4096 ≤ a) && decide (a < c.page * 4096 + c.size) && (!rd || c.r) && (!wr || c.w)

/-- A completed walk is cached; of 65,536 entries the oldest makes room (log entry 19). -/
def cachePage (d x gen a out size : Nat) (r w : Bool) (s : State) : State :=
  s.modXltDie d fun y =>
    { y with cache := { ctx := x, gen := gen, page := a / size * size / 4096, size := size, out := out, r := r, w := w } ::
      (y.cache.filter fun c => !(c.ctx == x && c.gen == gen && c.page == a / size * size / 4096 && c.size == size)).take 65535 }

/-! ### Walks -/

/-- What a translation of an address gives at once: an address, a fault with its cause, or a walk in host memory that runs. -/
inductive XRes where
  | done (addr : Nat)
  | fault (cause : Nat)
  | waits (id : Nat)
  deriving DecidableEq, Repr

/-- An 8-byte read of an entry in host memory, through the upstream port of the context's face (09 R329). -/
def walkRead (n f id table lvl va : Nat) (g : Nat) (s : State) : State :=
  originate g { kind := 1, addr := table * 4096 + 8 * ptIndex lvl va, rid := s.endpointId n f, tag := id % 2 ^ 14, reqLen := 8,
                raw := List.replicate 12 0, be := 0xFF } s

/-- A walk begins for an address through the page tables of a context: by the cache, in the page-table area, or in host memory (09 R328,
R329, R333, R334). With `bad` a word of the area that it reads is uncorrectable: the die fetches it from the lead die or the deputy, reloads the
frame and walks again, so that only XLT.ERR.PTUNCOR tells (09 R332). -/
def xltWalk (bad : Bool) (d e x va : Nat) (w0 w1 : Word) (rd wr : Bool) (who : WalkFor) (p : Pkt) (s : State) : XRes × State :=
  let gen := s.genOf d x e
  let n := getBits w0 62 57
  let f := getBits w0 52 52
  if 2 ^ 48 ≤ va then (.fault 0, s)
  else match s.cached d x gen va rd wr with
    | some c => (.done (c.out + (va - c.page * 4096)), s)
    | none =>
      let s1 := s.count (dreg .xltCnt d) XltCnt.MISSES 1
      if getBits w0 54 53 = 1 then
        let read := bad && decide (getBits w1 63 24 < 1024) && s.frameOwner (getBits w1 63 24) == n
        let s2 := if read then raise (dreg .xltErr d) XltErr.PTUNCOR s1 else s1
        match walkTab s d n va rd wr 4 (getBits w1 63 24) with
        | .page out size r w => (.done (out + va % size), cachePage d x gen va out size r w s2)
        | .fault c => (.fault c, s2)
        | .next _ => (.fault 0, s2)
        | .refused off => (.fault 3, gateRefuse d (0x48 + d) 19 0 (dieBase d + 0x20000000 + off) 0 s1)
      else match s.upOf d e n f with
        | none => (.fault 3, s1)
        | some g =>
          let id := (s.xltDie d).walkId + 1
          let s2 := s1.modXltDie d fun y =>
            { y with walkId := id, walks := y.walks ++ [{ id := id, who := who, pkt := p, ctx := x, w0 := w0, w1 := w1, va := va, wr := wr,
                                                          rd := rd, lvl := 4, epoch := e }] }
          (.waits id, walkRead n f id (getBits w1 63 24) 4 va g s2)

/-- A walk in host memory goes on with an entry that was read; it answers when it has ended (09 R328, R329). -/
def walkEntry (d : Nat) (w : Walk) (entry : Word) (s : State) : Option XRes × State :=
  let drop := s.modXltDie d fun y => { y with walks := y.walks.filter fun v => v.id != w.id }
  match ptStep w.lvl entry w.rd w.wr with
  | .fault c => (some (.fault c), drop)
  | .refused _ => (some (.fault 3), drop)
  | .page out size r wb =>
    let t := if w.cacheIt then cachePage d w.ctx (s.genOf d w.ctx w.epoch) w.va out size r wb drop else drop
    (some (.done (out + w.va % size)), t)
  | .next t =>
    let n := getBits w.w0 62 57
    let f := getBits w.w0 52 52
    match s.upOf d w.epoch n f with
    | none => (some (.fault 3), drop)
    | some g =>
      (none, walkRead n f w.id t (w.lvl - 1) w.va g
        (s.modXltDie d fun y => { y with walks := y.walks.map fun v => if v.id = w.id then { v with lvl := w.lvl - 1 } else v }))

/-! ### The page-table area (09 R330, R331) -/

/-- A write to the page-table area: through BAR4 a host writes only frames that its partition owns; otherwise a frame without an owner
takes no write. The replication engine of every active die applies it, the lead die's gate deciding for the area, which is the same on all of
them (11 R422; log entry 48). -/
def ptabWrite (who : Master) (off : Nat) (v : Word) (s : State) : State :=
  let o := s.frameOwner (off / 4096)
  let put := (s.forAll (s.activeDies.filter (· != s.lead)) fun d => replicate d (ptabOff + off) id)
    |> replicate s.lead (ptabOff + off) fun t => { t with xlt := { t.xlt with ptab := t.xlt.ptab.set (off / 8) v } }
  if off % 8 ≠ 0 ∨ 2 ^ 22 ≤ off ∨ s.flt.noLead = true then s
  else match who with
    | .endpoint n => if o = n then put else s
    | _ => if o = 0x3F then s else put

/-- PTAB_WRITE (09 R330). -/
def execPtabWrite (who : Master) (off : Nat) (v : Word) (s : State) : Host.Outcome State Fault Refusal := .next (ptabWrite who off v s)

/-- A change of a frame's owner zeroes the frame first (09 R331). -/
def ptownWrite (f : Nat) (v : Word) (s : State) : State :=
  let r : Reg := { name := .partPtown, i := f }
  if 1024 ≤ f then s
  else if PartPtown.OWNER.of v = s.frameOwner f then s
  else ({ s with xlt := { s.xlt with ptab := s.xlt.ptab.filter fun x => x.1 / 512 != f } } : State).setFld r PartPtown.OWNER (PartPtown.OWNER.of v)

/-- PTOWN_WRITE (09 R331). -/
def execPtownWrite (_who : Master) (f : Nat) (v : Word) (s : State) : Host.Outcome State Fault Refusal := .next (ptownWrite f v s)

/-! ### Invalidation (09 R335, R360) -/

/-- The register that carries invalidations. -/
def xltinvReg : Reg := { name := .partXltinv }

/-- An invalidation starts on every active die: matching entries go, and walks that run are not cached. A second one while the first
runs is refused. -/
def xltinv (hit : XltEntry → Bool) (s : State) : State :=
  if s.fld xltinvReg PartXltinv.BUSY = 1 then s.setFld xltinvReg PartXltinv.STATUS 2
  else
    let s1 := s.forAll s.activeDies fun d => fun t => t.modXltDie d fun x =>
      { x with cache := x.cache.filter (fun c => !(hit c)), walks := x.walks.map fun w => { w with cacheIt := false } }
    (s1.setFld xltinvReg PartXltinv.BUSY 1).setFld xltinvReg PartXltinv.STATUS 0

/-- XLTINV_ALL (09 R335). -/
def execXltinvAll (_who : Master) (s : State) : Host.Outcome State Fault Refusal := .next (xltinv (fun _ => true) s)

/-- XLTINV_CONTEXT (09 R335). -/
def execXltinvContext (_who : Master) (ctx : Nat) (s : State) : Host.Outcome State Fault Refusal := .next (xltinv (fun c => c.ctx == ctx) s)

/-- Whether a cached page overlaps a range of 4 KiB pages. -/
def XltEntry.overlaps (c : XltEntry) (first n : Nat) : Bool := decide (c.page < first + n) && decide (first < c.page + c.size / 4096)

/-- XLTINV_RANGE (09 R335): the range starts at PART.XLTINVA.ADDR; `pages` is PAGES, the length minus 1. -/
def execXltinvRange (_who : Master) (ctx pages : Nat) (s : State) : Host.Outcome State Fault Refusal :=
  .next (xltinv (fun c => c.ctx == ctx && c.overlaps (s.fld { name := .partXltinva } PartXltinva.ADDR) (pages + 1)) s)

/-- The invalidation ends when every walk that ran when it began has ended (09 R335). -/
def xltinvEnd (s : State) : State :=
  if s.fld xltinvReg PartXltinv.BUSY = 1 ∧ s.activeDies.all (fun d => (s.xltDie d).walks.all fun w => w.cacheIt) = true then
    (s.setFld xltinvReg PartXltinv.BUSY 0).setFld xltinvReg PartXltinv.STATUS 1
  else s

/-- XLTINV_END (09 R335). -/
def execXltinvEnd (s : State) : Host.Outcome State Fault Refusal := .next (xltinvEnd s)

end Sys2Proof.Machine
end

