-- ==== Sys2Proof/Machine/Forward.lean ====
section
/-! DEFINITION. Admission (04 R112 to R115), forwarding entry (04 R134, R136, R137; 08 R297, R302, R303; 12 R448 to R451, R462), the
translation of packets and their faults (09 R325 to R327, R334 to R340), tagging (04 R145, R148) and restamping (05 R190). -/

namespace Sys2Proof.Machine

/-! ### Admission -/

/-- Whether the part takes a completion before the courses: the proxy of the die, or a DMA engine (08 R299, 09 R350). -/
def State.takenEarly (s : State) (g : Nat) (t : Tlp) : Bool :=
  let d := pdie g
  let e := s.newE d
  t.cls == 2 &&
    (t.rid == s.fld (dreg .parProxy d) ParProxy.RID ||
      (List.range 32).any fun n => (s.portOwner d e g == n || (s.partValid d e n && s.reach d e n g)) &&
        (List.range 2).any fun f => (s.upOf d e n f).isSome && t.rid == s.endpointId n f)

/-- What the formation checks report of a packet that passes them: a poisoned one, one that fails its ECRC check (04 R113, 12 R485). -/
def noteFormation (g : Nat) (t : Tlp) (s : State) : State :=
  let s1 := if t.ep = 1 then raise (tlerr g) FltTlerr.POISONED s else s
  if s1.fld (preg .fretPcfg g) FretPcfg.ECRC = 1 ∧ t.ecrc = true ∧ t.ecrcBad = true then raise (preg .fretErr g) FretErr.ECRC s1 else s1

/-- The partial packet of a port is whole now: every copy of it that the port still holds takes the rest (04 R151). -/
def completePartial (g : Nat) (t : Tlp) (cs : List Nat) (s : State) : State :=
  let fix := fun (p : Pkt) => if p.partialOf g then
      { p with tlp := { p.tlp with payload := t.payload, whole := true, ecrc := t.ecrc, digest := t.digest, ecrcBad := t.ecrcBad, ep := t.ep }, cells := p.cells ++ cs } else p
  let s1 := s.modFret fun x => { x with
    hq := x.hq.map fun y => (y.1, y.2.map fix), decided := x.decided.map fun y => (y.1, y.2.map fix),
    heldBack := x.heldBack.map fun y => (y.1, y.2.map fix), toTag := x.toTag.map fun y => (y.1, y.2.map fix),
    course := x.course.map fun y => (y.1, { y.2 with pkt := fix y.2.pkt }),
    parked := x.parked.map fun y => (y.1, { y.2 with pkt := fix y.2.pkt }) }
  let s2 := s1.modSch fun c =>
    { c with queues := c.queues.map fun y => (y.1, y.2.map fix),
             flows := c.flows.map fun y => (y.1, { y.2 with hold := y.2.hold.map fix, leaving := y.2.leaving.map fix }) }
  let s3 := s2.modXltDie (pdie g) fun x =>
    { x with walks := x.walks.map (fun w => { w with pkt := fix w.pkt }), fq := x.fq.map fun f => { f with pkts := f.pkts.map fix } }
  { s3 with links := s3.links.map fun x => (x.1, { x.2 with replay := x.2.replay.map fun h => { h with pkt := fix h.pkt } }) }

/-- Whether a port has a packet of which only a part has arrived. -/
def State.hasPartial (s : State) (g : Nat) : Bool :=
  (s.untagged g ++ s.tagged g).any (fun p => p.partialOf g) || s.links.any fun x => x.2.replay.any fun h => h.pkt.partialOf g

/-- The writer of a port's packets (06 R204). -/
def State.portWriter (s : State) (g : Nat) (t : Tlp) : Writer := if s.isNerov g then .nerov g t.tc t.cls else .pcie g t.cls

/-- A received packet leaves the link: the sequence number moves on, or the flits are taken (03 R79, R85). -/
def takeFromLink (g : Nat) (t : Tlp) (s : State) : State :=
  if s.isNerov g then fabricBack t (consumeFlits (pdie g) (pnum g) t.tc t.cls t.wire s)
  else if t.whole then s.modLink (pdie g) (pnum g) fun l => { l with pcieRx := (l.pcieRx + 1) % 4096 } else s

/-- A packet that a PCIe port has admitted whole uses its credits until its cells have left the ingress reservation (06 R216). -/
def useCredits (g : Nat) (t : Tlp) (cs : List Nat) (s : State) : State :=
  if s.isNerov g then s
  else
    let mine := cs.filter fun c => (s.cell (pdie g) c).ledger == some (.pciePort g t.cls)
    returnCredits g [] (takeCredits g t.cls ((t.len + 15) / 16) mine s)

/-- A packet arrives at a port (04 R112 to R115; 03 R79, R107, R108; 06 R204; 12 R450, R468, R485). A packet that fails the link's check or is out
of sequence, or one that finds no cell, is not taken: the partner sends it again; one that came before is counted. A port takes nothing while its
link is not up or the part is out of service. -/
def admitTlp (g : Nat) (t : Tlp) (seq hint : Nat) (s : State) : State :=
  let d := pdie g
  if s.portUp g ≠ true ∨ s.flt.partCase = true ∨ s.active d ≠ true then s
  else if s.isNerov g ≠ true ∧ t.crcBad = true then raise (lreg .linkErr d (pnum g)) LinkErr.CRC s
  else if s.isNerov g ≠ true ∧ (s.link d (pnum g)).pcieRx ≠ seq then
    (if ((s.link d (pnum g)).pcieRx + 4096 - seq) % 4096 < 2048 then s.count (lreg .linkCnt d (pnum g)) LinkCnt.DUPS 1 else s)
  else if t.malformed then raise (tlerr g) FltTlerr.MALFORMED (portAer g (Aer.note [] [] t.raw) (abortPartial g (takeFromLink g t s)))
  else if s.takenEarly g t then noteFormation g t (takeFromLink g t s)
  else if s.hasPartial g then
    if !t.whole then s
    else
      let inPart := (s.untagged g).any fun p => p.partialOf g
      let rest : Tlp := { t with raw := [] }
      let first := ((s.untagged g ++ s.tagged g).filter fun p => p.partialOf g).flatMap fun p => p.cells
      match if inPart then storeRecord d (s.portWriter g t) hint rest s else some ([], s) with
      | none => s
      | some (cs, s1) => useCredits g t (first ++ cs) (completePartial g t cs (noteFormation g t (takeFromLink g t s1)))
  else
    match storeRecord d (s.portWriter g t) hint (if t.whole then t else { t with payload := [], ecrc := false }) s with
    | none => s
    | some (cs, s1) =>
      let s2 := if t.whole then useCredits g t cs s1 else s1
      modHq g (fun l => l ++ [{ tlp := t, iport := g, epoch := s.newE d, cells := cs, time := s.meridian d }])
        (noteFormation g t (takeFromLink g t s2))

/-- TLP_ADMIT (04 R112). -/
def execTlpAdmit (d pp : Nat) (t : Tlp) (seq hint : Nat) (s : State) : Host.Outcome State Fault Refusal :=
  .next (if d < s.dieCount ∧ pp < 16 then admitTlp (gport d pp) t seq hint s else s)

/-! ### Containment (12 R448 to R451, R461) -/

/-- Whether a standing case applies a level to a unit. -/
def State.contained (s : State) (level : Nat) (unit : Reg → Bool) : Bool :=
  s.flt.cases.any fun x =>
    let r : Reg := { name := .fltCase0, die := x.1.1, i := x.1.2 }
    decide (level ∈ x.2.applied) && s.fld r FltCase0.VALID == 1 && unit r

/-- Whether PARTITION containment stands for a partition. -/
def State.partContained (s : State) (m : Nat) : Bool := s.contained 4 fun r => s.fld r FltCase0.PART == m

/-- Whether a translation context is contained. -/
def State.ctxContained (s : State) (x : Nat) : Bool :=
  (s.flt.dpcCtx.any fun y => y.2.2 == x) || s.contained 2 fun r => s.fld r FltCase0.UKIND == 3 && s.fld r FltCase0.UNIT == x

/-- Whether a flow context is contained. -/
def State.flowContained (s : State) (n : Nat) : Bool := s.contained 2 fun r => s.fld r FltCase0.UKIND == 2 && s.fld r FltCase0.UNIT == n

/-! ### Destinations (04 R134, R136) -/

/-- Whether XCTX is set, and the context that it names. -/
def Pkt.xctx? (p : Pkt) : Option Nat := if p.mdata.xctx / 2 ^ 15 % 2 = 1 then some (p.mdata.xctx % 4096) else none

/-- Whether a port is an upstream port of a partition. -/
def State.isUpOf (s : State) (d e m g : Nat) : Bool := s.up0 d e m == g || s.up1 d e m == some g

/-- Whether a local target code names a function that the ingress partition has (08 R283). -/
def State.localExists (s : State) (p : Pkt) (code : Nat) : Bool :=
  let d := pdie p.iport
  let e := p.epoch
  let n := s.portOwner d e p.iport
  if s.mode = 0 then code == 0 || (decide (0x80 ≤ code) && decide (code ≤ 0x83))
  else if s.mode = 7 then code == 0 || code == 2
  else s.partValid d e n &&
    (if code = 0 then true
     else if code = 1 then (s.up1 d e n).isSome
     else if code = 2 then s.isUpOf d e n p.iport
     else decide (0x80 ≤ code) && decide (code < 0xC0) && s.bindKind d e n (code - 0x80) != 0)

/-- Whether a port exists as a destination: on this member, on a die in service, FWD in this epoch, with lanes or in its grace period (04
R136, 05 R172, 12 R464). In MINIMAL the ports of die 0 are the destinations. -/
def State.portExists (s : State) (d e g : Nat) : Bool :=
  decide (pdie g < s.dieCount) && s.active (pdie g) && (s.mode == 0 || s.portFwd d e g)
    && (s.hasLanes g || (s.link (pdie g) (pnum g)).grace)

/-- The members of a port set (05 R174). -/
def State.setMembers (s : State) (d e k : Nat) : List Nat :=
  (List.range 128).filter fun g => bitOf (s.bankAt d e (0x10000 + 16 * k + 8 * (g / 64))) (g % 64)

/-- The destinations that EGRESS names; none where it names no destination (04 R134; 05 R174). A broadcast message under the transparent
program goes to every downstream port of its face. -/
def State.resolve (s : State) (p : Pkt) : Option (List Nat) :=
  let d := pdie p.iport
  let e := p.epoch
  let x := p.mdata.egress
  if (s.mode = 0 ∨ s.progOf e p.iport = 63) ∧ (p.tlp.kind = 10 ∨ p.tlp.kind = 11) ∧ p.tlp.mroute = 3 ∧ s.mode ≠ 7 ∧ p.parked = false then
    let n := if s.mode = 0 then 0 else s.portOwner d e p.iport
    let l := ((s.downPorts d e n (s.faceOfPort d e n p.iport).1).map fun k => k.2).filter fun g => s.portExists d e g
    if l.isEmpty then none else some l
  else match x / 2 ^ 14 with
    | 0 => if x / 128 = 0 ∧ s.portExists d e x = true then some [x] else none
    | 1 =>
      let l := s.setMembers d e (x % 1024)
      if x % 2 ^ 14 / 1024 = 0 ∧ l ≠ [] ∧ l.all (s.portExists d e) = true then some l else none
    | 2 => if x % 2 ^ 14 / 256 = 0 ∧ s.localExists p (x % 256) = true then some [x] else none
    | _ =>
      let w := s.bankAt d e (0x14000 + 8 * (x % 4096))
      if x % 2 ^ 14 / 4096 = 0 ∧ bitOf w 63 = true ∧ s.portExists d e (getBits w 62 56) = true then some [getBits w 62 56] else none

/-! ### Check 2 (08 R302, R303) -/

/-- What check 2 answers: the destinations, a refusal, a refusal by containment, or an ACS violation at a virtual port. -/
inductive Reached where
  | ok (dests : List Nat)
  | refuse
  | contained
  | acs (m v : Nat)
  deriving DecidableEq, Repr

/-- The partition of a packet (08 R303). -/
def State.partOf (s : State) (p : Pkt) : Nat :=
  match p.xctx? with
  | some x => s.ctxPart (pdie p.iport) p.epoch x
  | none => s.portOwner (pdie p.iport) p.epoch p.iport

/-- The virtual port of a packet: the binding that names its ingress port, or its context; none at an upstream port (08 R303). -/
def State.vpOf (s : State) (p : Pkt) (m : Nat) : Option Nat :=
  let d := pdie p.iport
  let e := p.epoch
  if p.src ≠ .port ∨ s.isUpOf d e m p.iport = true then none
  else match s.vpOfPort d e m p.iport with
    | some k => some k
    | none => match p.xctx? with
      | some x => s.vpOfCtx d e m x
      | none => none

/-- Where ACS sends a packet: a redirect to the upstream port of the face (08 R303). -/
def State.acsDest (s : State) (p : Pkt) (m v : Nat) (dests : List Nat) : List Nat :=
  let d := pdie p.iport
  let e := p.epoch
  let a := s.vport m v
  let toUp := dests.any fun g => s.isUpOf d e m g
  let up := match s.upOf d e m (s.bindFace d e m v) with
    | some g => [g]
    | none => dests
  if a.rr = true ∧ p.tlp.isMem = true ∧ toUp = false ∧ ¬ (a.dt = true ∧ p.tlp.atype = 2) then up
  else if a.cr = true ∧ p.tlp.cls = 2 ∧ p.tlp.attr / 2 % 2 = 0 ∧ toUp = false then up
  else if a.uf = true ∧ dests = [p.iport] then up
  else dests

/-- Whether a destination port lies in the reach of a partition (08 R302, R303). -/
def State.mayReach (s : State) (d e m g : Nat) : Bool :=
  if 128 ≤ g then true
  else
    let n := s.portOwner d e g
    s.reach d e m g && (n == m || (n != 0x3F && s.peers d e m n && !(s.portIsUp d e g)))

/-- Check 2 of 04 R136 (08 R303). A DMA channel is an ingress that every partition reaches and that has no binding (09 R345). -/
def State.check2 (s : State) (p : Pkt) (dests : List Nat) : Reached :=
  let d := pdie p.iport
  let e := p.epoch
  let m := s.partOf p
  if s.mode = 0 ∨ s.mode = 7 then .ok dests
  else if s.partContained m then .contained
  else if m = 0x3F ∨ s.partValid d e m = false then .refuse
  else if p.src = .port ∧ s.portOwner d e p.iport ≠ m ∧ s.reach d e m p.iport = false then .refuse
  else match s.vpOf p m with
    | none => if dests.all (s.mayReach d e m) then .ok dests else .refuse
    | some v =>
      let a := s.vport m v
      let bus := p.tlp.rid / 256
      if a.sv = true ∧ ¬ (a.sec ≤ bus ∧ bus ≤ a.sub) then .acs m v
      else if a.tb = true ∧ p.tlp.cls ≠ 2 ∧ p.tlp.atype ≠ 0 then .acs m v
      else
        let l := s.acsDest p m v dests
        if l.all (s.mayReach d e m) then .ok l else .refuse

/-! ### The checks of forwarding entry (04 R136) -/

/-- What the checks decide: the packet with its destinations, or a refusal with its reason code, the FRET.ERR bit and the virtual port of an
ACS violation. -/
inductive Checked where
  | ok (p : Pkt)
  | refuse (reason : Nat) (bit : Option Field) (acs : Option (Nat × Nat))
  deriving DecidableEq, Repr

/-- The checks 1 and 2. -/
def State.checkDest (s : State) (p : Pkt) : Checked :=
  match s.resolve p with
  | none => .refuse 0xFF01 (some FretErr.BADEGRESS) none
  | some l =>
    match s.check2 p l with
    | .ok l2 => .ok { p with dests := l2 }
    | .contained => .refuse 0xFF21 none none
    | .refuse => .refuse 0xFF02 (some FretErr.ISOLATION) none
    | .acs m v => .refuse 0xFF02 (some FretErr.ISOLATION) (some (m, v))

/-- The checks of 04 R136, in order. -/
def State.checks (s : State) (p : Pkt) : Checked :=
  let mode := s.modeOf p
  match s.checkDest p with
  | .ok q =>
    if p.flow?.any (fun n => decide (n / flowsPerDie ≠ pdie p.iport)) then .refuse 0xFF03 (some FretErr.FLOWDIE) none
    -- DESIGN CHOICE: an XCTX whose bits [14:12] are not 0, for which 04 R133 names no consequence, fails check 4 (log entry 77).
    else if (p.xctx?.isSome = true ∧ (¬ (mode = 4 ∨ mode = 5) ∨ p.mdata.xctx / 4096 % 8 ≠ 0)) ∨ (p.mdata.egress / 2 ^ 14 = 3 ∧ mode ≠ 5)
        ∨ (p.verdict = 2 ∧ p.flow? = none) then .refuse 0xFF04 (some FretErr.BADMETA) none
    else .ok q
  | x => x

/-- A packet is refused at forwarding entry: a check sets its FRET.ERR bit and counts in HWREF; a containment counts in CONTAINED (04 R136,
12 R486). -/
def entryRefuse (p : Pkt) (reason : Nat) (bit : Option Field) (acs : Option (Nat × Nat)) (s : State) : State :=
  let g := p.iport
  let s1 := match bit with
    | some f => (raise (preg .fretErr g) f s).count (preg .fretHwref g) FretHwref.COUNT 1
    | none => s.count (preg .fltPcnt g) FltPcnt.CONTAINED 1
  let s2 := match acs with
    | some (m, v) => s1.modVport m v fun x => { x with aer := x.aer.note [21] [] [] }
    | none => s1
  refusePkt { p with verdict := 3, reason := reason } (reason.testBit 15) s2

/-! ### Policing and tagging -/

/-- The tags of a stream class toward a destination that are given and not reported released, with the packets that will take one. -/
def State.tagsTaken (s : State) (p : Pkt) (dest : Nat) : Nat :=
  let q : Pkt := { p with egress := dest }
  s.outst q + ((s.fret.toTag.get [] p.iport).filter fun x => decide (dest ∈ x.dests) && x.tlp.tc == p.tlp.tc && x.tlp.cls == p.tlp.cls).length

/-- The resolved egresses of a packet that passes the checks (04 R145). -/
def State.destsOf (s : State) (p : Pkt) : List Nat := match s.checks p with | .ok q => q.dests | _ => []

/-- Whether a packet has to wait for a tag: 4,096 of a stream class are tagged and not reported released (04 R148). -/
def State.tagFull (s : State) (p : Pkt) : Bool := (s.destsOf p).any fun x => decide (4096 ≤ s.tagsTaken p x)

/-- Whether two packets of a port belong to one stream (04 R145). -/
def State.sameStream (s : State) (p q : Pkt) : Bool := p.tlp.tc == q.tlp.tc && (s.destsOf p).any fun x => decide (x ∈ s.destsOf q)

/-- After translation: FLOW containment, policing, and the wait for a tag (04 R137; 12 R449). -/
def entryPolice (p : Pkt) (s : State) : State :=
  if p.flow?.any s.flowContained then entryRefuse p 0xFF20 none none s
  else match police (pdie p.iport) p s with
    | (.pass q, t) => t.modFret fun x => { x with toTag := x.toTag.set p.iport (x.toTag.get [] p.iport ++ [q]) }
    | (.refuse q, t) => refusePkt q false t

/-- Every copy of a packet gets its tag: its cells leave the writer's ledger, an FWDM copy is made, further members take further
references (04 R145, R147; 06 R215, R220). -/
def tagMembers (p : Pkt) (s : State) : List Pkt × State :=
  let d := pdie p.iport
  let k := if p.dests.length ≤ 1 then 0 else s.fret.group + 1
  let s0 := if k = 0 then s else s.modFret fun x => { x with group := k }
  let s1 := mirrorFlow p (settleCells d p.cells s0)
  p.dests.zipIdx.foldl (fun acc x =>
    let q0 := fixQueue { p with egress := x.1, copy := x.2, group := k } acc.2
    let q : Pkt := { q0 with cutThrough := acc.2.cutAllowed q0 }
    let r := giveTag q acc.2
    (acc.1 ++ [r.1], if x.2 = 0 then r.2 else addCells d p.cells r.2)) ([], s1)

/-- The next packet of a port that waits for its tag gets it, and goes to its egress or its hold queue (04 R145, R148). -/
def tagNext (g : Nat) (s : State) : State :=
  match s.fret.toTag.get [] g with
  | [] => s
  | p :: rest =>
    let r := tagMembers p (s.modFret fun x => { x with toTag := x.toTag.set g rest })
    r.2.forAll r.1 placeTagged

/-- TLP_TAG (04 R145). -/
def execTlpTag (d pp : Nat) (s : State) : Host.Outcome State Fault Refusal := .next (tagNext (gport d pp) s)

/-! ### Translation faults (09 R337 to R340) -/

/-- The registers of a page request instance. -/
def prec0 (d i : Nat) : Reg := { name := .xltPrec0, die := d, i := i }
def prec1 (d i : Nat) : Reg := { name := .xltPrec1, die := d, i := i }

/-- The Page Request message of a management endpoint (09 R339). -/
def pageRequest (s : State) (n f x va tag : Nat) (rd wr : Bool) : Tlp :=
  { kind := 10, mcode := 4, mroute := 0, addr := va / 4096 * 4096 + tag * 8 + 4 + 2 * b2n wr + b2n rd, rid := s.endpointId n f,
    pasid := if (s.face n f).pasidEn then x else 0, pv := b2n (s.face n f).pasidEn, raw := List.replicate 12 0 }

/-- A page request instance is raised (09 R339, R340, R359): none where the hardware-mode action comes at once. -/
def raisePrec (d x va : Nat) (w0 : Word) (rd wr : Bool) (cause : Nat) (chan : Option Nat) (s : State) : Option (Nat × State) :=
  let n := getBits w0 62 57
  let f := getBits w0 52 52
  let mode := s.assist PartAssist.XLTF
  let mode := if chan.isSome then s.assist PartAssist.DMAF else mode
  let fc := s.face n f
  let ready := mode ≠ 1 ∨ ((s.upOf d (s.newE d) n f).isSome = true ∧ fc.priEn = true ∧ 0 < fc.priAlloc)
  match firstBelow (fun i => s.fld (prec0 d i) XltPrec0.VALID == 0) 64 with
  | none => none
  | some i =>
    if ready then
      let tag := nextTag 511 (s.xltDie d).precTag
      let v := XltPrec0.VALID.place 1 + XltPrec0.SRC.place (b2n chan.isSome) + XltPrec0.RD.place (b2n rd) + XltPrec0.WR.place (b2n wr)
        + XltPrec0.TAG.place tag + XltPrec0.PART.place n + XltPrec0.CTX.place x + XltPrec0.CHAN.place (chan.getD 0)
      let s1 := (s.setReg (prec0 d i) (BitVec.ofNat 64 v)).setReg (prec1 d i)
        (BitVec.ofNat 64 (XltPrec1.ADDR.place (va / 4096) + XltPrec1.CAUSE.place cause))
      let s2 := s1.modXltDie d fun y =>
        { y with precTag := tag, precMode := y.precMode.set i mode, precExpired := y.precExpired.filter (· != tag) }
      let s3 := match s.upOf d (s.newE d) n f with
        | some g => if mode = 1 then originate g (pageRequest s n f x va tag rd wr) (s2.modFace n f fun z => { z with priAlloc := z.priAlloc - 1 }) else s2
        | none => s2
      some (i, deliverVerdict d 994 mode n s3)
    else none

/-- The instance of an entry ends; the endpoint's allocation is free again. -/
def endPrec (d i : Nat) (s : State) : State :=
  let n := s.fld (prec0 d i) XltPrec0.PART
  let x := s.fld (prec0 d i) XltPrec0.CTX
  let f := getBits (s.ctxWord d (s.newE d) x 0) 52 52
  let s1 := if (s.xltDie d).precMode.get 0 i = 1 then s.modFace n f fun z => { z with priAlloc := z.priAlloc + 1 } else s
  ((s1.setReg (prec0 d i) 0).setReg (prec1 d i) 0).modXltDie d fun y => { y with precMode := y.precMode.erase i }

/-- A tagged packet is refused on its ingress die with a reason code: its requester is answered, each copy's tag is released without delivery
(09 R337). -/
def refuseTagged (reason : Nat) (ps : List Pkt) (s : State) : State :=
  match ps with
  | [] => s
  | p :: _ =>
    let q : Pkt := { p with verdict := 3, reason := reason }
    ps.foldl (fun t q => retireTag q (dropCells (pdie q.iport) q.cells t)) (refuseAnswer q (reason.testBit 15) (logReason q s))

/-- A packet leaves the translation fault queue with its address (09 R337): policed, then to its egress. -/
def fqForward (d : Nat) (f : FaultEntry) (addr : Nat) (s : State) : State :=
  match f.pkts with
  | [] => s
  | p :: _ =>
    if p.flow?.any s.flowContained then
      refuseTagged 0xFF20 f.pkts (s.count (preg .fltPcnt p.iport) FltPcnt.CONTAINED 1)
    else match police d { p with tlp := { p.tlp with addr := addr } } s with
      | (.refuse _, t) => refuseTagged 0 f.pkts t
      | (.pass q, t) =>
        t.forAll f.pkts fun c => placeTagged
          { c with tlp := q.tlp, colour := q.colour, hold := q.hold, fctx := [],
                   queue := (match q.demq with | some dq => max c.queue dq | none => c.queue),
                   demoted := (match q.demq with | some dq => decide (c.queue < dq) | none => false) }

/-- An entry is taken out of the fault queue. -/
def dropFq (d : Nat) (f : FaultEntry) (s : State) : State := s.modXltDie d fun y => { y with fq := y.fq.erase f }

/-- A fault in the queue raises a further instance, or the packet is refused (09 R339, R340). -/
def fqFault (d : Nat) (f : FaultEntry) (cause : Nat) (s : State) : State :=
  let s0 := s.count (dreg .xltCnt d) XltCnt.FAULTS 1
  let s1 := match f.pkts with
    | p :: _ => raiseTied (dreg .xltErr d) XltErr.FAULT (s.refOf p) s0
    | [] => raise (dreg .xltErr d) XltErr.FAULT s0
  let refuse := fun (t : State) => refuseTagged 0x7F24 f.pkts (dropFq d f t)
  if s1.assist PartAssist.XLTF = 0 ∨ s1.fld (dreg .xltCfg d) XltCfg.RETRY ≤ f.tries then refuse s1
  else match raisePrec d f.ctx f.va f.w0 f.rd f.wr cause none s1 with
    | some (i, t) => t.modXltDie d fun y => { y with fq := y.fq.map fun g => if g = f then { f with tries := f.tries + 1, prec := some i, walk := none } else g }
    | none =>
      refuse (if (firstBelow (fun i => s1.fld (prec0 d i) XltPrec0.VALID == 0) 64).isNone then raise (dreg .xltErr d) XltErr.PRQFULL s1 else s1)

/-- A packet enters the fault queue tagged, with a copy of the context words that it still needs (05 R191, 09 R337). -/
def enterFq (d : Nat) (p : Pkt) (f : FaultEntry) (s : State) : State :=
  let copy := match p.flow? with
    | none => []
    | some n =>
      let c := s.flowCtx d p.epoch n
      (List.range 4).map (s.flowWord d p.epoch n) ++ (List.range 4).map (s.flowWord d p.epoch (d * flowsPerDie + c.nxt))
  let r := tagMembers { p with fctx := copy } s
  r.2.modXltDie d fun y => { y with fq := y.fq ++ [{ f with pkts := r.1 }] }

/-- A translation fault of an untagged packet (09 R337 to R340). -/
def pktFault (d : Nat) (p : Pkt) (x va : Nat) (w0 w1 : Word) (rd wr : Bool) (cause : Nat) (s : State) : State :=
  let s1 := raiseTied (dreg .xltErr d) XltErr.FAULT (s.refOf p) (s.count (dreg .xltCnt d) XltCnt.FAULTS 1)
  let hard := fun (t : State) => refusePkt { p with verdict := 3, reason := 0x7F24 } false t
  if s1.assist PartAssist.XLTF = 0 then hard s1
  else if 256 ≤ (s1.xltDie d).fq.length then hard (raise (dreg .xltErr d) XltErr.FQFULL s1)
  else match raisePrec d x va w0 rd wr cause none s1 with
    | some (i, t) => enterFq d p { pkts := [], ctx := x, va := va, rd := rd, wr := wr, tries := 1, prec := some i, w0 := w0, w1 := w1 } t
    | none =>
      hard (if (firstBelow (fun i => s1.fld (prec0 d i) XltPrec0.VALID == 0) 64).isNone then raise (dreg .xltErr d) XltErr.PRQFULL s1 else s1)

/-! ### Translation of a packet (09 R325 to R327, R336) -/

/-- Whether a request reads, and whether it writes (09 R324). -/
def Tlp.reads (t : Tlp) : Bool := t.kind == 1 || t.kind == 2 || t.kind == 14
def Tlp.writes (t : Tlp) : Bool := t.kind == 0 || t.kind == 2 || t.kind == 3

/-- What translation makes of a packet before any walk: go on, walk an address, or refuse with a reason code and an XLT.ERR bit. -/
inductive Xlated where
  | pass (p : Pkt)
  | walk (p : Pkt) (va : Nat)
  | refuse (reason : Nat) (bit : Option Field)
  deriving DecidableEq, Repr

/-- A memory request mapped by the window records (09 R324, R326). -/
def State.mapWindow (s : State) (p : Pkt) (w0 w1 : Word) (useWalk : Bool) : Xlated :=
  let d := pdie p.iport
  match s.window d p.epoch w1 p.tlp.addr with
  | none => .refuse 0x7F21 (some XltErr.NOWIN)
  | some w =>
    if (p.tlp.reads = true ∧ w.rd = false) ∨ (p.tlp.writes = true ∧ w.wr = false) then .refuse 0x7F22 (some XltErr.NOWIN)
    else
      let q : Pkt := { p with tlp := { p.tlp with addr := w.addr }, mdata := { p.mdata with egress := w.egress } }
      if useWalk ∧ w.pt = true ∧ getBits w0 54 53 ≠ 0 then .walk q w.addr else .pass q

/-- The table of 09 R325, with the address translation services of R336. -/
def State.translate (s : State) (p : Pkt) (x : Nat) : Xlated :=
  let d := pdie p.iport
  let e := p.epoch
  let w0 := s.ctxWord d e x 0
  let w1 := s.ctxWord d e x 1
  let t := p.tlp
  let ptw := getBits w0 54 53
  let vrid := getBits w0 47 32
  let prid := getBits w0 31 16
  if getBits w0 56 55 ≠ 2 ∧ t.isMem = true ∧ (t.atype = 1 ∨ t.atype = 2) ∧ ptw ≠ 0 then .refuse 0x7F23 (some XltErr.ATS)
  else match getBits w0 56 55 with
    | 0 =>
      if t.cls = 2 then
        if t.cid = prid then .pass { p with tlp := { t with cid := vrid } }
        else if t.rid = vrid then .pass { p with tlp := { t with rid := prid, tid := prid } }
        else .pass p
      else if t.rid = prid then
        let q : Pkt := { p with tlp := { t with rid := vrid } }
        if t.isMem = true ∧ t.atype = 0 ∧ ptw ≠ 0 then .walk q t.addr else .pass q
      else if t.isMem then s.mapWindow p w0 w1 false
      else if (t.kind = 10 ∨ t.kind = 11) ∧ t.mroute = 2 ∧ t.tid = vrid then .pass { p with tlp := { t with tid := prid } }
      else .pass p
    | 1 => if t.isMem then s.mapWindow p w0 w1 true else .pass p
    | _ => .refuse 0x7F20 none

/-- When translation changes EGRESS, checks 1 and 2 are applied again (09 R327). -/
def State.recheck (s : State) (old : Pkt) (p : Pkt) : Checked := if p.mdata.egress = old.mdata.egress then .ok { p with dests := old.dests } else s.checkDest p

/-- A packet that the checks passed is translated, policed and put before tagging (04 R137). `ptbad` is an uncorrectable page-table word,
which is fetched again (09 R332). -/
def entryXlt (p : Pkt) (ptbad : Bool) (s : State) : State :=
  let d := pdie p.iport
  match p.xctx? with
  | none => entryPolice p s
  | some x =>
    let w0 := s.ctxWord d p.epoch x 0
    let w1 := s.ctxWord d p.epoch x 1
    if s.ctxContained x then entryRefuse p 0x7F20 none none s
    else if s.ctxValid d p.epoch x = false then refusePkt { p with verdict := 3, reason := 0x7F20 } false s
    else match s.translate p x with
      | .refuse r b =>
        refusePkt { p with verdict := 3, reason := r } false
          (match b with | some f => raiseTied (dreg .xltErr d) f (s.refOf p) s | none => s)
      | .pass q =>
        (match s.recheck p q with
         | .ok q2 => entryPolice q2 s
         | .refuse r b a => entryRefuse q r b a s)
      | .walk q va =>
        (match s.recheck p q with
         | .refuse r b a => entryRefuse q r b a s
         | .ok q2 =>
           match xltWalk ptbad d p.epoch x va w0 w1 q.tlp.reads q.tlp.writes (.tlp p.iport) q2 s with
           | (.done a, t) => entryPolice { q2 with tlp := { q2.tlp with addr := a } } t
           | (.fault c, t) => pktFault d q2 x va w0 w1 q.tlp.reads q.tlp.writes c t
           | (.waits _, t) => t)

/-! ### Forwarding entry -/

/-- Whether a packet is an error message of a device (12 R462). -/
def Tlp.isErrMsg (t : Tlp) : Bool := (t.kind == 10 || t.kind == 11) && (t.mcode == 0x30 || t.mcode == 0x31 || t.mcode == 0x33)

/-- An error message is recorded as the virtual port's receipt of it (12 R462). -/
def noteErrMsg (p : Pkt) (s : State) : State :=
  if p.tlp.isErrMsg then
    match s.vpOf p (s.partOf p) with
    | some v => s.modVport (s.partOf p) v fun x => { x with errMsgs := x.errMsgs ++ [p.tlp.mcode] }
    | none => s
  else s

/-- A type 1 configuration request toward the bus below a PORT-bound virtual port becomes type 0; none where it has to be refused (08
R297). -/
def State.cfgConvert (s : State) (p : Pkt) : Option Pkt :=
  let d := pdie p.iport
  let t := p.tlp
  if t.kind ≠ 8 ∧ t.kind ≠ 9 then some p
  else match p.dests with
    | [g] =>
      let m := if s.mode = 0 then 0 else s.partOf p
      (match (s.downPorts d p.epoch m (s.faceOfPort d p.epoch m p.iport).1).find? fun k => k.2 == g with
       | some (v, _) =>
         if t.tid / 256 ≠ (s.vport m v).sec then some p
         else if t.tid / 8 % 32 ≠ 0 ∧ (s.vport m v).ari = false then none
         else some { p with tlp := { t with kind := t.kind - 2 } }
       | none => some p)
    | _ => some p

/-- The message of a port that nobody owns goes to the BMC as an event, whose number the spec does not give (12 R462; log entry 20). -/
def bmcErrMsg (p : Pkt) (s : State) : State :=
  let d := pdie p.iport
  releaseIngress p (toBmc (noCaseMsg s d (s.freeWord.toNat % 1024) 0xFF) s.drew)

/-- A packet passes forwarding entry (04 R136, R137). -/
def forwardEntry (p : Pkt) (ptbad : Bool) (s : State) : State :=
  if p.tlp.isErrMsg = true ∧ p.xctx? = none ∧ s.portOwner (pdie p.iport) p.epoch p.iport = 0x3F ∧ s.mode ≠ 0 then bmcErrMsg p s
  else match s.checks p with
    | .refuse r b a => entryRefuse p r b a (mirrorIngress p true s)
    | .ok q =>
      let s1 := noteErrMsg q (mirrorIngress q false s)
      match s1.cfgConvert q with
      | none => refusePkt { q with verdict := 3, reason := 0 } false s1
      | some q2 => entryXlt q2 ptbad s1

/-- The first packet past the verdict stage that need not wait for a tag, nor behind one of its stream that waits and that it must not pass (04 R145,
R148). -/
def State.pickDecided (s : State) : List Pkt → List Pkt → Option (Pkt × List Pkt)
  | [], _ => none
  | p :: r, waits =>
    if s.tagFull p = true ∨ waits.any (fun q => (holdsBack q p || q.tlp.cls == p.tlp.cls) && s.sameStream q p) = true then
      match s.pickDecided r (waits ++ [p]) with
      | some (x, rest) => some (x, p :: rest)
      | none => none
    else some (p, r)

/-- The next decided packet of a port passes forwarding entry. -/
def forwardNext (g : Nat) (ptbad : Bool) (s : State) : State :=
  match s.pickDecided (s.fret.decided.get [] g) [] with
  | none => s
  | some (p, rest) => forwardEntry p ptbad (s.modFret fun x => { x with decided := x.decided.set g rest })

/-- TLP_FORWARDING_ENTRY (04 R136). -/
def execTlpForwardingEntry (d pp : Nat) (ptbad : Bool) (s : State) : Host.Outcome State Fault Refusal :=
  .next (if d < s.dieCount ∧ pp < 16 then forwardNext (gport d pp) ptbad s else s)

/-! ### Restamping (05 R190) -/

/-- Old-epoch packets of a port that wait for a tag, and those of the same stream class behind them. -/
def State.restamped (s : State) (now : Nat) : List Pkt → List Pkt → List Pkt × List Pkt
  | [], _ => ([], [])
  | p :: r, waits =>
    let same := waits.any fun q => q.tlp.cls == p.tlp.cls && s.sameStream q p
    if same = true ∨ (olderEpoch p.epoch now = true ∧ s.tagFull p = true) then
      let x := s.restamped now r (p :: waits)
      (p :: x.1, x.2)
    else
      let x := s.restamped now r waits
      (x.1, p :: x.2)

/-- From 10 µs after a flip the waiting packets of the older epoch return to the head of the header queue under the port's current epoch
(05 R190). -/
def restamp (g : Nat) (s : State) : State :=
  let d := pdie g
  if (s.tabDie d).older.isNone then s
  else
    let x := s.restamped (s.newE d) (s.fret.decided.get [] g) []
    let fresh := x.1.map fun p => ({ p with epoch := s.newE d, mdata := {}, verdict := 0, reason := 0 } : Pkt)
    (modHq g (fun l => fresh ++ l) (s.modFret fun y => { y with decided := y.decided.set g x.2 })).count (dreg .tabCnt d) TabCnt.RESTAMPS x.1.length

/-- RESTAMP (05 R190). -/
def execRestamp (d pp : Nat) (s : State) : Host.Outcome State Fault Refusal := .next (restamp (gport d pp) s)

/-! ### Slow translations (05 R191, 09 R334) -/

/-- A translation that has not finished within 4 µs: the packet enters the fault queue tagged and its walk goes on there; where the queue is
full it is refused as in hardware mode (09 R340). -/
def translationSlow (g : Nat) (s : State) : State :=
  let d := pdie g
  match (s.xltDie d).walks.find? fun w => w.who == .tlp g && !w.queued with
  | none => s
  | some w =>
    let drop := fun (t : State) => t.modXltDie d fun y => { y with walks := y.walks.filter fun v => v.id != w.id }
    let slow := raiseTied (dreg .xltErr d) XltErr.SLOW (s.refOf w.pkt)
    if 256 ≤ (s.xltDie d).fq.length then
      refusePkt { w.pkt with verdict := 3, reason := 0x7F24 } false (drop (raise (dreg .xltErr d) XltErr.FQFULL (slow s)))
    else
      let s1 := slow
        (s.modXltDie d fun y => { y with walks := y.walks.map fun v => if v.id = w.id then { v with queued := true, pkt := {} } else v })
      enterFq d w.pkt { pkts := [], ctx := w.ctx, va := w.va, rd := w.rd, wr := w.wr, walk := some w.id, w0 := w.w0, w1 := w.w1 } s1

/-- TRANSLATION_SLOW (05 R191). -/
def execTranslationSlow (d pp : Nat) (s : State) : Host.Outcome State Fault Refusal := .next (translationSlow (gport d pp) s)

/-- The end of a walk for a packet: it goes on at forwarding entry, or leaves the fault queue (09 R337, R339). -/
def pktWalkEnd (d : Nat) (w : Walk) (r : XRes) (s : State) : State :=
  if w.queued then
    match (s.xltDie d).fq.find? fun f => f.walk == some w.id with
    | none => s
    | some f =>
      match r with
      | .done a => fqForward d f a (dropFq d f s)
      | .fault c => fqFault d f c s
      | .waits _ => s
  else match r with
    | .done a => entryPolice { w.pkt with tlp := { w.pkt.tlp with addr := a } } s
    | .fault c => pktFault d w.pkt w.ctx w.va w.w0 w.w1 w.rd w.wr c s
    | .waits _ => s

/-- The walk of a packet in the fault queue runs again after Success (09 R339). -/
def fqRetry (bad : Bool) (d : Nat) (f : FaultEntry) (s : State) : State :=
  match f.pkts with
  | [] => s
  | p :: _ =>
    match xltWalk bad d p.epoch f.ctx f.va f.w0 f.w1 f.rd f.wr (.tlp p.iport) {} s with
    | (.done a, t) => fqForward d f a (dropFq d f t)
    | (.fault c, t) => fqFault d f c t
    | (.waits id, t) =>
      t.modXltDie d fun y =>
        { y with fq := y.fq.map (fun g => if g = f then { f with prec := none, walk := some id } else g),
                 walks := y.walks.map fun v => if v.id = id then { v with queued := true } else v }

end Sys2Proof.Machine
end

