-- ==== Sys2Proof/Machine/Dma.lean ====
section
/-! DEFINITION. The DMA engines (09 R341 to R354), the verdicts of page request instances (09 R339, R352, R358), and the completions of
walks in host memory (09 R329). -/

namespace Sys2Proof.Machine

/-! ### Channels -/

/-- A register of a channel. -/
def chReg (n : RegName) (d c : Nat) : Reg := { name := n, die := d, i := c }

/-- The owner of a channel. -/
def State.chOwner (s : State) (d c : Nat) : Nat := s.fld (chReg .dmaChCfg d c) DmaChCfg.OWNER

/-- Whether a channel is enabled. -/
def State.chOn (s : State) (d c : Nat) : Bool := s.fld (chReg .dmaChCtl d c) DmaChCtl.ENABLE == 1

/-- Whether an endpoint instance of a partition lets its channels run: in D0 with Bus Master Enable set (08 R309). -/
def State.endpointRuns (s : State) (d n : Nat) : Bool :=
  (List.range 2).any fun f => (s.upOf d (s.newE d) n f).isSome && (s.face n f).dstate == 0 && (s.face n f).bme

/-- Whether a channel may run in the present mode (09 R341; 08 R308, R309; 12 R451). -/
def State.chMayRun (s : State) (d c : Nat) : Bool :=
  let o := s.chOwner d c
  s.active d && !s.flt.partCase &&
    (if o = 0x3E then forwarding s.fwdMode
     else decide (o < 32) && !(decide (o ∈ s.par.flr)) && (s.fwdMode == 4 || s.fwdMode == 5) && s.endpointRuns d o && !(s.partContained o))

/-- Whether the drain toward PARTITIONED stops channels (05 R194). -/
def State.chDrain (s : State) : Bool := s.tab.drain == some 3

/-- The descriptors of a channel's ring. -/
def State.ringSize (s : State) (d c : Nat) : Nat := 2 ^ (s.fld (chReg .dmaChRing d c) DmaChRing.SIZE + 4)

/-- HEAD and TAIL as ring indexes. -/
def State.ringHead (s : State) (d c : Nat) : Nat := s.fld (chReg .dmaChRing d c) DmaChRing.HEAD % s.ringSize d c
def State.ringTail (s : State) (d c : Nat) : Nat := s.fld (chReg .dmaChRing d c) DmaChRing.TAIL % s.ringSize d c

/-- Fields of a descriptor (09 R343). -/
def Desc.word (x : Desc) (i : Nat) : Word := x.words.getD i 0
def Desc.op (x : Desc) : Nat := getBits (x.word 0) 63 60
def Desc.irq (x : Desc) : Bool := bitOf (x.word 0) 59
def Desc.fence (x : Desc) : Bool := bitOf (x.word 0) 58
def Desc.wantsBack (x : Desc) : Bool := bitOf (x.word 0) 57
def Desc.seq (x : Desc) : Bool := bitOf (x.word 0) 56
def Desc.sctx (x : Desc) : Nat := getBits (x.word 0) 43 32
def Desc.len (x : Desc) : Nat := getBits (x.word 0) 31 0
def Desc.src (x : Desc) : Nat := (x.word 1).toNat
def Desc.dst (x : Desc) : Nat := (x.word 2).toNat
def Desc.dctx (x : Desc) : Nat := getBits (x.word 3) 43 32

/-- Whether a descriptor breaks a rule of BADDESC (09 R344). -/
def Desc.bad (x : Desc) : Bool :=
  !(x.op == 1 || x.op == 2) || x.len == 0 || decide (2 ^ 30 < x.len) || getBits (x.word 0) 55 44 != 0 || getBits (x.word 3) 63 44 != 0
    || x.word 4 != 0 || x.word 5 != 0

/-- A chunk's number in the packets that carry it: the ring index of its descriptor above 22 bits of chunk number. -/
def chunkId (index k : Nat) : Nat := index * 2 ^ 22 + k

/-- The number that packets of ring accesses and read backs carry, which belong to no descriptor's writes. -/
def ringId : Nat := 65536 * 2 ^ 22

/-- The next read tag of a die. -/
def takeTag (d : Nat) (s : State) : Nat × State :=
  let t := (s.dma.tag.get 0 d + 1) % 2 ^ 14
  (t, { s with dma := { s.dma with tag := s.dma.tag.set d t } })

/-! ### Packets of a channel (09 R345, R349, R350) -/

/-- The traffic class of a channel. -/
def State.chTc (s : State) (d c : Nat) : Nat := s.fld (chReg .dmaChCtl d c) DmaChCtl.TC

/-- The requester ID of a channel's request toward a port: the endpoint of the face whose upstream port it is, else that of face 0 of the
context's partition. -/
def State.chRid (s : State) (d e n g : Nat) : Nat :=
  if s.up1 d e n = some g then s.endpointId n 1 else s.endpointId n 0

/-- A packet of a channel is stored in the channel's cells, tagged, and goes to its egress; none when a cell or a tag is missing (04 R148;
06 R204, R208; 09 R349). -/
def sendDma (d c k epoch dest hint : Nat) (mdata : Meta) (t : Tlp) (s : State) : Option State :=
  match storeRecord d (.dma d c) hint t s with
  | none => none
  | some (cs, s1) =>
    let p0 : Pkt := { tlp := t, src := .dma d c k, iport := gport d 0, epoch := epoch, mdata := mdata, egress := dest, cells := cs,
                      time := s.meridian d }
    if 4096 ≤ s1.outst p0 then none
    else
      let r := giveTag (fixQueue p0 s1) (settleCells d cs s1)
      some (toEgress r.1 r.2)

/-- The destinations of a channel's access under a context, by checks 1 and 2 (09 R345): none when they refuse it. -/
def State.chDests (s : State) (d epoch ctx egress : Nat) : Option (List Nat) :=
  match s.checkDest { src := .dma d 0 0, iport := gport d 0, epoch := epoch, mdata := { egress := egress, xctx := 0x8000 + ctx } } with
  | .ok q => some q.dests
  | .refuse _ _ _ => none

/-- The reads of a piece go out, each with its own tag (09 R345, R350); none when one cannot be sent. -/
def readPiece (d c k epoch ctx hint : Nat) (x : Piece) (s : State) : Option (List DmaRead × State) :=
  match s.chDests d epoch ctx x.egress with
  | none => none
  | some l =>
    let g := l.headD 0
    (cutAt (max 4 (Config.maxRead g)) 256 0 x.len).foldl (fun acc y =>
      match acc with
      | none => none
      | some (rs, t) =>
        let tg := takeTag d t
        let q : Tlp := { kind := 1, addr := x.addr + y.1, tc := t.chTc d c, rid := t.chRid d epoch (t.ctxPart d epoch ctx) g, tag := tg.1,
                         reqLen := y.2, raw := List.replicate 12 0, be := 0xFF }
        (match sendDma d c k epoch g hint { egress := x.egress, xctx := 0x8000 + ctx } q tg.2 with
         | none => none
         | some t2 => some (rs ++ [{ tag := tg.1, off := x.off + y.1, len := y.2 }], t2))) (some ([], s))

/-- The writes of a piece go out with their data, to every destination (09 R345, R346); none when one cannot be sent. Answers how many
packets were made. -/
def writePiece (d c k epoch ctx hint : Nat) (x : Piece) (data : List Byte) (s : State) : Option (Nat × State) :=
  match s.chDests d epoch ctx x.egress with
  | none => none
  | some l =>
    l.foldl (fun acc g =>
      (cutAt (max 4 (Config.maxPayload g)) 256 0 x.len).foldl (fun acc y =>
        match acc with
        | none => none
        | some (n, t) =>
          let q : Tlp := { kind := 0, addr := x.addr + y.1, tc := t.chTc d c, rid := t.chRid d epoch (t.ctxPart d epoch ctx) g,
                           payload := (data.drop (x.off + y.1)).take y.2, raw := List.replicate 12 0, be := 0xFF }
          (match sendDma d c k epoch g hint { egress := x.egress, xctx := 0x8000 + ctx } q t with
           | none => none
           | some t2 => some (n + 1, t2))) acc) (some (0, s))

/-! ### The end of a descriptor (09 R344, R351, R353) -/

/-- The DMA.ERR bit of a status. -/
def statusBit (st : Nat) : Option Field :=
  match st with
  | 1 => some DmaErr.TRANSLATION
  | 2 => some DmaErr.SRCERR
  | 3 => some DmaErr.DSTREFUSED
  | 4 => some DmaErr.BADDESC
  | 6 => some DmaErr.CTXDENIED
  | _ => none

/-- The reads of a channel's chunks are given up, from a chunk on: their completions are discarded, coded as `how` says. -/
def ChanSt.giveUp (x : ChanSt) (from_ how : Nat) : ChanSt :=
  { x with late := x.late ++ ((x.chunks.filter fun y => decide (from_ ≤ y.k)).flatMap fun y =>
             (y.reads.filter fun r => r.data.isNone).map fun r => (r.tag, how)),
           chunks := x.chunks.filter fun y => decide (y.k < from_) }

/-- The running descriptor ends with a status: it waits for its completion record; HEAD moves on unless the channel was stopped. -/
def endDesc (d c st bytes : Nat) (s : State) : State :=
  match (s.chan d c).run with
  | none => s
  | some x =>
    let s1 := s.modChan d c fun y =>
      { y with run := none, next := 0, committed := 0, last := [], fault := none, what := none, parked := false, tries := 0, mode := 0,
               xlating := none, endings := y.endings ++ [{ desc := x, status := st, bytes := bytes, last := y.last }] }
    let s2 := if st = 4 then s1.count (dreg .dmaCnt d) DmaCnt.FAULTS 1 else s1
    let s3 := match statusBit st with
      | some f => if st = 1 then s2 else raiseChan d c f s2
      | none => s2
    let s4 := s3.setFld (chReg .dmaChStat d c) DmaChStat.FTAG 0
    if st = 5 then s4 else s4.setFld (chReg .dmaChRing d c) DmaChRing.HEAD ((s.ringHead d c + 1) % s.ringSize d c)

/-- The hardware-mode action of a fault point (R351). -/
def dmaHardware (d c : Nat) (s : State) : State :=
  match (s.chan d c).fault with
  | none => s
  | some (st, k) => endDesc d c st (256 * k) s

/-- A fault point is reached: every chunk below it is committed (R346); DMA.CNT.FAULTS counts it (log entry 34). In host-assisted mode the channel parks, with a page request
instance for a translation fault and a fault tag for any other (R352). -/
def faultPoint (d c : Nat) (s : State) : State :=
  let x := s.chan d c
  match x.fault with
  | none => s
  | some (st, k) =>
    if x.committed < k ∨ x.parked = true ∨ x.run.isNone = true then s
    else
      let s0 := s.modChan d c fun y => { y.giveUp k 2 with xlating := none, next := k }
      let s1 := if st = 5 then s0 else s0.count (dreg .dmaCnt d) DmaCnt.FAULTS 1
      let mode := s.assist PartAssist.DMAF
      if mode = 0 ∨ st = 5 ∨ st = 4 then dmaHardware d c s1
      else if st = 1 then
        match x.what with
        | none => dmaHardware d c s1
        | some (ctx, va, wr, cause) =>
          if s.fld (dreg .xltCfg d) XltCfg.RETRY ≤ x.tries then dmaHardware d c s1
          else match raisePrec d ctx va (s.ctxWord d (s.newE d) ctx 0) (!wr) wr cause (some c) s1 with
            | some (_, t) => t.modChan d c fun y => { y with parked := true, tries := y.tries + 1, mode := mode }
            | none =>
              dmaHardware d c (if (firstBelow (fun i => s1.fld (prec0 d i) XltPrec0.VALID == 0) 64).isNone
                then raise (dreg .xltErr d) XltErr.PRQFULL s1 else s1)
      else
        let tag := nextTag 255 (s.dma.ftag.get 0 d)
        let s2 := ({ s1 with dma := { s1.dma with ftag := s1.dma.ftag.set d tag } } : State).modChan d c fun y =>
          { y with parked := true, mode := mode, expired := y.expired.filter (· != tag) }
        deliverVerdict d 995 mode (s.chOwner d c) (s2.setFld (chReg .dmaChStat d c) DmaChStat.FTAG tag)

/-- A chunk cannot be committed: the fault point is the lowest such chunk (R346). -/
def chunkFault (d c st k : Nat) (what : Option (Nat × Nat × Bool × Nat)) (s : State) : State :=
  let s0 := if st = 1 then raiseChan d c DmaErr.TRANSLATION s else s
  match (s.chan d c).fault with
  | some (_, j) => if j ≤ k then s else s0.modChan d c fun y => { y with fault := some (st, k), what := what }
  | none => s0.modChan d c fun y => { y with fault := some (st, k), what := what, xlating := none }

/-! ### Commitment (09 R346) -/

/-- The data of a chunk: the FILL pattern, or its reads' data once all have it. -/
def Chunk.bytes (x : Desc) (y : Chunk) : Option (List Byte) :=
  if x.op = 2 then some ((List.replicate 32 (bytesLE 8 (x.word 1).toNat)).flatten.take y.len)
  else if y.reads.all fun r => r.data.isSome then some (y.reads.flatMap fun r => r.data.getD []) else none

/-- The writes of a chunk are made and tagged; none when a cell or a tag is missing. -/
def commitChunk (d c hint : Nat) (x : Desc) (y : Chunk) (data : List Byte) (s : State) : Option State :=
  (y.dst.foldl (fun acc p =>
    match acc with
    | none => none
    | some (n, t) =>
      (match writePiece d c (chunkId x.index y.k) y.epoch x.dctx hint p data t with
       | none => none
       | some (m, t2) => some (n + m, t2))) (some (0, s))).map fun r =>
    (r.2.modChan d c fun z =>
      { z with committed := z.committed + 1, last := y.dst, tries := 0, chunks := z.chunks.filter fun w => w.k != y.k,
               unreleased := z.unreleased.upd 0 x.index (· + r.1) }).count (chReg .dmaChCnt d c) DmaChCnt.COUNT y.len

/-- Chunks are committed in ascending order as far as their data has come; the descriptor ends after its last one. -/
def commitAll (d c hint : Nat) : Nat → State → State
  | 0, s => s
  | fuel + 1, s =>
    let z := s.chan d c
    match z.run with
    | none => s
    | some x =>
      if z.fault.any fun f => decide (f.2 ≤ z.committed) then faultPoint d c s
      else if x.len ≤ 256 * z.committed then endDesc d c 0 x.len s
      else match z.chunks.find? fun y => y.k == z.committed with
        | none => s
        | some y =>
          match y.bytes x with
          | none => s
          | some data =>
            match commitChunk d c hint x y data s with
            | none => s
            | some t => commitAll d c hint fuel t

/-! ### Issue of a chunk (09 R345, R348) -/

/-- The pieces of a range: cut at 4 KiB boundaries. -/
def piecesOf (va len : Nat) : List Piece :=
  let n := min len (4096 - va % 4096)
  if n = len then [{ off := 0, len := len, va := va }]
  else [{ off := 0, len := n, va := va }, { off := n, len := len - n, va := va + n }]

/-- Whether a context denies a channel (R344, CTXDENIED): not valid or contained, not of KIND DMA, or without the USERS bit of the
owning partition. -/
def State.ctxDenied (s : State) (d c e x : Nat) : Bool :=
  let w0 := s.ctxWord d e x 0
  let o := s.chOwner d c
  !(s.ctxValid d e x) || s.ctxContained x || getBits w0 56 55 != 2 || (decide (o < 32) && !(bitOf w0 (16 + o)))

/-- What the translation of one piece gives: the piece with its target, a fault with its address and cause, or a walk in host memory. -/
inductive PieceRes where
  | done (p : Piece)
  | fault (va cause : Nat)
  | waits
  deriving DecidableEq, Repr

/-- One piece is translated through a context: by its windows, and by its page tables where the window asks for them (R345). A miss of the
windows and a right that the window lacks are faults too (R344), with the causes not present and permission (log entry 34). -/
def xlatePiece (bad : Bool) (d c e ctx : Nat) (wr : Bool) (p : Piece) (s : State) : PieceRes × State :=
  let w0 := s.ctxWord d e ctx 0
  let w1 := s.ctxWord d e ctx 1
  match s.window d e w1 p.va with
  | none => (.fault p.va 0, s)
  | some w =>
    if (wr = true ∧ w.wr = false) ∨ (wr = false ∧ w.rd = false) then (.fault p.va 1, s)
    else if w.pt = true ∧ getBits w0 54 53 ≠ 0 then
      match xltWalk bad d e ctx w.addr w0 w1 (!wr) wr (.chunk c) {} s with
      | (.done a, t) => (.done { p with addr := a, egress := w.egress, ok := true }, t)
      | (.fault k, t) => (.fault w.addr k, t.count (dreg .xltCnt d) XltCnt.FAULTS 1)
      | (.waits _, t) => (.waits, t)
    else (.done { p with addr := w.addr, egress := w.egress, ok := true }, s)

/-- The walk address of a piece: what its window maps it to. -/
def State.walkAddr (s : State) (d e ctx : Nat) (p : Piece) : Nat :=
  match s.window d e (s.ctxWord d e ctx 1) p.va with
  | some w => w.addr
  | none => p.va

/-- Every piece of a chunk is translated, source first; the first that has to wait keeps the chunk. -/
def xlateList (bad : Bool) (d c e ctx : Nat) (wr : Bool) : List Piece → State → (List Piece × Option (Nat × Nat × Bool × Nat) × Bool) × State
  | [], s => (([], none, false), s)
  | p :: r, s =>
    if p.ok then
      let x := xlateList bad d c e ctx wr r s
      ((p :: x.1.1, x.1.2.1, x.1.2.2), x.2)
    else match xlatePiece bad d c e ctx wr p s with
      | (.done q, t) =>
        let x := xlateList bad d c e ctx wr r t
        ((q :: x.1.1, x.1.2.1, x.1.2.2), x.2)
      | (.fault va cause, t) => ((p :: r, some (ctx, va, wr, cause), false), t)
      | (.waits, t) => ((p :: r, none, true), t)

/-- A translated chunk is issued: its reads go out, or for a FILL its data is there (R345, R346). With a refusal of checks 1 or 2 it is
the fault point; where a cell or a tag is missing it is issued later. -/
def issueChunk (d c hint : Nat) (x : Desc) (y : Chunk) (s : State) : State :=
  let bad := (y.src.any fun p => (s.chDests d y.epoch x.sctx p.egress).isNone) || (y.dst.any fun p => (s.chDests d y.epoch x.dctx p.egress).isNone)
  if bad then chunkFault d c 3 y.k none s
  else
    let r := y.src.foldl (fun acc p =>
      match acc with
      | none => none
      | some (rs, t) =>
        (match readPiece d c (chunkId x.index y.k) y.epoch x.sctx hint p t with
         | none => none
         | some (l, t2) => some (rs ++ l, t2))) (some ([], s))
    match r with
    | none => s
    | some (rs, t) =>
      commitAll d c hint 64 (t.modChan d c fun z =>
        { z with chunks := z.chunks ++ [{ y with reads := rs }], next := y.k + 1, xlating := none })

/-- A chunk's translation goes on (R345); a fault makes it the fault point. -/
def xlateChunk (bad : Bool) (d c hint : Nat) (x : Desc) (y : Chunk) (s : State) : State :=
  let a := xlateList bad d c y.epoch x.sctx false y.src s
  if a.1.2.1.isSome then faultPoint d c (chunkFault d c 1 y.k a.1.2.1 a.2)
  else if a.1.2.2 then a.2.modChan d c fun z => { z with xlating := some { y with src := a.1.1 } }
  else
    let b := xlateList bad d c y.epoch x.dctx true y.dst a.2
    if b.1.2.1.isSome then faultPoint d c (chunkFault d c 1 y.k b.1.2.1 b.2)
    else if b.1.2.2 then b.2.modChan d c fun z => { z with xlating := some { y with src := a.1.1, dst := b.1.1 } }
    else faultPoint d c (issueChunk d c hint x { y with src := a.1.1, dst := b.1.1 } b.2)

/-- The next chunk of a channel is issued. -/
def nextChunk (bad : Bool) (d c hint : Nat) (s : State) : State :=
  let z := s.chan d c
  match z.run with
  | none => s
  | some x =>
    let k := z.next
    let e := s.newE d
    if (x.op = 1 ∧ s.ctxDenied d c e x.sctx = true) ∨ s.ctxDenied d c e x.dctx = true then faultPoint d c (chunkFault d c 6 k none s)
    else
      let len := min 256 (x.len - 256 * k)
      xlateChunk bad d c hint x
        { k := k, len := len, epoch := e, src := if x.op = 1 then piecesOf ((x.src + 256 * k) % 2 ^ 64) len else [],
          dst := piecesOf ((x.dst + 256 * k) % 2 ^ 64) len } s

/-- Chunks in flight on a die. -/
def State.inFlight (s : State) (d : Nat) : Nat := ((List.range dmaChannels).map fun c => (s.chan d c).chunks.length).sum

/-- The effective priority of a channel (R348). -/
def State.chPri (s : State) (d c : Nat) : Nat :=
  min (s.fld (chReg .dmaChCtl d c) DmaChCtl.PRI) (s.fld (chReg .dmaChCfg d c) DmaChCfg.PRIMAX)

/-- Whether a channel has a chunk to issue and room in flight (R348). -/
def State.chReady (s : State) (d c : Nat) : Bool :=
  let z := s.chan d c
  s.chOn d c && s.chMayRun d c && !s.chDrain && z.xlating.isNone && z.fault.isNone && decide (z.chunks.length < 64)
    && z.run.any fun x => decide (256 * z.next < x.len) && (!x.seq || z.next == z.committed)

/-- The channel that the engine chooses (R348): the first ready one of the highest priority after the last chosen at that priority. -/
def State.chChoose (s : State) (d : Nat) : Option (Nat × Nat) :=
  if 1024 ≤ s.inFlight d then none
  else
    let ready := (List.range dmaChannels).filter (s.chReady d)
    match ((List.range 8).reverse.find? fun p => ready.any fun c => s.chPri d c == p) with
    | none => none
    | some p =>
      let l := s.dma.last.get 31 (d, p)
      (((List.range dmaChannels).map fun i => (l + 1 + i) % dmaChannels).find? fun c => decide (c ∈ ready) && s.chPri d c == p).map fun c => (p, c)

/-- A descriptor starts: one that breaks a rule ends at once with BADDESC (R343, R344). -/
def startDesc (d c : Nat) (s : State) : State :=
  let z := s.chan d c
  match z.descs with
  | [] => s
  | x :: rest =>
    if s.chOn d c = false ∨ s.chMayRun d c = false ∨ s.chDrain = true ∨ z.run.isSome = true ∨ (x.fence = true ∧ z.endings ≠ []) then s
    else
      let s1 := s.modChan d c fun y => { y with run := some x, descs := rest, next := 0, committed := 0, last := [], tries := 0 }
      if x.bad then endDesc d c 4 0 s1 else s1

/-- A fetched descriptor with a reserved OP at the front of a channel ends with BADDESC at the engine's turn (R344). -/
def startReserved (d : Nat) (s : State) : State :=
  s.forAll (List.range dmaChannels) fun c => fun t =>
    match (t.chan d c).descs with
    | x :: _ => if x.op = 1 ∨ x.op = 2 then t else startDesc d c t
    | [] => t

/-- COPY and FILL: the channel starts the descriptor, of that OP, at the front of those it has fetched (R343 to R345). -/
def startOp (op d c : Nat) (s : State) : State :=
  match (s.chan d c).descs with
  | x :: _ => if x.op = op then startDesc d c s else s
  | [] => s

/-- COPY (R345). -/
def execCopy (d c : Nat) (s : State) : Host.Outcome State Fault Refusal := .next (startOp 1 d c s)

/-- FILL (R343). -/
def execFill (d c : Nat) (s : State) : Host.Outcome State Fault Refusal := .next (startOp 2 d c s)

/-- One grant of the engine (R348): chunks whose cells or tags were missing first, then the next chunk of the chosen channel. -/
def chunkIssue (d hint : Nat) (bad : Bool) (s : State) : State :=
  let s1 := startReserved d (s.forAll (List.range dmaChannels) fun c => commitAll d c hint 64)
  match s1.chChoose d with
  | none => s1
  | some (p, c) => nextChunk bad d c hint { s1 with dma := { s1.dma with last := s1.dma.last.set (d, p) c } }

/-- DMA_CHUNK_ISSUE (R348). -/
def execDmaChunkIssue (d hint : Nat) (ptbad : Bool) (s : State) : Host.Outcome State Fault Refusal := .next (chunkIssue d hint ptbad s)

/-! ### Writes to a channel's registers (09 R341, R353, R366, R367) -/

/-- The fields of CTL other than ENABLE. -/
def ctlFields (d c : Nat) (v : Word) (s : State) : State :=
  ((s.setFld (chReg .dmaChCtl d c) DmaChCtl.PRI (DmaChCtl.PRI.of v)).setFld (chReg .dmaChCtl d c) DmaChCtl.TC (DmaChCtl.TC.of v)).setFld
    (chReg .dmaChCtl d c) DmaChCtl.VEC (DmaChCtl.VEC.of v)

/-- A write of CTL with ENABLE = 1 (R366). -/
def dmaEnable (d c : Nat) (v : Word) (s : State) : State :=
  (ctlFields d c v (s.setFld (chReg .dmaChCtl d c) DmaChCtl.ENABLE 1)).modChan d c fun y => { y with stopped := false }

/-- DMA_ENABLE (R366). -/
def execDmaEnable (d c : Nat) (v : Word) (s : State) : Host.Outcome State Fault Refusal := .next (dmaEnable d c v s)

/-- The page request instance of a channel. -/
def State.chPrec (s : State) (d c : Nat) : Option Nat :=
  firstBelow (fun i => s.fld (prec0 d i) XltPrec0.VALID == 1 && s.fld (prec0 d i) XltPrec0.SRC == 1 && s.fld (prec0 d i) XltPrec0.CHAN == c) 64

/-- The instance of a parked channel is withdrawn. -/
def withdraw (d c : Nat) (s : State) : State :=
  let s1 := s.setFld (chReg .dmaChStat d c) DmaChStat.FTAG 0
  match s1.chPrec d c with
  | some i => endPrec d i s1
  | none => s1

/-- The channel stops as a write of ENABLE = 0 stops it (R353): the running descriptor ends ABORTED after the chunks in flight, a parked
instance is withdrawn, HEAD is kept. Descriptors fetched ahead are dropped. -/
def dmaStop (d c : Nat) (s : State) : State :=
  let z := s.chan d c
  let s1 := (withdraw d c (s.setFld (chReg .dmaChCtl d c) DmaChCtl.ENABLE 0)).modChan d c fun y =>
    { y with stopped := true, descs := [], late := y.late ++ (y.fetching.filter fun f => f.words.isNone).map (fun f => (f.tag, 2)), fetching := [],
             parked := false }
  if z.run.isNone then s1
  else
    let k := match z.fault with
      | some (_, j) => j
      | none => z.next
    faultPoint d c (s1.modChan d c fun y => { y with fault := some (5, k), what := none, xlating := none })

/-- DMA_DISABLE (R353): a write of CTL with ENABLE = 0. -/
def execDmaDisable (d c : Nat) (v : Word) (s : State) : Host.Outcome State Fault Refusal :=
  .next (if s.chOn d c then dmaStop d c (ctlFields d c v s) else ctlFields d c v s)

/-- Whether a channel holds a cell: a packet of it is held by the part, or its open cell holds a record. -/
def State.chHolds (s : State) (d c : Nat) : Bool :=
  let mine := fun (p : Pkt) => match p.src with
    | .dma a b _ => a == d && b == c
    | _ => false
  (s.sch.queues.any fun q => q.2.any mine) || ((s.bufDie d).spanPending.any mine) || !((s.chan d c).chunks.isEmpty) ||
    (match (s.bufDie d).openCell.find (.dma d c) with
     | some x => decide (0 < (s.cell d x).refs)
     | none => false)

/-- A write of CFG (R341, R369): OWNER keeps its value, and BADCFG is set whatever the value written, while the channel is enabled or holds a
cell. -/
def dmaOwnerWrite (d c : Nat) (v : Word) (s : State) : State :=
  let r := chReg .dmaChCfg d c
  let s1 := (s.setFld r DmaChCfg.PRIMAX (DmaChCfg.PRIMAX.of v)).setFld r DmaChCfg.SLOT (DmaChCfg.SLOT.of v)
  if s.chOn d c = true ∨ s.chHolds d c = true then raiseChan d c DmaErr.BADCFG s1
  else if DmaChCfg.OWNER.of v = s.chOwner d c then s1
  else (sealCell d (.dma d c) s1).setFld r DmaChCfg.OWNER (DmaChCfg.OWNER.of v)

/-- DMA_OWNER_WRITE (R341). -/
def execDmaOwnerWrite (d c : Nat) (v : Word) (s : State) : Host.Outcome State Fault Refusal := .next (dmaOwnerWrite d c v s)

/-- A write of RING (R343, R367): TAIL is stored, SIZE only while ENABLE is 0, and at most 12. -/
def dmaTailWrite (d c : Nat) (v : Word) (s : State) : State :=
  let r := chReg .dmaChRing d c
  let s1 := s.setFld r DmaChRing.TAIL (DmaChRing.TAIL.of v)
  if s.chOn d c then s1 else s1.setFld r DmaChRing.SIZE (min 12 (DmaChRing.SIZE.of v))

/-- DMA_TAIL_WRITE (R343). -/
def execDmaTailWrite (d c : Nat) (v : Word) (s : State) : Host.Outcome State Fault Refusal := .next (dmaTailWrite d c v s)

/-! ### The ring (09 R343, R349) -/

/-- A ring access failed: the channel stops with ENABLE cleared (R353). -/
def ringError (d c : Nat) (s : State) : State := raiseChan d c DmaErr.RINGERR (dmaStop d c s)

/-- A store to the control SRAM by a master other than a hart of the die clears every reservation on the granules it touches (11 R419). -/
def clearRes (d off n : Nat) (s : State) : State :=
  { s with core := { s.core with dies := s.core.dies.upd {} d fun x =>
    { x with hart := x.hart.map fun h =>
      (h.1, { h.2 with res := h.2.res.filter fun a => !(decide (off / 64 ≤ a % 0x10000000 / 64) && decide (a % 0x10000000 / 64 ≤ (off + n - 1) / 64)) }) } } }

/-- Bytes stored in the control SRAM of a die by a master that is no hart. -/
def sramStore (d off : Nat) (bs : List Byte) (s : State) : State :=
  clearRes d off bs.length { s with mem := s.mem.putBytes (sramBase d + off) bs }

/-- The XWRITE record of a write to a die's control SRAM by a master other than its two harts: MID and size, address, data, and the ICOUNT
of both harts (17 R607, R613). -/
def recXwrite (d mid off : Nat) (bs : List Byte) (s : State) : State :=
  let pad := (8 - bs.length % 8) % 8
  recCtrl d
    { typ := 0x14, src := 0, aux := (s.hart d 0).icount,
      body := bytesLE 4 mid ++ bytesLE 4 bs.length ++ bytesLE 8 (sramBase d + off) ++ bs ++ List.replicate pad 0
        ++ bytesLE 8 (s.hart d 0).icount ++ bytesLE 8 (s.hart d 1).icount } s

/-- A write to a die's control SRAM by a master that is no hart of the die crosses, and is recorded in lines of at most 64 bytes. -/
def foreignCross (d mid off : Nat) (bs : List Byte) (s : State) : State :=
  sramStore d off bs (s.forAll (List.range ((bs.length + 63) / 64)) fun k => recXwrite d mid (off + 64 * k) ((bs.drop (64 * k)).take 64))

/-- A recorded write to a die's control SRAM: it waits at the SRAM's input crossing while the control channel's staging queue is full, behind what
waits there (17 R608). -/
def foreignStore (d mid off : Nat) (bs : List Byte) (s : State) : State :=
  let t := drainStaged d 513 s
  if t.recFull d = true ∨ (t.recDie d).waiting ≠ [] then recStall d (t.modRec d fun r => { r with waiting := r.waiting ++ [(mid, off, bs)] })
  else foreignCross d mid off bs t

/-- The writes that wait at the crossing of a die's control SRAM cross in order while there is room for their records (17 R608). -/
def serveForeign (d : Nat) : Nat → State → State
  | 0, s => s
  | n + 1, s =>
    let t := drainStaged d 513 s
    match (t.recDie d).waiting with
    | [] => t
    | x :: rest =>
      if t.recFull d then t else serveForeign d n (foreignCross d x.1 x.2.1 x.2.2 (t.modRec d fun r => { r with waiting := rest }))

/-- The ring's place: the face's upstream port and the host address of a descriptor, or none for a ring in control SRAM (R343, R367). -/
def State.ringAddr (s : State) (d c index : Nat) : Nat :=
  s.fld (chReg .dmaChRbase d c) DmaChRbase.BASE * 64 + 64 * index

/-- The upstream port of the face that holds a partition's ring: none while its link is down past its grace period, when a ring access
fails. -/
def State.ringPort (s : State) (d c : Nat) : Option Nat :=
  (s.upOf d (s.newE d) (s.chOwner d c) (s.fld (chReg .dmaChRbase d c) DmaChRbase.RFACE)).filter fun g =>
    s.carries g || (s.link (pdie g) (pnum g)).grace

/-- A ring access through a face's upstream port, not translated, with that face's endpoint ID (R343). -/
def ringTlp (s : State) (d c : Nat) (t : Tlp) : Tlp :=
  { t with rid := s.endpointId (s.chOwner d c) (s.fld (chReg .dmaChRbase d c) DmaChRbase.RFACE), tc := s.chTc d c, raw := List.replicate 12 0,
           be := 0xFF }

/-- Descriptors whose reads have completed, in ring order, join those that wait to run. -/
def takeFetched (fuel : Nat) (x : ChanSt) : ChanSt :=
  match fuel with
  | 0 => x
  | n + 1 =>
    match x.fetching with
    | f :: r => (match f.words with
      | some w => takeFetched n { x with fetching := r, descs := x.descs ++ [{ words := w, index := f.index }] }
      | none => x)
    | [] => x

/-- The channel fetches its next descriptor (R343): a host ring by a read through its face, a ring in control SRAM through the gate. -/
def descFetch (d c : Nat) (s : State) : State :=
  let z := s.chan d c
  let ahead := z.descs.length + z.fetching.length
  let busy := b2n z.run.isSome
  let n := s.ringSize d c
  let index := (s.ringHead d c + busy + ahead) % n
  let left := (s.ringTail d c + n - s.ringHead d c) % n
  if s.chOn d c = false ∨ s.chMayRun d c = false ∨ 8 ≤ ahead ∨ left ≤ busy + ahead then s
  else if s.chOwner d c = 0x3E then
    let off := s.ringAddr d c index
    let g := gateAccess ⟨d, 18, off, 0x10000000 + off⟩ (0x40 + d) 3 (sramBase d + off) 64 s
    if g.1 = false ∨ 0x400000 < off + 64 then ringError d c g.2
    else
      let w := (List.range 8).map fun i => BitVec.ofNat 64 (ofBytesLE (s.mem.bytes (sramBase d + off + 8 * i) 8))
      g.2.modChan d c fun y => { y with descs := y.descs ++ [{ words := w, index := index }] }
  else match s.ringPort d c with
    | none => ringError d c s
    | some g =>
      let tg := takeTag d s
      match sendDma d c ringId (s.newE d) g 0 {} (ringTlp s d c { kind := 1, addr := s.ringAddr d c index, tag := tg.1, reqLen := 64 }) tg.2 with
      | none => s
      | some t => t.modChan d c fun y => { y with fetching := y.fetching ++ [{ tag := tg.1, index := index }] }

/-- DMA_DESCRIPTOR_FETCH (R343). -/
def execDmaDescriptorFetch (d c : Nat) (s : State) : Host.Outcome State Fault Refusal := .next (descFetch d c s)

/-- The channel's MSI-X vector goes to the owner's endpoint after a record with IRQ (R343), as an event of no number: 1,024 + channel. -/
def sendIrq (d c : Nat) (s : State) : State :=
  let n := s.chOwner d c
  let vec := s.fld (chReg .dmaChCtl d c) DmaChCtl.VEC
  if 32 ≤ n then s
  else match (List.range 2).find? (s.faceReady d n) with
    | none => s
    | some f =>
      if vec ∈ (s.face n f).masked then s.modFace n f fun x => { x with pba := vec :: x.pba.erase vec }
      else s.modFlt fun x => { x with msix := x.msix ++ [(n, f, vec, d, 1024 + c)] }

/-- Words 6 and 7 of a descriptor as a completion record (R343). -/
def recordBytes (e : Ending) (time : Nat) : List Byte :=
  bytesLE 8 (2 ^ 63 + e.status * 2 ^ 48 + e.bytes) ++ bytesLE 8 time

/-- What follows a completion record that was written. -/
def recordDone (d c : Nat) (e : Ending) (s : State) : State :=
  let s1 := s.modChan d c fun y => { y with endings := y.endings.drop 1 }
  let s2 := (s1.count (dreg .dmaCnt d) DmaCnt.DESCS 1).setFld (chReg .dmaChStat d c) DmaChStat.LASTST e.status
  if e.desc.irq then sendIrq d c s2 else s2

/-- The oldest completion record is written once every write of its descriptor has been released and its read back is done (R349). `ok`
is whether the write succeeds where it is sent. -/
def completionRecord (d c : Nat) (ok : Bool) (s : State) : State :=
  let z := s.chan d c
  match z.endings with
  | [] => s
  | e :: _ =>
    if z.unreleased.get 0 e.desc.index ≠ 0 then s
    else if e.desc.wantsBack = true ∧ e.last ≠ [] ∧ e.rdback = false then
      let r := e.last.foldl (fun acc p =>
        match acc with
        | none => none
        | some (rs, t) =>
          (match readPiece d c ringId (s.newE d) e.desc.dctx 0 p t with
           | none => none
           | some (l, t2) => some (rs ++ l, t2))) (some (([] : List DmaRead), s))
      match r with
      | none => s.modChan d c fun y => { y with endings := y.endings.set 0 { e with rdback := true } }
      | some (rs, t) => t.modChan d c fun y => { y with endings := y.endings.set 0 { e with rdback := true, reads := rs } }
    else if !(e.reads.all fun r => r.data.isSome) then s
    else
      let off := s.ringAddr d c e.desc.index + 48
      let fail := fun (t : State) => ringError d c (t.modChan d c fun y => { y with endings := y.endings.drop 1 })
      if s.chOwner d c = 0x3E then
        let g := gateAccess ⟨d, 18, off, 0x10000000 + off⟩ (0x40 + d) 4 (sramBase d + off) 16 s
        if g.1 = false ∨ ok = false ∨ 0x400000 < off + 16 then fail g.2
        else recordDone d c e (foreignStore d (0x40 + d) off (recordBytes e (s.meridian d)) g.2)
      else match s.ringPort d c with
        | none => fail s
        | some g =>
          if ok then
            match sendDma d c ringId (s.newE d) g 0 {} (ringTlp s d c { kind := 0, addr := off, payload := recordBytes e (s.meridian d) }) s with
            | none => s
            | some t => recordDone d c e t
          else fail s

/-- DMA_COMPLETION_RECORD (R349). -/
def execDmaCompletionRecord (d c : Nat) (ok : Bool) (s : State) : Host.Outcome State Fault Refusal := .next (completionRecord d c ok s)

/-! ### Completions of reads (09 R350) -/

/-- Whether a read of a list bears a tag and waits. -/
def readOf (tag : Nat) (rs : List DmaRead) : Bool := rs.any fun r => r.tag == tag && r.data.isNone

/-- The data of a read is filled in. -/
def fillRead (tag : Nat) (data : List Byte) (rs : List DmaRead) : List DmaRead :=
  rs.map fun r => if r.tag = tag then { r with data := some data } else r

/-- A completion of a channel's read is taken (R350): an error, or poisoned data, is SRCERR of its chunk, or RINGERR of a ring read. -/
def readCompletion (d c tag : Nat) (ok : Bool) (data : List Byte) (s : State) : State :=
  let z := s.chan d c
  match z.late.find? fun x => x.1 == tag with
  | some (_, how) =>
    let s1 := s.modChan d c fun y => { y with late := y.late.filter fun x => x.1 != tag }
    if how = 0 then s1.count (dreg .dmaCnt d) DmaCnt.LATE 1
    else if how = 1 then s1.count (dreg .parCnt d) ParCnt.LATECPL 1
    else s1
  | none =>
    if z.fetching.any fun f => f.tag == tag && f.words.isNone then
      if ok = true ∧ data.length = 64 then
        s.modChan d c fun y => takeFetched 8 { y with fetching := y.fetching.map fun f =>
          if f.tag = tag then { f with words := some ((List.range 8).map fun i => BitVec.ofNat 64 (ofBytesLE ((data.drop (8 * i)).take 8))) } else f }
      else ringError d c (s.modChan d c fun y => { y with fetching := y.fetching.filter fun f => f.tag != tag })
    else match z.chunks.find? fun y => readOf tag y.reads with
      | some y =>
        let bad := !ok || !(y.reads.any fun r => r.tag == tag && r.len == data.length)
        let s1 := s.modChan d c fun w => { w with chunks := w.chunks.map fun v =>
          if v.k = y.k then { v with reads := fillRead tag data v.reads } else v }
        if bad then commitAll d c 0 64 (faultPoint d c (chunkFault d c 2 y.k none s1)) else commitAll d c 0 64 s1
      | none => s.modChan d c fun y => { y with endings := y.endings.map fun e => { e with reads := fillRead tag data e.reads } }

/-- Reads of a channel whose requests the part could not deliver complete with an error (06 R224, 12 R458). -/
def lostReads (d c : Nat) (s : State) : State :=
  (s.chan d c).lost.foldl (fun t tag => readCompletion d c tag false [] t) (s.modChan d c fun y => { y with lost := [] })

/-- DMA_READ_COMPLETION (R350). -/
def execDmaReadCompletion (d c tag : Nat) (ok : Bool) (data : List Byte) (s : State) : Host.Outcome State Fault Refusal :=
  .next (readCompletion d c tag ok data s)

/-- A read has no completion within RTIME (R344, R350): SRCERR of its chunk, RINGERR of a ring read; a read back counts as done. Its
completion, should it come, is late. -/
def readTimeout (d c tag : Nat) (s : State) : State :=
  let z := s.chan d c
  if (z.late.any fun x => x.1 == tag) then s
  else if z.fetching.any (fun f => f.tag == tag && f.words.isNone) || z.chunks.any (fun y => readOf tag y.reads)
      || z.endings.any fun e => readOf tag e.reads then
    let t := readCompletion d c tag false [] s
    t.modChan d c fun y => { y with late := y.late ++ [(tag, 0)] }
  else s

/-- DMA_READ_TIMEOUT (R350). -/
def execDmaReadTimeout (d c tag : Nat) (s : State) : Host.Outcome State Fault Refusal := .next (readTimeout d c tag s)

/-! ### Fault verdicts (09 R352, R365) -/

/-- The channel resumes at its fault point. -/
def dmaResume (d c : Nat) (s : State) : State :=
  match (s.chan d c).fault with
  | none => s
  | some (_, k) =>
    (s.setFld (chReg .dmaChStat d c) DmaChStat.FTAG 0).modChan d c fun y => { y with fault := none, what := none, parked := false, next := k }

/-- A verdict for a fault that is not a translation fault: refused unless its tag names the waiting instance of the channel and its master
may give it; late when that instance expired (01 R34, R35). -/
def dmaVerdict (who : Master) (d c tag : Nat) (apply : State → State) (s : State) : State :=
  let z := s.chan d c
  if tag ≠ 0 ∧ s.fld (chReg .dmaChStat d c) DmaChStat.FTAG = tag then
    if mayAnswer who z.mode (s.chOwner d c) false then apply s else refuseVerdict d s
  else if tag ∈ z.expired then lateVerdict s
  else refuseVerdict d s

/-- DMA_FV_COMPLETE (R352). -/
def execDmaFvComplete (who : Master) (d c tag : Nat) (s : State) : Host.Outcome State Fault Refusal :=
  .next (dmaVerdict who d c tag (dmaHardware d c) s)

/-- RETRY (R352). -/
def execRetry (who : Master) (d c tag : Nat) (s : State) : Host.Outcome State Fault Refusal := .next (dmaVerdict who d c tag (dmaResume d c) s)

/-- STOP (R352): the hardware-mode action, and ENABLE is cleared. -/
def dmaStopVerdict (d c : Nat) (s : State) : State := dmaStop d c (dmaHardware d c s)

/-- STOP (R352). -/
def execStop (who : Master) (d c tag : Nat) (s : State) : Host.Outcome State Fault Refusal := .next (dmaVerdict who d c tag (dmaStopVerdict d c) s)

/-- The assist timer of a channel's fault expires, or a management reset begins: the hardware-mode action (R352, 01 R37). -/
def dmaExpire (d c : Nat) (s : State) : State :=
  let tag := s.fld (chReg .dmaChStat d c) DmaChStat.FTAG
  if tag = 0 then s else dmaHardware d c (s.modChan d c fun y => { y with expired := tag :: y.expired })

/-! ### Page request verdicts (09 R339, R352, R358) -/

/-- The entry of a die that holds a page request tag. -/
def State.precEntry (s : State) (d tag : Nat) : Option Nat :=
  firstBelow (fun i => s.fld (prec0 d i) XltPrec0.VALID == 1 && s.fld (prec0 d i) XltPrec0.TAG == tag) 64

/-- A page request instance is answered: with Success the walk runs again or the channel resumes, otherwise the packet is refused or the
hardware-mode action of the channel follows (R339, R352). -/
def precAnswer (bad : Bool) (d i : Nat) (success : Bool) (s : State) : State :=
  let chan := s.fld (prec0 d i) XltPrec0.SRC = 1
  let c := s.fld (prec0 d i) XltPrec0.CHAN
  let s1 := endPrec d i s
  if chan then (if success then dmaResume d c s1 else dmaHardware d c s1)
  else match (s.xltDie d).fq.find? fun f => f.prec == some i with
    | none => s1
    | some f => if success then fqRetry bad d f s1 else refuseTagged 0x7F24 f.pkts (dropFq d f s1)

/-- A page request verdict (R339; 01 R34, R35). -/
def precVerdict (bad : Bool) (who : Master) (d tag : Nat) (success : Bool) (s : State) : State :=
  match s.precEntry d tag with
  | some i =>
    if mayAnswer who ((s.xltDie d).precMode.get 0 i) (s.fld (prec0 d i) XltPrec0.PART) false then precAnswer bad d i success s else refuseVerdict d s
  | none =>
    if tag ∈ (s.xltDie d).precExpired then lateVerdict s
    else refuseVerdict d s

/-- PRV_SUCCESS (R339). -/
def execPrvSuccess (who : Master) (d tag : Nat) (ptbad : Bool) (s : State) : Host.Outcome State Fault Refusal :=
  .next (precVerdict ptbad who d tag true s)

/-- PRV_INVALID_REQUEST (R339). -/
def execPrvInvalidRequest (who : Master) (d tag : Nat) (s : State) : Host.Outcome State Fault Refusal := .next (precVerdict false who d tag false s)

/-- PRV_RESPONSE_FAILURE (R339). -/
def execPrvResponseFailure (who : Master) (d tag : Nat) (s : State) : Host.Outcome State Fault Refusal := .next (precVerdict false who d tag false s)

/-- A PRG Response message to the endpoint of a face (R339): its index names the instance of the lowest die whose context belongs to that
face; code 0 is Success, any other Invalid Request or Response Failure. -/
def prgResponse (n face tag code : Nat) (bad : Bool) (s : State) : State :=
  let mine := fun (d : Nat) => match s.precEntry d tag with
    | some i =>
      s.fld (prec0 d i) XltPrec0.PART == n && getBits (s.ctxWord d (s.newE d) (s.fld (prec0 d i) XltPrec0.CTX) 0) 52 52 == face
    | none => false
  match s.activeDies.find? mine with
  | some d => precVerdict bad (.endpoint n) d tag (decide (code = 0)) s
  | none =>
    match s.activeDies.find? fun d => decide (tag ∈ (s.xltDie d).precExpired) with
    | some d => precVerdict bad (.endpoint n) d tag (decide (code = 0)) s
    | none => refuseVerdict s.lead s

/-- PRG_RESPONSE (R339). -/
def execPrgResponse (n face tag code : Nat) (ptbad : Bool) (s : State) : Host.Outcome State Fault Refusal :=
  .next (prgResponse n face tag code ptbad s)

/-- The assist timer of a page request instance expires, or a management reset begins: the hardware-mode action (R339, R340). -/
def precExpire (d i : Nat) (s : State) : State :=
  if s.fld (prec0 d i) XltPrec0.VALID = 0 then s
  else precAnswer false d i false (s.modXltDie d fun y => { y with precExpired := s.fld (prec0 d i) XltPrec0.TAG :: y.precExpired })

/-! ### Walks in host memory (09 R329) -/

/-- A walk has ended with a result: a packet's goes on; a channel's chunk goes on translating, with the piece that waited done. -/
def walkEnd (bad : Bool) (d : Nat) (w : Walk) (r : XRes) (s : State) : State :=
  match w.who with
  | .tlp _ => pktWalkEnd d w r s
  | .chunk c =>
    match (s.chan d c).run, (s.chan d c).xlating with
    | some x, some y =>
      (match r with
       | .waits _ => s
       | .fault cause =>
         faultPoint d c (chunkFault d c 1 y.k (some (w.ctx, w.va, w.wr, cause)) (s.count (dreg .xltCnt d) XltCnt.FAULTS 1))
       | .done a =>
         let fillIn := fun (l : List Piece) => l.map fun p =>
           if p.ok = false ∧ s.walkAddr d y.epoch w.ctx p = w.va then
             { p with addr := a, ok := true,
                      egress := (match s.window d y.epoch (s.ctxWord d y.epoch w.ctx 1) p.va with | some v => v.egress | none => 0xFFFF) }
           else p
         xlateChunk bad d c 0 x (if w.wr then { y with dst := fillIn y.dst } else { y with src := fillIn y.src }) s)
    | _, _ => s

/-- A read of a page-table entry in host memory completes: an error ends the walk as fault(walk); one that timed out is late (R329). -/
def walkCompletion (d id : Nat) (ok : Bool) (entry : Word) (bad : Bool) (s : State) : State :=
  match (s.xltDie d).walks.find? fun w => w.id == id with
  | none =>
    if id ∈ (s.xltDie d).late then
      (s.modXltDie d fun y => { y with late := y.late.erase id }).count (dreg .xltCnt d) XltCnt.LATE 1
    else s
  | some w =>
    if ok then
      match walkEntry d w entry s with
      | (some r, t) => walkEnd bad d w r t
      | (none, t) => t
    else walkEnd bad d w (.fault 3) (s.modXltDie d fun y => { y with walks := y.walks.filter fun v => v.id != id })

/-- WALK_READ_COMPLETION (R329). -/
def execWalkReadCompletion (d id : Nat) (ok : Bool) (entry : Word) (ptbad : Bool) (s : State) : Host.Outcome State Fault Refusal :=
  .next (walkCompletion d id ok entry ptbad s)

/-- A page-table read has no completion within WTIME: fault(walk) (R329). -/
def walkTimeout (d id : Nat) (s : State) : State :=
  match (s.xltDie d).walks.find? fun w => w.id == id with
  | none => s
  | some w =>
    walkEnd false d w (.fault 3) (s.modXltDie d fun y => { y with walks := y.walks.filter fun v => v.id != id, late := id :: y.late })

/-- WALK_READ_TIMEOUT (R329). -/
def execWalkReadTimeout (d id : Nat) (s : State) : Host.Outcome State Fault Refusal := .next (walkTimeout d id s)

/-! ### Function level reset and containment (08 R308, 09 R353, 12 R451) -/

/-- Whether a packet was made by a channel of a partition. -/
def State.ownedDma (s : State) (n : Nat) (p : Pkt) : Bool :=
  match p.src with
  | .dma d c _ => s.chOwner d c == n
  | _ => false

/-- Every packet of a partition's channels that has not left its egress port is flushed (R308 step 3); one that is on its way to another die
finds its tag gone there (04 R148). -/
def flushDma (n : Nat) (s : State) : State :=
  let queued := s.sch.queues.flatMap fun q => (q.2.filter (s.ownedDma n)).map fun p => (q.1, p)
  let s1 := queued.foldl (fun t x => flushPkt x.2 (t.modQueue x.1.1 x.1.2 fun l => l.erase x.2)) s
  s1.onActive fun d => fun t =>
    let away := fun (p : Pkt) => t.ownedDma n p && !(t.tagGone p)
    let ps := (t.bufDie d).spanPending.filter away
    (t.modBufDie d fun b => { b with spanPending := b.spanPending.filter fun p => !away p }).forAll ps flushHome

/-- The channels of a partition stop as steps 1 to 3 of R308 stop them: no further byte of theirs reaches a target; completions of their
reads are discarded and counted. -/
def stopDma (n : Nat) (s : State) : State :=
  let s1 := s.forAll s.activeDies fun d => fun t =>
    t.forAll ((List.range dmaChannels).filter fun c => t.chOwner d c == n) fun c => fun u =>
      u.modChan d c fun y =>
        let z := y.giveUp 0 1
        { z with xlating := none, late := z.late ++ (y.fetching.filter fun f => f.words.isNone).map (fun f => (f.tag, 1)), fetching := [],
                 next := y.committed }
  flushDma n s1

/-- The rings of a partition's channels are reset (R353, step 4 of R308). -/
def resetRings (n : Nat) (s : State) : State :=
  s.forAll s.activeDies fun d => fun t =>
    t.forAll ((List.range dmaChannels).filter fun c => t.chOwner d c == n) fun c => fun u =>
      let u1 := withdraw d c (u.setFld (chReg .dmaChCtl d c) DmaChCtl.ENABLE 0)
      let u2 := (u1.setFld (chReg .dmaChRing d c) DmaChRing.HEAD 0).setFld (chReg .dmaChRing d c) DmaChRing.TAIL 0
      u2.modChan d c fun y =>
        { y with descs := [], run := none, fetching := [], next := 0, committed := 0, last := [], chunks := [], xlating := none, fault := none,
                 what := none, parked := false, tries := 0, endings := [], stopped := false }

end Sys2Proof.Machine
end

