-- ==== Sys2Proof/Machine/Partitions.lean ====
section
/-! DEFINITION. Partitions and host faces (08): configuration requests, the follow protocol, the patch table, lent functions and their
proxy, actions of a host, function level reset, PME_Turn_Off. -/

namespace Sys2Proof.Machine

/-! ### Configuration requests (R285, R293, R294, R299) -/

/-- The upstream port of a face; in MINIMAL port 0.00 is the one of face 0. -/
def State.facePort (s : State) (n f : Nat) : Option Nat :=
  if s.mode = 0 then (if n = 0 ∧ f = 0 then some 0 else none)
  else if s.partValid s.lead (s.newE s.lead) n then s.upOf s.lead (s.newE s.lead) n f else none

/-- The bits of a configuration word that a request's byte enables name. -/
def beMask (be : Nat) : Nat := ((List.range 4).filter be.testBit).foldl (fun a i => a + 0xFF * 2 ^ (8 * i)) 0

/-- A configuration write reaches face state (R286, R293): writable bits take the value, write-1-to-clear bits are cleared. -/
def cfgStore (n f fn w v be : Nat) (s : State) : State :=
  let img := s.imageOf n fn
  let m := beMask be
  let wm := (Config.almWrite img w).toNat &&& m
  let c1 := (Config.almW1c img w).toNat &&& m &&& v
  let new := (((s.cfgWord n f fn w) &&& (0xFFFFFFFF ^^^ wm)) ||| (v &&& wm)) &&& (0xFFFFFFFF ^^^ c1)
  s.modPar fun p => { p with cfg := p.cfg.set (n, f, fn, w) new }

/-- Whether a request is addressed to the lent function below a virtual port, and not to the virtual port itself (R299). -/
def State.toLent (s : State) (n f fn : Nat) (t : Tlp) : Bool :=
  decide (0x80 ≤ fn) && s.bindKind s.lead (s.newE s.lead) n (fn - 0x80) == 2 && (t.kind == 8 || t.kind == 9)
    && t.tid / 256 == (s.vport n (fn - 0x80)).sec && t.tid / 256 != (s.face n f).sbus

/-- A request of the proxy to a lent function (R299): type 0, to the physical ID, with the die's proxy ID and a tag of its own. -/
def proxySend (g lent ctx : Nat) (q : Tlp) (back : Option Tlp) (s : State) : State :=
  let d := pdie g
  let tag := (s.par.proxyTag.get 0 d + 1) % 1024
  let prid := getBits (s.ctxWord d (s.newE d) ctx 0) 31 16
  let s1 := s.modPar fun p =>
    { p with proxyTag := p.proxyTag.set d tag, proxy := p.proxy ++ [{ die := d, tag := tag, port := g, lent := lent, req := back }],
             proxyLate := p.proxyLate.filter fun x => x != (d, tag) }
  originate lent { q with kind := if q.kind = 9 ∨ q.kind = 7 then 7 else 6, rid := s.fld (dreg .parProxy d) ParProxy.RID, tag := tag, tid := prid } s1

/-- A request to a lent function is proxied, or answered with UR where its bus leads to no port. -/
def proxyRequest (g n k : Nat) (t : Tlp) (s : State) : State :=
  let e := s.newE s.lead
  let ctx := s.bindCtx s.lead e n k
  match s.portOfBus (getBits (s.ctxWord s.lead e ctx 0) 31 16 / 256) with
  | some lent => proxySend g lent ctx t (some t) s
  | none => originate g (completionFor t cplUR []) s

/-! ### Actions (R301, R306 to R308, R293) -/

/-- A hot reset of a port's link: it goes down by the part's own act and trains again. -/
def hotReset (g : Nat) (s : State) : State := enterDetect (pdie g) (pnum g) false (takeDown (pdie g) (pnum g) s)

/-- A Secondary Bus Reset of a virtual port (R301): a hot reset of the bound link, or an FLR of the lent function through the proxy. -/
def secondaryBusReset (n k : Nat) (s : State) : State :=
  let e := s.newE s.lead
  match s.bindKind s.lead e n k with
  | 1 => hotReset (s.bindPort s.lead e n k) s
  | 2 =>
    let ctx := s.bindCtx s.lead e n k
    (match s.portOfBus (getBits (s.ctxWord s.lead e ctx 0) 31 16 / 256), s.facePort n (s.bindFace s.lead e n k) with
     | some lent, some g =>
       proxySend g lent ctx { kind := 7, payload := [0, 0x80, 0, 0], raw := List.replicate 12 0, be := 0xF } none s
     | _, _ => s)
  | _ => s

/-- SECONDARY_BUS_RESET (R301). -/
def execSecondaryBusReset (n k : Nat) (s : State) : Host.Outcome State Fault Refusal := .next (secondaryBusReset n k s)

/-- A Link Retrain write retrains the bound link, if it is up (R293). -/
def faceLinkRetrain (n k : Nat) (s : State) : State :=
  let e := s.newE s.lead
  let g := s.bindPort s.lead e n k
  if s.bindKind s.lead e n k = 1 ∧ s.linkState (pdie g) (pnum g) = 3 then retrain (pdie g) (pnum g) s else s

/-- FACE_LINK_RETRAIN (R293). -/
def execFaceLinkRetrain (n k : Nat) (s : State) : Host.Outcome State Fault Refusal := .next (faceLinkRetrain n k s)

/-- A Power Controller Control write (R306, R307): acts on the slot that the binding names, through the Hild path; Command Completed is set
when the Hild die has taken the request. -/
def powerControl (n k : Nat) (off : Bool) (s : State) : State :=
  let e := s.newE s.lead
  if s.bindKind s.lead e n k = 1 then
    match s.bindSlot s.lead e n k with
    | some slot =>
      if s.hasPath ∧ ¬ s.hild.down then
        vpEvent n k [slotCommand] (slotPwren slot (!off) s)
      else s
    | none => s
  else s

/-- POWER_CONTROLLER_CONTROL (R307). -/
def execPowerControllerControl (n k : Nat) (off : Bool) (s : State) : Host.Outcome State Fault Refusal := .next (powerControl n k off s)

/-- A management reset and an FLR answer instances without any timer expiring, so a later verdict on one is refused, not late (01 R34, R35): the
tags of expired instances are those of the state before. -/
def keepExpired (s0 s : State) : State :=
  { s with
    lane := { s.lane with pegExpired := s0.lane.pegExpired }
    links := s.links.map fun x => (x.1, { x.2 with rtvExpired := (s0.links.get {} x.1).rtvExpired })
    hild := { s.hild with slots := s.hild.slots.map fun x => (x.1, { x.2 with expired := (s0.hild.slots.get {} x.1).expired }) }
    xlt := { s.xlt with dies := s.xlt.dies.map fun x => (x.1, { x.2 with precExpired := (s0.xltDie x.1).precExpired }) }
    dma := { s.dma with ch := s.dma.ch.map fun x => (x.1, { x.2 with expired := (s0.dma.ch.get {} x.1).expired }) }
    buf := { dies := s.buf.dies.map fun x => (x.1, { x.2 with leakExpired := (s0.bufDie x.1).leakExpired }) }
    sch := { s.sch with pxExpired := s0.sch.pxExpired }
    boot := { s.boot with actExpired := s0.boot.actExpired, migExpired := s0.boot.migExpired } }

/-- Every assist instance whose verdict would come from a partition's endpoint takes its hardware-mode action (R308 step 1). -/
def endpointExpire (n : Nat) (s : State) : State :=
  s.forAll s.activeDies fun d => fun t =>
    let t1 := t.forAll ((List.range 64).filter fun i =>
      t.fld (prec0 d i) XltPrec0.VALID == 1 && t.fld (prec0 d i) XltPrec0.PART == n && (t.xltDie d).precMode.get 0 i == 1) (precExpire d)
    let t2 := t1.forAll ((List.range dmaChannels).filter fun c => t1.chOwner d c == n && (t1.chan d c).mode == 1) (dmaExpire d)
    let t3 := t2.forAll ((List.range 16).filter fun pp => t2.ownerOf (gport d pp) == n && (t2.link d pp).rtvMode == 1) (retrainExpire d)
    let t4 := t3.forAll ((List.range 16).filter fun pp => t3.ownerOf (gport d pp) == n && t3.lane.pegMode.get 0 (gport d pp) == 1) (pegExpire d)
    let t5 := t4.forAll ((List.range 64).filter fun i =>
      t4.fld (pxrec d i) SchPxrec.VALID == 1 && (t4.flow (t4.pxFlow d i)).xmode == 1 && (t4.flowCtx d (t4.newE d) (t4.pxFlow d i)).owner == n) (pxExpire d)
    t5.forAll ((List.range 32).filter fun k => t5.slotDie k == d && (t5.slot k).owner == n && (t5.slot k).mode == 1) hotplugExpire

/-- An Initiate FLR begins: step 1 of R308. The channels of the partition start nothing, and every instance whose verdict would come from its
endpoint acts; an FLR that is in progress goes on. -/
def initiateFlr (n : Nat) (s : State) : State :=
  if n ∈ s.par.flr then s else (keepExpired s (endpointExpire n s)).modPar fun p => { p with flr := p.flr ++ [n] }

/-- Steps 2 to 4 of an FLR (R308): the channels pre-empt, what they have under way is flushed, and both endpoint instances take their reset
values. -/
def flrEnd (n : Nat) (s : State) : State :=
  let s2 := resetRings n (stopDma n s)
  let s3 := s2.forAll (List.range 2) fun f => fun t =>
    match t.facePort n f with
    | none => t
    | some g =>
      let t1 := (cfgResetFns n f [2] t).modFace n f fun x =>
        { x with dstate := 0, bme := false, msix := false, masked := [], pba := [], priEn := false, priAlloc := 0, pasidEn := false }
      t1.count (dreg .parCnt (pdie g)) ParCnt.FLRS 1
  sbbFlr n (s3.modPar fun p => { p with pending := p.pending.erase n, flr := p.flr.erase n })

/-- INITIATE_FLR (R308). -/
def execInitiateFlr (n : Nat) (s : State) : Host.Outcome State Fault Refusal := .next (initiateFlr n s)

/-! ### The answer to a request (R285, R293) -/

/-- A Followed write: it gets the next follow number and its completion is held (R294); in MINIMAL it completes at once (R295). -/
def followHold (n f g : Nat) (t : Tlp) (s : State) : State :=
  if s.mode = 0 then originate g (completionFor t cplSC []) s
  else
    let q := (s.fld (followReg n) PartFollow.LAST + 1) % 65536
    setHeld n (s.par.held.get [] n ++ [(q, f, completionFor t cplSC [], s.now)]) (s.setFld (followReg n) PartFollow.LAST q)

/-- Vectors that waited masked and are unmasked now send their message (12 R475). -/
def unmaskPba (n f d : Nat) (s : State) : State :=
  let x := s.face n f
  if s.faceReady d n f then
    let go := x.pba.filter fun v => decide (v ∉ x.masked)
    (s.modFace n f fun y => { y with pba := y.pba.filter fun v => decide (v ∈ y.masked) }).modFlt fun z =>
      { z with msix := z.msix ++ go.map fun v => (n, f, v, d, 2047) }
  else s

/-- The lane that a function margins (02 R75): logical lane `lane` of the face's upstream port, or of the port to which a virtual port is bound. Only
a PCIe port has margining. -/
def State.marginLane (s : State) (n fn g lane : Nat) : Option (Nat × Nat) :=
  let h := if fn ≤ 1 then some g
    else if 0x80 ≤ fn ∧ s.bindKind s.lead (s.newE s.lead) n (fn - 0x80) = 1 then some (s.bindPort s.lead (s.newE s.lead) n (fn - 0x80))
    else none
  match h with
  | none => none
  | some p =>
    if s.isNerov p then none
    else ((s.lanesOf (pdie p) (pnum p)).find? fun ll => s.laneNum (pdie p) (pnum p) ll == lane).map fun ll => (pdie p, ll)

/-- Margin Payload of the status of a lane: what the step did and the errors found (02 R75; PCI Express Base Specification, log entry 30). -/
def Margin.payload (m : Margin) : Nat := (if m.status = 1 then 2 else if m.status = 3 then 3 else 0) * 64 + min 63 m.errors

/-- A host changes the error report of a port function: the upstream port function of its face, or a virtual port (12 R459). -/
def aerEffect (n f fn : Nat) (h : Aer → Aer) (s : State) : State :=
  if fn ≤ 1 then s.modFace n f fun x => { x with aer := h x.aer }
  else if 0x80 ≤ fn then s.modVport n (fn - 0x80) fun v => { v with aer := h v.aer }
  else s

/-- The live effects of a write, in face state at once (R293); an Action acts. -/
def cfgEffect (n f fn g : Nat) (what : CfgWhat) (s : State) : State :=
  let k := fn - 0x80
  let d := pdie g
  match what with
  | .busNumbers p c u =>
    if fn ≤ 1 then s.modFace n f fun x => { x with pbus := p, sbus := c, subbus := u }
    else s.modVport n k fun v => { v with sec := c, sub := u }
  | .followed (some b) => if fn = 2 then s.modFace n f fun x => { x with bme := b } else s
  | .acs sv tb rr cr uf dt => s.modVport n k fun v => { v with sv := sv, tb := tb, rr := rr, cr := cr, uf := uf, dt := dt }
  | .power ds pme =>
    if fn = 2 then
      sendPending d n (s.modFace n f fun x => { x with dstate := if ds < 4 then ds else x.dstate, pmeEn := pme })
    else s
  | .msix en masked => if fn = 2 then unmaskPba n f d (sendPending d n (s.modFace n f fun x => { x with msix := en, masked := masked })) else s
  | .pri en alloc pasid => if fn = 2 then s.modFace n f fun x => { x with priEn := en, priAlloc := min 64 alloc, pasidEn := pasid } else s
  | .live ari => if 0x80 ≤ fn then s.modVport n k fun v => { v with ari := ari } else s
  | .dpc en ca int => if 0x80 ≤ fn then s.modVport n k fun v => { v with dpcEn := en, dpcCA := ca, dpcInt := int } else s
  | .msi en addr data => if 0x80 ≤ fn then s.modVport n k fun v => { v with msi := if en then some (addr, data) else none } else s
  | .slotStatus clear ctl =>
    if 0x80 ≤ fn then
      s.modVport n k fun v => { v with slotStat := v.slotStat &&& (0xFFFF ^^^ (clear &&& 0xFFFF)), slotCtl := ctl % 65536 }
    else s
  | .aer clear =>
    aerEffect n f fn (fun a =>
      let u := a.unc &&& (0xFFFFFFFF ^^^ clear)
      { a with unc := u, header := if u.testBit 18 then a.header else [] }) s
  | .aerCor clear => aerEffect n f fn (fun a => { a with cor := a.cor &&& (0xFFFFFFFF ^^^ clear) }) s
  | .linkStatus clear => if clear then aerEffect n f fn (fun a => { a with lbms := false }) s else s
  | .margin lane q =>
    (match s.marginLane n fn g lane with
     | some x => marginReq x.1 x.2 q s
     | none => s)
  | .secondaryBusReset => if 0x80 ≤ fn then secondaryBusReset n k s else s
  | .initiateFlr => if fn = 2 then initiateFlr n s else s
  | .linkRetrain => if 0x80 ≤ fn then faceLinkRetrain n k s else s
  | .powerController off => if 0x80 ≤ fn then powerControl n k off s else s
  | _ => s

/-- A patch also acts on the value read of bits that the write mask leaves read-only (R288): the patches that the function took at its reset. -/
def State.patchRead (s : State) (n f fn w v : Nat) : Nat :=
  let img := s.imageOf n fn
  let ro := (0xFFFFFFFF ^^^ (Config.almWrite img w).toNat) &&& (0xFFFFFFFF ^^^ (Config.almW1c img w).toNat)
  (v &&& (0xFFFFFFFF ^^^ ro)) ||| (patchWord img w v (s.par.patched.get [] (n, f, fn)) &&& ro)

/-- A word of the header log, first byte uppermost (12 R459; PCI Express Base Specification, log entry 30). -/
def Aer.headerWord (a : Aer) (i : Nat) : Nat :=
  (List.range 4).foldl (fun x j => x * 256 + (a.header.getD (4 * i + j) 0).toNat) 0

/-- What the host reads in a word of a port function whose fields show the part's state (R303, R305 to R307; 12 R459, R461); the places of the fields are
those of the PCI Express Base Specification (log entry 30). -/
def State.liveWord (s : State) (n f fn w : Nat) (what : CfgWhat) : Nat :=
  let base := s.cfgWord n f fn w
  let d := s.lead
  let e := s.newE d
  let k := fn - 0x80
  let v := s.vport n k
  let slot := if s.bindKind d e n k = 1 then s.bindSlot d e n k else none
  let port := match s.bindKind d e n k with
    | 1 => some (s.bindPort d e n k)
    | 2 => s.portOfBus (getBits (s.ctxWord d e (s.bindCtx d e n k) 0) 31 16 / 256)
    | _ => none
  let put := fun (b : Nat) (on : Bool) (x : Nat) => if on = x.testBit b then x else if on then x + 2 ^ b else x - 2 ^ b
  let shown := s.patchRead n f fn w
  let margin := fun (lane : Nat) =>
    match (s.facePort n f).bind fun g => s.marginLane n fn g lane with
    | some x => (s.lane.margin.get {} x).payload * 2 ^ 24 + base % 2 ^ 24
    | none => base
  let a := if fn < 0x80 then (s.face n f).aer else v.aer
  if fn = 2 then base
  else if fn < 0x80 then
    (match what with
     | .margin lane _ => shown (margin lane)
     | .aer _ => shown (base ||| a.unc)
     | .aerCor _ => shown (base ||| a.cor)
     | .aerHeader i => shown (a.headerWord i)
     | _ => base)
  else match what with
    | .margin lane _ => shown (margin lane)
    | .slotCap =>
      (match slot with
       | some sl =>
         shown <| 2 ^ 1 + 2 ^ 5 + 2 ^ 6 + s.fld (hreg .hildCfg sl) HildCfg.SPLV * 2 ^ 7 + s.fld (hreg .hildCfg sl) HildCfg.SPLS * 2 ^ 15 +
           (getBits (s.partWord d e n 3) 31 24 * 32 + sl) * 2 ^ 19
       | none => base)
    | .slotStatus _ _ =>
      shown <| base % 2 ^ 16 + 2 ^ 16 * put slotPresent ((slot.map fun sl => s.slotBit sl HildStat.SEATED).getD false) v.slotStat
    | .linkStatus _ => shown <| put 30 a.lbms <| put 29 ((port.map fun g => s.linkLive (pdie g) (pnum g)).getD false) base
    | .aer _ => shown (base ||| a.unc)
    | .aerCor _ => shown (base ||| a.cor)
    | .aerHeader i => shown (a.headerWord i)
    | .dpcStatus => shown <| put 0 v.dpcTrig base
    | _ => base

/-- Whether a write is Followed (R293). -/
def CfgWhat.isFollowed : CfgWhat → Bool
  | .busNumbers _ _ _ => true
  | .followed _ => true
  | .bar _ => true
  | _ => false

/-- The window record that stands for an emulated BAR of a lent function: its size and the bits that the BAR reports (R299; 09 R324). -/
def State.barWindow (s : State) (ctx i : Nat) : Option (Nat × Bool × Bool) :=
  let d := s.lead
  let e := s.newE d
  let w1 := s.ctxWord d e ctx 1
  (List.range (getBits w1 23 18)).findSome? fun j =>
    let w := fun k => s.bankAt d e (0xB0000 + 32 * (getBits w1 17 0 + j) + 8 * k)
    if bitOf (w 0) 0 ∧ getBits (w 0) 11 8 = i ∧ getBits (w 0) 63 12 ≤ getBits (w 1) 63 12 then
      some ((getBits (w 1) 63 12 - getBits (w 0) 63 12 + 1) * 4096, bitOf (w 3) 44, bitOf (w 3) 43)
    else none

/-- What the borrower reads in an emulated BAR: the bits above the size hold what it wrote, those below report the kind of the BAR; the next
BAR of a 64-bit one holds the upper half, and a BAR that no window names reads as zero (R299; 09 R324). -/
def State.barRead (s : State) (ctx i : Nat) : Nat :=
  let v := s.par.bars.get 0 (ctx, i) % 2 ^ 32
  match s.barWindow ctx i with
  | some (size, pf, wide) => v / size * size + b2n pf * 8 + b2n wide * 4
  | none =>
    match (if i = 0 then none else s.barWindow ctx (i - 1)) with
    | some (size, _, true) => v / ((size + 2 ^ 32 - 1) / 2 ^ 32) * ((size + 2 ^ 32 - 1) / 2 ^ 32)
    | _ => 0

/-- Whether a request is for a bus below a virtual port that has nothing there, or for a device or function of a lent function's bus that does
not exist (R291, R299). -/
def State.nothingThere (s : State) (n f fn : Nat) (t : Tlp) : Bool :=
  decide (0x80 ≤ fn) && (t.kind == 8 || t.kind == 9) &&
    (if s.toLent n f fn t then t.tid % 256 != 0
     else s.mode != 0 && s.bindKind s.lead (s.newE s.lead) n (fn - 0x80) != 1 && t.tid / 256 != (s.face n f).sbus)

/-- A request is answered by the control island (R285, R293, R294, R299); one to an endpoint instance during an FLR receives Request Retry
Status (R308). -/
def cfgAnswer (n f fn g : Nat) (t : Tlp) (what : CfgWhat) (s : State) : State :=
  let w := t.addr / 4
  let v := ofBytesLE t.payload
  let rd := t.kind == 6 || t.kind == 8
  if what = .absent ∨ s.nothingThere n f fn t then originate g (completionFor t cplUR []) s
  else if fn = 2 ∧ n ∈ s.par.flr then originate g (completionFor t cplRRS []) s
  else if s.toLent n f fn t then
    let k := fn - 0x80
    let ctx := s.bindCtx s.lead (s.newE s.lead) n k
    match what with
    | .bar i =>
      if rd then originate g (completionFor t cplSC (bytesLE 4 (s.barRead ctx i))) s
      else
        let m := beMask t.be
        let old := s.par.bars.get 0 (ctx, i)
        followHold n f g t (s.modPar fun p => { p with bars := p.bars.set (ctx, i) ((old &&& (0xFFFFFFFF ^^^ m)) ||| (v &&& m)) })
    | .ownerOnly c =>
      if rd = false ∧ (getBits (s.ctxWord s.lead (s.newE s.lead) ctx 0) 51 48).testBit c = true then originate g (completionFor t cplSC []) s
      else proxyRequest g n k t s
    | _ => proxyRequest g n k t s
  else if rd then originate g (completionFor t cplSC (bytesLE 4 (s.liveWord n f fn w what))) s
  else
    let s1 := cfgStore n f fn w v t.be s
    if what.isFollowed then followHold n f g t (cfgEffect n f fn g what s1)
    else cfgEffect n f fn g what (originate g (completionFor t cplSC []) s1)

/-- FACE_CONFIG_REQUEST: the oldest such request that waits at the face is taken and answered, in stream order (04 R145); behind a held write of
the face it goes on waiting (R294). -/
def faceConfig (n f fn : Nat) (t : Tlp) (what : CfgWhat) (s : State) : State :=
  match s.facePort n f with
  | none => s
  | some g =>
    if (s.par.held.get [] n).any fun x => x.2.1 == f then s
    else match takeFirst (fun p => p.tlp == t && p.iport == g && s.releasable p) (s.queue (0x8000 + fn) 0) with
      | none => s
      | some (p, rest) =>
        cfgAnswer n f fn g t what (serveLocal (0x8000 + fn) (takeLocal p (s.modQueue (0x8000 + fn) 0 fun _ => rest)))

/-- FACE_CONFIG_REQUEST (R285). -/
def execFaceConfigRequest (n face fn : Nat) (t : Tlp) (what : CfgWhat) (s : State) : Host.Outcome State Fault Refusal :=
  .next (faceConfig n face fn t what s)

/-- A held completion that FTIME finds is returned with successful status, and FOLLOW is set (R294). -/
def followTimeout (n : Nat) (s : State) : State :=
  match s.par.held.get [] n with
  | [] => s
  | x :: rest =>
    let s1 := (setHeld n rest (returnHeld n x s)).setFld (followReg n) PartFollow.DONE x.1
    match s.facePort n x.2.1 with
    | some g => raise (dreg .parErr (pdie g)) ParErr.FOLLOW s1
    | none => s1

/-- FOLLOW_TIMEOUT (R294). -/
def execFollowTimeout (n : Nat) (s : State) : Host.Outcome State Fault Refusal := .next (followTimeout n s)

/-! ### The patch table (R288, R289, R321) -/

/-- A write of PART.ALMLOCK: 1 locks the patch table. -/
def almlockWrite (v : Word) (s : State) : State :=
  if PartAlmlock.LOCK.of v = 1 ∧ s.fld { name := .partAlmlock } PartAlmlock.LOCK = 0 then
    lockPatchGate (s.setFld { name := .partAlmlock } PartAlmlock.LOCK 1)
  else s

/-- ALMLOCK_WRITE (R289). -/
def execAlmlockWrite (_who : Master) (v : Word) (s : State) : Host.Outcome State Fault Refusal := .next (almlockWrite v s)

/-- A write of a word of a patch entry, ignored once the table is locked. -/
def almpatchWrite (i word : Nat) (v : Word) (s : State) : State :=
  if s.fld { name := .partAlmlock } PartAlmlock.LOCK = 1 ∨ 64 ≤ i then s
  else if word = 0 then
    s.setReg { name := .partAlmpatch0, i := i } (BitVec.ofNat 64
      (PartAlmpatch0.VALID.place (PartAlmpatch0.VALID.of v) + PartAlmpatch0.IMAGE.place (PartAlmpatch0.IMAGE.of v)
        + PartAlmpatch0.DWOFF.place (PartAlmpatch0.DWOFF.of v) + PartAlmpatch0.VALUE.place (PartAlmpatch0.VALUE.of v)))
  else s.setReg { name := .partAlmpatch1, i := i } (BitVec.ofNat 64 (PartAlmpatch1.MASK.place (PartAlmpatch1.MASK.of v)))

/-- ALMPATCH_WRITE (R288). -/
def execAlmpatchWrite (_who : Master) (i word : Nat) (v : Word) (s : State) : Host.Outcome State Fault Refusal := .next (almpatchWrite i word v s)

/-! ### The proxy (R299; 12 R473) -/

/-- A completion to the proxy is returned to the borrower with the borrower's requester ID and tag; one after the timeout is discarded and
counted. -/
def proxyCompletion (d : Nat) (t : Tlp) (s : State) : State :=
  match takeFirst (fun x => x.die == d && x.tag == t.tag) s.par.proxy with
  | some (x, rest) =>
    let s1 := s.modPar fun p => { p with proxy := rest }
    (match x.req with
     | some q => originate x.port (completionFor q t.cst t.payload) s1
     | none => s1)
  | none =>
    if (d, t.tag) ∈ s.par.proxyLate then
      (s.modPar fun p => { p with proxyLate := p.proxyLate.erase (d, t.tag) }).count (dreg .fltCnt d) FltCnt.LATE 1
    else s

/-- PROXY_COMPLETION (R299). -/
def execProxyCompletion (d : Nat) (t : Tlp) (s : State) : Host.Outcome State Fault Refusal := .next (proxyCompletion d t s)

/-- A proxied request times out: the borrower receives UR, and CPLTO is set at the lent function's port (12 R473). -/
def proxyTimeout (d tag : Nat) (s : State) : State :=
  match takeFirst (fun x => x.die == d && x.tag == tag) s.par.proxy with
  | none => s
  | some (x, rest) =>
    let s1 := s.modPar fun p => { p with proxy := rest, proxyLate := (d, tag) :: p.proxyLate }
    let s2 := match x.req with
      | some q => originate x.port (completionFor q cplUR []) s1
      | none => s1
    raise (tlerr x.lent) FltTlerr.CPLTO s2

/-- PROXY_TIMEOUT (12 R473). -/
def execProxyTimeout (d tag : Nat) (s : State) : Host.Outcome State Fault Refusal := .next (proxyTimeout d tag s)

/-! ### PME_Turn_Off (R311) -/

/-- PME_Turn_Off at the upstream port of a face goes down every bound port whose link is up; with none it is acknowledged at once. -/
def pmeTurnOff (n f : Nat) (s : State) : State :=
  match s.facePort n f with
  | none => s
  | some g =>
    let d := s.lead
    let e := s.newE d
    let l := ((List.range 64).filter fun k =>
      s.bindKind d e n k == 1 && s.bindFace d e n k == f && s.portUp (s.bindPort d e n k)).map (s.bindPort d e n)
    let s1 := s.forAll l fun x => originate x { kind := 10, mcode := 0x19, mroute := 3, raw := List.replicate 12 0 }
    let s2 := s1.modFace n f fun x => { x with turnOff := some l }
    if l.isEmpty then turnOffDone n f g s2 else s2

/-- PME_TURN_OFF (R311). -/
def execPmeTurnOff (n face : Nat) (s : State) : Host.Outcome State Fault Refusal := .next (pmeTurnOff n face s)

/-- PMETO passes before every acknowledgement has come: PME_TO_Ack is sent, and PMETO is set (R311). -/
def pmeTimeout (n f : Nat) (s : State) : State :=
  match (s.face n f).turnOff, s.facePort n f with
  | some _, some g => turnOffDone n f g (raise (dreg .parErr (pdie g)) ParErr.PMETO s)
  | _, _ => s

/-- PME_TO_TIMEOUT (R311). -/
def execPmeToTimeout (n face : Nat) (s : State) : Host.Outcome State Fault Refusal := .next (pmeTimeout n face s)

end Sys2Proof.Machine
end

