-- ==== Sys2Proof/Machine/Boot.lean ====
section
/-! DEFINITION. Images and settings in the flashes, the start after a part reset, failed starts and MINIMAL (13 R490 to R503; 01 R21,
R24; 14 R543). -/

namespace Sys2Proof.Machine

/-! ### Flashes and images -/

/-- The flash of the running image: 0 A, 1 B; none in MINIMAL, where the boot ROM runs (R517). -/
def State.running (s : State) : Option Nat := if s.mode = 0 then none else some (s.fld (bootStat s.lead) BootStat.IMAGE)

/-- The other flash. -/
def otherFlash (f : Nat) : Nat := 1 - f

/-- A byte of a flash: 0xFF where it is erased. -/
def State.flashByte (s : State) (f a : Nat) : Byte := (s.boot.flash.get [] f).get 0xFF a

/-- Bytes of a flash. -/
def State.flashBytes (s : State) (f a n : Nat) : List Byte := (List.range n).map fun k => s.flashByte f (a + k)

/-- Bytes written over what a flash holds. -/
def flashPut (f a : Nat) (bs : List Byte) (s : State) : State :=
  s.modBoot fun b => { b with flash := b.flash.upd [] f fun m => bs.zipIdx.foldl (fun m x => m.set (a + x.2) x.1) m }

/-- Whether a flash answers: port A is served by die 0 and port B by die 1, which must be in service (R493). -/
def State.flashThere (s : State) (f : Nat) : Bool := !(decide (f ∈ s.boot.noFlash)) && s.active f

/-- Whether bytes are zero. -/
def zeroAt (h : List Byte) (off n : Nat) : Bool := ((h.drop off).take n).all (· == 0)

/-- Fields of an image header (R495). -/
def hdrVersion (h : List Byte) : Nat := leAt h 0x0C 4
def hdrSvn (h : List Byte) : Nat := leAt h 0x10 1
def hdrLength (h : List Byte) : Nat := leAt h 0x18 4
def hdrEntry (h : List Byte) : Nat := leAt h 0x1C 4
def hdrHandover (h : List Byte) : Nat := leAt h 0x20 4
def hdrKeyslot (h : List Byte) : Nat := leAt h 9 1

/-- Checks 2 to 6 of a header: the cause code of the first that fails, or 0 (R496). -/
def State.headerCheck (s : State) (h : List Byte) : Nat :=
  if leAt h 0 4 ≠ 0x4B46494D ∨ leAt h 4 2 ≠ 1 ∨ leAt h 0x2C 4 ≠ crc32 (h.take 0x2C)
      ∨ ¬ (zeroAt h 0x0A 2 ∧ zeroAt h 0x11 3 ∧ zeroAt h 0x28 4 ∧ zeroAt h 0x91 15) then 0x08
  else if leAt h 6 2 ≠ 0x4B46 then 0x09
  else if leAt h 8 1 ≠ s.dieCount then 0x0A
  else if hdrSvn h < s.fuses.svnFloor ∨ s.fuses.romVer < leAt h 0x14 4 then 0x0B
  else if hdrLength h % 64 ≠ 0 ∨ hdrLength h < 4096 ∨ 1048576 < hdrLength h ∨ hdrEntry h % 4 ≠ 0 ∨ hdrLength h ≤ hdrEntry h then 0x0C
  else if hdrKeyslot h < 4 ∨ 7 < hdrKeyslot h ∨ hdrKeyslot h ∈ s.fuses.revoked
      ∨ sha384 ((h.drop 0x30).take 97) ≠ Config.vaultDigest (hdrKeyslot h) then 0x0D
  else 0

/-- The header of the image in a flash. -/
def State.imageHeader (s : State) (f : Nat) : List Byte := s.flashBytes f 0 256

/-- The body of the image in a flash. -/
def State.imageBody (s : State) (f : Nat) : List Byte := s.flashBytes f 0x100 (hdrLength (s.imageHeader f))

/-- The checks of an image in their order: the cause code of the first that fails, or 0 (R496). `badBody` names the flashes whose body
does not read. -/
def State.imageCheck (s : State) (f : Nat) (badBody : List Nat) : Nat :=
  if s.flashThere f = false then 0x07
  else
    let h := s.imageHeader f
    let c := s.headerCheck h
    if c ≠ 0 then c
    else if f ∈ badBody then 0x0F
    else if ecdsaVerify ((h.drop 0x30).take 97) (sha384 (h.take 0xA0 ++ s.imageBody f)) ((h.drop 0xA0).take 96) then 0
    else 0x0E

/-- The settings copy of a flash, when it is valid (R513). -/
def State.settingsCopy (s : State) (f : Nat) : Option (List Byte) :=
  if s.flashThere f = false then none
  else
    let h := s.flashBytes f 0x400000 64
    if leAt h 0 4 ≠ 0x4B465354 ∨ leAt h 4 2 ≠ 1 ∨ 262080 < leAt h 0x18 4 then none
    else
      let c := s.flashBytes f 0x400000 (64 + leAt h 0x18 4)
      if leAt h 0x1C 4 = crc32 (c.take 0x1C ++ c.drop 0x20) then some c else none

/-- The settings copy that a part reset takes: the valid one with the higher GENERATION, A when they are equal (R514). -/
def State.chosenSettings (s : State) : Option (List Byte) :=
  match s.settingsCopy 0, s.settingsCopy 1 with
  | some a, some b => some (if leAt a 8 8 < leAt b 8 8 then b else a)
  | some a, none => some a
  | none, b => b

/-- The bytes of an empty settings store, as the boot ROM places it (R514): the spec does not give them. -/
def emptyStore : List Byte := (List.range 64).map Config.emptyStore

/-! ### Control SRAM -/

/-- Bytes written to the control SRAM of every die in service. -/
def sramAll (off : Nat) (bs : List Byte) (s : State) : State := s.onActive fun d => sramStore d off bs

/-- Offsets of the control SRAM's areas (R503). -/
def stagingArea : Nat := 0x280000
def settingsArea : Nat := 0x380000
def handoverArea : Nat := 0x3C0000

/-- The header of the staged image, as a die's staging area holds it. -/
def State.stagedHeader (s : State) (d : Nat) : List Byte := s.mem.bytes (sramBase d + stagingArea) 256

/-- The staged body goes to the run area of a die (R504, R508). -/
def copyStaged (d : Nat) (s : State) : State :=
  sramStore d 0 (s.mem.bytes (sramBase d + stagingArea + 0x100) (hdrLength (s.stagedHeader d))) s

/-! ### Harts and watchdogs -/

/-- A die's control cores changed. -/
def State.modCore (s : State) (d : Nat) (f : CoreDie → CoreDie) : State :=
  { s with core := { s.core with dies := s.core.dies.upd {} d f } }

/-- A hart changed. -/
def State.modHart (s : State) (d h : Nat) (f : Hart → Hart) : State :=
  s.modCore d fun x => { x with hart := x.hart.upd {} h f }

/-- Both harts of a die take their reset state (10 R404): retired pairs stay so. -/
def hartsReset (d : Nat) (s : State) : State :=
  s.modCore d fun x =>
    { x with hart := if 2 ≤ x.retired.length then [(0, { stopped := true }), (1, { stopped := true })] else [], swevt := 0, rollbacks := [],
             withdrawn := [] }

/-- Both harts of a die enter the running image at an offset of its body, in M (R491, R504). -/
def hartsEnter (d off : Nat) (s : State) : State :=
  s.forAll [0, 1] fun h => fun t => t.modHart d h fun x => { x with pc := 0xE010000000 + off }

/-- The watchdog of a die starts with a full period (12 R471). -/
def wdogStart (d : Nat) (s : State) : State :=
  s.modFlt fun x => { x with wdog := x.wdog.set d (s.fld { name := .partFltcfg } PartFltcfg.WDOG) }

/-- Every watchdog stops (12 R471). -/
def wdogStopAll (s : State) : State := s.modFlt fun x => { x with wdog := [] }

/-! ### The part reset -/

/-- Every domain of a die that is held in reset, has failed its test or is lost is OFF (14 R528). -/
def domainsOff (d : Nat) (s : State) : State :=
  s.forAll (List.range 72) fun i => fun t =>
    let r : Reg := { name := .pwrDom, die := d, i := i }
    (t.setFld r PwrDom.CUR 2).setFld r PwrDom.REQ 2

/-- The part reset (R490): every island and the Hild die's control logic return to reset; the always-on record, the fuses and what lies
outside the part are kept. A burned floor takes effect, and the nonce is drawn (R527; 11 R433). -/
def partReset (s : State) : State :=
  let h := hildReset s
  let causes := s.regs.filter fun x => x.1.name == .bootCause
  let fu := match s.fuses.svnPend with
    | some v => { s.fuses with svnFloor := v, svnPend := none }
    | none => s.fuses
  let t : State :=
    { pending := s.pending, freeCtr := s.freeCtr, fuses := fu, regs := (h.regs.filter fun x => decide (x.1.name ∈ hildNames)) ++ causes,
      hild := h.hild, flt := { lastClass := s.flt.lastClass },
      boot := { flash := s.boot.flash, noFlash := s.boot.noFlash, resets := s.boot.resets + 1, held := s.boot.held, prst := s.boot.prst } }
  (t.forAll (List.range t.dieCount) fun d => fun u => u.setDieState d 1).setReg { name := .partDbgNonce } (Config.nonce s.boot.resets)

/-! ### Failed starts -/

/-- The cause of a failed start is written into the records of dies (R499, R521). -/
def recordCause (ds : List Nat) (code : Nat) (s : State) : State :=
  s.forAll ds fun d => fun t =>
    let r := bootCause d
    let f := fun (x : Field) => t.fld r x
    ((((((t.setFld r BootCause.PREV2 (f BootCause.PREV1)).setFld r BootCause.PREV1 (f BootCause.CODE)).setFld r BootCause.CODE code).setFld r
      BootCause.ATTEMPTS (min 3 (f BootCause.ATTEMPTS + 1))).setFld r BootCause.IMGA t.boot.resA).setFld r BootCause.IMGB t.boot.resB).setFld r
      BootCause.FIRST t.boot.first

/-- A start fails: the cause is recorded, and a restart waits (R499). Before a die is in service every die takes the record. -/
def failedStart (code : Nat) (s : State) : State :=
  if s.boot.failed then s
  else
    let ds := if s.activeDies.isEmpty then List.range s.dieCount else s.activeDies
    (recordCause ds code s).modBoot fun b => { b with failed := true, timer := false }

/-- Whether a start runs: its timer does, and no trial (R492, R511). -/
def State.starting (s : State) : Bool := s.boot.timer && !s.trial

/-- ATTEMPTS is cleared in every die's record (R501). -/
def clearAttempts (s : State) : State :=
  s.forAll (List.range s.dieCount) fun d => fun t => t.setFld (bootCause d) BootCause.ATTEMPTS 0

/-! ### The start -/

/-- The clock in use of every die is A, or B when A is absent (R491; 20 R667). -/
def startClocks (env : StartEnv) (s : State) : State :=
  let c := if env.refA then 0 else 1
  let lost := (if env.refA then [] else [0]) ++ (if env.refB then [] else [1])
  s.modClock fun x =>
    { x with clock := (List.range s.dieCount).map fun d => (d, c),
             lost := (List.range s.dieCount).flatMap fun d => lost.map fun l => (d, l) }

/-- The operating point of a die after an acknowledged start request (14 R548). -/
def startVoltage (d : Nat) (s : State) : State :=
  let v := s.fuses.vb d + 30 + s.fld (dreg .pwrAvscfg d) PwrAvscfg.MARGIN
  ((s.setFld (dreg .pwrAvs d) PwrAvs.REQ v).setFld (dreg .pwrAvs d) PwrAvs.RELIED v).setFld (dreg .coreClk d) CoreClk.PLLLOCK 1
    |>.setFld (dreg .coreClk d) CoreClk.SEL 1

/-- The span links of a die to the other dies in service are up; those toward a die that is not stay disabled, with their domains OFF
(03 R101, 14 R528). `rtts` are the round trips measured (03 R87). -/
def startSpans (rtts : FMap (Nat × Nat) Nat) (d : Nat) (s : State) : State :=
  s.forAll ((List.range s.dieCount).filter (· != d)) fun e => fun t =>
    if t.active e then
      spanTrained d e (rtts.get 0 (d, e)) t
    else
      let r : Reg := { name := .pwrDom, die := d, i := 46 + e }
      ((setLinkState d (16 + e) 0 t).setFld r PwrDom.CUR 2).setFld r PwrDom.REQ 2

/-- The roles of the dies (01 R16, R21): the lowest die in service leads, the next is the deputy, and die 0 carries the Hild path when it
is in service, die 1 otherwise. -/
def startRoles (s : State) : State :=
  let l := s.activeDies.headD 0
  let dep := (s.activeDies.drop 1).headD 0xF
  let path := if s.active 0 then 0 else if s.active 1 then 1 else 0xF
  ((s.setFld partLead PartLead.LEAD l).setFld partLead PartLead.DEPUTY dep).setFld partLead PartLead.HILDPATH path

/-- The dies that pass self-test come into service (R491 steps 2 to 5), their buffers zeroed (06 R229). -/
def bringUp (ds : List Nat) (env : StartEnv) (s : State) : State :=
  let s1 := s.forAll (List.range s.dieCount) fun d => fun t =>
    if d ∈ ds then bufferStart env.badCells d (startVoltage d (t.setDieState d 3)) else domainsOff d (t.setDieState d 2)
  let s2 := startRoles s1
  s2.onActive (startSpans env.spanRtt)

/-- The boot image store of a die describes the image of the part reset, and is locked (R498; 11 R429). -/
def writeImageStore (h : List Byte) (digest : Nat) (d : Nat) (s : State) : State :=
  let rec0 := bytesLE 1 s.boot.resA ++ bytesLE 1 s.boot.resB ++ bytesLE 1 (hdrKeyslot h) ++ (bytesLE 48 digest).reverse
  lockWhole d 23 (5 + 1 * 8 + 1 * 2 ^ 24 + 1 * 2 ^ 27)
    { s with mem := (s.mem.putBytes (imgBase d) h).putBytes (imgBase d + 0x100) rec0 }

/-- What the running image is, as the start and an activation leave it (R495, R517, R518). -/
def setRunning (f : Nat) (h : List Byte) (digest : Nat) (s : State) : State :=
  (s.onActive fun d => fun t =>
    ((t.setFld (bootStat d) BootStat.IMAGE f).setFld (bootVer d) BootVer.IMGVER (hdrVersion h)).setFld (bootVer d) BootVer.SVN (hdrSvn h)).modBoot
    fun b => { b with digest := digest, length := hdrLength h, entry := hdrEntry h }

/-- A die whose version differs is held isolated, with its span links disabled (01 R24, 03 R101); the fault is set by the lead die. -/
def isolateAtStart (d : Nat) (s : State) : State :=
  let s1 := s.setDieState d 5
  let s2 := s1.forAll (List.range s.dieCount) fun e => fun t =>
    let r : Reg := { name := .pwrDom, die := e, i := 46 + d }
    ((setLinkState e (16 + d) 0 (setLinkState d (16 + e) 0 t)).setFld r PwrDom.CUR 2).setFld r PwrDom.REQ 2
  raiseFault { reg := dreg .fltErr s2.lead, bit := FltErr.VERSION.lo, unitDie := some d } (startRoles s2)

/-- An image that passed its checks is started (R491 steps 8 and 9). -/
def startImage (f : Nat) (env : StartEnv) (s : State) : State :=
  let h := s.imageHeader f
  let body := s.imageBody f
  let digest := sha384 body
  let settings := s.chosenSettings
  let s1 := sramAll settingsArea (settings.getD emptyStore) (sramAll 0 body s)
  let s2 := s1.onActive fun d => fun t => t.setFld (bootStat d) BootStat.NOSET (b2n settings.isNone)
  let s3 := (s2.forAll (env.versions.filter fun d => d != s.lead && s.active d) isolateAtStart).onActive (writeImageStore h digest)
  let s4 := (setRunning f h digest s3).onActive fun d => fun t => wdogStart d (hartsEnter d (hdrEntry h) t)
  (setPhase 2 s4).modBoot fun b => { b with timer := true }

/-- The images are tried in their order (R496, R497). -/
def tryImages (attempts : Nat) (env : StartEnv) (s : State) : State :=
  let pref := match s.chosenSettings with
    | some c => leAt c 6 1 % 2
    | none => 0
  let first := if attempts % 2 = 0 then pref else otherFlash pref
  let c1 := s.imageCheck first env.badBody
  let c2 := if c1 = 0 then 0xFF else s.imageCheck (otherFlash first) env.badBody
  let s1 := s.modBoot fun b =>
    { b with first := first, resA := if first = 0 then c1 else c2, resB := if first = 0 then c2 else c1 }
  if c1 = 0 then startImage first env s1
  else if c2 = 0 then startImage (otherFlash first) env s1
  else failedStart c1 s1

/-- Die 0 starts alone from the boot ROM (R500; 01 R27; 14 R543; 15 R574). -/
def minimalStart (env : StartEnv) (s : State) : State :=
  if 0 ∉ env.pass then (s.setDieState 0 2).modBoot fun b => { b with pfault := true }
  else
    let s1 := bufferStart env.badCells 0 (startVoltage 0 (s.setDieState 0 3))
    let s2 := s1.forAll ((List.range s.dieCount).drop 1) domainsOff
    let s3 := startSpans env.spanRtt 0 (startRoles s2)
    let on := (List.range 8) ++ ((List.range 5).map (16 + ·)) ++ [69]
    let s4 := s3.forAll on fun i => fun t =>
      let r : Reg := { name := .pwrDom, die := 0, i := i }
      ((t.setFld r PwrDom.CUR 0).setFld r PwrDom.REQ 0).setFld r PwrDom.LATCHED 0
    let s5 := ((s4.setFld partMode PartMode.CUR 0).setFld (bootStat 0) BootStat.PHASE 4)
    let words := List.replicate 4 4 ++ ((List.range 4).map fun k => 2 + 256 * (k + 1)) ++ List.replicate 8 0
    let s6 := s5.forAll words.zipIdx fun x => fun t => t.setReg { name := .laneQmap, i := x.2 } (BitVec.ofNat 64 x.1)
    let s7 := s6.forAll (List.range 5) fun pp => fun t => t.setFld (lreg .linkCfg 0 pp) LinkCfg.TRATE 5
    let s8 := makeLive 0 words s7
    s8.forAll (List.range 4) fun n => slotPwren n true

/-- The start after a part reset, as far as the image's entry (R491, R499, R500). Each die takes the highest ATTEMPTS that any die holds. -/
def startUp (env : StartEnv) (s : State) : State :=
  let s0 := (startClocks env s).modBoot fun b => { b with noFlash := env.noFlash, bmcsel := env.bmcsel }
  let attempts := ((List.range s.dieCount).map fun d => s.fld (bootCause d) BootCause.ATTEMPTS).foldl max 0
  let s0 := s0.forAll (List.range s.dieCount) fun d => fun t => t.setFld (bootCause d) BootCause.ATTEMPTS attempts
  if env.refA = false ∧ env.refB = false then failedStart 0x02 s0
  else if env.avs = false then failedStart 0x04 s0
  else if env.pll = false then failedStart 0x03 s0
  else if attempts = 3 then minimalStart env s0
  else
    let ds := (List.range s.dieCount).filter fun d => decide (d ∈ env.pass)
    if ds = [] then failedStart 0x05 s0
    else if 0 ∉ ds ∧ 1 ∉ ds then failedStart 0x06 s0
    else
      let s1 := tryImages attempts env (bringUp ds env s0)
      if s1.boot.failed then s1.forAll ds fun d => fun t => t.setDieState d 1 else s1

/-- A part reset and the start that follows it, unless a rail or PRST# holds the part. -/
def partStart (env : StartEnv) (s : State) : State :=
  let t := partReset s
  if t.boot.held ∨ t.boot.prst then t.forAll (List.range t.dieCount) fun d => fun u => u.setDieState d 0 else startUp env t

/-- POWER_UP (20 R663): `prst` is whether PRST# is low. -/
def execPowerUp (env : StartEnv) (prst : Bool) (s : State) : Host.Outcome State Fault Refusal :=
  .next (if s.boot.held then partStart env (s.modBoot fun b => { b with held := false, prst := prst }) else s)

/-- PRST_RELEASE (R490). -/
def execPrstRelease (env : StartEnv) (s : State) : Host.Outcome State Fault Refusal :=
  .next (if s.boot.held then s.modBoot fun b => { b with prst := false } else partStart env (s.modBoot fun b => { b with prst := false }))

/-- PRESET (R519). -/
def execPreset (d : Nat) (env : StartEnv) (s : State) : Host.Outcome State Fault Refusal :=
  .next (if s.active d then partStart env s else s)

/-- FAILED_START_RESTART (R499). -/
def execFailedStartRestart (env : StartEnv) (s : State) : Host.Outcome State Fault Refusal :=
  .next (if s.boot.failed then partStart env s else s)

/-- FAIL (R519): ignored in service, a trial included. -/
def execFail (d : Nat) (s : State) : Host.Outcome State Fault Refusal :=
  .next (if s.active d ∧ s.starting then failedStart 0x15 s else s)

/-- CLRATT (R501). -/
def execClratt (d : Nat) (s : State) : Host.Outcome State Fault Refusal := .next (if s.active d then clearAttempts s else s)

/-- SERVICE (R492, R511): ends a start or a trial; ignored otherwise. -/
def execService (d : Nat) (s : State) : Host.Outcome State Fault Refusal :=
  .next (if ¬ s.active d ∨ ¬ s.boot.timer then s
    else if s.trial then
      let s1 := s.onActive fun x => fun t => t.setFld (bootStat x) BootStat.TRIAL 0
      (setAct BootAct.STATE (if s.boot.staged then 2 else 0) (setAct BootAct.STATUS 2 s1)).modBoot fun b => { b with timer := false }
    else clearAttempts ((setPhase 3 s).modBoot fun b => { b with timer := false }))

end Sys2Proof.Machine
end

