-- ==== Sys2Proof/Machine/Update.lean ====
section
/-! DEFINITION. Staging and activation, the handover, firmware update over PLDM, the settings store, flash commands and the SVN floor
(13 R506 to R516, R522 to R527). -/

namespace Sys2Proof.Machine

/-! ### Staging -/

/-- OP STAGE (R506, R523): the staged image that is not yet activated is replaced. -/
def stageReq (src : Nat) (s : State) : State :=
  if s.act BootAct.BUSY = 1 then setAct BootAct.STATUS 4 s
  else if s.running = some src then setAct BootAct.STATUS 5 s
  else (setAct BootAct.STAGEDVER 0 (setAct BootAct.STATE 1 (setAct BootAct.BUSY 1 s))).modBoot fun b => { b with staging := some src, staged := false }

/-- Staging ends: the image is checked and copied into every staging area, or the failure is shown (R506). -/
def stageEnd (badBody : List Nat) (s : State) : State :=
  match s.boot.staging with
  | none => s
  | some f =>
    let s1 := setAct BootAct.BUSY 0 (s.modBoot fun b => { b with staging := none })
    let c := s.imageCheck f badBody
    if c = 0 then
      let h := s.imageHeader f
      let body := s.imageBody f
      let put := fun (off : Nat) (bs : List Byte) (t : State) => t.onActive fun d => foreignStore d (0x88 + t.lead) off bs
      let s2 := put (stagingArea + 0x100) body (put stagingArea h s1)
      (setAct BootAct.STAGEDVER (hdrVersion h) (setAct BootAct.CODE 0 (setAct BootAct.STATUS 1 (setAct BootAct.STATE 2 s2)))).modBoot fun b =>
        { b with staged := true, stagedFlash := f, stagedDigest := sha384 body }
    else setAct BootAct.CODE c (setAct BootAct.STATUS 8 (setAct BootAct.STATE (if s.trial then 6 else 0) s1))

/-- The staged image is discarded (R523). -/
def discardStaged (s : State) : State :=
  if s.boot.staged then
    (setAct BootAct.STAGEDVER 0 (setAct BootAct.STATUS 0 (setAct BootAct.STATE (if s.trial then 6 else 0) s))).modBoot fun b => { b with staged := false }
  else s

/-- STAGE (R506). -/
def execStage (d src : Nat) (s : State) : Host.Outcome State Fault Refusal :=
  .next (if s.active d ∧ src < 2 then stageReq src s else s)

/-- STAGE_COMPLETE (R506). -/
def execStageComplete (badBody : List Nat) (s : State) : Host.Outcome State Fault Refusal := .next (stageEnd badBody s)

/-- DISCARD (R523). -/
def execDiscard (d : Nat) (s : State) : Host.Outcome State Fault Refusal :=
  .next (if ¬ s.active d then s else if s.act BootAct.BUSY = 1 then setAct BootAct.STATUS 4 s else discardStaged s)

/-! ### Activation -/

/-- An accepted activation proceeds, at once or when the capo that runs has ended (R507). -/
def activationGo (s : State) : State :=
  if s.fld partCapo PartCapo.BUSY = 1 then (setAct BootAct.BUSY 1 (setAct BootAct.STATE 2 s)).modBoot fun b => { b with actWaits := true }
  else activationBegin s

/-- A request for activation (R507): host-assisted, one that does not come from the BMC waits for a verdict. -/
def activationReq (who : Master) (s : State) : State :=
  if s.act BootAct.BUSY = 1 ∨ s.trial = true then setAct BootAct.STATUS 4 s
  else if s.mode = 0 ∨ s.mode = 7 then setAct BootAct.STATUS 7 s
  else if s.boot.staged = false then setAct BootAct.STATUS 5 s
  else if s.assist PartAssist.FWACT = 2 ∧ who ≠ .bmc then
    let t := nextTag 255 s.boot.actTag
    let s1 := (setAct BootAct.BUSY 1 (setAct BootAct.STATE 3 s)).modBoot fun b => { b with actTag := t, actExpired := b.actExpired.filter (· != t) }
    deliverVerdict s.lead 996 2 0x3F (s1.setFld (dreg .bootActv s.lead) BootActv.TAG t)
  else activationGo s

/-- ACTIVATE (R507). -/
def execActivate (who : Master) (d : Nat) (s : State) : Host.Outcome State Fault Refusal :=
  .next (if s.active d then activationReq who s else s)

/-- An activation verdict (R507, R524; 01 R34, R35). -/
def actVerdict (who : Master) (d tag : Nat) (apply : State → State) (s : State) : State :=
  let r := dreg .bootActv s.lead
  if s.active d = false then s
  else if tag ≠ 0 ∧ s.fld r BootActv.TAG = tag ∧ mayAnswer who 2 0x3F false then apply (s.setFld r BootActv.TAG 0)
  else if tag ∈ s.boot.actExpired then lateVerdict s
  else refuseVerdict d s

/-- ACTV_ACTIVATE (R507). -/
def execActvActivate (who : Master) (d tag : Nat) (s : State) : Host.Outcome State Fault Refusal := .next (actVerdict who d tag activationGo s)

/-- A REFUSE verdict ends the request (R507). -/
def activationRefused (s : State) : State := setAct BootAct.BUSY 0 (setAct BootAct.STATE 2 (setAct BootAct.STATUS 6 s))

/-- ACTV_REFUSE (R507). -/
def execActvRefuse (who : Master) (d tag : Nat) (s : State) : Host.Outcome State Fault Refusal :=
  .next (actVerdict who d tag activationRefused s)

/-- The assist timer of an activation expires, or a management reset begins: it proceeds (R507, 01 R37). -/
def actExpire (s : State) : State :=
  let r := dreg .bootActv s.lead
  let t := s.fld r BootActv.TAG
  if t = 0 then s else activationGo ((s.setFld r BootActv.TAG 0).modBoot fun b => { b with actExpired := t :: b.actExpired })

/-! ### Handover -/

/-- Steps 3 and 4 of the handover on a die (R508): the staged body is copied, and both harts enter it at HANDOVER in M with the address of
the handover record in g1; a load that has not retired is dropped with the old image. -/
def handoverDie (d : Nat) (s : State) : State :=
  let off := hdrHandover (s.stagedHeader d)
  let s1 := (copyStaged d s).forAll [0, 1] fun h => fun t => t.modHart d h fun x =>
    { x with pc := 0xE010000000 + off, asleep := none, loads := [], regs := x.regs.set 1 (BitVec.ofNat 64 (0xE010000000 + handoverArea)),
             csr := x.csr.set 0x040 (x.mstate ||| 1) }
  wdogStart d s1

/-- The staged image runs from now on (R508, R510, R511): the flash before it is kept for a revert. -/
def adoptStaged (s : State) : State :=
  let h := s.stagedHeader s.lead
  let old := s.running.getD 0
  (setRunning s.boot.stagedFlash h s.boot.stagedDigest (setAct BootAct.STAGEDVER 0 s)).modBoot fun b => { b with previous := old, staged := false }

/-- The trial begins (R508 step 5, R511). -/
def trialBegin (s : State) : State :=
  let s1 := s.onActive fun d => fun t => t.setFld (bootStat d) BootStat.TRIAL 1
  (setAct BootAct.BUSY 0 (setAct BootAct.STATE 6 (setPhase 3 s1))).modBoot fun b =>
    { b with timer := true, needReady := [], needResume := [], copied := false }

/-- Every die is ready (R508 step 3): the new image is copied and entered, unless it has no handover entry (R509). -/
def handoverEnter (s : State) : State :=
  if hdrHandover (s.stagedHeader s.lead) ≠ 0xFFFFFFFF then
    (adoptStaged (s.onActive handoverDie)).modBoot fun b => { b with copied := true, needResume := s.activeDies }
  else s

/-- A die's firmware writes HREADY (R508 step 2): with the last one the new image is entered. -/
def handoverReady (d : Nat) (s : State) : State :=
  if d ∉ s.boot.needReady then s
  else
    let s1 := s.modBoot fun b => { b with needReady := b.needReady.erase d }
    if s1.boot.needReady = [] then handoverEnter s1 else s1

/-- HREADY (R508). -/
def execHready (d : Nat) (s : State) : Host.Outcome State Fault Refusal := .next (handoverReady d s)

/-- A die's firmware writes RESUME (R508 step 5): with the last one the pause ends and the trial begins. -/
def handoverResume (d : Nat) (s : State) : State :=
  if d ∉ s.boot.needResume then s
  else
    let s1 := s.modBoot fun b => { b with needResume := b.needResume.erase d }
    if s1.boot.needResume = [] then trialBegin s1 else s1

/-- RESUME (R508). -/
def execResume (d : Nat) (s : State) : Host.Outcome State Fault Refusal := .next (handoverResume d s)

/-! ### The settings store -/

/-- A settings store is written to both copies (R514). -/
def writeStore (bs : List Byte) (s : State) : State := s.forAll ((List.range 2).filter s.flashThere) fun f => flashPut f 0x400000 bs

/-- The store that a die's control SRAM holds. -/
def State.sramStoreBytes (s : State) (d : Nat) : List Byte :=
  s.mem.bytes (sramBase d + settingsArea) (64 + min 262080 (leAt (s.mem.bytes (sramBase d + settingsArea) 64) 0x18 4))

/-- A store with the header of another and no records (R513, R516). -/
def noRecords (bs : List Byte) : List Byte :=
  let a := bs.take 0x18 ++ bytesLE 4 0
  let z := (bs.drop 0x20).take 32
  a ++ bytesLE 4 (crc32 (a ++ z)) ++ z

/-- The image's migration plan (R515, R516): the report is filled and the migrated values stand in control SRAM; the store is written, or
in host-assisted mode waits for a verdict. -/
def migrate (stat : Nat) (report : List Word) (store : List Byte) (s : State) : State :=
  let d := s.lead
  let s1 := s.forAll ((report.take 64).zipIdx) fun x => fun t => t.setReg { name := .bootMigReport, die := d, i := x.2 } x.1
  let s2 := s1.setReg (dreg .bootMigStat d) (setBits (BitVec.ofNat 64 (stat % 2 ^ 28)) 31 28 0)
  let s3 := sramAll settingsArea store s2
  if s.assist PartAssist.MIGRATE = 2 then
    let t := nextTag 255 s.boot.migTag
    let s4 := (s3.setFld (dreg .bootMigStat d) BootMigStat.STATE 1).modBoot fun b => { b with migTag := t, migExpired := b.migExpired.filter (· != t) }
    deliverVerdict d 997 2 0x3F (s4.setFld (dreg .bootMigv d) BootMigv.TAG t)
  else writeStore store (s3.setFld (dreg .bootMigStat d) BootMigStat.STATE 2)

/-- SETTINGS_MIGRATION (R515): the image on the lead die does it at its first start. -/
def execSettingsMigration (d stat : Nat) (report : List Word) (store : List Byte) (s : State) : Host.Outcome State Fault Refusal :=
  .next (if s.active d ∧ d = s.lead then migrate stat report store s else s)

/-- The store is written as planned (R516). -/
def migrateStore (s : State) : State :=
  writeStore (s.sramStoreBytes s.lead) (s.setFld (dreg .bootMigStat s.lead) BootMigStat.STATE 2)

/-- Every setting returns to its default: a store with no records is written (R516). -/
def defaultStore (s : State) : State :=
  let bs := noRecords (s.sramStoreBytes s.lead)
  writeStore bs (sramAll settingsArea bs (s.setFld (dreg .bootMigStat s.lead) BootMigStat.STATE 2))

/-- A migration verdict (R516, R524; 01 R34, R35). -/
def migVerdict (who : Master) (d tag : Nat) (apply : State → State) (s : State) : State :=
  let r := dreg .bootMigv s.lead
  if s.active d = false then s
  else if tag ≠ 0 ∧ s.fld r BootMigv.TAG = tag ∧ mayAnswer who 2 0x3F false then apply (s.setFld r BootMigv.TAG 0)
  else if tag ∈ s.boot.migExpired then lateVerdict s
  else refuseVerdict d s

/-- MIGV_MIGRATE (R516). -/
def execMigvMigrate (who : Master) (d tag : Nat) (s : State) : Host.Outcome State Fault Refusal := .next (migVerdict who d tag migrateStore s)

/-- MIGV_DEFAULTS (R516). -/
def execMigvDefaults (who : Master) (d tag : Nat) (s : State) : Host.Outcome State Fault Refusal := .next (migVerdict who d tag defaultStore s)

/-- The assist timer of a migration expires, or a management reset begins: MIGRATE (R516, 01 R37). -/
def migExpire (s : State) : State :=
  let r := dreg .bootMigv s.lead
  let t := s.fld r BootMigv.TAG
  if t = 0 then s else migrateStore ((s.setFld r BootMigv.TAG 0).modBoot fun b => { b with migExpired := t :: b.migExpired })

/-! ### Flash commands -/

def flctl (d : Nat) : Reg := dreg .bootFlctl d

/-- The flash bytes that a command touches: the first address and the count (R526; an erase takes the sector that holds the address). -/
def flashRange (op len a : Nat) : Nat × Nat :=
  match op with
  | 2 => (a / 4096 * 4096, 4096)
  | 3 => (a / 65536 * 65536, 65536)
  | _ => (a, len + 1)

/-- The RW fields of BOOT.FLCTL take what is written, whatever becomes of the command (R526; 00 R7). -/
def flctlStore (d op : Nat) (v : Word) (s : State) : State :=
  (((s.setFld (flctl d) BootFlctl.PORT (BootFlctl.PORT.of v)).setFld (flctl d) BootFlctl.OP op).setFld (flctl d) BootFlctl.LEN
    (BootFlctl.LEN.of v)).setFld (flctl d) BootFlctl.ADDR (BootFlctl.ADDR.of v)

/-- A flash command is written with GO (R526): refused while one runs, or when it would change the running image. A command that starts keeps
its own port, operation, length and address. -/
def flashCommand (d op : Nat) (v : Word) (s : State) : State :=
  if s.active d = false then s
  else
    let s1 := flctlStore d op v s
    let c : FlashCmd := { port := BootFlctl.PORT.of v, op := op, len := BootFlctl.LEN.of v, addr := BootFlctl.ADDR.of v }
    if s.fld (flctl d) BootFlctl.BUSY = 1 then s1.setFld (flctl d) BootFlctl.STATUS 4
    else if op ≠ 0 ∧ s.running = some c.port ∧ (flashRange op c.len c.addr).1 ≤ 0x1000FF then s1.setFld (flctl d) BootFlctl.STATUS 5
    else ((s1.setFld (flctl d) BootFlctl.STATUS 0).setFld (flctl d) BootFlctl.BUSY 1).modBoot fun b => { b with flcmd := b.flcmd.set d c }

/-- FLASH_READ (R526). -/
def execFlashRead (d : Nat) (v : Word) (s : State) : Host.Outcome State Fault Refusal := .next (flashCommand d 0 v s)
/-- FLASH_PROGRAM (R526). -/
def execFlashProgram (d : Nat) (v : Word) (s : State) : Host.Outcome State Fault Refusal := .next (flashCommand d 1 v s)
/-- FLASH_ERASE_4K (R526). -/
def execFlashErase4k (d : Nat) (v : Word) (s : State) : Host.Outcome State Fault Refusal := .next (flashCommand d 2 v s)
/-- FLASH_ERASE_64K (R526). -/
def execFlashErase64k (d : Nat) (v : Word) (s : State) : Host.Outcome State Fault Refusal := .next (flashCommand d 3 v s)

/-- A register of the transfer buffer. -/
def flbuf (d i : Nat) : Reg := { name := .bootFlbuf, die := d, i := i }

/-- The bytes of the transfer buffer. -/
def State.flbufBytes (s : State) (d : Nat) : List Byte := (List.range 32).flatMap fun i => bytesLE 8 (s.reg (flbuf d i)).toNat

/-- What a flash command that succeeds does: a PROGRAM clears bits within a page of 256 bytes, an erase leaves every byte 0xFF. -/
def flashDone (d : Nat) (s : State) : State :=
  let c := s.boot.flcmd.get {} d
  let f := c.port
  let r := flashRange c.op c.len c.addr
  match c.op with
  | 0 =>
    let bs := s.flashBytes f r.1 r.2 ++ (s.flbufBytes d).drop r.2
    s.forAll (List.range 32) fun i => fun t => t.setReg (flbuf d i) (BitVec.ofNat 64 (leAt bs (8 * i) 8))
  | 1 =>
    let page := r.1 / 256 * 256
    ((s.flbufBytes d).take r.2).zipIdx.foldl (fun t x =>
      let a := page + (r.1 + x.2) % 256
      flashPut f a [t.flashByte f a &&& x.1] t) s
  | _ => s.modBoot fun b => { b with flash := b.flash.upd [] f fun m => m.filter fun x => !(decide (r.1 ≤ x.1) && decide (x.1 < r.1 + r.2)) }

/-- A flash command that fails leaves in the bytes of a PROGRAM or an erase what the device left there, which the spec does not give. -/
def flashFailed (d : Nat) (left : List Byte) (s : State) : State :=
  let c := s.boot.flcmd.get {} d
  let r := flashRange c.op c.len c.addr
  if c.op = 0 then s else flashPut c.port r.1 (left.take r.2) s

/-- A flash command ends with a STATUS (R526). -/
def flashEnd (d status : Nat) (left : List Byte) (s : State) : State :=
  if s.active d = true ∧ s.fld (flctl d) BootFlctl.BUSY = 1 then
    ((if status = 1 then flashDone d s else flashFailed d left s).setFld (flctl d) BootFlctl.BUSY 0).setFld (flctl d) BootFlctl.STATUS status
  else s

/-- FLASH_COMMAND_END (R526): done when the flash answers and reports no error. -/
def execFlashCommandEnd (d : Nat) (ok : Bool) (left : List Byte) (s : State) : Host.Outcome State Fault Refusal :=
  .next (flashEnd d (if ok ∧ s.flashThere (s.boot.flcmd.get {} d).port then 1 else 2) left s)

/-- FLASH_TIMEOUT (R526). -/
def execFlashTimeout (d : Nat) (left : List Byte) (s : State) : Host.Outcome State Fault Refusal := .next (flashEnd d 3 left s)

/-- SVN_BURN (R527). -/
def execSvnBurn (d : Nat) (v : Word) (s : State) : Host.Outcome State Fault Refusal :=
  let f := BootSvn.FLOOR.of v
  let s1 := s.setFld (dreg .bootSvn d) BootSvn.FLOOR f
  .next (if ¬ s.active d then s
    else if f < s.fuses.svnFloor ∨ s.fld (bootVer d) BootVer.SVN < f then s1
    else { s1.onActive (fun x t => t.setFld (dreg .bootSvn x) BootSvn.PEND 1) with fuses := { s1.fuses with svnPend := some (max f (s1.fuses.svnPend.getD 0)) } })

/-! ### Firmware update over PLDM -/

/-- The update's record changed. -/
def State.modPldm (s : State) (f : Pldm → Pldm) : State := s.modBoot fun b => { b with pldm := f b.pldm }

/-- A reply, or a command of the part, toward the BMC: its DSP0267 command code and what it carries. -/
def pldmReply (cmd v : Nat) (s : State) : State := s.modPldm fun p => { p with replies := p.replies ++ [(cmd, v)] }

/-- A PLDM command reaches the part while the BMC finds its endpoint (18 R639). -/
def pldm (s : State) (f : State → State) : Host.Outcome State Fault Refusal := .next (if s.hasPath then f s else s)

/-- QUERY_DEVICE_IDENTIFIERS (R512): vendor ID 0x1FB7 and PART.ID. -/
def execQueryDeviceIdentifiers (s : State) : Host.Outcome State Fault Refusal :=
  pldm s (pldmReply 0x01 (0x1FB7 * 2 ^ 32 + (s.reg { name := .partId }).toNat))

/-- GET_FIRMWARE_PARAMETERS (R512): classification 0x000A, identifier 0x0001, the running and the staged version. -/
def execGetFirmwareParameters (s : State) : Host.Outcome State Fault Refusal :=
  pldm s (pldmReply 0x02 (0x000A * 2 ^ 80 + 0x0001 * 2 ^ 64 + s.fld (bootVer s.lead) BootVer.IMGVER * 2 ^ 32
    + (if s.boot.staged then s.act BootAct.STAGEDVER else 0)))

/-- GET_STATUS (R512): the phase and the result of the verification. -/
def execGetStatus (s : State) : Host.Outcome State Fault Refusal := pldm s (pldmReply 0x1B (s.boot.pldm.phase * 256 + s.boot.pldm.result))

/-- REQUEST_UPDATE (R512): an update begins unless one runs. -/
def execRequestUpdate (s : State) : Host.Outcome State Fault Refusal :=
  pldm s fun s => if s.boot.pldm.phase = 0 then pldmReply 0x10 0 (s.modPldm fun p => { p with phase := 1, result := 0 }) else pldmReply 0x10 0x81 s

/-- PASS_COMPONENT_TABLE (R512). -/
def execPassComponentTable (s : State) : Host.Outcome State Fault Refusal :=
  pldm s fun s => if s.boot.pldm.phase = 1 then pldmReply 0x13 0 (s.modPldm fun p => { p with phase := 2 }) else pldmReply 0x13 0x84 s

/-- UPDATE_COMPONENT (R512): the transfer goes into the flash that does not hold the running image; in MINIMAL, where none runs from a flash, into the
one named. -/
def execUpdateComponent (flash : Nat) (s : State) : Host.Outcome State Fault Refusal :=
  pldm s fun s =>
    if s.boot.pldm.phase = 2 then
      let f := match s.running with
        | some r => otherFlash r
        | none => flash % 2
      pldmReply 0x14 0 (s.modPldm fun p => { p with phase := 3, flash := f })
    else pldmReply 0x14 0x84 s

/-- FIRMWARE_DATA_RECEIVE (R512): at most 4,096 bytes, within the image's place in the flash. -/
def execFirmwareDataReceive (off : Nat) (data : List Byte) (s : State) : Host.Outcome State Fault Refusal :=
  pldm s fun s =>
    if s.boot.pldm.phase = 3 ∧ data.length ≤ 4096 ∧ off + data.length ≤ 0x100100 then flashPut s.boot.pldm.flash off data s else s

/-- TRANSFER_COMPLETE (R512): the written flash is staged, and VerifyComplete and ApplyComplete are sent. -/
def execTransferComplete (badBody : List Nat) (s : State) : Host.Outcome State Fault Refusal :=
  pldm s fun s =>
    if s.boot.pldm.phase ≠ 3 then pldmReply 0x16 0x84 s
    else if s.act BootAct.BUSY = 1 then pldmReply 0x16 1 s
    else
      let s1 := stageEnd badBody (stageReq s.boot.pldm.flash (pldmReply 0x16 0 s))
      if s1.boot.staged then pldmReply 0x18 0 (pldmReply 0x17 0 (s1.modPldm fun p => { p with phase := 4, result := 0 }))
      else
        let c := s1.act BootAct.CODE
        pldmReply 0x17 c (s1.modPldm fun p => { p with phase := 5, result := c })

/-- CANCEL_UPDATE_COMPONENT (R512): the staged image is discarded. -/
def execCancelUpdateComponent (s : State) : Host.Outcome State Fault Refusal :=
  pldm s fun s =>
    if 3 ≤ s.boot.pldm.phase then pldmReply 0x1C 0 (discardStaged (s.modPldm fun p => { p with phase := 2 })) else pldmReply 0x1C 0x84 s

/-- CANCEL_UPDATE (R512): the staged image is discarded. -/
def execCancelUpdate (s : State) : Host.Outcome State Fault Refusal :=
  pldm s fun s =>
    if s.boot.pldm.phase ≠ 0 then pldmReply 0x1D 0 (discardStaged (s.modPldm fun p => { p with phase := 0 })) else pldmReply 0x1D 0x80 s

end Sys2Proof.Machine
end

