-- ==== Sys2Proof/Machine/Faults.lean ====
section
/-! DEFINITION. Fault cases: taking a fault, containment and escalation, acknowledgement, verdicts and exit; the loss of a die and
of the lead; DPC; watchdogs; the queue toward the BMC (12; 01 R16, R17, R22, R23). -/

namespace Sys2Proof.Machine

/-! ### Cases -/

def case0 (d i : Nat) : Reg := { name := .fltCase0, die := d, i := i }
def case1 (d i : Nat) : Reg := { name := .fltCase1, die := d, i := i }

/-- A field of a case (R487). -/
def State.caseFld (s : State) (d i : Nat) (f : Field) : Nat := s.fld (case0 d i) f

/-- Whether an entry holds a standing case. -/
def State.caseOn (s : State) (d i : Nat) : Bool := s.caseFld d i FltCase0.VALID == 1

/-- A field of a case set. -/
def setCase (d i : Nat) (f : Field) (v : Nat) (s : State) : State := s.setFld (case0 d i) f v

/-- The hidden part of a case. -/
def State.caseHid (s : State) (d i : Nat) : CaseHid := s.flt.cases.get {} (d, i)

/-- The hidden part of a case changed. -/
def State.modCase (s : State) (d i : Nat) (f : CaseHid → CaseHid) : State :=
  s.modFlt fun x => { x with cases := x.cases.upd {} (d, i) f }

/-- The configuration of a class. -/
def classReg (k : Nat) : Reg := { name := .partFltclass, i := k }

/-- SEV of a class. -/
def State.sev (s : State) (k : Nat) : Nat := s.fld (classReg k) PartFltclass.SEV

/-- CAP of a class: one below SEV acts as SEV (R452). -/
def State.cap (s : State) (k : Nat) : Nat := max (s.sev k) (s.fld (classReg k) PartFltclass.CAP)

/-- What a case records of its fault: UKIND, UNIT, PORT, PART (R447). -/
structure CaseUnit where
  kind : Nat
  unit : Nat
  port : Nat := 0x7F
  part : Nat := 0x3F
  deriving DecidableEq, Repr

/-- The unit of a fault that die `d` takes (R447). -/
def State.unitOf (s : State) (d : Nat) (f : FaultRec) : CaseUnit :=
  let owner := fun g => s.portOwner d (s.newE d) g
  let ofPort := fun g => ({ kind := 1, unit := g, port := g, part := owner g } : CaseUnit)
  match f.reg.name with
  | .fltTlerr | .fretErr => ofPort (gport f.reg.die f.reg.i)
  | .linkErr => if f.reg.i < 16 then ofPort (gport f.reg.die f.reg.i) else { kind := 0, unit := d }
  | .hildErr =>
    match s.portOfSlot d f.reg.i with
    | some g => { kind := 5, unit := f.reg.i, port := g, part := owner g }
    | none => { kind := 5, unit := f.reg.i }
  | _ =>
    match f.chan, f.tied with
    | some c, _ => { kind := 4, unit := d * 32 + c, part := s.chOwner d c }
    | none, some t =>
      match t.flow, t.xctx with
      | some n, _ => { kind := 2, unit := n, port := t.iport, part := t.part }
      | none, some x => { kind := 3, unit := x, port := t.iport, part := t.part }
      | none, none => { kind := 1, unit := t.iport, port := t.iport, part := t.part }
    | none, none => { kind := 0, unit := f.unitDie.getD d }

/-- The standing case of a class and unit on a die (R446). -/
def State.findCase (s : State) (d k : Nat) (u : CaseUnit) : Option Nat :=
  (List.range 256).find? fun i =>
    s.caseOn d i && s.caseFld d i FltCase0.CLASS == k && s.caseFld d i FltCase0.UKIND == u.kind && s.caseFld d i FltCase0.UNIT == u.unit

/-- The entry that a new case takes (R446): 248 to 255 only for a case at DIE or PART, or of class 38. -/
def State.freeCase (s : State) (d k level : Nat) : Option Nat :=
  (List.range (if 5 ≤ level ∨ k = 38 then 256 else 248)).find? fun i => !(s.caseOn d i)

/-- The message of a case toward the BMC and the recorder (R476). -/
def State.caseMsg (s : State) (d i : Nat) : BmcMsg :=
  { die := d, event := (s.caseHid d i).event, cls := s.caseFld d i FltCase0.CLASS, level := s.caseFld d i FltCase0.LEVEL, entry := i,
    tag := s.caseFld d i FltCase0.TAG, ukind := s.caseFld d i FltCase0.UKIND, unit := s.caseFld d i FltCase0.UNIT,
    port := s.caseFld d i FltCase0.PORT, part := s.caseFld d i FltCase0.PART, meridian := (s.reg (case1 d i)).toNat }

/-- The event of a case is delivered (R474, R475): to the recorder only while the case stands at LOG, by its route otherwise. -/
def deliverCase (d i : Nat) (s : State) : State :=
  let m := s.caseMsg d i
  if m.level = 0 then recNote m s else deliverRouted d m.event m.part m s

/-! ### Containment -/

/-- A port's link is down and its training is held off (R450). -/
def portHalt (g : Nat) (s : State) : State := takeDown (pdie g) (pnum g) s

/-- Containment of a port ends: its link engine enters DETECT unless another containment holds it (R450, R461). -/
def portFree (g : Nat) (s : State) : State :=
  if s.portContained g = true ∨ s.linkLive (pdie g) (pnum g) = true then s else enterDetect (pdie g) (pnum g) false s

/-- A case at PART, or the loss of the lead without a deputy (R468, 01 R23): every port's link goes down, what the part holds is flushed
with no grace, PFAULT# is asserted, and the class is written to the always-on record; a start fails (13 R499). -/
def partStop (k : Nat) (s : State) : State :=
  if s.flt.partCase then s.modFlt fun x => { x with lastClass := k }
  else
    let s0 := if s.starting then failedStart (if k = 32 then 0x13 else 0x14) s else s
    let s1 := (s0.modFlt fun x => { x with partCase := true, lastClass := k }).modBoot fun b => { b with pfault := true }
    let ports := s.activeDies.flatMap fun d => (List.range 16).map fun pp => gport d pp
    let s2 := s1.forAll ports fun g => fun t =>
      flushPort g ((portHalt g t).modLink (pdie g) (pnum g) fun l => { l with grace := false })
    let s3 := s2.forAll (s2.sch.flows.map (·.1)) fun n => fun t =>
      let ps := (t.flow n).hold ++ (t.flow n).leaving
      (t.modFlow n fun f => { f with hold := [], leaving := [] }).forAll ps flushHome
    s3

/-- Everything that a die keeps for itself is lost with it (R465; 19 R654): its registers, engines, buffers, tables, cases and memories.
The always-on record is kept. -/
def eraseDie (x : Nat) (s : State) : State :=
  let port := fun (g : Nat) => pdie g == x
  let inDie := fun (k : StreamKey) => (if k.1 < 1024 then pdie k.1 else (k.1 - 1024) / 32) == x || pdie k.2.1 == x
  { s with
    regs := s.regs.filter fun y => !(decide (y.1.name.layout.region = .die) && y.1.die == x && decide (y.1.name ≠ .bootCause))
    clock := { offset := s.clock.offset.erase x, slewing := s.clock.slewing.erase x, timeFault := s.clock.timeFault.erase x,
               clock := s.clock.clock, lost := s.clock.lost }
    lane := { live := s.lane.live.filter fun y => y.1.1 != x, request := s.lane.request.filter fun y => y.1.1 != x,
              margin := s.lane.margin.filter fun y => y.1.1 != x, tx := s.lane.tx.filter fun y => y.1.1 != x,
              selected := s.lane.selected.erase x, pegTag := s.lane.pegTag.erase x,
              pegMode := s.lane.pegMode.filter fun y => !port y.1, pegExpired := s.lane.pegExpired.filter fun y => !port y.1,
              fastFail := s.lane.fastFail.filter fun y => y.1.1 != x, wasMapped := s.lane.wasMapped.filter fun y => y.1 != x }
    links := s.links.filter fun y => y.1.1 != x
    rtvTag := s.rtvTag.erase x
    fret := { s.fret with hq := s.fret.hq.filter fun y => !port y.1, throttle := s.fret.throttle.filter fun g => !port g,
                          course := s.fret.course.filter fun y => !port y.1, stopped := s.fret.stopped.filter fun g => !port g,
                          decided := s.fret.decided.filter fun y => !port y.1, heldBack := s.fret.heldBack.filter fun y => !port y.1,
                          loading := s.fret.loading.erase x, reasons := s.fret.reasons.filter fun y => !port y.1,
                          toTag := s.fret.toTag.filter fun y => !port y.1, parked := s.fret.parked.filter fun y => !port y.1.1,
                          trapExpired := s.fret.trapExpired.filter fun y => !port y.1, trapTag := s.fret.trapTag.erase x,
                          streams := s.fret.streams.filter fun y => !inDie y.1 || decide (0 < (y.2.count.get 0 0 + y.2.count.get 0 1 + y.2.count.get 0 2))
                          && pdie y.1.2.1 != x && decide (y.1.2.1 < 128) }
    tab := { s.tab with dies := s.tab.dies.erase x, toFlip := s.tab.toFlip.erase x, flits := s.tab.flits.erase x,
                        drained := s.tab.drained.erase x }
    buf := { dies := s.buf.dies.erase x }
    sch := { flows := s.sch.flows.filter fun y => y.1 / flowsPerDie != x, pxTag := s.sch.pxTag.erase x,
             pxExpired := s.sch.pxExpired.filter fun y => y.1 != x,
             queues := (s.sch.queues.filter fun y => !port y.1.1).map fun y =>
               (y.1, if 0x8000 ≤ y.1.1 then y.2.filter fun p => !port p.iport else y.2),
             sched := s.sch.sched.filter fun y => !port y.1, hist := s.sch.hist.filter fun y => !port y.1.1,
             maxDepth := s.sch.maxDepth.filter fun y => !port y.1.1, maxRead := s.sch.maxRead.filter fun y => !port y.1.1 }
    par := { s.par with proxy := s.par.proxy.filter fun y => y.die != x, proxyLate := s.par.proxyLate.filter fun y => y.1 != x,
                        proxyTag := s.par.proxyTag.erase x }
    xlt := { s.xlt with dies := s.xlt.dies.erase x }
    dma := { ch := s.dma.ch.filter fun y => y.1.1 != x, last := s.dma.last.filter fun y => y.1.1 != x, tag := s.dma.tag.erase x,
             ftag := s.dma.ftag.erase x }
    flt := { s.flt with inbox := s.flt.inbox.set x ((s.flt.inbox.get [] x).filter fun f => decide (f.reg.name = .hildErr)),
                        cases := s.flt.cases.filter fun y => y.1.1 != x, tag := s.flt.tag.erase x, wdog := s.flt.wdog.erase x,
                        rejoining := s.flt.rejoining.erase x }
    pwr := { dom := s.pwr.dom.filter fun y => y.1.hild || y.1.d != x, padWait := s.pwr.padWait.erase x, band := s.pwr.band.erase x,
             since50 := s.pwr.since50.erase x, since10 := s.pwr.since10.erase x, warned := s.pwr.warned.erase x,
             tripped := s.pwr.tripped.erase x }
    sbb := { s.sbb with seg := s.sbb.seg.filter fun y => y.1.1 != x }
    core := { dies := s.core.dies.erase x }
    recd := { s.recd with dies := s.recd.dies.erase x }
    mem := s.mem.clear (dieBase x) (dieBase x + 2 ^ 32) }

/-! ### The loss of a die -/

/-- The first tag from `n` on that is missing. -/
def firstMissing (has : Nat → Bool) : Nat → Nat → Nat
  | 0, n => n
  | k + 1, n => if has n then firstMissing has k ((n + 1) % 65536) else n

/-- The packets of a stream that other dies hold at its egress: queued, or waiting in a span receive buffer for a flip. -/
def State.heldOf (s : State) (k : StreamKey) : List Pkt :=
  ((List.range 16).flatMap fun q => s.queue k.2.1 q).filter (fun p => p.src != .part && p.stream == k)
    ++ ((s.bufDie (pdie k.2.1)).spanWait.map (·.2)).filter fun p => p.stream == k

/-- Where a stream whose ingress die is lost ends, per class (R464): the first tag that is missing, or whose fence cannot be met. -/
def State.streamEnds (s : State) (k : StreamKey) : List Nat :=
  let m := s.streamOf k
  let held := s.heldOf k
  let p := firstMissing (fun n => held.any fun x => x.tlp.cls == 0 && x.seq == n) 4096 (m.nextOf 0)
  let m1 := { m with next := m.next.set 0 p }
  let other := fun c => firstMissing (fun n => held.any fun x => x.tlp.cls == c && x.seq == n && m1.fenceMet x.pfence) 4096 (m.nextOf c)
  [p, other 1, other 2]

/-- Whether a held packet of a stream of a lost die lies before the stream's end. -/
def State.beforeEnd (s : State) (p : Pkt) : Bool :=
  let n := (s.streamOf p.stream).nextOf p.tlp.cls
  decide ((p.seq + 65536 - n) % 65536 < ((s.streamEnds p.stream).getD p.tlp.cls n + 65536 - n) % 65536)

/-- The streams of a lost ingress die are cut at their egress (R464): what can leave in stream order stays, the rest is discarded and
counted as flushed. A stream of which nothing stays starts afresh; the others go on after what stays. -/
def cutStreams (x : Nat) (s : State) : State :=
  let from_ := fun (p : Pkt) => p.src != .part && pdie p.iport == x && p.egress < 128
  let keys := (s.fret.streams.map (·.1)).filter fun k =>
    (if k.1 < 1024 then pdie k.1 else (k.1 - 1024) / 32) == x && pdie k.2.1 != x && decide (k.2.1 < 128)
  let ends := keys.map fun k => (k, s.streamEnds k, (s.heldOf k).filter s.beforeEnd)
  let gone := (s.sch.queues.flatMap fun q => (q.2.filter fun p => from_ p && pdie p.egress != x && !s.beforeEnd p).map fun p => (q.1, p))
  let s1 := gone.foldl (fun t y =>
    dropCells (pdie y.2.egress) y.2.tcells ((t.modQueue y.1.1 y.1.2 fun l => l.erase y.2).count (preg .fltPcnt y.2.egress) FltPcnt.FLUSHED 1)) s
  let s2 := s1.onActive fun d => fun t =>
    let b := t.bufDie d
    (b.transit.filter from_).foldl (fun u p => dropCells d p.tcells u) (t.modBufDie d fun b =>
      { b with transit := b.transit.filter fun p => !from_ p, spanWait := b.spanWait.filter fun y => !from_ y.2 || s.beforeEnd y.2 })
  ends.foldl (fun t y =>
    t.modStream y.1 fun m =>
      if y.2.2.isEmpty then {} else
      { m with outst := [], count := [0, 1, 2].map fun c => (c, ((y.2.1.getD c 1) + 65535) % 65536) }) s2

/-- Packets on the way through a lost die go again on paths that avoid it (R464; 03 R100; 04 R148). -/
def resendAround (x : Nat) (s : State) : State :=
  s.onActive fun d => fun t =>
    t.forAll ((t.bufDie d).spanPending.filter fun p => p.via == some x && t.active (pdie p.egress) && !t.hasTag p) (sendCross d)

/-- What live dies hold for the ports of a lost die is flushed (R464, R458): cross-die packets and hold queues. -/
def flushToward (x : Nat) (s : State) : State :=
  let s1 := s.onActive fun d => fun t =>
    let ps := (t.bufDie d).spanPending.filter fun p => pdie p.egress == x
    let tr := (t.bufDie d).transit.filter fun p => pdie p.egress == x
    let u := t.modBufDie d fun b =>
      { b with spanPending := b.spanPending.filter fun p => pdie p.egress != x, transit := b.transit.filter fun p => pdie p.egress != x }
    (tr.foldl (fun v p => dropCells d p.tcells v) u).forAll ps flushHome
  s1.forAll (s1.sch.flows.map (·.1)) fun n => fun t =>
    let f := t.flow n
    let ps := (f.hold ++ f.leaving).filter fun p => pdie p.egress == x && decide (p.egress < 128)
    (t.modFlow n fun f => { f with hold := f.hold.filter fun p => !(decide (p ∈ ps)), leaving := f.leaving.filter fun p => !(decide (p ∈ ps)) }).forAll
      ps flushHome

/-- The faces and virtual ports of a lost die's ports (R465; 08 R313): an upstream port's link is down, a bound port is gone by surprise, and a
held completion of a lost face has nowhere to go. -/
def facesLost (x : Nat) (s : State) : State :=
  s.forAll ((List.range 16).map (gport x)) fun g => fun t =>
    let u := slotStatus g slotLinkState t
    match u.upFace g with
    | some (n, f) => setHeld n ((u.par.held.get [] n).filter fun y => y.2.1 != f) (faceReset n f u)
    | none => surpriseDown g u

/-- The next-lowest die in service beside the lead, or none (01 R22). -/
def State.nextDeputy (s : State) : Nat := (s.activeDies.filter (· != s.lead)).headD 0xF

/-- A change of the Hild path wakes the control link of the new path first (14 R542). -/
def wakeHlink (k : Nat) (s : State) : State :=
  let x : DomId := ⟨true, 0, 5 + k⟩
  if s.fld partLead PartLead.HILDPATH = k ∨ (s.domCur x = 0 ∧ s.domBusy x = false) then s
  else ((s.setFld x.reg PwrDom.CUR 0).setFld x.reg PwrDom.BUSY 0).modDom x fun _ => {}

/-- The Hild path: die 0 when it is in service, die 1 otherwise, none while neither is (01 R16, R17). -/
def hildPath (s : State) : State :=
  if s.active 0 then (wakeHlink 0 s).setFld partLead PartLead.HILDPATH 0
  else if s.active 1 then (wakeHlink 1 s).setFld partLead PartLead.HILDPATH 1
  else s.setFld partLead PartLead.HILDPATH 0xF

/-- Registers of the start that the new lead takes over from the lost one. -/
def leadNames : List RegName := [.bootActv, .bootMigv, .bootMigStat]

/-- A capo when a die is lost during it (05 R186): before step 4 a new lead abandons it, as the lead does that waits for pages of a deputy that is
lost; after it, the new lead sends the CAPO flit to every die that has not flipped; the lost die is left out. Without a capo the syncs may end with
the lost die's (05 R189). -/
def capoLoss (wasLead leadWaited : Bool) (s : State) : State :=
  if ¬ s.capoRuns then syncsOver s
  else if wasLead ∧ leadWaited then capoAbandon s
  else if s.lead ∈ s.tab.toFlip ∧ s.tab.applying = false ∧ s.capoStuck = true then capoAbandon s
  else
    let s1 := if wasLead then (s.modTab fun t => { t with flits := [] }).forAll (s.tab.toFlip.filter fun d => s.dieState d != 4) sendCapoFlit else s
    if s1.tab.toFlip.isEmpty then capoDone s1 else s1

/-- What the loss of a die does to the dies that remain (R463 to R466): span links toward a die that is isolated for its version are disabled,
those toward a lost one are down (03 R101, R104). -/
def dieGone (x : Nat) (s : State) : State :=
  let s1 := sbbDieLost x (domainsOff x (facesLost x s))
  let shown := if s.dieState x = 5 then 0 else 7
  let s2 := s1.onActive fun d => fun t => setLinkState d (16 + x) shown (if t.linkLive d (16 + x) then spanDown d x t else t)
  let s3 := cutStreams x (flushToward x (resendAround x s2))
  domainsOff x ((eraseDie x s3).modBoot fun b => { b with needReady := b.needReady.erase x, needResume := b.needResume.erase x })

/-- A die is lost in service, or isolated for its version (`code` is its state, LOST 6 or ISOLATED_VERSION 5): the lead marks it, or the
deputy that takes the lead (R463; 01 R22). Without a deputy no die holds the part-wide registers (01 R23), and nothing changes that before a
part reset. -/
def dieLost (x code : Nat) (s : State) : State :=
    let wasLead := s.lead == x
    let dep := s.deputy
    let leadWaited := decide (x ∈ s.tab.toFlip)
    let moved := leadNames.map fun n => (n, s.reg (dreg n x))
    let s1 := (s.setDieState x code).modFlt fun y => { y with passed := y.passed.erase x }
    if s1.flt.noLead then dieGone x s1
    else if wasLead ∧ (dep = 0xF ∨ s1.active dep = false) then
      let s2 := hildPath (((dieGone x s1).setFld partLead PartLead.DEPUTY 0xF).modFlt fun y => { y with noLead := true })
      partStop 30 (s2.setFld partLead PartLead.HILDPATH 0xF)
    else
      let s2 := if wasLead then moved.foldl (fun t y => t.setReg (dreg y.1 dep) y.2) (s1.setFld partLead PartLead.LEAD dep) else s1
      let s3 := hildPath (s2.setFld partLead PartLead.DEPUTY s2.nextDeputy)
      let s4 := capoLoss wasLead leadWaited (dieGone x s3)
      let bit := if code = 5 then FltErr.VERSION else FltErr.DIELOST
      raiseFault { reg := dreg .fltErr s4.lead, bit := bit.lo, unitDie := some x } s4

/-- A handover goes on where it waited only for dies that are lost (13 R508): `s` is the state before the loss, `t` the one after it. -/
def handoverAfter (s t : State) : State :=
  if s.act BootAct.STATE ≠ 4 ∨ t.flt.noLead = true then t
  else if t.boot.copied then (if t.boot.needResume = [] then trialBegin t else t)
  else if s.boot.needReady ≠ [] ∧ t.boot.needReady = [] then handoverEnter t
  else t

/-- A die in service is lost. -/
def loseDie (x code : Nat) (s : State) : State := if s.active x then handoverAfter s (dieLost x code s) else s

/-- Dies are lost together (01 R23): none of them takes a role of another; the lead die's loss is settled first. -/
def loseDies (xs : List Nat) (code : Nat) (s : State) : State :=
  let gone := (xs.filter s.active).eraseDups
  let s1 := s.forAll gone fun x => fun t => t.setDieState x code
  handoverAfter s (s1.forAll (gone.filter (· == s.lead) ++ gone.filter (· != s.lead)) fun x => dieLost x code)

/-- Containment of a case at a level (R448 to R451, R463, R468). -/
def contain (d i level : Nat) (s : State) : State :=
  let s1 := s.modCase d i fun x => { x with applied := level :: x.applied.erase level }
  let unit := s.caseFld d i FltCase0.UNIT
  match level with
  | 2 => if s.caseFld d i FltCase0.UKIND = 4 then dmaStop (unit / 32) (unit % 32) s1 else s1
  | 3 => if s.caseFld d i FltCase0.PORT = 0x7F then s1 else portHalt (s.caseFld d i FltCase0.PORT) s1
  | 4 => if s.caseFld d i FltCase0.PART = 0x3F then s1 else stopDma (s.caseFld d i FltCase0.PART) s1
  | 5 => loseDie (if s.caseFld d i FltCase0.UKIND = 0 then unit else d) 6 s1
  | 6 => partStop (s.caseFld d i FltCase0.CLASS) s1
  | _ => s1

/-! ### Escalation -/

/-- The escalation timer of a case starts: host-assisted, it is an assist instance (R452, R457). -/
def escStart (d i : Nat) (s : State) : State :=
  let m := s.assist PartAssist.ESCAL
  (setCase d i FltCase0.WAITV (b2n (m != 0)) (setCase d i FltCase0.ESCRUN 1 s)).modCase d i fun x => { x with mode := m }

/-- The mode under which a case takes verdicts (R456): while an instance waits, the one in force when it was raised (01 R36). -/
def State.escMode (s : State) (d i : Nat) : Nat :=
  if s.caseFld d i FltCase0.WAITV = 1 then (s.caseHid d i).mode else s.assist PartAssist.ESCAL

/-- The escalation timer of a case stops. -/
def escStop (d i : Nat) (s : State) : State := setCase d i FltCase0.WAITV 0 (setCase d i FltCase0.ESCRUN 0 s)

/-- Whether a case names the unit that a level isolates (R452). -/
def State.caseNames (s : State) (d i level : Nat) : Bool :=
  match level with
  | 2 => decide (s.caseFld d i FltCase0.UKIND = 2 ∨ s.caseFld d i FltCase0.UKIND = 3 ∨ s.caseFld d i FltCase0.UKIND = 4)
  | 3 => s.caseFld d i FltCase0.PORT != 0x7F
  | 4 => s.caseFld d i FltCase0.PART != 0x3F
  | _ => true

/-- The level that escalation reaches, if there is one (R452). -/
def State.nextLevel (s : State) (d i : Nat) : Option Nat :=
  let l := s.caseFld d i FltCase0.LEVEL
  let c := s.cap (s.caseFld d i FltCase0.CLASS)
  (List.range 7).find? fun x => decide (l < x) && decide (x ≤ c) && s.caseNames d i x

/-- A case escalates (R452): the next level is delivered and contained, and the timer restarts below CAP. -/
def escalateCase (d i : Nat) (s : State) : State :=
  match s.nextLevel d i with
  | none => escStop d i s
  | some l =>
    let s1 := setCase d i FltCase0.LEVEL l s
    let s2 := if l < s.cap (s.caseFld d i FltCase0.CLASS) then escStart d i s1 else escStop d i s1
    contain d i l (deliverCase d i s2)

/-! ### Taking a fault -/

/-- A fault joins a standing case (R452). -/
def joinCase (d i : Nat) (f : FaultRec) (s : State) : State :=
  let s1 := (setCase d i FltCase0.COUNT (satAdd 5 (s.caseFld d i FltCase0.COUNT) 1) s).setReg (case1 d i) (BitVec.ofNat 64 (s.meridian d))
  let s2 := s1.modCase d i fun x => { x with bits := (f.reg, f.bit) :: x.bits.erase (f.reg, f.bit), event := (eventOf s f.reg f.bit).2 }
  if s.caseFld d i FltCase0.ACKED = 0 then
    let s3 := escalateCase d i s2
    if f.rose ∧ (s.nextLevel d i).isNone then deliverCase d i s3 else s3
  else
    let s3 := setCase d i FltCase0.ACKED 0 s2
    let s4 := if s.caseFld d i FltCase0.LEVEL < s.cap (s.caseFld d i FltCase0.CLASS) then escStart d i s3 else s3
    if f.rose then deliverCase d i s4 else s4

/-- A fault opens a case in an entry (R452, R487). -/
def openCase (d i k : Nat) (u : CaseUnit) (f : FaultRec) (s : State) : State :=
  let t := nextTag 255 (s.flt.tag.get 0 d)
  let w := FltCase0.VALID.place 1 + FltCase0.LEVEL.place (s.sev k) + FltCase0.CLASS.place k + FltCase0.TAG.place t
    + FltCase0.UKIND.place u.kind + FltCase0.UNIT.place u.unit + FltCase0.PORT.place u.port + FltCase0.PART.place u.part + FltCase0.COUNT.place 1
  let s1 := ((s.setReg (case0 d i) (BitVec.ofNat 64 w)).setReg (case1 d i) (BitVec.ofNat 64 (s.meridian d))).modFlt fun x =>
    { x with tag := x.tag.set d t, cases := x.cases.set (d, i) { bits := [(f.reg, f.bit)], event := (eventOf s f.reg f.bit).2 } }
  let s2 := if s.sev k < s.cap k then escStart d i s1 else s1
  contain d i (s.sev k) (deliverCase d i s2)

/-- What the port functions report of a fault (R459), with the bits of AER of the PCI Express Base Specification (log entry 30). An advisory error
also shows Advisory Non-Fatal Error. An ACS Violation is recorded where check 2 refuses (08 R303). -/
def hostSees (k part : Nat) (f : FaultRec) (s : State) : State :=
  let g := gport f.reg.die f.reg.i
  match k with
  | 0 => portAer g (Aer.note [] [6] []) s
  | 1 => if f.bit = LinkErr.REPLAYLIM.lo then portAer g (Aer.note [] [8] []) s else portAer g (fun a => { a with lbms := true }) s
  | 2 => surpriseDown g s
  | 4 => portAer g (Aer.note [4] [] []) s
  | 7 => portAer g (Aer.note [18] [] []) s
  | 8 => portAer g (Aer.note [12] [13] []) s
  | 9 => portAer g (Aer.note [19] [] []) s
  | 10 => portAer g (Aer.note [16] [13] []) s
  | 11 =>
    if f.reg.name ≠ .fltTlerr then s
    else if f.bit = FltTlerr.URSENT.lo then portAer g (Aer.note [20] [] []) s
    else if f.bit = FltTlerr.CASENT.lo then portAer g (Aer.note [15] [] []) s
    else s
  | 17 => s.forAll (List.range 2) fun x => fun t =>
      if (t.facePort part x).isSome then t.modFace part x fun y => { y with aer := y.aer.note [22] [] [] } else t
  | 21 => if f.bit = XltErr.SLOW.lo then s else
      (match f.tied with
       | some t => portAer t.iport (Aer.note [20] [] []) s
       | none => s)
  | _ => s

/-- The FLT block of a die takes a fault (R446, R452). -/
def takeRec (d : Nat) (f : FaultRec) (s : State) : State :=
  let k := classOf f.reg f.bit
  let u := s.unitOf d f
  let s1 := (hostSees k u.part f s).count (dreg .fltCnt d) FltCnt.FAULTS 1
  match s.findCase d k u with
  | some i => joinCase d i f s1
  | none =>
    match s.freeCase d k (s.sev k) with
    | some i => openCase d i k u f s1
    | none =>
      let e := (eventOf s f.reg f.bit).2
      let s2 := deliverRouted d e 0x3F (noCaseMsg s d e k) s1
      if k = 38 then s2 else raise (dreg .fltErr d) FltErr.CASEFULL s2

/-- Whether a die takes a waiting fault now: a slot's only while a Hild path exists (19 R654). -/
def State.takes (s : State) (d : Nat) (f : FaultRec) : Bool := s.active d && (decide (f.reg.name ≠ .hildErr) || s.hasPath)

/-- The next fault at the input crossing of a die is taken; answers it. -/
def takeFault (d : Nat) (s : State) : State × Option FaultRec :=
  match takeFirst (s.takes d) (s.flt.inbox.get [] d) with
  | none => (s, none)
  | some (f, rest) => (takeRec d f (s.modFlt fun x => { x with inbox := x.inbox.set d rest }), some f)

/-! ### Acknowledgement, verdicts and exit -/

/-- A case is acknowledged once every sticky bit that its faults have set is clear (R453); after an expiry the arrival is counted (R455). -/
def ackCheck (d i : Nat) (s : State) : State :=
  let x := s.caseHid d i
  if s.caseOn d i = true ∧ s.caseFld d i FltCase0.ACKED = 0 ∧ x.bits.all (fun b => !(s.bit b.1 b.2)) = true then
    let s1 := (escStop d i (setCase d i FltCase0.ACKED 1 s)).modCase d i fun x => { x with bits := [], expired := false }
    if x.expired then s1.count (dreg .fltCnt d) FltCnt.LATE 1 else s1
  else s

/-- A write clears bits of a sticky register, and the cases that they acknowledge follow (00 R7; R453). -/
def clearSticky (r : Reg) (mask : Word) (s : State) : State :=
  let s1 := s.setReg r (s.reg r &&& ~~~mask)
  s1.forAll (s1.flt.cases.filter fun y => y.2.bits.any fun b => b.1 == r && bitOf mask b.2) fun y => ackCheck y.1.1 y.1.2

/-- HANDLED clears the case's sticky bits (R456), but for those that a set of the same cycle reaches: the set wins (R453; 00 R8). -/
def handledCase (sets : List FaultRec) (d i : Nat) (s : State) : State :=
  let bits := (s.caseHid d i).bits
  let own := sets.filter fun f => f.isSource && decide ((f.reg, f.bit) ∈ bits)
  let rest := bits.filter fun b => own.all fun f => (f.reg, f.bit) != b
  ackCheck d i ((s.forAll own raiseFault).forAll rest fun b => clearSticky b.1 (BitVec.ofNat 64 (2 ^ b.2)))

/-- The standing case of a die with a tag. -/
def State.caseOfTag (s : State) (d tag : Nat) : Option Nat :=
  (List.range 256).find? fun i => s.caseOn d i && s.caseFld d i FltCase0.TAG == tag

/-- A verdict on a case (R456): refused unless a standing case bears the tag, its master may give it, and the case allows it. -/
def caseVerdict (who : Master) (d tag : Nat) (atPart : Bool) (apply : Nat → State → State) (s : State) : State :=
  if s.active d = false then s
  else match s.caseOfTag d tag with
    | none => refuseVerdict d s
    | some i =>
      if mayAnswer who (s.escMode d i) (s.caseFld d i FltCase0.PART) true ∧ (atPart ∨ s.caseFld d i FltCase0.LEVEL ≠ 6) then apply i s
      else refuseVerdict d s

/-- A case exits (R454): its containment is lifted, its entry is free, the exit is counted. Answers the die that rejoins (R467). -/
def caseExit (d i : Nat) (s : State) : State × Option Nat :=
  let x := s.caseHid d i
  let port := s.caseFld d i FltCase0.PORT
  let unit := if s.caseFld d i FltCase0.UKIND = 0 then s.caseFld d i FltCase0.UNIT else d
  let s1 := ((s.setReg (case0 d i) 0).setReg (case1 d i) 0).modFlt fun y => { y with cases := y.cases.erase (d, i) }
  let s2 := s1.count { name := .fltRcnt, die := d, i := s.caseFld d i FltCase0.CLASS } FltRcnt.COUNT 1
  let s3 := if 3 ∈ x.applied ∧ port ≠ 0x7F then portFree port s2 else s2
  (s3, if 5 ∈ x.applied ∧ (s.dieState unit = 6 ∨ (s.dieState unit = 5 ∧ unit ∈ s.flt.passed)) ∧ s.fld { name := .partFltcfg } PartFltcfg.REJOIN = 1 then some unit else none)

/-- ESCALATION_TIMER_EXPIRE (R452). -/
def execEscalationTimerExpire (d i : Nat) (s : State) : Host.Outcome State Fault Refusal :=
  .next (if s.active d = true ∧ s.caseOn d i = true ∧ s.caseFld d i FltCase0.ESCRUN = 1 then
    escalateCase d i (s.modCase d i fun x => { x with expired := true })
  else s)

/-- HANDLED (R456); `sets` are the faults whose set reaches a bit in the cycle of the clear (R453). -/
def execHandled (who : Master) (d tag : Nat) (sets : List FaultRec) (s : State) : Host.Outcome State Fault Refusal :=
  .next (caseVerdict who d tag true (handledCase sets d) s)

/-- ESCALATE (R456). -/
def execEscalate (who : Master) (d tag : Nat) (s : State) : Host.Outcome State Fault Refusal :=
  .next (caseVerdict who d tag true (escalateCase d) s)

/-! ### DPC, isolation, watchdogs, the BMC -/

/-- A DPC trigger at a virtual port (R461), with its interrupt where that is enabled (08 R287). -/
def dpcTrigger (n k : Nat) (s : State) : State :=
  let e := s.newE s.lead
  let v := s.vport n k
  if ¬ v.dpcEn ∨ v.dpcTrig then s
  else
    let s0 := s.modVport n k fun v => { v with dpcTrig := true }
    let s1 := if v.dpcInt then vpMsi n k s0 else s0
    match s.bindKind s.lead e n k with
    | 1 =>
      let g := s.bindPort s.lead e n k
      raise (tlerr g) FltTlerr.DPCTRIG (portHalt g (s1.modFlt fun x => { x with dpcPorts := x.dpcPorts ++ [(n, k, g)] }))
    | 2 => s1.modFlt fun x => { x with dpcCtx := x.dpcCtx ++ [(n, k, s.bindCtx s.lead e n k)] }
    | _ => s1

/-- DPC_TRIGGER (R461). -/
def execDpcTrigger (n k : Nat) (s : State) : Host.Outcome State Fault Refusal := .next (dpcTrigger n k s)

/-- The host clears DPC Trigger Status (R461). -/
def dpcRelease (n k : Nat) (s : State) : State :=
  let ports := (s.flt.dpcPorts.filter fun x => x.1 == n && x.2.1 == k).map fun x => x.2.2
  let s1 := (s.modVport n k fun v => { v with dpcTrig := false }).modFlt fun x =>
    { x with dpcPorts := x.dpcPorts.filter fun y => !(y.1 == n && y.2.1 == k), dpcCtx := x.dpcCtx.filter fun y => !(y.1 == n && y.2.1 == k) }
  s1.forAll ports portFree

/-- DPC_RELEASE (R461). -/
def execDpcRelease (n k : Nat) (s : State) : Host.Outcome State Fault Refusal :=
  .next (if (s.vport n k).dpcTrig then dpcRelease n k s else s)

/-- The dies that span links that are up join to a set. -/
def State.reachable (s : State) : Nat → List Nat → List Nat
  | 0, l => l
  | k + 1, l => s.reachable k (s.activeDies.filter fun e => decide (e ∈ l) || l.any fun d => s.linkLive d (16 + e))

/-- Span links to a die have been down for 10 µs (R463): a die that the lead no longer reaches is marked LOST; a lead that no die reaches is
lost itself, unless only two dies were in service. -/
def spanIsolation (d : Nat) (s : State) : State :=
  let n := s.activeDies.length
  if s.active d = false ∨ n < 2 then s
  else if d = s.lead then
    (if n ≠ 2 ∧ s.reachable 8 [d] = [d] then loseDie d 6 s else s)
  else if s.reachable 8 [s.lead] = [s.lead] ∧ n ≠ 2 then s
  else if d ∈ s.reachable 8 [s.lead] then s
  else loseDie d 6 s

/-- SPAN_ISOLATION_TIMEOUT (R463). -/
def execSpanIsolationTimeout (d : Nat) (s : State) : Host.Outcome State Fault Refusal := .next (spanIsolation d s)

/-- WATCHDOG_EXPIRE (R471): of a watchdog that runs. -/
def execWatchdogExpire (d : Nat) (s : State) : Host.Outcome State Fault Refusal :=
  .next (if s.flt.wdog.get 0 d = 0 then s else raise (dreg .fltErr d) FltErr.WDOG (s.modFlt fun x => { x with wdog := x.wdog.erase d }))

/-- KICK (R471). -/
def execKick (d : Nat) (s : State) : Host.Outcome State Fault Refusal := .next (if s.active d then wdogStart d s else s)

/-- The oldest message of the queue toward the BMC is taken (R476). -/
def bmcTake (s : State) : State := setBmc (s.flt.bmc.drop 1) s

/-- POLL_FOR_PLATFORM_EVENT_MESSAGE (R476): a poll that acknowledges takes the message. -/
def execPollForPlatformEventMessage (ack : Bool) (s : State) : Host.Outcome State Fault Refusal := .next (if ack ∧ s.hasPath then bmcTake s else s)

/-- PLATFORM_EVENT_MESSAGE_RESPONSE (R476): a successful response takes the message. -/
def execPlatformEventMessageResponse (ok : Bool) (s : State) : Host.Outcome State Fault Refusal := .next (if ok ∧ s.hasPath then bmcTake s else s)

/-- A route is written (R488): an INPUT below 8 is stored as 8. -/
def routeWrite (d e : Nat) (v : Word) (s : State) : State :=
  let r := s.route d e
  let keep := BitVec.ofNat 64 (EvtRoute.HEN.place (EvtRoute.HEN.of v) + EvtRoute.HART.place (EvtRoute.HART.of v)
    + EvtRoute.INPUT.place (max 8 (EvtRoute.INPUT.of v)) + EvtRoute.PEN.place (EvtRoute.PEN.of v) + EvtRoute.PSEL.place (EvtRoute.PSEL.of v)
    + EvtRoute.PARTN.place (EvtRoute.PARTN.of v) + EvtRoute.VEC.place (EvtRoute.VEC.of v) + EvtRoute.BMC.place (EvtRoute.BMC.of v)
    + EvtRoute.REC.place (EvtRoute.REC.of v))
  s.setReg r keep

/-- EVT_ROUTE_WRITE (R657). -/
def execEvtRouteWrite (d e : Nat) (v : Word) (s : State) : Host.Outcome State Fault Refusal :=
  .next (if s.active d ∧ e < 1024 then routeWrite d e v s else s)

/-! ### The meridian and the reference clocks -/

/-- A die begins resynchronisation (01 R41, R42): its RESYNC bit is set, and its count is slewed. -/
def beginResync (d : Nat) (s : State) : State :=
  if d ∈ s.clock.slewing then s
  else raiseFault { reg := partMerstat, bit := PartMerstat.RESYNC.lo + d } (s.modClock fun x => { x with slewing := d :: x.slewing })

/-- A die measures its offset to the lead die's copy, in meridian units (01 R24, R39, R41): above 8 ns it slews, above 1 µs it is time-faulted
and stepped; the lead measures nothing. DESIGN CHOICE (log entry 69): an offset above 1 µs sets TFAULT and steps, and does not set RESYNC
beside it. -/
def measureOffset (d : Nat) (offset : Int) (s : State) : State :=
  if s.active d = false ∨ d = s.lead then s
  else
    let ns := offset.natAbs
    let lead := s.clock.offset.get 0 s.lead
    let s1 := s.modClock fun x => { x with offset := x.offset.set d (lead + offset) }
    if 1000 * 65536 < ns then
      raiseFault { reg := partMerstat, bit := PartMerstat.TFAULT.lo + d }
        (s1.modClock fun x => { x with offset := x.offset.set d lead, timeFault := d :: x.timeFault.erase d })
    else if 8 * 65536 < ns then beginResync d s1
    else s1

/-- MERIDIAN_OFFSET_MEASURE (01 R24). -/
def execMeridianOffsetMeasure (d : Nat) (offset : Int) (s : State) : Host.Outcome State Fault Refusal := .next (measureOffset d offset s)

/-- How far a die's copy is ahead of the lead die's copy, in meridian units (01 R39). -/
def State.offsetToLead (s : State) (d : Nat) : Int := s.clock.offset.get 0 d - s.clock.offset.get 0 s.lead

/-- Slewing ends within 2 ns: steering goes on from where the count stands, and the stamps of the die are trusted again (01 R41). -/
def resyncEnd (d : Nat) (s : State) : State :=
  if d ∈ s.clock.slewing ∧ (s.offsetToLead d).natAbs ≤ 2 * 65536 then
    s.modClock fun x => { x with slewing := x.slewing.erase d, timeFault := x.timeFault.erase d }
  else s

/-- MERIDIAN_RESYNC_END (01 R41). -/
def execMeridianResyncEnd (d : Nat) (s : State) : Host.Outcome State Fault Refusal := .next (resyncEnd d s)

/-- The meridian wraps to zero (01 R40): the lead die's count is 64 bits wide, so at 2^64 units it reads zero again. -/
def meridianWrap (s : State) : State :=
  { s.count partMerstat PartMerstat.WRAPS 1 with now := s.now + (2 ^ 64 - s.meridian s.lead) }

/-- MERIDIAN_WRAP (01 R40). -/
def execMeridianWrap (s : State) : Host.Outcome State Fault Refusal := .next (meridianWrap s)

/-- The clock in use of a die is lost (01 R42, 20 R667): it switches to the other clock and resynchronises, or with both lost holds over. -/
def refclkLoss (d : Nat) (s : State) : State :=
  if s.active d = false then s
  else
    let c := s.clock.clock.get 0 d
    if 2 ≤ c then s
    else
      let s1 := s.modClock fun x => { x with lost := (d, c) :: x.lost.erase (d, c) }
      let other := 1 - c
      if (d, other) ∈ s1.clock.lost then
        raise (dreg .fltErr d) FltErr.REFBOTH (s1.modClock fun x => { x with clock := x.clock.set d 2 })
      else
        let s2 := raise (dreg .fltErr d) FltErr.REFCLK (s1.modClock fun x => { x with clock := x.clock.set d other })
        if d = s.lead then s2 else beginResync d s2

/-- REFCLK_LOSS (20 R667). -/
def execRefclkLoss (d : Nat) (s : State) : Host.Outcome State Fault Refusal := .next (refclkLoss d s)

end Sys2Proof.Machine
end

