-- ==== Sys2Proof/Machine/Reset.lean ====
section
/-! DEFINITION. The management reset and what begins one; reverts and failed handovers; the exits of cases that end in a rejoin; rails
(13 R504, R505, R509 to R511; 01 R37, R50; 11 R404, R420; 12 R454, R457, R467, R472; 20 R664). -/

namespace Sys2Proof.Machine

/-! ### Waiting instances (01 R37, 12 R457) -/

/-- The waiting instances of a die take their hardware-mode action. -/
def dieInstancesAct (d : Nat) (s : State) : State :=
  let s1 := s.forAll (List.range 16) fun pp => fun t => retrainExpire d pp (pegExpire d pp t)
  let s2 := s1.forAll (List.range 64) fun i => fun t => pxExpire d i (precExpire d i t)
  leakExpire d (s2.forAll (List.range 32) (dmaExpire d))

/-- The standing cases whose escalation timer is an assist instance that waits (12 R457). -/
def State.waitingCases (s : State) : List (Nat × Nat) :=
  (s.flt.cases.map (·.1)).filter fun y => s.active y.1 && s.caseFld y.1 y.2 FltCase0.WAITV == 1

/-- Every instance that waits for a verdict takes its hardware-mode action (01 R37), and every waiting case escalates once (12 R457). -/
def instancesAct (s : State) : State :=
  let s1 := (s.onActive dieInstancesAct).forAll (List.range 32) hotplugExpire
  let s2 := migExpire (actExpire s1)
  keepExpired s (s2.forAll s.waitingCases fun y => fun t => if t.active y.1 ∧ t.caseOn y.1 y.2 = true then escalateCase y.1 y.2 t else t)

/-! ### The control islands -/

/-- The entries that a warm reset discards from a hart's store buffer, and the withdrawal of its head (11 R414, R420). -/
def dropStores (d h : Nat) (s : State) : State :=
  let x := s.hart d h
  match x.sbuf with
  | [] => s
  | e :: _ =>
    let s1 := s.count (dreg .coreRst d) CoreRst.LOST x.sbuf.length
    match s.decodeAddr d e.addr with
    | none => s1
    | some y => s1.modCore d fun c => { c with withdrawn := c.withdrawn ++ [{ h := h, die := y.die, target := y.target, store := some e, recorded := false }] }

/-- The CORE block's registers without RWS fields take their reset values; the PLL stays locked and the boot ROM selects it (01 R50; 13
R504). -/
def coreBlockReset (d : Nat) (s : State) : State :=
  let names : List RegName := [.coreCnt, .coreDead, .coreSleep, .coreBerrrec]
  let s1 : State := { s with regs := s.regs.filter fun y => !(y.1.die == d && decide (y.1.name ∈ names)) }
  (s1.setFld (dreg .coreClk d) CoreClk.PLLLOCK 1).setFld (dreg .coreClk d) CoreClk.SEL 1

/-- The domain of a lockstep pair that is not retired is ON when the harts restart (10 R404; 14 R528). -/
def pairOn (d p : Nat) (s : State) : State :=
  if p ∈ (s.core.dies.get {} d).retired then s
  else
    let r : Reg := { name := .pwrDom, die := d, i := 55 + p }
    (((s.setFld r PwrDom.CUR 0).setFld r PwrDom.REQ 0).setFld r PwrDom.STATUS 0).modDom (dom d (55 + p)) fun _ => {}

/-- The warm reset of a die's control island (01 R50; 10 R404; 11 R420; 16 R601; 17 R613). -/
def warmReset (d : Nat) (s : State) : State :=
  let s1 := dropStores d 1 (dropStores d 0 s)
  let w := (s1.core.dies.get {} d).withdrawn.map fun y => { y with recorded := false }
  let s2 := (hartsReset d (coreBlockReset d s1)).modCore d fun c => { c with withdrawn := w }
  let s3 := sbbMgmtReset d (pairOn d 1 (pairOn d 0 s2))
  recCtrl d { typ := 0x17, src := 0, aux := 0, body := bytesLE 8 (s1.fld (dreg .coreRst d) CoreRst.LOST) } s3

/-! ### The running image -/

/-- An image that passed its checks is written to every die in service (R505). -/
def loadImage (f : Nat) (s : State) : State :=
  let body := s.imageBody f
  setRunning f (s.imageHeader f) (sha384 body) (sramAll 0 body s)

/-- The image of a flash is loaded anew, or that of the other flash where its checks fail; where neither passes the start fails with
the code of the first (R505). Answers whether an image was loaded. -/
def reloadImage (f : Nat) (badBody : List Nat) (s : State) : Bool × State :=
  let c1 := s.imageCheck f badBody
  if c1 = 0 then (true, loadImage f s)
  else
    let c2 := s.imageCheck (otherFlash f) badBody
    if c2 = 0 then (true, loadImage (otherFlash f) s)
    else
      let s1 := s.modBoot fun b => { b with first := f, resA := if f = 0 then c1 else c2, resB := if f = 0 then c2 else c1 }
      (false, failedStart c1 s1)

/-- Whether the run area of every die in service has the digest that the signature engine holds (R504 step 5). -/
def State.runAreaGood (s : State) : Bool :=
  s.activeDies.all fun d => sha384 (s.mem.bytes (sramBase d) s.boot.length) == s.boot.digest

/-! ### Rejoining -/

/-- A die is reset to rejoin (12 R467): it tests itself, its version is checked, and it copies the banks. `pass` and `ok` are what the
self-test and the check find; its buffer starts anew (06 R229), and its span links train; those to a die that fails stay disabled (03 R101). -/
def rejoin (x : Nat) (pass ok : Bool) (env : RejoinEnv) (s : State) : State :=
  let s1 := (eraseDie x s).modFlt fun y => { y with passed := y.passed.erase x }
  let off := fun (t : State) => domainsOff x (t.forAll (List.range s.dieCount) fun e => setLinkState e (16 + x) 0)
  if ¬ pass then off (s1.setDieState x 2)
  else if ¬ ok then
    raiseFault { reg := dreg .fltErr s.lead, bit := FltErr.VERSION.lo, unitDie := some x } (off (s1.setDieState x 5))
  else
    let s2 := bufferStart env.badCells x (startSpans env.spanRtt x (startVoltage x (s1.setDieState x 1)))
    (s2.onActive fun e => fun t =>
      let r : Reg := { name := .pwrDom, die := e, i := 46 + x }
      spanTrained e x (env.spanRtt.get 0 (e, x)) ((t.setFld r PwrDom.CUR 0).setFld r PwrDom.REQ 0)).modFlt fun y =>
        { y with rejoining := x :: y.rejoining.erase x }

/-- Whether a DIE case about a die stands. -/
def State.dieCaseOn (s : State) (x : Nat) : Bool :=
  s.flt.cases.any fun y => decide (5 ∈ y.2.applied) && s.active y.1.1 && s.caseFld y.1.1 y.1.2 FltCase0.UKIND == 0
    && s.caseFld y.1.1 y.1.2 FltCase0.UNIT == x

/-- The dies that show ISOLATED_VERSION. -/
def State.isolated (s : State) : List Nat := (List.range s.dieCount).filter fun x => s.dieState x == 5

/-- A die that shows ISOLATED_VERSION rejoins after a management reset (12 R467): at once where its case has ended, otherwise at the exit
of the case. -/
def isolatedRejoin (xs : List Nat) (env : WarmEnv) (s : State) : State :=
  if s.fld { name := .partFltcfg } PartFltcfg.REJOIN = 1 then
    s.forAll (xs.filter fun x => !(s.dieCaseOn x)) fun x => rejoin x (decide (x ∉ env.failed)) (decide (x ∉ env.versions)) ⟨env.spanRtt, env.badCells⟩
  else s

/-! ### The management reset -/

/-- Faults that wait at an input crossing when a management reset begins start no further one (12 R472). -/
def markStale (s : State) : State :=
  s.modFlt fun x => { x with inbox := x.inbox.map fun y => (y.1, y.2.map fun f => { f with stale := true }) }

/-- A capo that waits, or has not reached its step 4, is abandoned (05 R186); a drain before a capo counts as one (05 R182), and a request whose
precondition still waits ends with it. -/
def capoHalt (s : State) : State :=
  let s1 := if s.tab.waiting ∨ (s.capoRuns ∧ s.lead ∈ s.tab.toFlip) then capoAbandon s else s
  if s1.tab.drain.isSome ∨ s1.tab.check.isSome then
    modeRefuse 6 (((s1.setFld partMode PartMode.BUSY 0).setFld partCapo PartCapo.STATUS 5).modTab fun t => { t with drain := none, check := none })
  else s1

/-- Steps 1 to 3 of a management reset (R504). A handover does not go on for the dies that it isolates (R509). -/
def mresetBegin (env : WarmEnv) (s : State) : State :=
  let s1 := ((capoHalt (wdogStopAll (instancesAct (markStale s)))).onActive warmReset).modFlt fun x => { x with passed := s.isolated }
  s1.forAll (env.versions.filter fun d => d != s1.lead && s1.active d) fun d => fun t => if t.active d then dieLost d 5 t else t

/-- Steps 4 and 5: an armed image takes effect, a revert loads the previous image, and a run area whose digest differs is loaded anew.
Answers whether an image runs. In MINIMAL the boot ROM's firmware runs. -/
def mresetImage (revert armed : Bool) (env : WarmEnv) (s : State) : Bool × State :=
  if s.mode = 0 then (true, s)
  else if revert then reloadImage s.boot.previous env.badBody s
  else
    let s1 := if armed then adoptStaged (s.onActive copyStaged) else s
    if s1.runAreaGood then (true, s1) else reloadImage (s1.running.getD 0) env.badBody s1

/-- Step 6: the harts enter the image at ENTRY, and the watchdogs start (R504; 12 R471). -/
def mresetEnter (s : State) : State :=
  if s.mode = 0 then s else s.onActive fun d => fun t => wdogStart d (hartsEnter d t.boot.entry t)

/-- A trial ends with the previous image (R511). -/
def endRevert (s : State) : State :=
  let s1 := s.onActive fun d => fun t => t.setFld (bootStat d) BootStat.TRIAL 0
  (setAct BootAct.STATE (if s.boot.staged then 2 else 0) (setAct BootAct.STATUS 3 s1)).modBoot fun b => { b with timer := false }

/-- A handover that became a management reset before the image was copied: the old image runs, and the staged one stays staged (R509). -/
def endPause (s : State) : State :=
  (setAct BootAct.BUSY 0 (setAct BootAct.STATE 2 (setPhase (if s.starting then 2 else 3) s))).modBoot fun b =>
    { b with needReady := [], needResume := [], copied := false }

/-- The trial of a staged image that a management reset has started (R511); where R505 loaded the other flash's image instead, the part has
reverted (log entry 25). -/
def trialOf (s1 s2 : State) : State :=
  if s2.running = some s1.boot.stagedFlash then trialBegin s2 else endRevert (trialBegin s2)

/-- A management reset (R504, R505, R509 to R511; 01 R50). -/
def mreset (revert : Bool) (env : WarmEnv) (s : State) : State :=
  let s1 := mresetBegin env s
  let pausing := s1.act BootAct.STATE == 4
  let copied := pausing && s1.boot.copied
  let armed := s1.act BootAct.STATE == 5
  let r := mresetImage revert armed env s1
  if r.1 then
    let s2 := mresetEnter r.2
    let s3 := if revert then endRevert s2 else if armed || copied then trialOf s1 s2 else if pausing then endPause s2 else s2
    isolatedRejoin s.isolated env (if pausing then setAct BootAct.STATUS 9 s3 else s3)
  else r.2

/-- A fault of class 26 that no management reset has overtaken (12 R472): during a start it fails the start with the code of its source,
during a trial the part reverts (R499, R511). -/
def class26 (code : Nat) (env : WarmEnv) (s : State) : State :=
  mreset s.trial env (if s.starting then failedStart code s else s)

/-- FAULT_TAKEN (12 R446, R452, R472). -/
def execFaultTaken (d : Nat) (env : WarmEnv) (s : State) : Host.Outcome State Fault Refusal :=
  .next (match takeFault d s with
    | (t, some f) =>
      if classOf f.reg f.bit = 26 ∧ f.stale = false then class26 (if f.bit = FltErr.DBLTRAP.lo then 0x10 else 0x11) env t else t
    | (t, none) => t)

/-- START_TIMER_EXPIRE (R492, R511). -/
def execStartTimerExpire (env : WarmEnv) (s : State) : Host.Outcome State Fault Refusal :=
  .next (if s.boot.timer = false then s else if s.trial then mreset true env s else failedStart 0x12 s)

/-- MRESET (R504, R510). -/
def execMreset (d : Nat) (env : WarmEnv) (s : State) : Host.Outcome State Fault Refusal :=
  .next (if s.active d then mreset false env s else s)

/-- HANDOVER_TIMEOUT (R509). -/
def execHandoverTimeout (env : WarmEnv) (s : State) : Host.Outcome State Fault Refusal :=
  .next (if s.act BootAct.STATE = 4 then mreset false env s else s)

/-- Whether an activation requested now is accepted (R507). -/
def State.mayActivate (s : State) : Bool :=
  s.act BootAct.BUSY == 0 && !s.trial && s.mode != 0 && s.mode != 7 && s.boot.staged

/-- ACTIVATE_FIRMWARE (R507, R510, R512): self-contained on the KF-8512, it starts the management reset that the armed image waits for. -/
def execActivateFirmware (selfContained : Bool) (env : WarmEnv) (s : State) : Host.Outcome State Fault Refusal :=
  pldm s fun s =>
    if s.mode = 0 ∨ s.boot.pldm.phase ≠ 4 then pldmReply 0x1A 0x84 s
    else if s.mayActivate then
      let s1 := activationReq .bmc (pldmReply 0x1A 0 (s.modPldm fun p => { p with phase := 0 }))
      if selfContained ∧ s1.act BootAct.STATE = 5 then mreset false env s1 else s1
    else pldmReply 0x1A 1 (activationReq .bmc s)

/-! ### The exit of a case -/

/-- A die that exits a case may rejoin. -/
def afterExit (r : State × Option Nat) (pass ok : Bool) (env : RejoinEnv) : State :=
  match r.2 with
  | some x => rejoin x pass ok env r.1
  | none => r.1

/-- QUIET_EXPIRE (12 R454, R467). -/
def execQuietExpire (d i : Nat) (pass ok : Bool) (env : RejoinEnv) (s : State) : Host.Outcome State Fault Refusal :=
  .next (if s.active d = true ∧ s.caseOn d i = true ∧ s.caseFld d i FltCase0.LEVEL ≠ 6 then afterExit (caseExit d i s) pass ok env else s)

/-- RELEASE (12 R456). -/
def execRelease (who : Master) (d tag : Nat) (pass ok : Bool) (env : RejoinEnv) (s : State) : Host.Outcome State Fault Refusal :=
  .next (caseVerdict who d tag false (fun i t => afterExit (caseExit d i (handledCase [] d i t)) pass ok env) s)

/-- The registers of the start that every die in service shows alike. -/
def bootNames : List RegName := [.bootStat, .bootVer, .bootAct]

/-- Bytes of a die's window copied from another die. -/
def copyWindow (src dst base n : Nat) (s : State) : State :=
  let m := s.mem.clear (dieBase dst + base) (dieBase dst + base + n)
  { s with mem := m.putBytes (dieBase dst + base) (s.mem.bytes (dieBase src + base) n) }

/-- The fences toward a die lift when it returns to service (11 R415). -/
def liftFences (d : Nat) (s : State) : State :=
  s.forAll (List.range s.dieCount) fun e => fun t =>
    (t.setReg { name := .coreDead, die := e, i := d } 0).modCore e fun c => { c with withdrawn := c.withdrawn.filter fun w => w.die != d }

/-- A rejoining die has copied the newest bank and the page-table area (12 R467): it is in service with what the lead die runs, and flips at
a capo that the lead die issues. -/
def rejoinEnd (d : Nat) (s : State) : State :=
  let l := s.lead
  let t := s.tabDie l
  let s0 := s.modClock fun x => { x with offset := x.offset.set d (x.offset.get 0 l) }
  let s1 := ((liftFences d s0).setDieState d 3).modTabDie d fun _ => { t with older := none, oldE := t.newE, badPages := [], badNewest := [], reload := [] }
  let s2 := s1.modTab fun x => { x with drained := if t.older.isSome then d :: x.drained.erase d else x.drained }
  let s3 := copyWindow l d 0x03B00000 0x200 (copyWindow l d (0x10000000 + settingsArea) 0x40000 (copyWindow l d 0x10000000 s.boot.length s2))
  let s4 := bootNames.foldl (fun u n => u.setReg (dreg n d) (u.reg (dreg n l))) s3
  let s5 := if s.mode = 0 then s4 else wdogStart d (hartsEnter d s4.boot.entry s4)
  let s6 := if s.deputy = 0xF then s5.setFld partLead PartLead.DEPUTY d else s5
  let s7 := hildPath (lockWhole d 23 (5 + 1 * 8 + 1 * 2 ^ 24 + 1 * 2 ^ 27) s6)
  if s7.tab.waiting then s7 else issueCapo s7

/-- REJOIN_COPY_END (12 R467): while no capo runs. -/
def execRejoinCopyEnd (d : Nat) (s : State) : Host.Outcome State Fault Refusal :=
  .next (if d ∈ s.flt.rejoining ∧ s.dieState d = 1 ∧ s.capoRuns = false ∧ s.tab.drain = none then rejoinEnd d s else s)

/-! ### Rails and operating points -/

/-- The part goes into part reset, where a rail holds it until every rail is in range again (20 R663, R664). -/
def railReset (lost : Bool) (s : State) : State :=
  let s1 := if s.starting then failedStart 0x01 s else s
  let s2 : State := if lost then { s1 with regs := s1.regs.filter fun x => decide (x.1.name ≠ .bootCause) } else s1
  partStart {} (s2.modBoot fun b => { b with held := true })

/-- RAIL_OUT_OF_RANGE (20 R664, R665). -/
def execRailOutOfRange (r : Rail) (s : State) : Host.Outcome State Fault Refusal :=
  .next (if s.boot.held then s
    else match r with
    | .vcore d also =>
      let gone := s.activeDies.filter fun x => x == d || decide (x ∈ also)
      if s.active d = false then s
      else if s.activeDies = gone then railReset false s
      else
        let s1 := if s.starting then failedStart 0x01 s else s
        loseDies gone 6 s1
    | .vlane | .vio18 | .vio33 => railReset false s
    | .vaon lost => railReset lost s
    | .vhild => vhildLoss s)

/-- AVS_TIMEOUT (14 R547). -/
def execAvsTimeout (d : Nat) (s : State) : Host.Outcome State Fault Refusal := .next (if s.active d then avsTimeout d s else s)

end Sys2Proof.Machine
end

