-- ==== Sys2Proof/Machine/BusRead.lean ====
section
/-! DEFINITION. The register space: which register an offset holds (00 R5, R6; 19 R644 to R649), which units exist on the member (00 R3),
and what a read of a register gives, with the registers that show the state of a unit. -/

namespace Sys2Proof.Machine

/-! ### From offsets to registers -/

/-- The indexes that an offset from the first element of an array names, and the offset within that element. -/
def locate : List (Nat × Nat) → Nat → Option (List Nat × Nat)
  | [], o => some ([], o)
  | (stride, n) :: r, o =>
    if o / stride < n then (locate r (o % stride)).map fun x => (o / stride :: x.1, x.2) else none

/-- The element of a layout that holds a byte, and the byte's offset in it. -/
def Layout.at (l : Layout) (off : Nat) : Option (List Nat × Nat) :=
  if off < l.off then none
  else match locate l.idx (off - l.off) with
    | some x => if x.2 < l.width / 8 then some x else none
    | none => none

/-- The register of a name with its indexes; a span window's status register is numbered as its link engine is. -/
def RegName.at (n : RegName) (d : Nat) (ix : List Nat) : Reg :=
  { name := n, die := d, i := ix.getD 0 0 + (if n = .linkSpstat then 16 else 0), j := ix.getD 1 0, k := ix.getD 2 0 }

/-- The register that holds a byte of a region, and the byte's offset in the register. -/
def regHolding (rg : Region) (d off : Nat) : Option (Reg × Nat) :=
  RegName.all.findSome? fun n =>
    if n.layout.region = rg then (n.layout.at off).map fun x => (n.at d x.1, x.2) else none

/-- Whether the unit of a register exists on the member (00 R3). -/
def State.regExists (s : State) (r : Reg) : Bool :=
  match r.name with
  | .linkCfg | .linkStat | .linkRtt | .linkVlhead | .linkCnt | .linkErr | .linkSpstat =>
    decide (r.i < 16) || (decide (r.i - 16 < s.dieCount) && r.i - 16 != r.die)
  | .sbbSegCfg | .sbbSegStat | .sbbSegSig => decide (r.i < s.slotsPerDie)
  | .coreDead => decide (r.i < s.dieCount)
  | .partFollow | .parFace | .parWake | .bufPart => decide (r.i < s.partCount)
  | _ => true

/-- What an access of `width` bytes at an offset of a register region meets (00 R6, 19 R645). -/
inductive Place where
  | reg (r : Reg)
  | hole
  | bad
  deriving DecidableEq, Repr

/-- The place of an access. -/
def State.place (s : State) (rg : Region) (d off width : Nat) : Place :=
  if ¬ (width = 1 ∨ width = 2 ∨ width = 4 ∨ width = 8) ∨ off % width ≠ 0 then .bad
  else match regHolding rg d off, regHolding rg d (off + width - 1) with
    | some (r, 0), _ =>
      if ¬ s.regExists r then .hole else if r.name.layout.width = 8 * width then .reg r else .bad
    | some (r, _ + 1), _ => if s.regExists r then .bad else .hole
    | none, some (r, _) => if s.regExists r then .bad else .hole
    | none, none => .hole

/-! ### Registers that show the state of a unit -/

/-- TAB.STAT.PHASE of a die (05 R199): out of step, syncing, draining, drained and waiting for retirement, applying the staged writes of a capo,
digests sent and not yet flipped, or idle. -/
def State.tabPhase (s : State) (d : Nat) : Nat :=
  let t := s.tabDie d
  if s.dieState d = 4 ∨ t.reload ≠ [] then 5
  else if t.syncing then 6
  else if t.older.isSome then (if d ∈ s.tab.drained then 3 else 4)
  else if s.capoRuns ∧ d ∈ s.tab.toFlip then (if s.tab.applying then 1 else 2)
  else 0

/-- Whether the zeroing engine of a die has a cell to take (06 R210, R231). -/
def State.zeroBusy (s : State) (d : Nat) : Bool :=
  let b := s.bufDie d
  b.ready && decide (b.zeroPool < s.fld (dreg .bufZcfg d) BufZcfg.ZTARGET) &&
    (b.verify.any (fun c => !(b.away c)) || ownerTags.any fun o => !(b.pool o).isEmpty)

/-- The cells charged to a port's ingress reservation, whatever its link (06 R234). -/
def State.inUse (s : State) (g : Nat) : Nat :=
  ((s.bufDie (pdie g)).cells.filter fun x => match x.2.ledger with
    | some (.pciePort h _) => h == g
    | some (.nerov h _ _) => h == g
    | _ => false).length

/-- The descriptor of a cell (06 R206). -/
def CellRec.word (c : CellRec) : Word :=
  BitVec.ofNat 64 (BufCelld.OWNER.place c.owner + BufCelld.STATE.place c.state + BufCelld.SUSP.place (b2n c.susp)
    + BufCelld.SEEN.place (b2n c.seen) + BufCelld.REFS.place c.refs + BufCelld.FILL.place c.fill
    + BufCelld.NEXTV.place (b2n c.next.isSome) + BufCelld.NEXT.place (c.next.getD 0))

/-- STATE of a DMA channel (09 R368). -/
def State.chState (s : State) (d c : Nat) : Nat :=
  let z := s.chan d c
  let work := z.run.isSome || !z.descs.isEmpty || !z.endings.isEmpty
  let other := (List.range dmaChannels).any fun x => x != c && s.chReady d x && decide (s.chPri d c < s.chPri d x)
  if z.parked then 3
  else if ¬ s.chOn d c then (if z.stopped then 5 else 0)
  else if ¬ s.chMayRun d c then 4
  else if ¬ work then 0
  else if z.run.isSome ∧ other then 2
  else 1

/-- The face of a partition whose upstream port lies on a die (08 R318). -/
def State.faceOn (s : State) (d n : Nat) : Option Nat :=
  let e := s.newE d
  if !(s.partValid d e n) then none
  else (List.range 2).find? fun f => (s.upOf d e n f).any fun g => pdie g == d

/-- PAR.FACE of a partition on a die (08 R308, R311, R318). -/
def State.faceWord (s : State) (d n : Nat) : Word :=
  match s.faceOn d n with
  | none => 0
  | some f =>
    let x := s.face n f
    BitVec.ofNat 64 (ParFace.PRESENT.place 1 + ParFace.FACE.place f + ParFace.DSTATE.place x.dstate + ParFace.PMEPEND.place (b2n (s.pmePending n f))
      + ParFace.FLR.place (b2n (decide (n ∈ s.par.flr))) + ParFace.WAKE.place (b2n (s.wakes n f)) + ParFace.PBUS.place x.pbus + ParFace.SBUS.place x.sbus + ParFace.SUBBUS.place x.subbus)

/-- The flow contexts of a die with packets held in a hold queue, or still leaving an ended one (07 R249). -/
def State.holders (s : State) (d : Nat) : List FlowSt :=
  ((s.sch.flows.filter fun x => x.1 / flowsPerDie == d).map (·.2)).filter fun f => !(f.hold.isEmpty && f.leaving.isEmpty)

/-- The standing cases of a die. -/
def State.cases (s : State) (d : Nat) : List Nat := (List.range 256).filter (s.caseOn d)

/-- SCH.FLOWST[l].HOLD (07 R275): the hold queue, to which the packets that still leave an ended one do not belong (07 R249). -/
def FlowSt.holdWord (f : FlowSt) (now : Nat) : Word :=
  let q := f.hold
  let age := match q with
    | [] => 0
    | p :: _ => (now + 2 ^ 64 - p.time) % 2 ^ 64 / 65536 / 1000
  SchFlowHold.HAGEMAX.putSat age (SchFlowHold.HTLPS.putSat q.length
    (BitVec.ofNat 64 (SchFlowHold.XSTATE.place f.xstate + SchFlowHold.XACT.place f.xact)))

/-- The registers of a fret engine's port window, which reads as zero while the port has no lanes (04, before R155). -/
def RegName.fretPort (n : RegName) : Bool :=
  decide (n ∈ [.fretPcfg, .fretPsel, .fretPstat, .fretErr, .fretVcnt, .fretHwref, .fretTraprec0, .fretTraprec1, .fretTraprec2, .fretTrapHdr])

/-- What a read of a register gives: the value it holds, and where it shows the state of a unit, that state. Write-only fields are never
stored, so they read as zero (00 R7). A port within its grace period shows DOWN_GRACE also while its engine is in DETECT or TRAINING: 03 R104
lists the codes and not which of them prevails (DESIGN CHOICE, log entry 76). -/
def State.readReg (s : State) (r : Reg) : Word :=
  let w := s.reg r
  let d := r.die
  let g := gport d r.i
  if r.name.fretPort ∧ ¬ s.hasLanes g then 0 else
  match r.name with
  | .partMode => if s.mode = 6 then w else PartMode.BASE.put s.mode w
  | .partMerstat => PartMerstat.REF.put (s.clock.clock.get 0 s.lead) w
  | .partMeridian => BitVec.ofNat 64 (s.meridian s.lead)
  | .partStageq =>
    PartStageq.FULL.put (b2n (decide (4096 ≤ s.tab.queue.length))) (PartStageq.DEPTH.put s.tab.queue.length w)
  | .laneStat => s.laneStatWord d r.i
  | .laneRxeq => s.rxeqWord d r.i
  | .laneDfe => s.dfeWord d r.i
  | .linkCfg => if 16 ≤ r.i then BitVec.ofNat 64 (LinkCfg.ENABLE.place 1 + LinkCfg.KIND.place 1) else w
  | .linkRtt => if r.i < 16 ∧ s.isNerov g = false then 0 else w
  | .linkStat =>
    let l := s.link d r.i
    let live := s.linkLive d r.i
    let one := decide (16 ≤ r.i) || s.isNerov (gport d r.i)
    let v := if one then LinkStat.FLIT.put 1 w else w
    if l.grace ∧ ¬ live then LinkStat.STATE.put 6 v else v
  | .fretPsel =>
    FretPsel.STAGED.put (getBits (bankWord (s.tabDie d).shadow (0x600 + 8 * g)) 45 40) (FretPsel.LIVE.put (s.progOf (s.newE d) g) w)
  | .fretPstat =>
    FretPstat.HQDEPTH.putSat (s.fret.hq.get [] g).length
      (FretPstat.PARKED.put (s.fret.parked.filter fun x => x.1.1 == g).length (FretPstat.THROTTLING.put (b2n (decide (g ∈ s.fret.throttle))) w))
  | .tabStat =>
    let t := s.tabDie d
    BitVec.ofNat 64 (TabStat.NEW.place t.newE + TabStat.OLD.place (if t.older.isSome ∧ d ∉ s.tab.drained then t.oldE else t.newE)
      + TabStat.PHASE.place (s.tabPhase d) + TabStat.RELOADQ.place t.reload.length
      + TabStat.UNSETTLED.place (if t.older.isSome then min 4095 (s.unsettled d t.oldE) else 0))
  | .bufStat =>
    let b := s.bufDie d
    let ready := b.zeroPool
    let free := ready + (ownerTags.map fun o => (b.pool o).length).sum
    BitVec.ofNat 64 (BufStat.FREE.place free + BufStat.ZERO.place ready + BufStat.RETIRED.place (min 4095 b.retired)
      + BufStat.ZBUSY.place (b2n (s.zeroBusy d)) + BufStat.READY.place (b2n b.ready))
  | .bufShared =>
    BitVec.ofNat 64 (BufShared.SIZE.place (s.sharedSize d) + BufShared.USED.place (s.sharedUsed d)
      + BufShared.TUSE.place (s.charged d .transit))
  | .bufMircfg => BufMircfg.MUSE.put (s.mirrorUse d r.i) w
  | .bufPres => BufPres.HOLDUSE.putSat (s.holdUse g) (BufPres.INUSE.putSat (s.inUse g) w)
  | .bufPart => BufPart.USE.put (s.partUse d r.i) w
  | .bufCelld => (s.cell d r.i).word
  | .schHstat =>
    let h := s.holders d
    let waiting := ((List.range 64).filter fun i =>
      s.fld { name := .schPxrec, die := d, i := i } SchPxrec.VALID == 1 && s.fld { name := .schPxrec, die := d, i := i } SchPxrec.ACTING == 0).length
    SchHstat.HELD.putSat (h.map fun f => f.hold.length + f.leaving.length).sum
      (SchHstat.HFLOWS.putSat (h.filter fun f => !f.hold.isEmpty).length (SchHstat.PXWAIT.put waiting 0))
  | .schFlowTc => BitVec.ofNat 64 (s.flow (d * flowsPerDie + r.i)).tc
  | .schFlowTp => BitVec.ofNat 64 (s.flow (d * flowsPerDie + r.i)).tp
  | .schFlowHold => (s.flow (d * flowsPerDie + r.i)).holdWord (s.meridian d)
  | .schFlowCnt =>
    BitVec.ofNat 64 (SchFlowCnt.REDS.place (s.flow (d * flowsPerDie + r.i)).reds + SchFlowCnt.REFUSED.place (s.flow (d * flowsPerDie + r.i)).refused)
  | .schQstat =>
    SchQstat.MAXDEPTH.putSat (s.sch.maxDepth.get 0 (g, r.j)) (SchQstat.DEPTH.putSat (s.depth g r.j) 0)
  | .parFace => s.faceWord d r.i
  | .xltStat =>
    let x := s.xltDie d
    let prq := ((List.range 64).filter fun i => s.fld (prec0 d i) XltPrec0.VALID == 1).length
    BitVec.ofNat 64 (XltStat.CACHED.place x.cache.length + XltStat.FQ.place x.fq.length + XltStat.PRQ.place prq)
  | .dmaStat =>
    let run := ((List.range dmaChannels).map fun c => if s.chState d c = 1 then 2 ^ c else 0).sum
    BitVec.ofNat 64 (DmaStat.INFLIGHT.place (s.inFlight d) + DmaStat.RUNNING.place run)
  | .dmaChStat =>
    let z := s.chan d r.i
    let off := match z.run with
      | none => 0
      | some x => min x.len (256 * z.committed)
    DmaChStat.STATE.put (s.chState d r.i) (DmaChStat.OFFSET.put off w)
  | .fltStat =>
    let l := s.cases d
    FltStat.CASES.put l.length (FltStat.MAXLVL.put ((l.map fun i => s.caseFld d i FltCase0.LEVEL).foldl max 0) 0)
  | .evtRaw =>
    BitVec.ofNat 64 ((List.range 64).map fun k => if s.eventLevel d (64 * r.i + k) then 2 ^ k else 0).sum
  | .hildTel =>
    let out := Config.slotOut r.i s.now
    if s.domCur ⟨true, 0, 7⟩ = 2 then 0 else HildTel.VOUT.put out.1.toNat (HildTel.IOUT.put out.2.toNat w)
  | .coreBerrrec => if CoreBerrrec.VALID.of w = 1 then w else 0
  | _ => w

/-! ### Reads with an effect -/

/-- A read of a register, with its effect: a read of SBB.TALLOC allocates a ticket (16 R594). -/
def regRead (r : Reg) (s : State) : Word × State :=
  match r.name with
  | .sbbTalloc =>
    let t := talloc r.die s
    (t.reg r, t)
  | _ => (s.readReg r, s)

end Sys2Proof.Machine
end

