-- ==== Sys2Proof/Machine/Replay.lean ====
section
/-! DEFINITION. Replay (17 R617, R620, R621, R630): the anchor, the feed of recorded control inputs, and the comparison of what the part does with
what was recorded. A feed is what the engine reads through port 0.00, given with the command that starts the replay (log entry 4). -/

namespace Sys2Proof.Machine

/-- A register of the replay. -/
def recRpt (d : Nat) : Reg := dreg .recRpt d

/-- Whether a die replays: RSTATE reads running. -/
def State.replays (s : State) (d : Nat) : Bool := s.mode == 7 && s.fld (recRpt d) RecRpt.RSTATE == 2

/-- Both harts of a die pause, or go on. -/
def pauseHarts (d : Nat) (on : Bool) (s : State) : State := s.forAll [0, 1] fun h => fun t => t.modHart d h fun x => { x with paused := on }

/-- The replay of a die ends in a state: 3 DONE or 4 STOPPED. -/
def replayEnd (d v : Nat) (s : State) : State := pauseHarts d true (s.setFld (recRpt d) RecRpt.RSTATE v)

/-- A record that does not match (R620, R630): counted, the first one located, and with STOPMISS = 1 the replay stops. -/
def replayMiss (d kind : Nat) (r : FeedRec) (s : State) : State :=
  let s1 := s.count (recRpt d) RecRpt.MISSES 1
  let at' := (dreg .recRptat d)
  let s2 := if s.fld (recRpt d) RecRpt.MISSKIND = 0 then
      ((s1.setFld (recRpt d) RecRpt.MISSKIND kind).setFld at' RecRptat.SEQ r.seq).setFld at' RecRptat.INDEX r.index
    else s1
  let s3 := raise (dreg .recErr d) RecErr.RPLMISS s2
  if s.fld (dreg .recCtl d) RecCtl.STOPMISS = 1 then replayEnd d 4 s3 else s3

/-! ### Records of a feed -/

/-- Whether a hart uses the record: LOAD, STX, CSRRD, EVTAKE or OUT. -/
def FeedRec.ofHart (r : FeedRec) : Bool := decide (r.rcd.typ ∈ [0x10, 0x11, 0x12, 0x13, 0x15])

/-- Whether the record is one of a hart, a foreign write, a flip or a management reset: such records take effect in order. -/
def FeedRec.control (r : FeedRec) : Bool := r.ofHart || decide (r.rcd.typ ∈ [0x14, 0x16, 0x17])

/-- The next record of a hart (R620 step 3), and the feed without it. -/
def State.hartRec (s : State) (d h : Nat) : Option (FeedRec × List FeedRec) :=
  takeFirst (fun r => r.ofHart && r.rcd.src % 2 == h) (s.recDie d).feed

/-- The feed of a die is replaced. -/
def setFeed (d : Nat) (l : List FeedRec) (s : State) : State := s.modRec d fun x => { x with feed := l }

/-- The ICOUNTs of both harts in an XWRITE record: its last 16 bytes. -/
def xwriteCounts (r : FeedRec) : Nat × Nat :=
  let n := r.rcd.body.length - 16
  (leAt r.rcd.body n 8, leAt r.rcd.body (n + 8) 8)

/-- The first XWRITE of a die's feed. -/
def State.firstXwrite (s : State) (d : Nat) : Option FeedRec := (s.recDie d).feed.find? fun r => r.rcd.typ == 0x14

/-- Whether a hart must wait for an XWRITE: it has reached the record's ICOUNT and the write has not been applied (R620 step 3). -/
def State.xwriteHolds (s : State) (d h : Nat) : Bool :=
  match s.firstXwrite d with
  | none => false
  | some r => decide ((if h = 0 then (xwriteCounts r).1 else (xwriteCounts r).2) ≤ (s.hart d h).icount)

/-- Whether a die knows an epoch: the newest, or the older live one. -/
def State.knowsEpoch (s : State) (d e : Nat) : Bool :=
  let t := s.tabDie d
  e == t.newE || (t.older.isSome && e == t.oldE)

/-- Whether a record that no hart uses can take effect: `before` are the records in front of it. -/
def State.recReady (s : State) (d : Nat) (before : List FeedRec) (r : FeedRec) : Bool :=
  if r.ofHart then false
  else if r.rcd.typ = 0x14 then
    !(before.any fun x => x.control && !x.ofHart) && decide ((xwriteCounts r).1 ≤ (s.hart d 0).icount)
      && decide ((xwriteCounts r).2 ≤ (s.hart d 1).icount)
  else if r.rcd.typ = 0x16 ∨ r.rcd.typ = 0x17 then !(before.any FeedRec.control)
  else if r.rcd.typ = 1 ∧ r.rcd.src / 2 ^ 14 = 0 then s.knowsEpoch d (leAt r.rcd.body 16 2)
  else true

/-- The first record that can take effect, and the feed without it. -/
def State.readyRec (s : State) (d : Nat) : List FeedRec → List FeedRec → Option (FeedRec × List FeedRec)
  | _, [] => none
  | before, r :: rest =>
    if s.recReady d before r then some (r, before.reverse ++ rest) else State.readyRec s d (r :: before) rest

/-! ### What the records do -/

/-- An XWRITE is applied: MID and size, address, data (17 R613). -/
def applyXwrite (d : Nat) (r : FeedRec) (s : State) : State :=
  let b := r.rcd.body
  sramStore d (leAt b 8 8 - sramBase d) ((b.drop 16).take (leAt b 4 4)) s

/-- A CAPO record: the die flips to the recorded epoch, and the CRC-64 of the flipped bank's digests is compared (R620 step 4). -/
def applyCapo (d : Nat) (r : FeedRec) (s : State) : State :=
  let e := leAt r.rcd.body 0 2
  let t := s.tabDie d
  let now := t.shadow.set 0 (setBits (bankWord t.shadow 0) 47 32 e)
  let s1 := s.modTabDie d fun x =>
    { x with older := some x.newest, oldE := x.newE, newest := now, newE := e, shadow := now, flipAt := s.meridian d }
  let crc := crc64 0 ((List.range 224).flatMap fun p => bytesBE 8 (pageDigest s.dieCount now p))
  if leAt r.rcd.body 8 8 = crc then s1 else replayMiss d 2 r s1

/-- An ingress header record: the header runs through the program of its port in the bank of its epoch, and verdict and metadata are
compared (R620 step 4). -/
def applyHdr (d : Nat) (r : FeedRec) (s : State) : State :=
  let g := r.rcd.src % 128
  let e := leAt r.rcd.body 16 2
  let p : Pkt := { tlp := r.tlp, iport := g, epoch := e }
  let prog := s.progOf e g
  let c : Course := { pkt := p, prog := prog, live := true }
  let run := if prog = 63 then { c with mdata := { egress := s.transparent p }, verdict := some (0, 0) } else Course.run s g {} 25 c
  let v := run.verdict.getD (freeVerdict s)
  let s1 := if run.verdict.isSome then s else s.drew
  if pdie g = d ∧ v.1 = leAt r.rcd.body 18 1 ∧ run.mdata.word = leAt r.rcd.body 24 8 then s1 else replayMiss d 3 r s1

/-- A management reset in the record: both harts start anew in the running image (17 R609; log entry 61). -/
def applyMreset (d : Nat) (s : State) : State := hartsEnter d s.boot.entry (hartsReset d s)

/-- A record that no hart uses takes effect. -/
def applyRec (d : Nat) (r : FeedRec) (s : State) : State :=
  if r.rcd.typ = 0x14 then applyXwrite d r s
  else if r.rcd.typ = 0x16 then applyCapo d r s
  else if r.rcd.typ = 0x17 then applyMreset d s
  else if r.rcd.typ = 1 ∧ r.rcd.src / 2 ^ 14 = 0 then applyHdr d r s
  else s

/-- Every record that can take effect does, in order. -/
def replayPump (d : Nat) : Nat → State → State
  | 0, s => s
  | n + 1, s =>
    if s.replays d then
      match s.readyRec d [] (s.recDie d).feed with
      | none => s
      | some (r, rest) => replayPump d n (applyRec d r (setFeed d rest s))
    else s

/-- The records of a die are pumped as far as they go. -/
def pumpFeed (d : Nat) (s : State) : State := replayPump d ((s.recDie d).feed.length + 1) s

/-! ### Inputs and outputs of a replaying hart -/

/-- An input of a hart in replay (R620 step 3): the next record of the hart. Of another type it is out of order and gives a free value. None
while no record has arrived: the hart waits. -/
def replayInput (d h typ key off : Nat) (s : State) : Option (Word × State) :=
  match s.hartRec d h with
  | none => none
  | some (r, rest) =>
    let s1 := setFeed d rest s
    if r.rcd.typ = typ ∧ leAt r.rcd.body 0 8 = key then some (BitVec.ofNat 64 (leAt r.rcd.body off 8), s1)
    else some (s.freeWord, replayMiss d 4 r s1.drew)

/-- A device-class store of a replaying hart: compared with its next record (R620 step 4). -/
def replayOutput (d h : Nat) (body : List Byte) (s : State) : Option State :=
  match s.hartRec d h with
  | none => none
  | some (r, rest) =>
    let s1 := setFeed d rest s
    some (if r.rcd.typ ≠ 0x15 then replayMiss d 4 r s1 else if r.rcd.body = body then s1 else replayMiss d 1 r s1)

/-! ### Start and end -/

/-- A line of a bank or of the page-table area. -/
def lineWords (m : FMap Nat Word) (k : Nat) (bs : List Byte) : FMap Nat Word :=
  (List.range (bs.length / 8)).foldl (fun t j => t.set (k + j) (BitVec.ofNat 64 (leAt bs (8 * j) 8))) m

/-- A line of an anchor goes where its address says: control SRAM, the shadow bank, the newest bank, the page-table area. -/
def anchorLine (d : Nat) (a : Nat) (bs : List Byte) (s : State) : State :=
  let w := a - dieBase d
  if 0x10000000 ≤ w ∧ w < 0x10400000 then { s with mem := s.mem.putBytes a bs }
  else if 0x20000000 ≤ w ∧ w < 0x20E00000 then s.modTabDie d fun t => { t with shadow := lineWords t.shadow ((w - 0x20000000) / 8) bs }
  else if 0x21000000 ≤ w ∧ w < 0x21E00000 then s.modTabDie d fun t => { t with newest := lineWords t.newest ((w - 0x21000000) / 8) bs }
  else if 0x23000000 ≤ w ∧ w < 0x23400000 then
    { s with xlt := { s.xlt with ptab := lineWords s.xlt.ptab ((w - 0x23000000) / 8) bs } }
  else s

/-- The epochs of a die follow from the control blocks of the anchor's banks: the older one is live where the shadow bank still bears another
epoch than the newest. -/
def anchorEpochs (d : Nat) (s : State) : State :=
  s.modTabDie d fun t =>
    let e := getBits (bankWord t.newest 0) 47 32
    let o := getBits (bankWord t.shadow 0) 47 32
    { t with newE := e, oldE := if o = e then e else o, older := if o = e then none else some t.shadow }

/-- START (R620): the anchor is loaded, both harts take their anchor checkpoints, and replay runs. Ignored outside REPLAY, and while a replay
runs (log entry 61). -/
def startReplay (d : Nat) (a : Anchor) (feed : List FeedRec) (s : State) : State :=
  if ¬ s.active d ∨ s.mode ≠ 7 ∨ s.fld (recRpt d) RecRpt.RSTATE = 2 then s
  else
    let s1 := anchorEpochs d (a.lines.foldl (fun t x => anchorLine d x.1 x.2 t) s)
    let s2 := s1.forAll [0, 1] fun h => fun t => t.modHart d h fun _ =>
      let k := a.harts.getD h {}
      { regs := k.regs, pc := k.pc, csr := k.csr, res := k.res, icount := k.icount }
    let s3 := ((s2.setReg (recRpt d) 0).setReg (dreg .recRptat d) 0).setFld (recRpt d) RecRpt.RSTATE 2
    pumpFeed d (setFeed d feed (s3.setFld (dreg .recStat d) RecStat.STATE 4))

/-- START_REPLAY (R620). -/
def execStartReplay (d : Nat) (a : Anchor) (feed : List FeedRec) (s : State) : Host.Outcome State Fault Refusal :=
  .next (startReplay d a feed s)

/-- RFCNT is used up (R620 step 5): RSTATE reads DONE. -/
def replayDone (d : Nat) (s : State) : State :=
  let s1 := pumpFeed d s
  if s1.replays d ∧ (s1.recDie d).feed.isEmpty then replayEnd d 3 s1 else s1

/-- REPLAY_DONE (R620). -/
def execReplayDone (d : Nat) (s : State) : Host.Outcome State Fault Refusal := .next (replayDone d s)

end Sys2Proof.Machine
end

