-- ==== Sys2Proof/Machine/RegWrite.lean ====
section
/-! DEFINITION. What a write of a register does (00 R6 to R10): the access codes, the limits of a field, and the writes that act. -/

namespace Sys2Proof.Machine

/-- The state that an outcome leaves; no meaning of a register write stops. -/
def after (o : Host.Outcome State Fault Refusal) (s : State) : State :=
  match o with
  | .next t => t
  | .fault _ => s
  | .refused _ => s

/-- A write by the access codes of 00 R7: RW and RWS fields are stored, ones clear RW1C bits, everything else is ignored. -/
def storeReg (r : Reg) (v : Word) (s : State) : State :=
  let w := r.name.fields.foldl (fun w f => if f.acc = .rw ∨ f.acc = .rws then f.put (f.of v) w else w) (s.reg r)
  let mask := r.name.fields.foldl (fun m f => if f.acc = .rw1c then m + f.place (f.of v) else m) 0
  let s1 := if w = s.reg r then s else s.setReg r w
  if mask = 0 then s1 else clearSticky r (BitVec.ofNat 64 mask) s1

/-- A write in which some fields are stored as other values. -/
def storeAs (r : Reg) (v : Word) (l : List (Field × Nat)) (s : State) : State :=
  storeReg r (l.foldl (fun w x => x.1.put x.2 w) v) s

/-- A write whose GO bit submits a verdict or a command. -/
def onGo (f : Field) (v : Word) (act : State → State) (s : State) : State := if f.of v = 1 then act s else s

/-! ### The part-wide region -/

/-- The range of an assist timer in microseconds (01 R33). -/
def atimeRange (f : Nat) : Nat × Nat :=
  ([(500, 20000), (100, 50000), (10000, 10000000), (0, 0), (10, 100000), (100, 1000000), (1000, 1000000), (100000, 60000000),
    (1000000, 60000000), (10, 10000)] : List (Nat × Nat)).getD f (0, 0)

/-- A write of PART.ASSIST (01 R32): code 3 is ignored field by field, and code 1 for MIGRATE and FWACT. -/
def assistWrite (v : Word) (s : State) : State :=
  s.forAll RegName.partAssist.fields fun f => fun t =>
    if f.of v = 3 ∨ (f.of v = 1 ∧ (f = PartAssist.MIGRATE ∨ f = PartAssist.FWACT)) then t else t.setFld partAssist f (f.of v)

/-- A write of PART.FLTCFG (12 R471, R479). -/
def fltcfgWrite (v : Word) (s : State) : State :=
  let r : Reg := { name := .partFltcfg }
  let was := s.fld r PartFltcfg.WDOG
  let wd := if PartFltcfg.WDOG.of v = 0 then 0 else clamp 10 10000 (PartFltcfg.WDOG.of v)
  let s1 := storeAs r v [(PartFltcfg.QUIET, clamp 1 10000 (PartFltcfg.QUIET.of v)), (PartFltcfg.WDOG, wd)] s
  if was ≠ 0 ∧ wd = 0 then wdogStopAll s1
  else if was = 0 ∧ wd ≠ 0 then s1.onActive wdogStart
  else s1

/-- A write of PART.FLTCLASS[k] (12 R478). -/
def fltclassWrite (r : Reg) (v : Word) (s : State) : State :=
  let keep := fun (f : Field) => if f.of v = 7 then s.fld r f else f.of v
  storeAs r v [(PartFltclass.CAP, keep PartFltclass.CAP), (PartFltclass.SEV, keep PartFltclass.SEV),
    (PartFltclass.ETIME, clamp 10 100000 (PartFltclass.ETIME.of v))] s

/-- A write of PART.XLTINV (09 R335, R360): SCOPE 3 is refused. -/
def xltinvWrite (who : Master) (v : Word) (s : State) : State :=
  onGo PartXltinv.GO v (fun s =>
    let c := PartXltinv.CTX.of v
    match PartXltinv.SCOPE.of v with
    | 0 => after (execXltinvAll who s) s
    | 1 => after (execXltinvContext who c s) s
    | 2 => after (execXltinvRange who c (PartXltinv.PAGES.of v) s) s
    | _ => s) s

/-- A write of PART.DBG.CTL (11 R443): REVOKE acts before INSTALL (log entry 62). -/
def dbgCtlWrite (v : Word) (s : State) : State :=
  onGo PartDbgCtl.INSTALL v tokenInstall (onGo PartDbgCtl.REVOKE v tokenRevoke s)

/-- A write of a register of the part-wide region. -/
def partWrite (who : Master) (env : BusEnv) (r : Reg) (v : Word) (s : State) : State :=
  match r.name with
  | .partMode => modeReq env.recording (PartMode.REQ.of v) s
  | .partAssist => assistWrite v s
  | .partAtime =>
    if r.i = 3 then s
    else storeAs r v [(PartAtime.TIME, clamp (atimeRange r.i).1 (atimeRange r.i).2 (PartAtime.TIME.of v))] s
  | .partCapo => if PartCapo.GO.of v = 1 then goCapo (PartCapo.FENCE.of v == 1) s else storeReg r v s
  | .partCapocfg =>
    storeAs r v [(PartCapocfg.FTIME, clamp 1 10000 (PartCapocfg.FTIME.of v)), (PartCapocfg.PTIME, clamp 1 1000 (PartCapocfg.PTIME.of v))] s
  | .partAlmlock => almlockWrite v s
  | .partAlmpatch0 => almpatchWrite r.i 0 v s
  | .partAlmpatch1 => almpatchWrite r.i 1 v s
  | .partXltinv => xltinvWrite who v s
  | .partDbgCtl => dbgCtlWrite v s
  | .partPtown => ptownWrite r.i v s
  | .partFltclass => fltclassWrite r v s
  | .partFltcfg => fltcfgWrite v s
  | _ => storeReg r v s

/-! ### The Hild region -/

/-- A write of HILD.SLOT.CFG or TIME (15 R576, R577): ignored while the slot is neither OFF nor LATCHED. -/
def slotCfgWrite (r : Reg) (v : Word) (l : List (Field × Nat × Nat)) (s : State) : State :=
  if s.slotState r.i = 0 ∨ s.slotState r.i = 5 then storeAs r v (l.map fun x => (x.1, clamp x.2.1 x.2.2 (x.1.of v))) s else s

/-- A write of HILD.SLOT.FEED (15 R578): both feeds are judged anew by the range that is stored. -/
def feedWrite (r : Reg) (v : Word) (s : State) : State :=
  let uv := clamp 45 200 (HildFeed.UV.of v)
  let ov := clamp 45 200 (HildFeed.OV.of v)
  if ov ≤ uv then s
  else
    let t := hreg .hildTel r.i
    feedRange r.i true (s.fld t HildTel.VFB) (feedRange r.i false (s.fld t HildTel.VFA) (storeAs r v [(HildFeed.OV, ov), (HildFeed.UV, uv)] s))

/-- A write of a register of the Hild region. -/
def hildWrite (who : Master) (r : Reg) (v : Word) (s : State) : State :=
  match r.name with
  | .hildHpv =>
    onGo HildHpv.GO v (fun s =>
      let n := HildHpv.SLOT.of v
      hotplugVerdict who n (HildHpv.GOTAG.of v) (if HildHpv.VERDICT.of v = 0 then slotRamp n else slotAbort n) s) s
  | .hildDom => domainRequest ⟨true, 0, r.i⟩ v s
  | .hildCtl => slotCtl r.i (HildCtl.PWREN.of v == 1) v s
  | .hildCfg =>
    slotCfgWrite r v [(HildCfg.PLIM, 10, 10000), (HildCfg.VCL, 20, 200), (HildCfg.RSENSE, 100, 65535), (HildCfg.IGATE, 5, 50)] s
  | .hildTime => slotCfgWrite r v [(HildTime.TPERST, 10, 50), (HildTime.TRAMP, 2, 200), (HildTime.TFLT, 10, 500)] s
  | .hildFeed => feedWrite r v s
  | .hildErr => syncSum r.i (storeReg r v s)
  | _ => storeReg r v s

/-! ### The blocks of a die -/

/-- LANE (02). -/
def laneWrite (who : Master) (env : BusEnv) (r : Reg) (v : Word) (s : State) : State :=
  match r.name with
  | .laneMapctl => onGo LaneMapctl.APPLY v (applyMap r.die) s
  | .laneDiagsel => if s.mode = 6 then s else storeReg r v s
  | .lanePeggo => pegVerdict who r.die v s
  | .laneTxeq => txeqWrite r.die r.i v s
  | .laneRxeq =>
    let c := min 28 (LaneRxeq.CTLE.of v)
    let s0 := if LaneRxeq.FREEZE.of v = 1 then holdEq r.die r.i s else s
    let s1 := storeAs r v [(LaneRxeq.CTLE, c)] s0
    if LaneRxeq.OVR.of v = 1 then s1.setFld r LaneRxeq.CTLE_CUR c else s1
  | .laneTest => laneTest r.die r.i v env.rx s
  | _ => storeReg r v s

/-- LINK (03). -/
def linkWrite (who : Master) (r : Reg) (v : Word) (s : State) : State :=
  match r.name with
  | .linkCfg => linkCfgWrite r.die r.i v s
  | .linkVlhead =>
    let s1 := storeReg r v s
    if s.headroom r.die r.i < s1.headroom r.die r.i ∧ s1.sharedSize r.die < 16384 then raise (dreg .bufErr r.die) BufErr.RESV s1 else s1
  | .linkRtv =>
    onGo LinkRtv.GO v (fun s =>
      let tag := LinkRtv.GOTAG.of v
      match LinkRtv.VERDICT.of v with
      | 0 => after (execKeep who r.die r.i tag s) s
      | 1 => after (execStepdown who r.die r.i tag s) s
      | 2 => after (execDown who r.die r.i tag s) s
      | _ => retrainVerdict who r.die r.i tag false id s) s
  | _ => storeReg r v s

/-- FRET (04). -/
def fretWrite (r : Reg) (v : Word) (s : State) : State :=
  match r.name with
  | .fretLoad => after (execFretLoad r.die v s) s
  | .fretStage => if s.fld (dreg .fretLoad r.die) FretLoad.BUSY = 1 then s else storeReg r v s
  | .fretTrapcfg => storeAs r v [(FretTrapcfg.TIME, clamp 1 10 (FretTrapcfg.TIME.of v))] s
  | .fretTrapv =>
    onGo FretTrapv.GO v (fun s =>
      if FretTrapv.VERDICT.of v ≤ 3 then trapVerdict r.die v (FretTrapv.VERDICT.of v) s else refuseVerdict r.die s) s
  | .fretPcfg =>
    throttleUpdate (gport r.die r.i) (storeAs r v [(FretPcfg.THROTTLE, max 1 (FretPcfg.THROTTLE.of v))] s)
  | .fretPsel => stageProg r.die r.i (FretPsel.STAGED.of v) s
  | _ => storeReg r v s

/-- BUF (06). -/
def bufWrite (who : Master) (r : Reg) (v : Word) (s : State) : State :=
  match r.name with
  | .bufZcfg => storeAs r v [(BufZcfg.ZTARGET, min 65536 (BufZcfg.ZTARGET.of v))] s
  | .bufLeakv =>
    onGo BufLeakv.GO v (fun s =>
      leakVerdict who r.die (BufLeakv.GOTAG.of v) (if BufLeakv.VERDICT.of v = 0 then leakReclaim r.die else leakKeep r.die) s) s
  | .bufPres => reservationWrite r.die false r.i v s
  | .bufPart => reservationWrite r.die true r.i v s
  | _ => storeReg r v s

/-- SCH (07). -/
def schWrite (who : Master) (r : Reg) (v : Word) (s : State) : State :=
  match r.name with
  | .schPxcfg => storeAs r v [(SchPxcfg.HAGE, max 1 (SchPxcfg.HAGE.of v)), (SchPxcfg.QUIET, max 1 (SchPxcfg.QUIET.of v))] s
  | .schPxv => onGo SchPxv.GO v (pxVerdict who r.die (SchPxv.GOTAG.of v) (SchPxv.ACTION.of v)) s
  | .schQcfg => storeAs r v [(SchQcfg.QUANTUM, max 1 (SchQcfg.QUANTUM.of v))] s
  | .schQshape => qshapeWrite r.die r.i r.j v s
  | .schHcfg => storeAs r v [(SchHcfg.INTERVAL, clamp 1 1000 (SchHcfg.INTERVAL.of v))] s
  | .schHctl => onGo SchHctl.SNAP v (snap r.die r.i) s
  | _ => storeReg r v s

/-- PAR (08). -/
def parWrite (r : Reg) (v : Word) (s : State) : State :=
  match r.name with
  | .parFcfg => storeAs r v [(ParFcfg.FTIME, clamp 1 50 (ParFcfg.FTIME.of v)), (ParFcfg.PMETO, clamp 1 10 (ParFcfg.PMETO.of v))] s
  | _ => storeReg r v s

/-- A verdict of XLT.PRV (09 R339, R358): a CODE other than 0, 1 and 0xF is refused. -/
def prvWrite (who : Master) (bad : Bool) (d : Nat) (v : Word) (s : State) : State :=
  onGo XltPrv.GO v (fun s =>
    let c := XltPrv.CODE.of v
    if c = 0 ∨ c = 1 ∨ c = 15 then precVerdict bad who d (XltPrv.GOTAG.of v) (c == 0) s else refuseVerdict d s) s

/-- XLT (09). -/
def xltWrite (who : Master) (env : BusEnv) (r : Reg) (v : Word) (s : State) : State :=
  match r.name with
  | .xltCfg => storeAs r v [(XltCfg.RETRY, max 1 (XltCfg.RETRY.of v)), (XltCfg.WTIME, clamp 1 1000 (XltCfg.WTIME.of v))] s
  | .xltPrv => prvWrite who env.ptbad r.die v s
  | _ => storeReg r v s

/-- A verdict of DMA.FV (09 R352, R365): code 3 is refused. -/
def dmaFvWrite (who : Master) (d : Nat) (v : Word) (s : State) : State :=
  onGo DmaFv.GO v (fun s =>
    let c := DmaFv.CHAN.of v
    let tag := DmaFv.GOTAG.of v
    match DmaFv.VERDICT.of v with
    | 0 => dmaVerdict who d c tag (dmaHardware d c) s
    | 1 => dmaVerdict who d c tag (dmaResume d c) s
    | 2 => dmaVerdict who d c tag (dmaStopVerdict d c) s
    | _ => refuseVerdict d s) s

/-- A write of a channel's CTL (09 R366, R353). -/
def chCtlWrite (d c : Nat) (v : Word) (s : State) : State :=
  if DmaChCtl.ENABLE.of v = 1 then dmaEnable d c v s else after (execDmaDisable d c v s) s

/-- A write of a channel's RBASE (09 R367): ignored while the channel is enabled. -/
def rbaseWrite (d c : Nat) (v : Word) (s : State) : State :=
  if s.chOn d c then s else storeReg { name := .dmaChRbase, die := d, i := c } v s

/-- DMA (09). -/
def dmaWrite (who : Master) (r : Reg) (v : Word) (s : State) : State :=
  match r.name with
  | .dmaCfg => storeAs r v [(DmaCfg.RTIME, clamp 5 5000 (DmaCfg.RTIME.of v))] s
  | .dmaFv => dmaFvWrite who r.die v s
  | .dmaChCtl => chCtlWrite r.die r.i v s
  | .dmaChRbase => rbaseWrite r.die r.i v s
  | .dmaChRing => dmaTailWrite r.die r.i v s
  | .dmaChCfg => dmaOwnerWrite r.die r.i v s
  | _ => storeReg r v s

/-- CORE (10, 11): LOST is cleared by writing 0 (11 R435). -/
def coreWrite (r : Reg) (v : Word) (s : State) : State :=
  match r.name with
  | .coreClk => coreClkSelect r.die v s
  | .coreTto => storeAs r v [(CoreTto.TIME, clamp 1 1000 (CoreTto.TIME.of v))] s
  | .coreRst => if CoreRst.LOST.of v = 0 then s.setFld r CoreRst.LOST 0 else s
  | _ => storeReg r v s

/-- GATE (11): FREC is kept until REFUSED and DBGREF are both clear (11 R428). -/
def gateWrite (r : Reg) (v : Word) (s : State) : State :=
  let d := r.die
  match r.name with
  | .gateCtl => gateCtlWrite d r.i v s
  | .gateReg0 => gateRegWrite d r.i r.j false v s
  | .gateReg1 => gateRegWrite d r.i r.j true v s
  | .gateMidgrp => midgrpWrite d r.i v s
  | .gateMaplock => maplockWrite d v s
  | .gateErr =>
    let s1 := storeReg r v s
    if s1.fld r GateErr.REFUSED = 0 ∧ s1.fld r GateErr.DBGREF = 0 then (s1.setReg (dreg .gateFrec0 d) 0).setReg (dreg .gateFrec1 d) 0 else s1
  | _ => storeReg r v s

/-- A verdict of FLT.FV (12 R456, R484): code 3 is refused. -/
def fltFvWrite (who : Master) (env : BusEnv) (d : Nat) (v : Word) (s : State) : State :=
  onGo FltFv.GO v (fun s =>
    let tag := FltFv.GOTAG.of v
    match FltFv.VERDICT.of v with
    | 0 => after (execHandled who d tag env.sets s) s
    | 1 => after (execEscalate who d tag s) s
    | 2 => after (execRelease who d tag env.pass env.ok ⟨env.warm.spanRtt, env.warm.badCells⟩ s) s
    | _ => refuseVerdict d s) s

/-- FLT (12). -/
def fltWrite (who : Master) (env : BusEnv) (r : Reg) (v : Word) (s : State) : State :=
  match r.name with
  | .fltKick => onGo FltKick.KICK v (wdogStart r.die) s
  | .fltFv => fltFvWrite who env r.die v s
  | _ => storeReg r v s

/-- PWR (14). -/
def pwrWrite (r : Reg) (v : Word) (s : State) : State :=
  match r.name with
  | .pwrPad => onGo PwrPad.RELEASE v (padRelease r.die v) s
  | .pwrAvscfg => avsMargin r.die (storeAs r v [(PwrAvscfg.MARGIN, min 50 (PwrAvscfg.MARGIN.of v))] s)
  | .pwrDom => domainRequest (dom r.die r.i) v s
  | _ => storeReg r v s

/-- A write of BOOT.CTL (13 R519). Bits written together act in this order: CLRATT, FAIL, HREADY, RESUME, SERVICE, MRESET, PRESET (log entry
62). -/
def bootCtlWrite (env : BusEnv) (d : Nat) (v : Word) (s : State) : State :=
  let go := fun (f : Field) (act : State → Host.Outcome State Fault Refusal) (s : State) => onGo f v (fun t => after (act t) t) s
  let s1 := go BootCtl.HREADY (execHready d) (go BootCtl.FAIL (execFail d) (go BootCtl.CLRATT (execClratt d) s))
  go BootCtl.PRESET (execPreset d env.start) (go BootCtl.MRESET (execMreset d env.warm) (go BootCtl.SERVICE (execService d)
    (go BootCtl.RESUME (execResume d) s1)))

/-- A write of BOOT.ACTCMD (13 R523). -/
def actcmdWrite (who : Master) (d : Nat) (v : Word) (s : State) : State :=
  if s.act BootAct.BUSY = 1 then setAct BootAct.STATUS 4 s
  else onGo BootActcmd.GO v (fun s =>
    match BootActcmd.OP.of v with
    | 1 => after (execStage d (BootActcmd.SRC.of v) s) s
    | 2 => after (execActivate who d s) s
    | 3 => after (execDiscard d s) s
    | _ => s) s

/-- A write of BOOT.FLCTL (13 R526): a reserved OP starts nothing; the RW fields are stored by every write. -/
def flctlWrite (d : Nat) (v : Word) (s : State) : State :=
  let op := BootFlctl.OP.of v
  if BootFlctl.GO.of v = 1 ∧ op ≤ 3 then flashCommand d op v s else flctlStore d op v s

/-- BOOT (13). -/
def bootWrite (who : Master) (env : BusEnv) (r : Reg) (v : Word) (s : State) : State :=
  let d := r.die
  match r.name with
  | .bootCtl => bootCtlWrite env d v s
  | .bootCfg => storeAs r v [(BootCfg.STIME, clamp 1 600 (BootCfg.STIME.of v))] s
  | .bootActcmd => actcmdWrite who d v s
  | .bootActv =>
    onGo BootActv.GO v (fun s =>
      actVerdict who d (BootActv.GOTAG.of v) (if BootActv.VERDICT.of v = 0 then activationGo else activationRefused) s) s
  | .bootMigv =>
    onGo BootMigv.GO v (fun s =>
      migVerdict who d (BootMigv.GOTAG.of v) (if BootMigv.VERDICT.of v = 0 then migrateStore else defaultStore) s) s
  | .bootSvn => if BootSvn.BURN.of v = 1 then after (execSvnBurn d v s) s else storeReg r v s
  | .bootFlctl => flctlWrite d v s
  | _ => storeReg r v s

/-- SBB (16). -/
def sbbWrite (r : Reg) (v : Word) (s : State) : State :=
  let d := r.die
  match r.name with
  | .sbbCfg =>
    storeAs r v [(SbbCfg.HTIME, clamp 1 50 (SbbCfg.HTIME.of v)), (SbbCfg.LTIME, clamp 1 100 (SbbCfg.LTIME.of v)),
      (SbbCfg.POLL, clamp 1 1000 (SbbCfg.POLL.of v))] s
  | .sbbSegCfg => if SbbSegCfg.SPEED.of v = 3 then s else storeReg r v s
  | .sbbTktXfer => tktSubmit d r.i v s
  | .sbbTktDbuf => if s.fld (tktRes d r.i) SbbTktRes.STATE = 0 then s else storeReg r v s
  | .sbbTktFree => onGo SbbTktFree.FREE v (fun s => after (execFree d r.i s) s) s
  | _ => storeReg r v s

/-- A write of REC.CTL (17 R623): the stored bits, the software trigger, and the start of a replay. -/
def recCtlWrite (env : BusEnv) (d : Nat) (v : Word) (s : State) : State :=
  onGo RecCtl.START v (startReplay d env.anchor env.feed) (onGo RecCtl.FREEZE v (fun s => after (execFreeze d s) s) (armWrite d v s))

/-- A write of REC.RFCNT (17 R620): raised while a replay runs, the further segments join the feed. -/
def rfcntWrite (env : BusEnv) (d : Nat) (v : Word) (s : State) : State :=
  let s1 := storeReg (dreg .recRfcnt d) v s
  if s1.replays d then pumpFeed d (setFeed d ((s1.recDie d).feed ++ env.feed) s1) else s1

/-- REC (17). -/
def recWrite (env : BusEnv) (r : Reg) (v : Word) (s : State) : State :=
  match r.name with
  | .recCtl => recCtlWrite env r.die v s
  | .recRfcnt => rfcntWrite env r.die v s
  | _ => storeReg r v s

/-- EVT (12, 19). -/
def evtWrite (r : Reg) (v : Word) (s : State) : State :=
  match r.name with
  | .evtRoute => routeWrite r.die r.i v s
  | _ => storeReg r v s

/-- What a write of a register does, by its block. -/
def blockWrite (who : Master) (env : BusEnv) (r : Reg) (v : Word) (s : State) : State :=
  match r.name.layout.region with
  | .part => partWrite who env r v s
  | .hild => hildWrite who r v s
  | .die =>
    match r.name.layout.off / 0x400000 with
    | 0 => laneWrite who env r v s
    | 1 => linkWrite who r v s
    | 3 => fretWrite r v s
    | 5 => bufWrite who r v s
    | 6 => schWrite who r v s
    | 7 => parWrite r v s
    | 8 => xltWrite who env r v s
    | 9 => dmaWrite who r v s
    | 10 => coreWrite r v s
    | 11 => gateWrite r v s
    | 12 => fltWrite who env r v s
    | 13 => pwrWrite r v s
    | 14 => bootWrite who env r v s
    | 15 => sbbWrite r v s
    | 16 => recWrite env r v s
    | 17 => evtWrite r v s
    | _ => storeReg r v s

/-- A write of a register by a master that its gate has passed. A hardware set of a sticky bit that reaches it in the same cycle wins over the
clear (00 R8). -/
def regWrite (who : Master) (env : BusEnv) (r : Reg) (v : Word) (s : State) : State :=
  let own := env.sets.filter fun f => f.reg == r && f.isSource
  blockWrite who env r (v &&& ~~~(sourceBits r own)) (s.forAll own raiseFault)

end Sys2Proof.Machine
end

