-- ==== Sys2Proof/Machine/Bus.lean ====
section
/-! DEFINITION. Management accesses (11 R405, R407, R422 to R431, R644, R645): where an address leads, what its gate decides, what a read and
a write do at each target, and the windows that a management endpoint presents to its host. -/

namespace Sys2Proof.Machine

/-! ### Where an access leads -/

/-- Where the address of an access leads; LOCAL exists for harts only (R644). -/
def State.destOf (s : State) (who : Master) (a : Nat) : Option Dest :=
  match who with
  | .hart d _ => s.decodeAddr d a
  | _ => if 0xE000000000 ≤ a ∧ a < 0xE100000000 then none else s.decodeAddr s.lead a

/-- What an access meets before any gate. -/
inductive Reach where
  /-- an error response: no region, a die that is not in service, no lead die, no Hild path -/
  | error
  /-- the window of a die that the member does not have: reads as zero, writes are ignored (00 R3) -/
  | absent
  | at (x : Dest)
  deriving DecidableEq, Repr

/-- What an access meets before any gate (11 R405; 01 R17, R22); without a Hild path the BMC finds no endpoint (18 R639). -/
def State.reachOf (s : State) (who : Master) (a : Nat) : Reach :=
  if who = .bmc ∧ s.hasPath = false then .error
  else match s.destOf who a with
  | none => .error
  | some x =>
    if x.target = noTarget then .error
    else if x.target ≤ 24 then (if !(s.hasDie x.die) then .absent else if s.active x.die then .at x else .error)
    else if s.flt.noLead = true ∨ ¬ s.active s.lead then .error
    else if x.target = 26 ∧ (!s.hasPath ∨ s.hild.down) then .error
    else .at x

/-- Whether an access has one of the four sizes and is aligned to it. -/
def alignedTo (width off : Nat) : Bool := decide (width ∈ [1, 2, 4, 8]) && off % width == 0

/-! ### Memories with power domains (14 R537) -/

/-- The domain that holds an offset of the control SRAM (target 18) or the recorder store (target 20). -/
def memDomain (t off : Nat) : Nat := if t = 18 then 57 + off / 0x100000 else 65 + off / 0x400000

/-- An access to a memory's domain: served in ON, after a wake in RET, not at all in OFF. -/
def serveDomain (d i : Nat) (s : State) : Option State :=
  if s.domCur (dom d i) = 2 then none else if s.domCur (dom d i) = 1 then some (wakeDomain (dom d i) s) else some s

/-- An access of the debug port wakes the DBG domains that may change by themselves (14 R531; which dies the port reaches through: log entry 82). -/
def debugWake (mid : Nat) (s : State) : State :=
  if mid = 0x81 then
    s.forAll s.activeDies fun d => fun t => if t.fld (dom d 70).reg PwrDom.AUTO = 1 then wakeDomain (dom d 70) t else t
  else s

/-! ### Writes -/

/-- A store of a hart to its own die's control SRAM clears the other hart's reservation on the granule and not its own (11 R419). -/
def hartStore (d h off : Nat) (bs : List Byte) (s : State) : State :=
  let own := (s.hart d h).res
  (sramStore d off bs s).modHart d h fun x => { x with res := own }

/-- A store to control SRAM. -/
def sramWrite (who : Master) (mid d off : Nat) (bs : List Byte) (s : State) : State :=
  match who with
  | .hart e h => if e = d then hartStore d h off bs s else foreignStore d mid off bs s
  | _ => foreignStore d mid off bs s

/-- A staging write through a view (05 R167 to R169): whether it completes without an error response, and what it does. -/
def stageAccess (who : Master) (off : Nat) (v : Word) (width : Nat) (s : State) : Bool × State :=
  (decide (width = 8) && off % 8 == 0 && decide (off < 8 * bankWords) && decide (0x3000 ≤ off), stagingWrite (s.viaDie who) off v width s)

/-- A write to the page-table area (09 R330, R331). -/
def ptabAccess (who : Master) (off : Nat) (v : Word) (width : Nat) (s : State) : Bool × State :=
  if width = 8 ∧ off % 8 = 0 ∧ off < 2 ^ 22 ∧ s.frameOwner (off / 4096) ≠ 0x3F then (true, ptabWrite who off v s) else (false, s)

/-- A write to a register region. -/
def placeWrite (who : Master) (env : BusEnv) (rg : Region) (d off width : Nat) (v : Word) (s : State) : Bool × State :=
  match s.place rg d off width with
  | .reg r => (true, regWrite who env r v s)
  | .hole => (true, s)
  | .bad => (false, s)

/-- A write that its gate has passed: whether it completes without an error response, and what it does. -/
def writeAt (who : Master) (env : BusEnv) (mid : Nat) (x : Dest) (width : Nat) (v : Word) (s : State) : Bool × State :=
  let bs := bytesLE width v.toNat
  if x.target ≤ 17 then placeWrite who env .die x.die x.win width v s
  else if !(alignedTo width x.off) then (false, s)
  else if x.target = 18 ∨ x.target = 20 then
    match serveDomain x.die (memDomain x.target x.off) s with
    | none => (false, s)
    | some t =>
      (true, if x.target = 18 then sramWrite who mid x.die x.off bs t else { t with mem := t.mem.putBytes (recBase x.die + x.off) bs })
  else if x.target = 19 then
    if x.off < 0xE00000 then stageAccess who x.off v width s
    else if 0x3000000 ≤ x.off then ptabAccess who (x.off - 0x3000000) v width s
    else (false, s)
  else if x.target = 23 then (true, { s with mem := s.mem.putBytes (imgBase x.die + x.off) bs })
  else if x.target = 26 then (if x.win < 0x30000 then placeWrite who env .hild 0 x.win width v s else (false, s))
  else if x.target = 25 ∨ x.target = 27 then
    if 0x1000000 ≤ x.win ∧ x.win < 0x1E00000 then stageAccess who (x.win - 0x1000000) v width s
    else if 0x2000000 ≤ x.win ∧ x.win < 0x2400000 then ptabAccess who (x.win - 0x2000000) v width s
    else placeWrite who env .part 0 x.win width v s
  else (false, s)

/-- A write of a master under a MID: whether its response is no error. A refused write of the debug master is dropped (R431). -/
def busWrite (who : Master) (env : BusEnv) (mid a width : Nat) (v : Word) (s0 : State) : Bool × State :=
  let s := debugWake mid s0
  match s.reachOf who a with
  | .error => (false, s)
  | .absent => (true, s)
  | .at x =>
    let g := gateAccess x mid 1 a width s
    if g.1 then writeAt who env mid x width v g.2 else (mid == 0x81, g.2)

/-! ### Reads -/

/-- The word of a view of the table store at an offset (05 R166, R167; 09 R330): none outside the views. -/
def State.viewWord (s : State) (d off : Nat) : Option Word :=
  let t := s.tabDie d
  let k := off % 0x1000000 / 8
  if 0x3000000 ≤ off then some (s.xlt.ptab.get 0 k)
  else if 0xE00000 ≤ off % 0x1000000 then none
  else if off < 0x1000000 then some (bankWord t.shadow k &&& bankMask s.dieCount k)
  else if off < 0x2000000 then some (bankWord t.newest k &&& bankMask s.dieCount k)
  else some (match t.older with | none => 0 | some b => bankWord b k &&& bankMask s.dieCount k)

/-- A read of a view: 4 or 8 bytes (05 R169). -/
def State.viewRead (s : State) (d off width : Nat) : Option Word :=
  if width = 8 then s.viewWord d off
  else if width = 4 then (s.viewWord d off).map fun w => BitVec.ofNat 64 (if off % 8 = 0 then getBits w 31 0 else getBits w 63 32)
  else none

/-- What a MID reads of a cell (06 R230). -/
def State.cellWord (s : State) (mid d off : Nat) : Word :=
  let c := s.cell d (off / 256)
  let n := if 0x20 ≤ mid ∧ mid < 0x40 then mid - 0x20 else if 0x60 ≤ mid ∧ mid < 0x80 then mid - 0x60 else 0x3F
  if (mid = 0x81 ∧ s.granted 1 = true) ∨ (n < 32 ∧ c.owner = n ∧ (c.state = 2 ∨ c.state = 3)) then
    BitVec.ofNat 64 (leAt c.data (off % 256) 8)
  else 0

/-- Bytes of an opaque memory as a word. -/
def opaqueWord (f : Nat → Byte) (off width : Nat) : Word := BitVec.ofNat 64 (ofBytesLE ((List.range width).map fun k => f (off + k)))

/-- A read of a register region. -/
def placeRead (rg : Region) (d off width : Nat) (s : State) : Option Word × State :=
  match s.place rg d off width with
  | .reg r => let y := regRead r s; (some y.1, y.2)
  | .hole => (some 0, s)
  | .bad => (none, s)

/-- A read of the cell aperture: what the read of the cell finds is noted (06 R223, R230). -/
def cellRead (mid d off : Nat) (ecc : Ecc) (s : State) : Word × State :=
  (s.cellWord mid d off, (readCells d {} [off / 256] (match ecc with | .payload | .header => .header | e => e) s).2)

/-- A read that its gate has passed: the value, or none for an error response, and its effect. `ecc` is what the read of a buffer cell finds. -/
def readAt (mid : Nat) (ecc : Ecc) (x : Dest) (width : Nat) (s : State) : Option Word × State :=
  if x.target ≤ 17 then placeRead .die x.die x.win width s
  else if !(alignedTo width x.off) then (none, s)
  else if x.target = 18 ∨ x.target = 20 then
    match serveDomain x.die (memDomain x.target x.off) s with
    | none => (none, s)
    | some t =>
      if mid = 0x81 ∧ x.target = 20 ∧ (s.granted 2 = false ∨ s.tokenPasses x.die 20 (x.off / 4096) 0 = false) then (some 0, t)
      else (some (BitVec.ofNat 64 (ofBytesLE (t.mem.bytes (dieBase x.die + x.win) width))), t)
  else if x.target = 19 then (s.viewRead x.die x.off width, s)
  else if x.target = 21 then (if width = 8 then (let r := cellRead mid x.die x.off ecc s; (some r.1, r.2)) else (none, s))
  else if x.target = 22 then (some (opaqueWord Config.bootRom x.off width), s)
  else if x.target = 23 then (some (BitVec.ofNat 64 (ofBytesLE (s.mem.bytes (imgBase x.die + x.off) width))), s)
  else if x.target = 24 then (some (opaqueWord Config.keyVault x.off width), s)
  else if x.target = 26 then (if x.win < 0x30000 then placeRead .hild 0 x.win width s else (none, s))
  else if 0x1000000 ≤ x.win ∧ x.win < 0x1E00000 then (s.viewRead s.lead (x.win - 0x1000000) width, s)
  else if 0x2000000 ≤ x.win ∧ x.win < 0x2400000 then (s.viewRead s.lead (0x3000000 + (x.win - 0x2000000)) width, s)
  else placeRead .part 0 x.win width s

/-- A read of a master under a MID: the value, or none for an error response. A refused read of the debug master gives zeros (R431). -/
def busRead (who : Master) (mid a width : Nat) (ecc : Ecc) (s0 : State) : Option Word × State :=
  let s := debugWake mid s0
  match s.reachOf who a with
  | .error => (none, s)
  | .absent => (some 0, s)
  | .at x =>
    let g := gateAccess x mid 0 a width s
    if g.1 then readAt mid ecc x width g.2 else (if mid = 0x81 then some 0 else none, g.2)

/-- A burst read of at most 64 lines of 64 bytes, by the debug port or an engine (11 R426; 06 R230): the gate passes every line before the first byte is
read. No row of the table is such a read (log entry 72). -/
def burstRead (who : Master) (mid a lines : Nat) (ecc : Ecc) (s0 : State) : Option (List Byte) × State :=
  let s := debugWake mid s0
  if lines = 0 ∨ 64 < lines ∨ a % 64 ≠ 0 then (none, s)
  else match s.reachOf who a with
    | .error => (none, s)
    | .absent => (some (List.replicate (64 * lines) 0), s)
    | .at x =>
      let g := gateAccess x mid 3 a (64 * lines) s
      if g.1 then
        (List.range (8 * lines)).foldl (fun r k =>
          match r.1 with
          | none => r
          | some bs =>
            let y := readAt mid ecc { x with off := x.off + 8 * k, win := x.win + 8 * k } 8 r.2
            (y.1.map fun w => bs ++ bytesLE 8 w.toNat, y.2)) (some [], g.2)
      else (if mid = 0x81 then some (List.replicate (64 * lines) 0) else none, g.2)

/-! ### The windows of a management endpoint (07 R271; 09 R342, R358, R365; 12 R475; 16 R593; 17 R616, R618) -/

/-- The offset of a register in its region. -/
def Reg.offset (r : Reg) : Nat :=
  let l := r.name.layout
  l.off + ((l.idx.zip [r.i, r.j, r.k]).map fun x => x.1.1 * x.2).sum

/-- A host's write that a gate or the part refuses: discarded and logged as an Unsupported Request (11 R427). -/
def hostRefused (n : Nat) (s : State) : State :=
  let g := s.up0 s.lead (s.newE s.lead) n
  raise (preg .fltTlerr g) FltTlerr.URSENT s

/-- A host's write that reaches a die register through its endpoint: the die's gate decides (11 R422, R424). -/
def hostWrite (n : Nat) (r : Reg) (act : State → State) (s : State) : State :=
  let o := r.offset
  if ¬ s.active r.die then hostRefused n s
  else
    let g := gateAccess ⟨r.die, o / 0x400000, o % 0x400000, o⟩ (0x60 + n) 1 (dieBase r.die + o) (r.name.layout.width / 8) s
    if g.1 then act g.2 else hostRefused n g.2

/-- The die of the lowest number that satisfies a test, or the die of the endpoint's face. -/
def State.dieWith (s : State) (n : Nat) (p : Nat → Bool) : Nat :=
  (s.activeDies.find? p).getD (pdie (s.up0 s.lead (s.newE s.lead) n))

/-- The channel whose page lies at an index of an endpoint's BAR0 (09 R342): the lowest one. -/
def State.pageChan (s : State) (n k : Nat) : Option (Nat × Nat) :=
  s.activeDies.findSome? fun d =>
    ((List.range dmaChannels).find? fun c => s.chOwner d c == n && s.fld (chReg .dmaChCfg d c) DmaChCfg.SLOT == k).map fun c => (d, c)

/-- A write to a sideband window (16 R591, R593). -/
def windowWrite (n k off : Nat) (v : Word) (s : State) : State :=
  if off = 0 then
    let s1 := if bitOf v 2 then s.modWin n k fun w => { w with ovr := false } else s
    winWrite n k (.lock (bitOf v 0)) s1
  else if off = 8 then winWrite n k (.xfer v) s
  else if 0x100 ≤ off ∧ off < 0x120 then winWrite n k (.dbuf ((off - 0x100) / 8) v) s
  else s

/-- A write of the host of partition `n` to BAR0 of its endpoint. An offset that presents no register is ignored. -/
def hostBarWrite (n : Nat) (env : BusEnv) (off width : Nat) (v : Word) (s : State) : State :=
  let me : Master := .endpoint n
  if off = 0x800 ∧ width = 4 then
    let tag := XltPrv.GOTAG.of v
    let d := s.dieWith n fun d => (s.precEntry d tag).any (fun i => s.fld (prec0 d i) XltPrec0.PART == n) || decide (tag ∈ (s.xltDie d).precExpired)
    hostWrite n (dreg .xltPrv d) (prvWrite me env.ptbad d v) s
  else if off = 0x808 ∧ width = 4 then
    let c := DmaFv.CHAN.of v
    let tag := DmaFv.GOTAG.of v
    let d := s.dieWith n fun d => s.chOwner d c == n && (s.fld (chReg .dmaChStat d c) DmaChStat.FTAG == tag || decide (tag ∈ (s.chan d c).expired))
    hostWrite n (dreg .dmaFv d) (dmaFvWrite me d v) s
  else if off = 0x810 ∧ width = 4 then
    let tag := FltFv.GOTAG.of v
    let d := s.dieWith n fun d => (s.caseOfTag d tag).any fun i => s.caseFld d i FltCase0.PART == n
    hostWrite n (dreg .fltFv d) (fltFvWrite me env d v) s
  else if 0x900 ≤ off ∧ off < 0x940 ∧ off % 8 = 0 ∧ width = 4 then
    let d := (off - 0x900) / 8
    if s.hasDie d then hostWrite n (dreg .schPxv d) (onGo SchPxv.GO v (pxVerdict me d (SchPxv.GOTAG.of v) (SchPxv.ACTION.of v))) s else s
  else if 0x10000 ≤ off ∧ off < 0x20000 then
    match s.pageChan n ((off - 0x10000) / 0x100) with
    | none => s
    | some (d, c) =>
      let o := off % 0x100
      if o = 0 ∧ width = 4 then hostWrite n (chReg .dmaChCtl d c) (chCtlWrite d c v) s
      else if o = 8 ∧ width = 8 then hostWrite n (chReg .dmaChRbase d c) (rbaseWrite d c v) s
      else if o = 0x10 ∧ width = 8 then hostWrite n (chReg .dmaChRing d c) (dmaTailWrite d c v) s
      else s
  else if 0x20000 ≤ off ∧ off < 0x30000 then windowWrite n ((off - 0x20000) / 0x400) (off % 0x400) v s
  else if off = 0x50000 ∧ width = 4 then { s with recd := { s.recd with dsel := s.recd.dsel.set n (BitVec.ofNat 64 (getBits v 18 16 * 2 ^ 16 + getBits v 10 0)) } }
  else if off = 0x52000 ∧ width = 4 then
    let d := s.dieWith n fun d => s.fld (dreg .recScfg d) RecScfg.PART == n
    if s.fld (dreg .recScfg d) RecScfg.PART = n then hostWrite n (dreg .recSptr d) (fun s => s.setFld (dreg .recSptr d) RecSptr.TAIL (getBits v 31 0)) s
    else s
  else s

/-- Eight bytes of the segment that REC.DSEL chooses, as the host of partition `n` reads them (17 R618): a segment of its own, or one of PART
where REC.VIS shows it; every other segment reads as zeros. -/
def State.hostSegment (s : State) (n off : Nat) : Word :=
  let w := s.recd.dsel.get 0 n
  let d := getBits w 18 16
  let base := segAddr d (getBits w 10 0)
  let owner := (s.mem.get (base + 6)).toNat
  if s.active d = true ∧ (owner = n ∨ (owner = 0x3E ∧ (s.reg (dreg .recVis d)).toNat.testBit n = true)) then
    BitVec.ofNat 64 (ofBytesLE (s.mem.bytes (base + off) 8))
  else 0

/-- A host's read of a die register through its endpoint: the value, or none for a completion with Unsupported Request (11 R424, R427). -/
def hostReadReg (n : Nat) (r : Reg) (s : State) : Option Word × State :=
  let o := r.offset
  if ¬ s.active r.die then (none, s)
  else
    let g := gateAccess ⟨r.die, o / 0x400000, o % 0x400000, o⟩ (0x60 + n) 0 (dieBase r.die + o) (r.name.layout.width / 8) s
    if g.1 then (some (g.2.readReg r), g.2) else (none, g.2)

/-- A read by the host of partition `n` at BAR0 of its endpoint: its channel pages (09 R342), its sideband windows (16 R593), the chosen segment
of the recorder (17 R618). An offset that presents no register reads zero. No row of the table is such a read. -/
def hostBarRead (n off : Nat) (s : State) : Option Word × State :=
  if 0x10000 ≤ off ∧ off < 0x20000 then
    match s.pageChan n ((off - 0x10000) / 0x100) with
    | none => (some 0, s)
    | some (d, c) =>
      let o := off % 0x100
      if o = 0 then hostReadReg n (chReg .dmaChCtl d c) s
      else if o = 8 then hostReadReg n (chReg .dmaChRbase d c) s
      else if o = 0x10 then hostReadReg n (chReg .dmaChRing d c) s
      else if o = 0x18 then hostReadReg n (chReg .dmaChStat d c) s
      else (some 0, s)
  else if 0x20000 ≤ off ∧ off < 0x30000 then (some (s.winRead n ((off - 0x20000) / 0x400) (off % 0x400)), s)
  else if off = 0x50000 then (some (s.recd.dsel.get 0 n), s)
  else if 0x51000 ≤ off ∧ off < 0x52000 then (some (s.hostSegment n (off - 0x51000)), s)
  else (some 0, s)

/-- A read by the host of partition `n` through BAR4 of its endpoint: a frame of another owner reads as zero (09 R330). No row of the table is
such a read. -/
def ptabHostRead (n off : Nat) (s : State) : Word := if s.frameOwner (off / 4096) = n then s.ptabWord (off / 8) else 0

/-! ### The rows -/

/-- REGISTER_WRITE (00 R7): an endpoint's host writes at an offset of BAR0, every other master at a management address. A refused or erring
write of a host is logged; the response of the others is not part of the state. -/
def execRegisterWrite (who : Master) (addr width : Nat) (v : Word) (env : BusEnv) (s : State) : Host.Outcome State Fault Refusal :=
  .next (match who with
    | .endpoint n => if n < 32 then hostBarWrite n env addr width v s else s
    | _ => (busWrite who env (s.midOf who) addr width v s).2)

/-- ASSIST_TIMER_EXPIRE (01 R33, R34): the instance that waits takes its hardware-mode action. -/
def execAssistTimerExpire (t : AssistTimer) (s : State) : Host.Outcome State Fault Refusal :=
  .next (match t with
    | .peg d pp => pegExpire d pp s
    | .retrain d pp => retrainExpire d pp s
    | .hotplug slot => hotplugExpire slot s
    | .xlt d entry => precExpire d entry s
    | .dma d c => dmaExpire d c s
    | .leak d => leakExpire d s
    | .activation => actExpire s
    | .migration => migExpire s
    | .police d entry => pxExpire d entry s)

end Sys2Proof.Machine
end

