-- ==== Sys2Proof/Machine/Hart.lean ====
section
/-! DEFINITION. The harts of the control cores (10 R370 to R404, 11 R405 to R421): when a hart takes an instruction, fetches, traps, events,
control and status registers, the bus error, checkpoints. -/

namespace Sys2Proof.Machine

/-! ### Recording (17 R606 to R608, R613) -/

/-- A control record of a hart: SRC bit 0 names the hart, AUX holds its ICOUNT; `err` marks an error response (log entry 63). -/
def hartNote (d h typ : Nat) (err : Bool) (body : List Byte) (s : State) : State :=
  recCtrl d { typ := typ, src := h + 2 ^ 15 * b2n err, aux := (s.hart d h).icount, body := body } s

/-! ### Event inputs (10 R388, R389) -/

/-- Whether an entry of the event router leads to an input of a hart (12 R488). -/
def routesTo (d h v : Nat) (r : Reg) (w : Word) : Bool :=
  r.name == .evtRoute && r.die == d && r.i != 998 && EvtRoute.HEN.of w == 1 && EvtRoute.HART.of w == h
    && EvtRoute.INPUT.of w == v

/-- The handover event 0998: always to hart 0, with HEN read as 1 and HART as 0, at the input that INPUT names (19 R655). -/
def State.handoverLevel (s : State) (d h v : Nat) : Bool :=
  h == 0 && EvtRoute.INPUT.of (s.reg (s.route d 998)) == v && s.eventLevel d 998

/-- Whether every case that a fault of an event opened stands at LOG, so that only the recorder receives the event (12 R474). -/
def State.logOnly (s : State) (d e : Nat) : Bool :=
  let c := s.flt.cases.filter fun y => y.2.bits.any fun b => eventOf s b.1 b.2 == (d, e)
  !c.isEmpty && c.all fun y => s.caseFld y.1.1 y.1.2 FltCase0.LEVEL == 0

/-- The level of an input: 0 bus error, 1 software event, 2 CYCCMP, 3 to 7 never, 8 to 255 from the router. -/
def State.inputLevel (s : State) (d h v : Nat) : Bool :=
  match v with
  | 0 => bitOf ((s.hart d h).csr.get 0 0x48) 63
  | 1 => (s.core.dies.get {} d).swevt.testBit h
  | 2 => (s.hart d h).cycHit
  | _ => decide (8 ≤ v) && (s.handoverLevel d h v
      || s.regs.any fun x => routesTo d h v x.1 x.2 && s.eventLevel d x.1.i && !(s.logOnly d x.1.i))

/-- Whether an input is pending. -/
def State.inputPending (s : State) (d h v : Nat) : Bool := s.inputLevel d h v || decide (v ∈ (s.hart d h).edges)

/-- The stored fields of EVCFG[v] (10 R393). -/
def Hart.evcfg (x : Hart) (v : Nat) : Word := x.csr.get 0 (0x100 + v)

/-- Whether a pending input can trap and wake: EN. -/
def State.inputEnabled (s : State) (d h v : Nat) : Bool := bitOf ((s.hart d h).evcfg v) 7 && s.inputPending d h v

/-- Whether any enabled input is pending: what WAIT and a sleeping hart look for (10 R396). -/
def State.anyEnabled (s : State) (d h : Nat) : Bool := (List.range 256).any (s.inputEnabled d h)

/-- Whether an enabled pending input is eligible (10 R389). -/
def State.inputEligible (s : State) (d h v : Nat) : Bool :=
  let x := s.hart d h
  s.inputEnabled d h v && (if bitOf (x.evcfg v) 6 then !x.inM && bitOf x.mstate 2 else !x.inM || bitOf x.mstate 1)

/-- PRIO of an input. -/
def Hart.prio (x : Hart) (v : Nat) : Nat := getBits (x.evcfg v) 2 0

/-- The input that a hart takes: the highest PRIO, and among equals the lowest number (10 R389). -/
def State.nextInput (s : State) (d h : Nat) : Option Nat :=
  ((List.range 256).filter (s.inputEligible d h)).foldl
    (fun b v => match b with
      | none => some v
      | some u => if (s.hart d h).prio u < (s.hart d h).prio v then some v else some u) none

/-! ### Traps (10 R384 to R387) -/

/-- A bit of a word set to a value. -/
def putBit (w : Word) (i : Nat) (b : Bool) : Word := setBits w i i (b2n b)

/-- MSTATE at entry to M: PREV takes the current state, MEV clears, NEST and PRIV set. -/
def mstateEnterM (m : Word) : Word :=
  putBit (putBit (putBit (putBit (putBit (putBit m 16 (bitOf m 0)) 17 (bitOf m 1)) 18 (bitOf m 2)) 1 false) 3 true) 0 true

/-- MSTATE at entry to S: SPREV takes SEV, which clears. -/
def mstateEnterS (m : Word) : Word := putBit (putBit m 10 (bitOf m 2)) 2 false

/-- MSTATE after TRET in M. -/
def mstateRetM (m : Word) : Word := putBit (putBit (putBit (putBit m 0 (bitOf m 16)) 1 (bitOf m 17)) 2 (bitOf m 18)) 3 false

/-- MSTATE after TRET in S. -/
def mstateRetS (m : Word) : Word := putBit (putBit m 2 (bitOf m 10)) 10 false

/-- Entry to M with a cause, a value and an entry address (10 R385). -/
def Hart.enterM (x : Hart) (cause value : Word) (entry : Nat) : Hart :=
  { x with csr := (((x.csr.set 0x41 (BitVec.ofNat 64 x.pc)).set 0x42 cause).set 0x43 value).set 0x40 (mstateEnterM x.mstate),
           res := none, pc := entry % 2 ^ 64, loads := [] }

/-- Entry to S. -/
def Hart.enterS (x : Hart) (cause value : Word) (entry : Nat) : Hart :=
  { x with csr := (((x.csr.set 0x01 (BitVec.ofNat 64 x.pc)).set 0x02 cause).set 0x03 value).set 0x40 (mstateEnterS x.mstate),
           res := none, pc := entry % 2 ^ 64, loads := [] }

/-- A double trap stops the hart, and its die requests a management reset (10 R385, R386; 12 R482). -/
def doubleTrap (d h : Nat) (s : State) : State :=
  raise (dreg .fltErr d) FltErr.DBLTRAP (s.modHart d h fun x => { x with stopped := true, loads := [] })

/-- An exception enters S when the hart is in S and MPASS passes the cause, otherwise M (10 R385). -/
def enterException (d h cause : Nat) (value : Word) (s : State) : State :=
  let x := s.hart d h
  let c : Word := BitVec.ofNat 64 cause
  if ¬ x.inM ∧ bitOf (x.csr.get 0 0x47) cause then s.modHart d h fun x => x.enterS c value (x.csr.get 0 0x04).toNat
  else if bitOf x.mstate 3 then doubleTrap d h s
  else s.modHart d h fun x => x.enterM c value (x.csr.get 0 0x44).toNat

/-- Whether nothing of a hart is in flight that trap entry waits for: its loads, which are older, have retired (11 R411), and its store buffer is
empty (11 R420). -/
def Hart.settled (x : Hart) : Bool := x.loads.isEmpty && x.sbuf.isEmpty

/-- An exception of the instruction at pc. Trap entry waits until the older loads have retired and the store buffer is empty (11 R411, R420). -/
def takeException (d h cause : Nat) (value : Word) (s : State) : State :=
  if (s.hart d h).settled then enterException d h cause value s else s

/-- ILLEGAL with an instruction word. -/
def takeIllegal (d h w : Nat) (s : State) : State := takeException d h 0x01 (BitVec.ofNat 64 w) s

/-- An event enters M or S at its vector (10 R385, R389). The spec gives MTRAPV and STRAPV no value for an event: a free value (log
entry 64). -/
def enterEvent (d h v : Nat) (s : State) : State :=
  let cause : Word := BitVec.ofNat 64 (2 ^ 63 + v)
  let value := s.freeWord
  s.drew.modHart d h fun x =>
    let y := { x with edges := x.edges.erase v }
    if bitOf (x.evcfg v) 6 then y.enterS cause value ((x.csr.get 0 0x06).toNat + 16 * v)
    else y.enterM cause value ((x.csr.get 0 0x46).toNat + 16 * v)

/-! ### Checkpoints (10 R399, R400) -/

/-- A checkpoint is taken and confirmed; the journals begin anew. -/
def takeCkpt (d h : Nat) (s : State) : State :=
  s.modHart d h fun x =>
    { x with ckpt := some { regs := x.regs, pc := x.pc, csr := x.csr, res := x.res, icount := x.icount }, inJ := [], outJ := [] }

/-- An entry of the input journal. -/
def Hart.journalIn (x : Hart) (w : Word) : Hart := { x with inJ := x.inJ ++ [w] }

/-- An entry of the output journal. -/
def Hart.journalOut (x : Hart) (a : Nat) (w : Word) : Hart := { x with outJ := x.outJ ++ [(a, w)] }

/-- A journal that is full brings a checkpoint early. -/
def ckptIfFull (d h : Nat) (s : State) : State :=
  let x := s.hart d h
  if 4096 ≤ x.inJ.length ∨ 4096 ≤ x.outJ.length then takeCkpt d h s else s

/-! ### Taking an instruction -/

/-- The pair that runs a hart: its own, or the other one once its own is retired (10 R402). -/
def State.pairOf (s : State) (d h : Nat) : Nat := if h ∈ (s.core.dies.get {} d).retired then 1 - h else h

/-- Whether both harts of a die run on one pair: SHARED. -/
def State.shared (s : State) (d : Nat) : Bool := (s.core.dies.get {} d).retired.length == 1

/-- Whether a hart runs: its die is in service, its pair is ON, and it is not stopped, paused, asleep, or waiting for a recorded foreign
write. -/
def State.hartRuns (s : State) (d h : Nat) : Bool :=
  let x := s.hart d h
  decide (h < 2) && s.hasDie d && s.active d && !x.stopped && !x.paused && x.asleep.isNone && s.domOn d (55 + s.pairOf d h)
    && !(s.replays d && s.xwriteHolds d h)

/-- Whether a target is fenced for the harts of a die (11 R415, R436). -/
def State.fenced (s : State) (d : Nat) (x : Dest) : Bool := (s.reg { name := .coreDead, die := d, i := x.die }).toNat.testBit x.target

/-- A fetch from an address (11 R406): boot ROM or control SRAM of the hart's own die; none for FETCH_FAULT without a gate's refusal. -/
def State.fetchDest (s : State) (d a : Nat) : Option Dest :=
  match s.decodeAddr d a with
  | none => none
  | some x =>
    if x.die = d ∧ (x.target = 18 ∨ x.target = 22) ∧ s.fenced d x = false ∧ ¬ (x.target = 18 ∧ s.domCur (dom d (memDomain 18 x.off)) = 2)
    then some x else none

/-- An instruction is fetched from an address and executed, or its fetch faults (10 R384, 11 R406, R424, R427). -/
def fetchThen (d h a : Nat) (act : State → State) (s : State) : State :=
  let bad := takeException d h 0x02 (BitVec.ofNat 64 a)
  match s.fetchDest d a with
  | none => bad s
  | some x =>
    let mid := s.midOf (.hart d h)
    if (s.refusedPage d x.target mid x.off 4 2).isNone then
      act (if x.target = 18 ∧ s.domCur (dom d (memDomain 18 x.off)) = 1 then wakeDomain (dom d (memDomain 18 x.off)) s else s)
    else if (s.hart d h).settled then bad (gateRefuse d mid x.target 2 a 0 s)
    else s

/-- Whether the fetch at a hart's pc faults: that exception comes before any event (10 R387). -/
def State.fetchFaults (s : State) (d h : Nat) : Bool :=
  match s.fetchDest d (s.hart d h).pc with
  | none => true
  | some x => (s.refusedPage d x.target (s.midOf (.hart d h)) x.off 4 2).isSome

/-- An instruction other than a load: it waits until every load has retired (11 R411), and a barrier until the store buffer is empty
(11 R417). A command that cannot be taken changes nothing (log entry 8). -/
def hartDo (d h : Nat) (barrier : Bool) (act : State → State) (s : State) : State :=
  let x := s.hart d h
  if s.hartRuns d h = true ∧ x.loads.isEmpty ∧ (barrier = false ∨ x.sbuf.isEmpty) then fetchThen d h x.pc act s else s

/-- An instruction retires with its effect on the hart: it is counted, and a replay goes on. -/
def retire (d h : Nat) (f : Hart → Hart) (s : State) : State :=
  pumpFeed d (ckptIfFull d h (s.modHart d h fun x => let y := f x; { y with icount := y.icount + 1 }))

/-- The pc after an instruction. -/
def Hart.nextPc (x : Hart) : Nat := (x.pc + 4) % 2 ^ 64

/-- An instruction that retires to the next one. -/
def retireNext (d h : Nat) (f : Hart → Hart) (s : State) : State := retire d h (fun x => { f x with pc := x.nextPc }) s

/-- A general register of a hart written. -/
def Hart.put (x : Hart) (rd : Nat) (v : Word) : Hart := { x with regs := rset x.regs rd v }

/-- A branch target: pc + 4 × OFF. -/
def Hart.target (x : Hart) (off : Int) : Nat := (((x.pc : Int) + 4 * off) % (2 ^ 64 : Int)).toNat

/-! ### Control and status registers (10 R383, R391 to R394) -/

/-- Whether a number is one of a CSR. -/
def csrDefined (n : Nat) : Bool :=
  decide (n ≤ 7) || (decide (0x20 ≤ n) && decide (n ≤ 0x24)) || (decide (0x40 ≤ n) && decide (n ≤ 0x49)) || n == 0x80
    || (decide (0x100 ≤ n) && decide (n < 0x200))

/-- Whether a hart may read a CSR at its privilege. -/
def csrMayRead (m : Bool) (n : Nat) : Bool := csrDefined n && (decide (n < 0x40) || m)

/-- Whether a hart may write a CSR at its privilege. -/
def csrMayWrite (m : Bool) (n : Nat) : Bool := csrDefined n && (decide (n < 0x20) || (m && ((decide (0x40 ≤ n) && decide (n < 0x80)) || decide (0x100 ≤ n))))

/-- KIND of an input: an edge where the recorder trigger is routed to it (10 R388, R393). -/
def State.inputIsEdge (s : State) (d h v : Nat) : Bool := routesTo d h v (s.route d 999) (s.reg (s.route d 999))

/-- PAIRSTAT of a hart (10 R394). -/
def State.pairstat (s : State) (d h : Nat) : Word :=
  let c := s.core.dies.get {} d
  BitVec.ofNat 64 (c.rollbacks.get 0 h * 2 ^ 32 + b2n (s.shared d) * 8 + b2n (decide (0 ∈ c.retired)) + 2 * b2n (decide (1 ∈ c.retired)))

/-- The value of a CSR other than CYCLE, whose count is a free value (log entry 65). -/
def State.csrValue (s : State) (d h n : Nat) : Word :=
  let x := s.hart d h
  if n = 0x00 then x.mstate &&& 0x405
  else if n = 0x07 then BitVec.ofNat 64 (s.core.dies.get {} d).swevt
  else if n = 0x20 then BitVec.ofNat 64 (d * 16 + h)
  else if n = 0x21 then s.freeWord
  else if n = 0x22 then BitVec.ofNat 64 x.icount
  else if n = 0x23 then BitVec.ofNat 64 (s.meridian d)
  else if n = 0x24 then s.pairstat d h
  else if 0x100 ≤ n then
    BitVec.ofNat 64 ((x.evcfg (n - 0x100)).toNat + 2 ^ 63 * b2n (s.inputPending d h (n - 0x100)) + 2 ^ 62 * b2n (s.inputIsEdge d h (n - 0x100)))
  else x.csr.get (csrReset n) n

/-- The bits of a CSR that a write stores. -/
def csrMask (n : Nat) : Word :=
  if n = 0x00 then 0x404
  else if n = 0x01 ∨ n = 0x04 ∨ n = 0x41 ∨ n = 0x44 then 0xFFFFFFFFFFFFFFFC
  else if n = 0x06 ∨ n = 0x46 then 0xFFFFFFFFFFFFF000
  else if n = 0x40 then 0x10007040E
  else if n = 0x47 then 0x5FE
  else if n = 0x48 then 0x8000000000000000
  else if 0x100 ≤ n then 0xC7
  else 0xFFFFFFFFFFFFFFFF

/-- A word with the bits of a mask replaced. -/
def maskWord (m old v : Word) : Word := (old &&& ~~~m) ||| (v &&& m)

/-- VALID of BERRADDR written: BERRREC follows, and reads 0 while it is 0 (11 R416, R437). -/
def berrWrite (d h : Nat) (v : Word) (s : State) : State :=
  let r : Reg := { name := .coreBerrrec, die := d, i := h }
  if bitOf v 63 then s.setFld r CoreBerrrec.VALID 1
  else (s.setReg r 0).modCore d fun c => { c with withdrawn := c.withdrawn.map fun w => if w.h = h then { w with recorded := false } else w }

/-- A write of a CSR. -/
def csrWrite (d h n : Nat) (v : Word) (s : State) : State :=
  let x := s.hart d h
  let k := if n = 0x00 then 0x40 else n
  let w := maskWord (csrMask n) (x.csr.get (csrReset k) k) v
  let put := s.modHart d h fun x => { x with csr := x.csr.set k w }
  if n = 0x07 then (s.modCore d fun c => { c with swevt := v.toNat % 4 }).modHart d h fun x => x.journalOut n v
  else if n = 0x48 then berrWrite d h v put
  else if n = 0x49 then put.modHart d h fun x => { x with cycHit := false }
  else if 0x100 ≤ n ∧ bitOf v 61 then put.modHart d h fun x => { x with edges := x.edges.erase (n - 0x100) }
  else put

/-! ### The bus error (11 R416) -/

/-- A store ends with an error response: the first one is recorded in BERRADDR and BERRREC, further ones are counted. -/
def busError (d h outcome : Nat) (x : Dest) (addr : Nat) (s : State) : State :=
  let r : Reg := { name := .coreBerrrec, die := d, i := h }
  if bitOf ((s.hart d h).csr.get 0 0x48) 63 then s.count (dreg .coreCnt d) CoreCnt.BERRS 1
  else
    (s.modHart d h fun y => { y with csr := y.csr.set 0x48 (BitVec.ofNat 64 (2 ^ 63 + addr % 2 ^ 40)) }).setReg r
      (BitVec.ofNat 64 (CoreBerrrec.VALID.place 1 + CoreBerrrec.OUTCOME.place outcome + CoreBerrrec.TARGET.place x.target
        + CoreBerrrec.DIE.place x.die + CoreBerrrec.ADDRESS.place addr))

end Sys2Proof.Machine
end

