-- ==== Sys2Proof/Machine/HartIsa.lean ====
section
/-! DEFINITION. The instructions that harts execute without an access to memory (10 R373 to R398), and those of the base subset and of fret
programs, which a fret engine's course executes too (04 R123 to R135, 10 R403). -/

namespace Sys2Proof.Machine

/-! ### Instruction words (10 R373) -/

/-- A word of format I: OP, RD, RA, IMM. -/
def wordI (op rd ra imm : Nat) : Nat := op % 64 + 2 ^ 6 * (rd % 32) + 2 ^ 11 * (ra % 32) + 2 ^ 16 * (imm % 65536)

/-- A word of format R: OP, RD, RA, RB, FN. -/
def wordR (op rd ra rb fn : Nat) : Nat := op % 64 + 2 ^ 6 * (rd % 32) + 2 ^ 11 * (ra % 32) + 2 ^ 16 * (rb % 32) + 2 ^ 21 * (fn % 2048)

/-! ### The base subset (04 R125, 10 R403) -/

/-- The width of a branch's offset: 15 bits in format BT, 16 in format B (10 R373). -/
def FOp.offWidth : FOp → Nat
  | .btst _ _ _ _ => 15
  | _ => 16

/-- What an instruction of the base subset does to a hart: its registers, and the pc of a branch that is taken (10 R374). -/
def Hart.base (x : Hart) (o : FOp) : Hart :=
  let r := o.base x.regs
  { x with regs := r.1, pc := match r.2 with
                              | none => x.nextPc
                              | some off => x.target (signed o.offWidth off) }

/-- An instruction of the base subset on a hart. -/
def hartBase (d h : Nat) (o : FOp) (s : State) : State := hartDo d h false (retire d h fun x => x.base o) s

/-- An instruction of the base subset, on a course or on a hart. -/
def baseOn (x : Exec) (o : FOp) (s : State) : State :=
  match x with
  | .course d pp => courseInstr (gport d pp) o {} s
  | .hart d h => hartBase d h o s

/-- An instruction that only fret engines execute: ILLEGAL on a hart, with its word (10 R375). `ecc` is what a lookup finds in
the words that it reads. -/
def fretOnly (x : Exec) (o : FOp) (ecc : LookupEcc) (w : Nat) (s : State) : State :=
  match x with
  | .course d pp => courseInstr (gport d pp) o ecc s
  | .hart d h => hartDo d h false (takeIllegal d h w) s

/-- ADD (04 R125): the sum of two registers. -/
def execAdd (x : Exec) (rd ra rb : Nat) (s : State) : Host.Outcome State Fault Refusal := .next (baseOn x (.alu .add rd ra rb) s)

/-- SUB (04 R125): the difference of two registers. -/
def execSub (x : Exec) (rd ra rb : Nat) (s : State) : Host.Outcome State Fault Refusal := .next (baseOn x (.alu .sub rd ra rb) s)

/-- AND (04 R125): the bitwise and of two registers. -/
def execAnd (x : Exec) (rd ra rb : Nat) (s : State) : Host.Outcome State Fault Refusal := .next (baseOn x (.alu .and rd ra rb) s)

/-- OR (04 R125): the bitwise or of two registers. -/
def execOr (x : Exec) (rd ra rb : Nat) (s : State) : Host.Outcome State Fault Refusal := .next (baseOn x (.alu .or rd ra rb) s)

/-- XOR (04 R125): the bitwise exclusive or of two registers. -/
def execXor (x : Exec) (rd ra rb : Nat) (s : State) : Host.Outcome State Fault Refusal := .next (baseOn x (.alu .xor rd ra rb) s)

/-- SLL (04 R125): a shift left of two registers. -/
def execSll (x : Exec) (rd ra rb : Nat) (s : State) : Host.Outcome State Fault Refusal := .next (baseOn x (.alu .sll rd ra rb) s)

/-- SRL (04 R125): a logical shift right of two registers. -/
def execSrl (x : Exec) (rd ra rb : Nat) (s : State) : Host.Outcome State Fault Refusal := .next (baseOn x (.alu .srl rd ra rb) s)

/-- SRA (04 R125): an arithmetic shift right of two registers. -/
def execSra (x : Exec) (rd ra rb : Nat) (s : State) : Host.Outcome State Fault Refusal := .next (baseOn x (.alu .sra rd ra rb) s)

/-- SLT (04 R125): the signed comparison of two registers. -/
def execSlt (x : Exec) (rd ra rb : Nat) (s : State) : Host.Outcome State Fault Refusal := .next (baseOn x (.alu .slt rd ra rb) s)

/-- SLTU (04 R125): the unsigned comparison of two registers. -/
def execSltu (x : Exec) (rd ra rb : Nat) (s : State) : Host.Outcome State Fault Refusal := .next (baseOn x (.alu .sltu rd ra rb) s)

/-- MIN (04 R125): the signed minimum of two registers. -/
def execMin (x : Exec) (rd ra rb : Nat) (s : State) : Host.Outcome State Fault Refusal := .next (baseOn x (.alu .min rd ra rb) s)

/-- MINU (04 R125): the unsigned minimum of two registers. -/
def execMinu (x : Exec) (rd ra rb : Nat) (s : State) : Host.Outcome State Fault Refusal := .next (baseOn x (.alu .minu rd ra rb) s)

/-- MAX (04 R125): the signed maximum of two registers. -/
def execMax (x : Exec) (rd ra rb : Nat) (s : State) : Host.Outcome State Fault Refusal := .next (baseOn x (.alu .max rd ra rb) s)

/-- MAXU (04 R125): the unsigned maximum of two registers. -/
def execMaxu (x : Exec) (rd ra rb : Nat) (s : State) : Host.Outcome State Fault Refusal := .next (baseOn x (.alu .maxu rd ra rb) s)

/-- CMOVZ (04 R125): rd takes ra where rb is zero. -/
def execCmovz (x : Exec) (rd ra rb : Nat) (s : State) : Host.Outcome State Fault Refusal := .next (baseOn x (.cmov false rd ra rb) s)

/-- CMOVN (04 R125): rd takes ra where rb is not zero. -/
def execCmovn (x : Exec) (rd ra rb : Nat) (s : State) : Host.Outcome State Fault Refusal := .next (baseOn x (.cmov true rd ra rb) s)

/-- CLZ (04 R125): the count of leading zeros. -/
def execClz (x : Exec) (rd ra : Nat) (s : State) : Host.Outcome State Fault Refusal := .next (baseOn x (.cnt .clz rd ra) s)

/-- CTZ (04 R125): the count of trailing zeros. -/
def execCtz (x : Exec) (rd ra : Nat) (s : State) : Host.Outcome State Fault Refusal := .next (baseOn x (.cnt .ctz rd ra) s)

/-- POPC (04 R125): the count of set bits. -/
def execPopc (x : Exec) (rd ra : Nat) (s : State) : Host.Outcome State Fault Refusal := .next (baseOn x (.cnt .popc rd ra) s)

/-- ADDI (04 R125): a register and an immediate. -/
def execAddi (x : Exec) (rd ra imm : Nat) (s : State) : Host.Outcome State Fault Refusal := .next (baseOn x (.imm .addi rd ra imm) s)

/-- ANDI (04 R125): a register and an immediate. -/
def execAndi (x : Exec) (rd ra imm : Nat) (s : State) : Host.Outcome State Fault Refusal := .next (baseOn x (.imm .andi rd ra imm) s)

/-- ORI (04 R125): a register and an immediate. -/
def execOri (x : Exec) (rd ra imm : Nat) (s : State) : Host.Outcome State Fault Refusal := .next (baseOn x (.imm .ori rd ra imm) s)

/-- XORI (04 R125): a register and an immediate. -/
def execXori (x : Exec) (rd ra imm : Nat) (s : State) : Host.Outcome State Fault Refusal := .next (baseOn x (.imm .xori rd ra imm) s)

/-- SLLI (04 R125): a register and an immediate. -/
def execSlli (x : Exec) (rd ra imm : Nat) (s : State) : Host.Outcome State Fault Refusal := .next (baseOn x (.imm .slli rd ra imm) s)

/-- SRLI (04 R125): a register and an immediate. -/
def execSrli (x : Exec) (rd ra imm : Nat) (s : State) : Host.Outcome State Fault Refusal := .next (baseOn x (.imm .srli rd ra imm) s)

/-- SRAI (04 R125): a register and an immediate. -/
def execSrai (x : Exec) (rd ra imm : Nat) (s : State) : Host.Outcome State Fault Refusal := .next (baseOn x (.imm .srai rd ra imm) s)

/-- SLTI (04 R125): a register and an immediate. -/
def execSlti (x : Exec) (rd ra imm : Nat) (s : State) : Host.Outcome State Fault Refusal := .next (baseOn x (.imm .slti rd ra imm) s)

/-- SLTUI (04 R125): a register and an immediate. -/
def execSltui (x : Exec) (rd ra imm : Nat) (s : State) : Host.Outcome State Fault Refusal := .next (baseOn x (.imm .sltui rd ra imm) s)

/-- LUI (04 R125). -/
def execLui (x : Exec) (rd imm : Nat) (s : State) : Host.Outcome State Fault Refusal := .next (baseOn x (.lui rd imm) s)

/-- EXTU (04 R125). -/
def execExtu (x : Exec) (rd ra imm : Nat) (s : State) : Host.Outcome State Fault Refusal := .next (baseOn x (.extu rd ra imm) s)

/-- INSU (04 R125). -/
def execInsu (x : Exec) (rd ra imm : Nat) (s : State) : Host.Outcome State Fault Refusal := .next (baseOn x (.insu rd ra imm) s)

/-- BEQ (04 R125; 10 R374). -/
def execBeq (x : Exec) (ra rb off : Nat) (s : State) : Host.Outcome State Fault Refusal := .next (baseOn x (.br .beq ra rb off) s)

/-- BNE (04 R125; 10 R374). -/
def execBne (x : Exec) (ra rb off : Nat) (s : State) : Host.Outcome State Fault Refusal := .next (baseOn x (.br .bne ra rb off) s)

/-- BLT (04 R125; 10 R374). -/
def execBlt (x : Exec) (ra rb off : Nat) (s : State) : Host.Outcome State Fault Refusal := .next (baseOn x (.br .blt ra rb off) s)

/-- BGE (04 R125; 10 R374). -/
def execBge (x : Exec) (ra rb off : Nat) (s : State) : Host.Outcome State Fault Refusal := .next (baseOn x (.br .bge ra rb off) s)

/-- BLTU (04 R125; 10 R374). -/
def execBltu (x : Exec) (ra rb off : Nat) (s : State) : Host.Outcome State Fault Refusal := .next (baseOn x (.br .bltu ra rb off) s)

/-- BGEU (04 R125; 10 R374). -/
def execBgeu (x : Exec) (ra rb off : Nat) (s : State) : Host.Outcome State Fault Refusal := .next (baseOn x (.br .bgeu ra rb off) s)

/-- JMP (04 R125; 10 R374). -/
def execJmp (x : Exec) (off : Nat) (s : State) : Host.Outcome State Fault Refusal := .next (baseOn x (.jmp off) s)

/-- BTST (04 R125; 10 R374). -/
def execBtst (x : Exec) (ra bit off : Nat) (s : State) : Host.Outcome State Fault Refusal := .next (baseOn x (.btst true ra bit off) s)

/-- BTCL (04 R125; 10 R374). -/
def execBtcl (x : Exec) (ra bit off : Nat) (s : State) : Host.Outcome State Fault Refusal := .next (baseOn x (.btst false ra bit off) s)

/-! ### Fret-only instructions (04 R126 to R135) -/

/-- HXF (04 R126). -/
def execHxf (x : Exec) (rd imm : Nat) (s : State) : Host.Outcome State Fault Refusal :=
  .next (fretOnly x (.hxf rd imm) {} (wordI 0x38 rd 0 imm) s)

/-- HXB (04 R127). -/
def execHxb (x : Exec) (rd imm : Nat) (s : State) : Host.Outcome State Fault Refusal :=
  .next (fretOnly x (.hxb rd imm) {} (wordI 0x39 rd 0 imm) s)

/-- LK (04 R128, R129). -/
def execLk (x : Exec) (rd ra rb handle : Nat) (ecc : LookupEcc) (s : State) : Host.Outcome State Fault Refusal :=
  .next (fretOnly x (.lk rd ra rb handle) ecc (wordR 0x3A rd ra rb handle) s)

/-- LKF (04 R130). -/
def execLkf (x : Exec) (rd ra : Nat) (ecc : LookupEcc) (s : State) : Host.Outcome State Fault Refusal :=
  .next (fretOnly x (.lkf rd ra) ecc (wordI 0x3B rd ra 0) s)

/-- MSET (04 R133). -/
def execMset (x : Exec) (field ra : Nat) (s : State) : Host.Outcome State Fault Refusal :=
  .next (fretOnly x (.mset field ra) {} (wordI 0x3C field ra 0) s)

/-- MSETI (04 R133). -/
def execMseti (x : Exec) (field imm : Nat) (s : State) : Host.Outcome State Fault Refusal :=
  .next (fretOnly x (.mseti field imm) {} (wordI 0x3D field 0 imm) s)

/-- V_FWD (04 R135): the verdict with code 0. -/
def execVFwd (x : Exec) (imm : Nat) (s : State) : Host.Outcome State Fault Refusal :=
  .next (fretOnly x (.v 0 imm) {} (wordI 0x3E 0 0 imm) s)

/-- V_FWDM (04 R135): the verdict with code 1. -/
def execVFwdm (x : Exec) (imm : Nat) (s : State) : Host.Outcome State Fault Refusal :=
  .next (fretOnly x (.v 1 imm) {} (wordI 0x3E 1 0 imm) s)

/-- V_HOLD (04 R135): the verdict with code 2. -/
def execVHold (x : Exec) (imm : Nat) (s : State) : Host.Outcome State Fault Refusal :=
  .next (fretOnly x (.v 2 imm) {} (wordI 0x3E 2 0 imm) s)

/-- V_REFUSE (04 R135): the verdict with code 3. -/
def execVRefuse (x : Exec) (imm : Nat) (s : State) : Host.Outcome State Fault Refusal :=
  .next (fretOnly x (.v 3 imm) {} (wordI 0x3E 3 0 imm) s)

/-- V_TRAP (04 R135): the verdict with code 4. -/
def execVTrap (x : Exec) (imm : Nat) (s : State) : Host.Outcome State Fault Refusal :=
  .next (fretOnly x (.v 4 imm) {} (wordI 0x3E 4 0 imm) s)

/-! ### Multiply and divide (10 R376) -/

/-- The operations of OP 0x02. -/
inductive MdOp where
  | mul | mulh | mulhu | mulhsu | div | divu | rem | remu
  deriving DecidableEq, Repr

/-- What they compute: a zero divisor gives all ones or the dividend, and the most negative number divided by -1 itself with remainder 0. -/
def MdOp.eval : MdOp → Word → Word → Word
  | .mul, a, b => a * b
  | .mulh, a, b => BitVec.ofInt 64 (a.toInt * b.toInt / 2 ^ 64)
  | .mulhu, a, b => BitVec.ofNat 64 (a.toNat * b.toNat / 2 ^ 64)
  | .mulhsu, a, b => BitVec.ofInt 64 (a.toInt * (b.toNat : Int) / 2 ^ 64)
  | .div, a, b => if b = 0 then BitVec.allOnes 64 else BitVec.ofInt 64 (a.toInt.tdiv b.toInt)
  | .divu, a, b => if b = 0 then BitVec.allOnes 64 else a / b
  | .rem, a, b => if b = 0 then a else BitVec.ofInt 64 (a.toInt.tmod b.toInt)
  | .remu, a, b => if b = 0 then a else a % b

/-- A multiply or a divide on a hart. -/
def hartMd (d h : Nat) (o : MdOp) (rd ra rb : Nat) (s : State) : State :=
  hartDo d h false (retireNext d h fun x => x.put rd (o.eval (rget x.regs ra) (rget x.regs rb))) s

/-- MUL (10 R376). -/
def execMul (d h rd ra rb : Nat) (s : State) : Host.Outcome State Fault Refusal := .next (hartMd d h .mul rd ra rb s)

/-- MULH (10 R376). -/
def execMulh (d h rd ra rb : Nat) (s : State) : Host.Outcome State Fault Refusal := .next (hartMd d h .mulh rd ra rb s)

/-- MULHU (10 R376). -/
def execMulhu (d h rd ra rb : Nat) (s : State) : Host.Outcome State Fault Refusal := .next (hartMd d h .mulhu rd ra rb s)

/-- MULHSU (10 R376). -/
def execMulhsu (d h rd ra rb : Nat) (s : State) : Host.Outcome State Fault Refusal := .next (hartMd d h .mulhsu rd ra rb s)

/-- DIV (10 R376). -/
def execDiv (d h rd ra rb : Nat) (s : State) : Host.Outcome State Fault Refusal := .next (hartMd d h .div rd ra rb s)

/-- DIVU (10 R376). -/
def execDivu (d h rd ra rb : Nat) (s : State) : Host.Outcome State Fault Refusal := .next (hartMd d h .divu rd ra rb s)

/-- REM (10 R376). -/
def execRem (d h rd ra rb : Nat) (s : State) : Host.Outcome State Fault Refusal := .next (hartMd d h .rem rd ra rb s)

/-- REMU (10 R376). -/
def execRemu (d h rd ra rb : Nat) (s : State) : Host.Outcome State Fault Refusal := .next (hartMd d h .remu rd ra rb s)

/-! ### Jumps and addresses (10 R377) -/

/-- JAL: rd takes the address of the next instruction, and the hart goes on at pc + 4 × OFF. -/
def hartJal (d h rd off : Nat) (s : State) : State :=
  hartDo d h false (retire d h fun x => { x.put rd (BitVec.ofNat 64 x.nextPc) with pc := x.target (signed 21 off) }) s

/-- JAL (10 R377). -/
def execJal (d h rd off : Nat) (s : State) : Host.Outcome State Fault Refusal := .next (hartJal d h rd off s)

/-- JALR: the target is computed before rd is written; one that is no multiple of 4 raises INSN_MISALIGNED. -/
def hartJalr (d h rd ra imm : Nat) (s : State) : State :=
  hartDo d h false (fun s =>
    let t := rget (s.hart d h).regs ra + sext16 imm
    if t.toNat % 4 ≠ 0 then takeException d h 0x03 t s
    else retire d h (fun x => { x.put rd (BitVec.ofNat 64 x.nextPc) with pc := t.toNat }) s) s

/-- JALR (10 R377). -/
def execJalr (d h rd ra imm : Nat) (s : State) : Host.Outcome State Fault Refusal := .next (hartJalr d h rd ra imm s)

/-- AUIPC (10 R377). -/
def execAuipc (d h rd imm : Nat) (s : State) : Host.Outcome State Fault Refusal :=
  .next (hartDo d h false (retireNext d h fun x => x.put rd (BitVec.ofNat 64 x.pc + luiWord imm)) s)

/-! ### System instructions (10 R382) -/

/-- FENCE.S adds no order beyond that of the store buffer (11 R409). -/
def execFenceS (d h : Nat) (s : State) : Host.Outcome State Fault Refusal := .next (hartDo d h false (retireNext d h id) s)

/-- FENCE.F (10 R382; 11 R417): retires once every earlier access has its response and the store buffer is empty. -/
def execFenceF (d h : Nat) (s : State) : Host.Outcome State Fault Refusal := .next (hartDo d h true (retireNext d h id) s)

/-- FENCE.I (10 R382): as FENCE.F; the instruction cache holds nothing that the model keeps (log entry 66). -/
def execFenceI (d h : Nat) (s : State) : Host.Outcome State Fault Refusal := .next (hartDo d h true (retireNext d h id) s)

/-- SYSREQ raises SYSREQ_S or SYSREQ_M (10 R382, R384). -/
def execSysreq (d h : Nat) (s : State) : Host.Outcome State Fault Refusal :=
  .next (hartDo d h false (fun s => takeException d h (if (s.hart d h).inM then 0x09 else 0x08) 0 s) s)

/-- BRKPT (10 R382, R384). -/
def execBrkpt (d h : Nat) (s : State) : Host.Outcome State Fault Refusal := .next (hartDo d h false (takeException d h 0x0A 0) s)

/-- What TRET restores (10 R385). -/
def Hart.tret (x : Hart) : Hart :=
  if x.inM then { x with csr := x.csr.set 0x40 (mstateRetM x.mstate), pc := (x.csr.get 0 0x41).toNat }
  else { x with csr := x.csr.set 0x40 (mstateRetS x.mstate), pc := (x.csr.get 0 0x01).toNat }

/-- TRET (10 R382, R385). -/
def execTret (d h : Nat) (s : State) : Host.Outcome State Fault Refusal := .next (hartDo d h false (retire d h Hart.tret) s)

/-! ### WAIT (10 R395 to R398) -/

/-- The mode of CORE.SLEEP in force: code 3 acts as 0, and every code while both harts share a pair. -/
def State.sleepMode (s : State) (d h : Nat) : Nat :=
  let m := s.fld { name := .coreSleep, die := d, i := h } CoreSleep.MODE
  if m = 3 ∨ s.shared d = true then 0 else m

/-- A hart sleeps: in mode OFF after a checkpoint; in RETAIN and OFF its pair's domain leaves ON (10 R396; 14 R541). -/
def fallAsleep (d h : Nat) (s : State) : State :=
  let m := s.sleepMode d h
  let s1 := s.modHart d h fun x => { x with asleep := some m }
  let s2 := if m = 2 then takeCkpt d h s1 else s1
  if m = 0 then s2 else startDomain (dom d (55 + s.pairOf d h)) m false s2

/-- WAIT: retires without sleeping while an enabled input is pending, and in a replay (log entry 61); ILLEGAL in S with SWAITX. -/
def hartWait (d h : Nat) (s : State) : State :=
  if (s.hart d h).inM = false ∧ bitOf (s.hart d h).mstate 32 then hartDo d h false (takeIllegal d h (wordR 0x30 0 0 0 0x008)) s
  else hartDo d h true (fun s => let t := retireNext d h id s; if s.anyEnabled d h || s.replays d then t else fallAsleep d h t) s

/-- WAIT (10 R382, R396). -/
def execWait (d h : Nat) (s : State) : Host.Outcome State Fault Refusal := .next (hartWait d h s)

/-- A sleeping hart wakes when an enabled input is pending; its pair's domain comes back (10 R397; 14 R541). -/
def hartWake (d h : Nat) (s : State) : State :=
  if s.active d = false then s
  else match (s.hart d h).asleep with
    | none => s
    | some m =>
      if s.anyEnabled d h then
        let t := s.modHart d h fun x => { x with asleep := none }
        if m = 0 then t else wakeDomain (dom d (55 + s.pairOf d h)) t
      else s

/-- HART_WAKE (10 R397). -/
def execHartWake (d h : Nat) (s : State) : Host.Outcome State Fault Refusal := .next (hartWake d h s)

/-! ### CSR access (10 R383) -/

/-- A read of CYCLE or MERIDIAN is an input: recorded, journaled, and served from the record in a replay (10 R391, R400; 17 R607, R620). -/
def csrInput (d h n : Nat) (s : State) : Option (Word × State) :=
  if s.replays d then replayInput d h 0x12 n 8 s
  else
    let v := s.csrValue d h n
    let s1 := if n = 0x21 then s.drew else s
    some (v, hartNote d h 0x12 false (bytesLE 8 n ++ bytesLE 8 v.toNat) s1)

/-- CRD: rd takes the value of a CSR. -/
def hartCrd (d h rd n : Nat) (s : State) : State :=
  hartDo d h false (fun s =>
    let m := n % 1024
    if csrMayRead (s.hart d h).inM m = false then takeIllegal d h (wordI 0x31 rd 0 m) s
    else if m = 0x21 ∨ m = 0x23 then
      reachInput d (fun s =>
        match csrInput d h m s with
        | none => s
        | some (v, t) => retireNext d h (fun x => (x.put rd v).journalIn v) t) s
    else retireNext d h (fun x => x.put rd (s.csrValue d h m)) s) s

/-- CRD (10 R383). -/
def execCrd (d h rd n : Nat) (s : State) : Host.Outcome State Fault Refusal := .next (hartCrd d h rd n s)

/-- CWR: a CSR takes ra. -/
def hartCwr (d h ra n : Nat) (s : State) : State :=
  hartDo d h false (fun s =>
    let m := n % 1024
    if csrMayWrite (s.hart d h).inM m = false then takeIllegal d h (wordI 0x32 0 ra m) s
    else retireNext d h id (csrWrite d h m (rget (s.hart d h).regs ra) s)) s

/-- CWR (10 R383). -/
def execCwr (d h ra n : Nat) (s : State) : Host.Outcome State Fault Refusal := .next (hartCwr d h ra n s)

/-- CMOD: the bits of ra are set or cleared in a CSR, and rd takes the value after the change. -/
def hartCmod (d h rd ra n : Nat) (set : Bool) (s : State) : State :=
  hartDo d h false (fun s =>
    let m := n % 1024
    if csrMayWrite (s.hart d h).inM m = false then takeIllegal d h (wordI 0x33 rd ra (m + 1024 * b2n set)) s
    else
      let a := rget (s.hart d h).regs ra
      let old := s.csrValue d h m
      let t := csrWrite d h m (if set then old ||| a else old &&& ~~~a) s
      retireNext d h (fun x => x.put rd (t.csrValue d h m)) t) s

/-- CMOD (10 R383). -/
def execCmod (d h rd ra n : Nat) (set : Bool) (s : State) : Host.Outcome State Fault Refusal := .next (hartCmod d h rd ra n set s)

/-! ### Illegal words and uncorrectable ones (10 R374, R375, R384) -/

/-- A word that is no instruction raises ILLEGAL; one that reads uncorrectable raises FETCH_FAULT. -/
def hartIllegal (d h w : Nat) (uncorrectable : Bool) (s : State) : State :=
  hartDo d h false (fun s =>
    if uncorrectable then takeException d h 0x02 (BitVec.ofNat 64 (s.hart d h).pc) s else takeIllegal d h (w % 2 ^ 32) s) s

/-- ILLEGAL_INSTRUCTION (10 R374, R375, R384). -/
def execIllegalInstruction (d h w : Nat) (uncorrectable : Bool) (s : State) : Host.Outcome State Fault Refusal :=
  .next (hartIllegal d h w uncorrectable s)

/-! ### Events (10 R387 to R390) -/

/-- The input that a hart takes in a replay: the one that its next record names, at that record's ICOUNT (17 R620). -/
def State.recordedInput (s : State) (d h : Nat) : Option (Nat × List FeedRec) :=
  match s.hartRec d h with
  | none => none
  | some (r, rest) =>
    if r.rcd.typ = 0x13 ∧ leAt r.rcd.body 8 8 = (s.hart d h).icount then some (leAt r.rcd.body 0 8 % 256, rest) else none

/-- An event is taken at an instruction boundary: the eligible input of the highest priority; recorded and journaled. A fault of the fetch at
that boundary comes first (10 R387). -/
def eventTaken (d h : Nat) (s : State) : State :=
  let x := s.hart d h
  if ¬ s.hartRuns d h ∨ ¬ x.loads.isEmpty ∨ s.fetchFaults d h = true then s
  else if s.replays d then
    match s.recordedInput d h with
    | none => s
    | some (v, rest) => enterEvent d h v (setFeed d rest s)
  else match s.nextInput d h with
    | none => s
    | some v =>
      reachInput d (fun s =>
        ckptIfFull d h (enterEvent d h v ((hartNote d h 0x13 false (bytesLE 8 v ++ bytesLE 8 x.icount) s).modHart d h
          fun y => y.journalIn (BitVec.ofNat 64 x.icount)))) s

/-- EVENT_TAKEN (10 R389, R390). -/
def execEventTaken (d h : Nat) (s : State) : Host.Outcome State Fault Refusal := .next (eventTaken d h s)

/-- CYCLE has reached CYCCMP (10 R388). -/
def cyccmpMatch (d h : Nat) (s : State) : State :=
  if s.hasDie d = true ∧ s.active d = true ∧ h < 2 then s.modHart d h fun x => { x with cycHit := true } else s

/-- CYCCMP_MATCH (10 R388). -/
def execCyccmpMatch (d h : Nat) (s : State) : Host.Outcome State Fault Refusal := .next (cyccmpMatch d h s)

/-! ### Checkpoints, rollback, retirement (10 R399 to R402) -/

/-- CHECKPOINT (10 R399): every 10 µs of a hart that runs. -/
def execCheckpoint (d h : Nat) (s : State) : Host.Outcome State Fault Refusal := .next (if s.hartRuns d h then takeCkpt d h s else s)

/-- The last pair of a die is retired: both harts stop (10 R402). -/
def stopHarts (d : Nat) (s : State) : State :=
  raise (dreg .fltErr d) FltErr.HARTSTOP (s.forAll [0, 1] fun h => fun t => t.modHart d h fun x => { x with stopped := true, loads := [] })

/-- A pair is retired: its domain goes OFF, and both harts run on the other pair, which is ON; with the last pair both harts stop (10 R402). -/
def retirePair (d p : Nat) (s : State) : State :=
  let s1 := raise (dreg .fltErr d) FltErr.PAIRRET (s.modCore d fun c => { c with retired := c.retired ++ [p] })
  let s2 := startDomain (dom d (55 + p)) 2 false s1
  if (1 - p) ∈ (s.core.dies.get {} d).retired then stopHarts d s2
  else
    let s3 := if s2.domCur (dom d (55 + (1 - p))) = 0 ∧ s2.domBusy (dom d (55 + (1 - p))) = false then s2
      else wakeDomain (dom d (55 + (1 - p))) s2
    s3.forAll [0, 1] fun h => fun t => t.modHart d h fun x => { x with asleep := x.asleep.map fun _ => 0 }

/-- A divergence: the first one within a second rolls the pair back, and re-execution brings the hart to the state it had, so that only
ROLLBACKS and the time change; the second one retires the pair (10 R401, R402; log entry 67). -/
def divergence (d h : Nat) (s : State) : State :=
  if ¬ s.hartRuns d h then s
  else
    let p := s.pairOf d h
    let now := s.meridian d
    let c := s.core.dies.get {} d
    let second := match c.diverged.find p with
      | none => false
      | some m => decide ((now + 2 ^ 64 - m) % 2 ^ 64 ≤ 10 ^ 9 * 65536)
    let s1 := s.modCore d fun c => { c with diverged := c.diverged.set p now }
    if second then retirePair d p s1
    else raise (dreg .fltErr d) FltErr.ROLLBACK
      (s1.modCore d fun c => { c with rollbacks := c.rollbacks.set h (satAdd 32 (c.rollbacks.get 0 h) 1) })

/-- LOCKSTEP_DIVERGENCE (10 R401, R402). -/
def execLockstepDivergence (d h : Nat) (s : State) : Host.Outcome State Fault Refusal := .next (divergence d h s)

end Sys2Proof.Machine
end

