-- ==== Sys2Proof/Machine/HartMem.lean ====
section
/-! DEFINITION. Loads, stores and reservations of harts (10 R378 to R381; 11 R405 to R420): the outstanding loads, the store buffer, the
responses, the target timeout and the withdrawals. -/

namespace Sys2Proof.Machine

/-! ### Places -/

/-- Memory class: control SRAM, table store views, recorder store, debug aperture, boot ROM, boot image store (11 R405). -/
def Dest.memClass (x : Dest) : Bool := decide (18 ≤ x.target) && decide (x.target ≤ 23)

/-- Whether a load's value is an input that is recorded: device class, or memory other than the control SRAM, boot ROM and boot image store
of the hart's own die (17 R607). -/
def Dest.recorded (x : Dest) (d : Nat) : Bool :=
  !(x.die == d && (x.target == 18 || x.target == 22 || x.target == 23))

/-- Whether two places overlap: `n` and `m` are sizes. -/
def Dest.overlaps (x : Dest) (n : Nat) (y : Dest) (m : Nat) : Bool :=
  x.die == y.die && x.target == y.target && decide (x.off < y.off + m) && decide (y.off < x.off + n)

/-- The address of a load or a store: ra + imm sign-extended (10 R378). -/
def Hart.ea (x : Hart) (ra imm : Nat) : Nat := (rget x.regs ra + sext16 imm).toNat

/-! ### Issue of loads (10 R378, R379; 11 R411) -/

/-- A load that must wait: eight are outstanding, an earlier one writes ra, or an earlier one has failed. -/
def Hart.loadWaits (x : Hart) (ra : Nat) : Bool :=
  decide (8 ≤ x.loads.length) || (ra % 32 != 0 && x.loads.any fun e => e.rd % 32 == ra % 32) || x.loads.any fun e => e.got == some none

/-- A load or LDX goes out: an address that is not aligned, or that lies in no region, raises its exception once every earlier load has
retired; a fenced target answers with an error at once (11 R415). -/
def issueLoad (d h : Nat) (e : LoadEnt) (s : State) : State :=
  let fault := fun (cause : Nat) => takeException d h cause (BitVec.ofNat 64 e.addr) s
  if e.addr % e.size ≠ 0 then fault 0x04
  else match s.decodeAddr d e.addr with
    | none => fault 0x06
    | some x =>
      if e.ldx = true ∧ ¬ (x.die = d ∧ x.target = 18) then fault 0x06
      else
        let got := if s.fenced d x then some none else none
        let e1 : LoadEnt := { e with mid := s.midOf (.hart d h), got := got }
        s.modHart d h fun y => { y with loads := y.loads ++ [e1] }

/-- A load instruction: the fetch is that of the instruction behind the loads that wait. -/
def hartLoad (d h rd ra imm size : Nat) (sgn ldx : Bool) (s : State) : State :=
  let x := s.hart d h
  if s.hartRuns d h = true ∧ x.loadWaits ra = false then
    fetchThen d h ((x.pc + 4 * x.loads.length) % 2 ^ 64)
      (issueLoad d h { rd := rd, addr := x.ea ra imm, size := size, sgn := sgn, ldx := ldx }) s
  else s

/-- LB (10 R378). -/
def execLb (d h rd ra imm : Nat) (s : State) : Host.Outcome State Fault Refusal := .next (hartLoad d h rd ra imm 1 true false s)
/-- LH (10 R378). -/
def execLh (d h rd ra imm : Nat) (s : State) : Host.Outcome State Fault Refusal := .next (hartLoad d h rd ra imm 2 true false s)
/-- LW (10 R378). -/
def execLw (d h rd ra imm : Nat) (s : State) : Host.Outcome State Fault Refusal := .next (hartLoad d h rd ra imm 4 true false s)
/-- LD (10 R378). -/
def execLd (d h rd ra imm : Nat) (s : State) : Host.Outcome State Fault Refusal := .next (hartLoad d h rd ra imm 8 false false s)
/-- LBU (10 R378). -/
def execLbu (d h rd ra imm : Nat) (s : State) : Host.Outcome State Fault Refusal := .next (hartLoad d h rd ra imm 1 false false s)
/-- LHU (10 R378). -/
def execLhu (d h rd ra imm : Nat) (s : State) : Host.Outcome State Fault Refusal := .next (hartLoad d h rd ra imm 2 false false s)
/-- LWU (10 R378). -/
def execLwu (d h rd ra imm : Nat) (s : State) : Host.Outcome State Fault Refusal := .next (hartLoad d h rd ra imm 4 false false s)
/-- LDX (10 R380, R381). -/
def execLdx (d h rd ra : Nat) (s : State) : Host.Outcome State Fault Refusal := .next (hartLoad d h rd ra 0 8 false true s)

/-! ### Issue of stores (10 R378, R379; 11 R408) -/

/-- A store retires into the tail of the store buffer under the master identity that the hart has; one of device class is recorded, and in a
replay compared with its record (17 R613, R620). -/
def issueStore (d h : Nat) (e : StoreEnt) (s : State) : State :=
  let a : Word := BitVec.ofNat 64 e.addr
  if e.addr % e.size ≠ 0 then takeException d h 0x05 a s
  else match s.decodeAddr d e.addr with
    | none => takeException d h 0x07 a s
    | some x =>
      if 16 ≤ (s.hart d h).sbuf.length then s
      else
        let body := bytesLE 8 e.size ++ bytesLE 8 e.addr ++ bytesLE 8 e.data.toNat
        let noted := if x.memClass then some s
          else if s.replays d then replayOutput d h body s
          else some (hartNote d h 0x15 false body s)
        match noted with
        | none => s
        | some t =>
          let e1 : StoreEnt := { e with mid := s.midOf (.hart d h) }
          retireNext d h (fun y => { y with sbuf := y.sbuf ++ [e1] }.journalOut e.addr e.data) t

/-- A store instruction: the low bytes of rs. -/
def hartStoreInstr (d h rs ra imm size : Nat) (s : State) : State :=
  hartDo d h false (fun s =>
    let x := s.hart d h
    issueStore d h { addr := x.ea ra imm, size := size, data := BitVec.ofNat 64 ((rget x.regs rs).toNat % 2 ^ (8 * size)), mid := 0 } s) s

/-- SB (10 R378). -/
def execSb (d h rs ra imm : Nat) (s : State) : Host.Outcome State Fault Refusal := .next (hartStoreInstr d h rs ra imm 1 s)
/-- SH (10 R378). -/
def execSh (d h rs ra imm : Nat) (s : State) : Host.Outcome State Fault Refusal := .next (hartStoreInstr d h rs ra imm 2 s)
/-- SW (10 R378). -/
def execSw (d h rs ra imm : Nat) (s : State) : Host.Outcome State Fault Refusal := .next (hartStoreInstr d h rs ra imm 4 s)
/-- SD (10 R378). -/
def execSd (d h rs ra imm : Nat) (s : State) : Host.Outcome State Fault Refusal := .next (hartStoreInstr d h rs ra imm 8 s)

/-! ### Performing a load -/

/-- The byte that the youngest buffered store to an offset of a target holds, if any (11 R410). -/
def State.bufferedByte (s : State) (d h : Nat) (x : Dest) (off : Nat) : Option Byte :=
  (s.hart d h).sbuf.foldl (fun b e =>
    match s.decodeAddr d e.addr with
    | none => b
    | some y => if y.die = x.die ∧ y.target = x.target ∧ y.off ≤ off ∧ off < y.off + e.size then some (BitVec.ofNat 8 (e.data.toNat / 2 ^ (8 * (off - y.off)))) else b)
    none

/-- Whether a buffered store overlaps a load. -/
def State.bufferOverlaps (s : State) (d h : Nat) (x : Dest) (n : Nat) : Bool :=
  (s.hart d h).sbuf.any fun e => match s.decodeAddr d e.addr with
    | none => false
    | some y => x.overlaps n y e.size

/-- The bytes that the buffered stores hold for a load, where they hold them all. -/
def State.forwarded (s : State) (d h : Nat) (x : Dest) (n : Nat) : Option Word :=
  let bs := (List.range n).map fun k => s.bufferedByte d h x (x.off + k)
  if bs.all Option.isSome then some (BitVec.ofNat 64 (ofBytesLE (bs.filterMap id))) else none

/-- The places of the loads in front of load `i` that have no response yet. -/
def State.earlierAt (s : State) (d h i : Nat) (x : Dest) : Bool :=
  ((s.hart d h).loads.take i).any fun e => e.got.isNone && (match s.decodeAddr d e.addr with
    | none => false
    | some y => y.die == x.die && y.target == x.target)

/-- The response of load `i` is what it reads, or none for an error; an LDX makes its reservation (10 R380). -/
def gotLoad (d h i : Nat) (v : Option Word) (s : State) : State :=
  s.modHart d h fun y =>
    let ldx := (y.loads.drop i).head?.any fun e => e.ldx && v.isSome
    let a := (y.loads.drop i).head?.map fun e => e.addr
    { y with loads := updNth (fun e => { e with got := some v }) i y.loads, res := if ldx then a else y.res }

/-- Load `i` is performed: loads to one target in order (11 R411), from the store buffer or the target (R410). A load that must wait stays. In a
replay a recorded load is not performed: its value comes from its record when it retires. -/
def performLoad (d h i : Nat) (ecc : Ecc) (s : State) : State :=
  match (s.hart d h).loads.drop i with
  | [] => s
  | e :: _ =>
    if e.got.isSome then s
    else match s.decodeAddr d e.addr with
      | none => s
      | some x =>
        if s.earlierAt d h i x then s
        else if s.fenced d x then gotLoad d h i none s
        else if s.replays d = true ∧ x.recorded d = true then gotLoad d h i (some 0) s
        else match (if x.memClass then s.forwarded d h x e.size else none) with
          | some v => gotLoad d h i (some v) s
          | none =>
            if s.bufferOverlaps d h x e.size then s
            else
              let r := busRead (.hart d h) e.mid e.addr e.size ecc s
              gotLoad d h i r.1 r.2

/-! ### Retiring loads -/

/-- The register value of a load. -/
def LoadEnt.result (e : LoadEnt) (v : Word) : Word :=
  if e.sgn then BitVec.ofInt 64 (signed (8 * e.size) v.toNat) else BitVec.ofNat 64 (v.toNat % 2 ^ (8 * e.size))

/-- The response of a load that retires: none waits for its record; a recorded input is noted, and in a replay comes from the record. -/
def loadInput (d h : Nat) (e : LoadEnt) (got : Option Word) (s : State) : Option (Option Word × State) :=
  let rec' := (s.decodeAddr d e.addr).any fun x => x.recorded d
  if !rec' then some (got, s)
  else if s.replays d then
    let err := (s.hartRec d h).any fun r => r.1.rcd.typ == 0x10 && r.1.rcd.src.testBit 15
    (replayInput d h 0x10 e.addr 8 s).map fun r => (if err then none else some r.1, r.2)
  else some (got, hartNote d h 0x10 got.isNone (bytesLE 8 e.addr ++ bytesLE 8 (got.getD 0).toNat) s)

/-- A load retires with its value (11 R411). -/
def retireLoad (d h : Nat) (e : LoadEnt) (v : Word) (s : State) : State :=
  retireNext d h (fun y => (({ y with loads := y.loads.drop 1 }.put e.rd (e.result v)).journalIn v).journalOut e.addr 0) s

/-- The oldest loads retire in order as far as they have responses. One with an error raises LOAD_FAULT once the store buffer is empty, and the
later ones are squashed (10 R379; 11 R420). -/
def retireLoads (d h : Nat) : Nat → State → State
  | 0, s => s
  | n + 1, s =>
    match (s.hart d h).loads with
    | [] => s
    | e :: _ =>
      match e.got with
      | none => s
      | some got =>
        if got.isNone ∧ ¬ (s.hart d h).sbuf.isEmpty then s
        else
          let take := fun (s : State) =>
            match loadInput d h e got s with
            | none => s
            | some (some v, t) => retireLoads d h n (retireLoad d h e v t)
            | some (none, t) => if (s.hart d h).sbuf.isEmpty then enterException d h 0x06 (BitVec.ofNat 64 e.addr) t else s
          if (s.decodeAddr d e.addr).any fun x => x.recorded d then reachInput d take s else take s

/-! ### Performing a store -/

/-- A replayed store that leaves the hart's own control SRAM and image store takes effect only where it writes staged tables or programs;
everything else that the harts' stores change is not reproduced (17 R620; log entry 61). -/
def replayStore (d h : Nat) (e : StoreEnt) (x : Dest) (s : State) : State :=
  let me : Master := .hart d h
  let staged := (x.target = 19 ∧ x.off < 0xE00000) ∨ (x.target = 25 ∧ 0x1000000 ≤ x.win ∧ x.win < 0x1E00000)
  let frames := (x.target = 19 ∧ 0x3000000 ≤ x.off) ∨ (x.target = 25 ∧ 0x2000000 ≤ x.win ∧ x.win < 0x2400000)
  if staged then drainQueue (stageAccess me (x.off % 0x1000000) e.data e.size s).2
  else if frames then (ptabAccess me (x.off % 0x1000000) e.data e.size s).2
  else if x.target = 3 ∧ x.die = d then
    match s.place .die d x.win e.size with
    | .reg r =>
      if r.name = .fretStage ∨ r.name = .fretLoad ∨ r.name = .fretPsel then
        let t := regWrite me {} r e.data (s.setFld partMode PartMode.CUR 1)
        drainQueue (t.setFld partMode PartMode.CUR s.mode)
      else s
    | _ => s
  else s

/-- A store reaches its visibility point (11 R407): whether its response is no error, and what it does. -/
def performStore (d h : Nat) (env : BusEnv) (e : StoreEnt) (s : State) : Bool × State :=
  match s.decodeAddr d e.addr with
  | none => (false, s)
  | some x =>
    if s.replays d = true ∧ ¬ (x.die = d ∧ (x.target = 18 ∨ x.target = 23)) then (true, replayStore d h e x s)
    else busWrite (.hart d h) env e.mid e.addr e.size e.data s

/-- The head of the store buffer leaves it. -/
def popStore (d h : Nat) (s : State) : State := s.modHart d h fun y => { y with sbuf := y.sbuf.drop 1 }

/-- The head of the store buffer is performed; a fenced target and a refusal end it with an error response (11 R407, R408, R415, R416). -/
def drainHead (d h : Nat) (env : BusEnv) (s : State) : State :=
  match (s.hart d h).sbuf with
  | [] => s
  | e :: _ =>
    match s.decodeAddr d e.addr with
    | none => popStore d h s
    | some x =>
      let r := if s.fenced d x then (false, s) else performStore d h env e s
      let t := popStore d h r.2
      if r.1 then t else busError d h 0 x e.addr t

/-- A hart's loads and stores go on while its die is in service. -/
def accessResponse (d h : Nat) (load : Option Nat) (env : BusEnv) (s : State) : State :=
  if s.hasDie d = true ∧ s.active d = true ∧ h < 2 then
    let t := match load with
      | some i => performLoad d h i env.ecc s
      | none => drainHead d h env s
    retireLoads d h 8 t
  else s

/-- ACCESS_RESPONSE (11 R407, R408, R411): the response of an outstanding load, or of the store at the head of the buffer. -/
def execAccessResponse (d h : Nat) (load : Option Nat) (env : BusEnv) (s : State) : Host.Outcome State Fault Refusal :=
  .next (accessResponse d h load env s)

/-! ### Reservations (10 R380, R381; 11 R418, R419) -/

/-- What an STX that the crossing takes finds: 0 stored, 1 not stored; and its effect. A gate's refusal is reported under R416. -/
def stxAt (d h : Nat) (x : Dest) (addr : Nat) (v : Word) (s : State) : Word × State :=
  let g := gateAccess x (s.midOf (.hart d h)) 1 addr 8 s
  if g.1 = false then (1, busError d h 0 x addr g.2)
  else match serveDomain d (memDomain 18 x.off) g.2 with
    | none => (1, busError d h 0 x addr g.2)
    | some t => if (s.hart d h).res = some addr then (0, sramStore d x.off (bytesLE 8 v.toNat) t) else (1, t)

/-- STX's outcome is an input: recorded, and in a replay served from its record. -/
def stxInput (d h : Nat) (x : Dest) (addr : Nat) (v : Word) (s : State) : Option (Word × State) :=
  if s.replays d then
    (replayInput d h 0x11 addr 8 s).map fun r => (r.1, if r.1 = 0 then sramStore d x.off (bytesLE 8 v.toNat) r.2 else r.2)
  else
    let r := if s.fenced d x then ((1 : Word), busError d h 0 x addr s) else stxAt d h x addr v s
    some (r.1, hartNote d h 0x11 false (bytesLE 8 addr ++ bytesLE 8 r.1.toNat) r.2)

/-- STX: waits for the store buffer, stores when the reservation stands, and clears it. -/
def hartStx (d h rd ra rb : Nat) (s : State) : State :=
  hartDo d h true (fun s =>
    let y := s.hart d h
    let addr := (rget y.regs ra).toNat
    let a : Word := BitVec.ofNat 64 addr
    if addr % 8 ≠ 0 then takeException d h 0x05 a s
    else match s.decodeAddr d addr with
      | none => takeException d h 0x07 a s
      | some x =>
        if ¬ (x.die = d ∧ x.target = 18) then takeException d h 0x07 a s
        else reachInput d (fun s =>
          match stxInput d h x addr (rget y.regs rb) s with
          | none => s
          | some (v, t) => retireNext d h (fun y => ({ y with res := none }.put rd v).journalIn v) t) s) s

/-- STX (10 R380, R381; 11 R418). -/
def execStx (d h rd ra rb : Nat) (s : State) : Host.Outcome State Fault Refusal := .next (hartStx d h rd ra rb s)

/-! ### Target timeout and withdrawal (11 R414 to R417) -/

/-- The register of the targets of a die that are fenced for die `d`. -/
def deadReg (d t : Nat) : Reg := { name := .coreDead, die := d, i := t }

/-- A target is fenced for the harts of a die, or no longer. -/
def setFence (d : Nat) (die target : Nat) (on : Bool) (s : State) : State :=
  s.setReg (deadReg d die) (putBit (s.reg (deadReg d die)) target on)

/-- A withdrawal is sent to the target's gate, and the target is fenced. -/
def sendWithdrawal (d : Nat) (w : Withdrawal) (s : State) : State :=
  setFence d w.die w.target true (s.modCore d fun c => { c with withdrawn := c.withdrawn ++ [w] })

/-- The timer of an access expires: load `i`, or the store at the head of the buffer, completes with an error. -/
def targetTimeout (d h : Nat) (load : Option Nat) (s : State) : State :=
  if ¬ (s.hasDie d = true ∧ s.active d = true ∧ h < 2) then s
  else match load with
    | some i =>
      match (s.hart d h).loads.drop i with
      | [] => s
      | e :: _ =>
        match s.decodeAddr d e.addr with
        | none => s
        | some x =>
          if e.got.isSome ∨ s.fenced d x then s
          else retireLoads d h 8 (gotLoad d h i none
            (sendWithdrawal d { h := h, die := x.die, target := x.target, store := none, load := some e, recorded := false } s))
    | none =>
      match (s.hart d h).sbuf with
      | [] => s
      | e :: _ =>
        match s.decodeAddr d e.addr with
        | none => s
        | some x =>
          if s.fenced d x then s
          else
            let first := !(bitOf ((s.hart d h).csr.get 0 0x48) 63)
            let t := busError d h 1 x e.addr (popStore d h s)
            retireLoads d h 8 (sendWithdrawal d { h := h, die := x.die, target := x.target, store := some e, recorded := first } t)

/-- TARGET_TIMEOUT (11 R414 to R416). -/
def execTargetTimeout (d h : Nat) (load : Option Nat) (s : State) : Host.Outcome State Fault Refusal := .next (targetTimeout d h load s)

/-- A delivered access takes its effect at the target, and its response is discarded and counted. -/
def deliverLate (d h : Nat) (w : Withdrawal) (env : BusEnv) (s : State) : State :=
  let s1 := match w.store with
    | some e => (performStore d h env e s).2
    | none => (match w.load with
      | some e => (busRead (.hart d h) e.mid e.addr e.size env.ecc s).2
      | none => s)
  s1.count (dreg .coreCnt d) CoreCnt.LATE 1

/-- The gate of a die in service answers the oldest withdrawal of a hart: OUTCOME becomes 2 or 3, and the fence lifts when no other withdrawal
to the target waits. -/
def withdrawalAnswer (d h : Nat) (delivered : Bool) (env : BusEnv) (s : State) : State :=
  match takeFirst (fun w => w.h == h && s.active w.die) (s.core.dies.get {} d).withdrawn with
  | none => s
  | some (w, rest) =>
    let s1 := s.modCore d fun c => { c with withdrawn := rest }
    let s2 := if rest.any (fun u => u.die == w.die && u.target == w.target) then s1 else setFence d w.die w.target false s1
    let s3 := if delivered then deliverLate d h w env s2 else s2
    if w.recorded then s3.setFld { name := .coreBerrrec, die := d, i := h } CoreBerrrec.OUTCOME (if delivered then 3 else 2) else s3

/-- WITHDRAWAL_ANSWER (11 R414, R415). -/
def execWithdrawalAnswer (d h : Nat) (delivered : Bool) (env : BusEnv) (s : State) : Host.Outcome State Fault Refusal :=
  .next (withdrawalAnswer d h delivered env s)

end Sys2Proof.Machine
end

