-- ==== Sys2Proof/Machine/Dispatch.lean ====
section
/-! DEFINITION. The dispatch: one arm per command, a direct call of its meaning. -/

namespace Sys2Proof.Machine

/-- The effect of a command on everything but the queue. -/
def exec (i : Instr) (s : State) : Host.Outcome State Fault Refusal :=
  match i with
  | .powerUp env prst => Sys2Proof.Machine.execPowerUp env prst s
  | .prstRelease env => Sys2Proof.Machine.execPrstRelease env s
  | .startTimerExpire env => Sys2Proof.Machine.execStartTimerExpire env s
  | .failedStartRestart env => Sys2Proof.Machine.execFailedStartRestart env s
  | .service d => Sys2Proof.Machine.execService d s
  | .fail d => Sys2Proof.Machine.execFail d s
  | .clratt d => Sys2Proof.Machine.execClratt d s
  | .preset d env => Sys2Proof.Machine.execPreset d env s
  | .mreset d env => Sys2Proof.Machine.execMreset d env s
  | .hready d => Sys2Proof.Machine.execHready d s
  | .resume d => Sys2Proof.Machine.execResume d s
  | .handoverTimeout env => Sys2Proof.Machine.execHandoverTimeout env s
  | .stage d src => Sys2Proof.Machine.execStage d src s
  | .stageComplete badBody => Sys2Proof.Machine.execStageComplete badBody s
  | .activate who d => Sys2Proof.Machine.execActivate who d s
  | .discard d => Sys2Proof.Machine.execDiscard d s
  | .actvActivate who d tag => Sys2Proof.Machine.execActvActivate who d tag s
  | .actvRefuse who d tag => Sys2Proof.Machine.execActvRefuse who d tag s
  | .settingsMigration d stat report store => Sys2Proof.Machine.execSettingsMigration d stat report store s
  | .migvMigrate who d tag => Sys2Proof.Machine.execMigvMigrate who d tag s
  | .migvDefaults who d tag => Sys2Proof.Machine.execMigvDefaults who d tag s
  | .flashRead d v => Sys2Proof.Machine.execFlashRead d v s
  | .flashProgram d v => Sys2Proof.Machine.execFlashProgram d v s
  | .flashErase4k d v => Sys2Proof.Machine.execFlashErase4k d v s
  | .flashErase64k d v => Sys2Proof.Machine.execFlashErase64k d v s
  | .flashCommandEnd d ok left => Sys2Proof.Machine.execFlashCommandEnd d ok left s
  | .flashTimeout d left => Sys2Proof.Machine.execFlashTimeout d left s
  | .svnBurn d v => Sys2Proof.Machine.execSvnBurn d v s
  | .queryDeviceIdentifiers => Sys2Proof.Machine.execQueryDeviceIdentifiers s
  | .getFirmwareParameters => Sys2Proof.Machine.execGetFirmwareParameters s
  | .getStatus => Sys2Proof.Machine.execGetStatus s
  | .requestUpdate => Sys2Proof.Machine.execRequestUpdate s
  | .passComponentTable => Sys2Proof.Machine.execPassComponentTable s
  | .updateComponent flash => Sys2Proof.Machine.execUpdateComponent flash s
  | .firmwareDataReceive off data => Sys2Proof.Machine.execFirmwareDataReceive off data s
  | .transferComplete badBody => Sys2Proof.Machine.execTransferComplete badBody s
  | .activateFirmware selfContained env => Sys2Proof.Machine.execActivateFirmware selfContained env s
  | .cancelUpdateComponent => Sys2Proof.Machine.execCancelUpdateComponent s
  | .cancelUpdate => Sys2Proof.Machine.execCancelUpdate s
  | .modeReqMinimal => Sys2Proof.Machine.execModeReqMinimal s
  | .modeReqHeld => Sys2Proof.Machine.execModeReqHeld s
  | .modeReqTransparent => Sys2Proof.Machine.execModeReqTransparent s
  | .modeReqPartitioned => Sys2Proof.Machine.execModeReqPartitioned s
  | .modeReqShared => Sys2Proof.Machine.execModeReqShared s
  | .modeReqFederated => Sys2Proof.Machine.execModeReqFederated s
  | .modeReqDiagnostic => Sys2Proof.Machine.execModeReqDiagnostic s
  | .modeReqReplay dies imgver => Sys2Proof.Machine.execModeReqReplay dies imgver s
  | .diagnosticEntryEnd => Sys2Proof.Machine.execDiagnosticEntryEnd s
  | .diagnosticExitEnd => Sys2Proof.Machine.execDiagnosticExitEnd s
  | .replayEntryEnd => Sys2Proof.Machine.execReplayEntryEnd s
  | .partitionDrainEnd => Sys2Proof.Machine.execPartitionDrainEnd s
  | .partitionDrainTimeout => Sys2Proof.Machine.execPartitionDrainTimeout s
  | .assistTimerExpire t => Sys2Proof.Machine.execAssistTimerExpire t s
  | .registerWrite who addr width v env => Sys2Proof.Machine.execRegisterWrite who addr width v env s
  | .meridianOffsetMeasure d offset => Sys2Proof.Machine.execMeridianOffsetMeasure d offset s
  | .meridianResyncEnd d => Sys2Proof.Machine.execMeridianResyncEnd d s
  | .meridianWrap => Sys2Proof.Machine.execMeridianWrap s
  | .refclkLoss d => Sys2Proof.Machine.execRefclkLoss d s
  | .apply d => Sys2Proof.Machine.execApply d s
  | .laneTxeqWrite d ll v => Sys2Proof.Machine.execLaneTxeqWrite d ll v s
  | .peggo who d v => Sys2Proof.Machine.execPeggo who d v s
  | .nerovFastExit d pp lane locked => Sys2Proof.Machine.execNerovFastExit d pp lane locked s
  | .laneTestWrite d ll v rx => Sys2Proof.Machine.execLaneTestWrite d ll v rx s
  | .inject d ll => Sys2Proof.Machine.execInject d ll s
  | .clr d ll => Sys2Proof.Machine.execClr d ll s
  | .laneTestEnd d ll => Sys2Proof.Machine.execLaneTestEnd d ll s
  | .pcieReplayTimerExpire d pp => Sys2Proof.Machine.execPcieReplayTimerExpire d pp s
  | .pcieLinkTrain d pp r => Sys2Proof.Machine.execPcieLinkTrain d pp r s
  | .flitReceive d ix f => Sys2Proof.Machine.execFlitReceive d ix f s
  | .ackTimerExpire d ix => Sys2Proof.Machine.execAckTimerExpire d ix s
  | .rttMeasure d ix rtt => Sys2Proof.Machine.execRttMeasure d ix rtt s
  | .laneMarkedBad d ix lane spares => Sys2Proof.Machine.execLaneMarkedBad d ix lane spares s
  | .keep who d pp tag => Sys2Proof.Machine.execKeep who d pp tag s
  | .stepdown who d pp tag => Sys2Proof.Machine.execStepdown who d pp tag s
  | .down who d pp tag => Sys2Proof.Machine.execDown who d pp tag s
  | .nerovTrain d pp r => Sys2Proof.Machine.execNerovTrain d pp r s
  | .nerovTrainTimeout d pp => Sys2Proof.Machine.execNerovTrainTimeout d pp s
  | .linkUp d pp => Sys2Proof.Machine.execLinkUp d pp s
  | .linkDown d pp => Sys2Proof.Machine.execLinkDown d pp s
  | .graceTimerExpire d pp => Sys2Proof.Machine.execGraceTimerExpire d pp s
  | .spanLinkDown d e => Sys2Proof.Machine.execSpanLinkDown d e s
  | .linkCfgWrite d ix v => Sys2Proof.Machine.execLinkCfgWrite d ix v s
  | .tlpAdmit d pp t seq hint => Sys2Proof.Machine.execTlpAdmit d pp t seq hint s
  | .headerEnterCourse d pp single ecc => Sys2Proof.Machine.execHeaderEnterCourse d pp single ecc s
  | .tableWordFetched d pp => Sys2Proof.Machine.execTableWordFetched d pp s
  | .tlpForwardingEntry d pp ptbad => Sys2Proof.Machine.execTlpForwardingEntry d pp ptbad s
  | .tlpTag d pp => Sys2Proof.Machine.execTlpTag d pp s
  | .spanRecordReceive d e p hint ecc => Sys2Proof.Machine.execSpanRecordReceive d e p hint ecc s
  | .spanReleaseReport d iport egress tc cls seq => Sys2Proof.Machine.execSpanReleaseReport d iport egress tc cls seq s
  | .fretLoad d v => Sys2Proof.Machine.execFretLoad d v s
  | .trapvFwd d v => Sys2Proof.Machine.execTrapvFwd d v s
  | .trapvFwdm d v => Sys2Proof.Machine.execTrapvFwdm d v s
  | .trapvHold d v => Sys2Proof.Machine.execTrapvHold d v s
  | .trapvRefuse d v => Sys2Proof.Machine.execTrapvRefuse d v s
  | .trapTimerExpire d pp slot => Sys2Proof.Machine.execTrapTimerExpire d pp slot s
  | .add x rd ra rb => Sys2Proof.Machine.execAdd x rd ra rb s
  | .sub x rd ra rb => Sys2Proof.Machine.execSub x rd ra rb s
  | .and x rd ra rb => Sys2Proof.Machine.execAnd x rd ra rb s
  | .or x rd ra rb => Sys2Proof.Machine.execOr x rd ra rb s
  | .xor x rd ra rb => Sys2Proof.Machine.execXor x rd ra rb s
  | .sll x rd ra rb => Sys2Proof.Machine.execSll x rd ra rb s
  | .srl x rd ra rb => Sys2Proof.Machine.execSrl x rd ra rb s
  | .sra x rd ra rb => Sys2Proof.Machine.execSra x rd ra rb s
  | .slt x rd ra rb => Sys2Proof.Machine.execSlt x rd ra rb s
  | .sltu x rd ra rb => Sys2Proof.Machine.execSltu x rd ra rb s
  | .min x rd ra rb => Sys2Proof.Machine.execMin x rd ra rb s
  | .minu x rd ra rb => Sys2Proof.Machine.execMinu x rd ra rb s
  | .max x rd ra rb => Sys2Proof.Machine.execMax x rd ra rb s
  | .maxu x rd ra rb => Sys2Proof.Machine.execMaxu x rd ra rb s
  | .cmovz x rd ra rb => Sys2Proof.Machine.execCmovz x rd ra rb s
  | .cmovn x rd ra rb => Sys2Proof.Machine.execCmovn x rd ra rb s
  | .clz x rd ra => Sys2Proof.Machine.execClz x rd ra s
  | .ctz x rd ra => Sys2Proof.Machine.execCtz x rd ra s
  | .popc x rd ra => Sys2Proof.Machine.execPopc x rd ra s
  | .addi x rd ra imm => Sys2Proof.Machine.execAddi x rd ra imm s
  | .andi x rd ra imm => Sys2Proof.Machine.execAndi x rd ra imm s
  | .ori x rd ra imm => Sys2Proof.Machine.execOri x rd ra imm s
  | .xori x rd ra imm => Sys2Proof.Machine.execXori x rd ra imm s
  | .slli x rd ra imm => Sys2Proof.Machine.execSlli x rd ra imm s
  | .srli x rd ra imm => Sys2Proof.Machine.execSrli x rd ra imm s
  | .srai x rd ra imm => Sys2Proof.Machine.execSrai x rd ra imm s
  | .slti x rd ra imm => Sys2Proof.Machine.execSlti x rd ra imm s
  | .sltui x rd ra imm => Sys2Proof.Machine.execSltui x rd ra imm s
  | .lui x rd imm => Sys2Proof.Machine.execLui x rd imm s
  | .extu x rd ra imm => Sys2Proof.Machine.execExtu x rd ra imm s
  | .insu x rd ra imm => Sys2Proof.Machine.execInsu x rd ra imm s
  | .beq x ra rb off => Sys2Proof.Machine.execBeq x ra rb off s
  | .bne x ra rb off => Sys2Proof.Machine.execBne x ra rb off s
  | .blt x ra rb off => Sys2Proof.Machine.execBlt x ra rb off s
  | .bge x ra rb off => Sys2Proof.Machine.execBge x ra rb off s
  | .bltu x ra rb off => Sys2Proof.Machine.execBltu x ra rb off s
  | .bgeu x ra rb off => Sys2Proof.Machine.execBgeu x ra rb off s
  | .jmp x off => Sys2Proof.Machine.execJmp x off s
  | .btst x ra bit off => Sys2Proof.Machine.execBtst x ra bit off s
  | .btcl x ra bit off => Sys2Proof.Machine.execBtcl x ra bit off s
  | .hxf x rd imm => Sys2Proof.Machine.execHxf x rd imm s
  | .hxb x rd imm => Sys2Proof.Machine.execHxb x rd imm s
  | .lk x rd ra rb handle ecc => Sys2Proof.Machine.execLk x rd ra rb handle ecc s
  | .lkf x rd ra ecc => Sys2Proof.Machine.execLkf x rd ra ecc s
  | .mset x field ra => Sys2Proof.Machine.execMset x field ra s
  | .mseti x field imm => Sys2Proof.Machine.execMseti x field imm s
  | .vFwd x imm => Sys2Proof.Machine.execVFwd x imm s
  | .vFwdm x imm => Sys2Proof.Machine.execVFwdm x imm s
  | .vHold x imm => Sys2Proof.Machine.execVHold x imm s
  | .vRefuse x imm => Sys2Proof.Machine.execVRefuse x imm s
  | .vTrap x imm => Sys2Proof.Machine.execVTrap x imm s
  | .mul d h rd ra rb => Sys2Proof.Machine.execMul d h rd ra rb s
  | .mulh d h rd ra rb => Sys2Proof.Machine.execMulh d h rd ra rb s
  | .mulhu d h rd ra rb => Sys2Proof.Machine.execMulhu d h rd ra rb s
  | .mulhsu d h rd ra rb => Sys2Proof.Machine.execMulhsu d h rd ra rb s
  | .div d h rd ra rb => Sys2Proof.Machine.execDiv d h rd ra rb s
  | .divu d h rd ra rb => Sys2Proof.Machine.execDivu d h rd ra rb s
  | .rem d h rd ra rb => Sys2Proof.Machine.execRem d h rd ra rb s
  | .remu d h rd ra rb => Sys2Proof.Machine.execRemu d h rd ra rb s
  | .jal d h rd off => Sys2Proof.Machine.execJal d h rd off s
  | .jalr d h rd ra imm => Sys2Proof.Machine.execJalr d h rd ra imm s
  | .auipc d h rd imm => Sys2Proof.Machine.execAuipc d h rd imm s
  | .lb d h rd ra imm => Sys2Proof.Machine.execLb d h rd ra imm s
  | .lh d h rd ra imm => Sys2Proof.Machine.execLh d h rd ra imm s
  | .lw d h rd ra imm => Sys2Proof.Machine.execLw d h rd ra imm s
  | .ld d h rd ra imm => Sys2Proof.Machine.execLd d h rd ra imm s
  | .lbu d h rd ra imm => Sys2Proof.Machine.execLbu d h rd ra imm s
  | .lhu d h rd ra imm => Sys2Proof.Machine.execLhu d h rd ra imm s
  | .lwu d h rd ra imm => Sys2Proof.Machine.execLwu d h rd ra imm s
  | .sb d h rs ra imm => Sys2Proof.Machine.execSb d h rs ra imm s
  | .sh d h rs ra imm => Sys2Proof.Machine.execSh d h rs ra imm s
  | .sw d h rs ra imm => Sys2Proof.Machine.execSw d h rs ra imm s
  | .sd d h rs ra imm => Sys2Proof.Machine.execSd d h rs ra imm s
  | .ldx d h rd ra => Sys2Proof.Machine.execLdx d h rd ra s
  | .stx d h rd ra rb => Sys2Proof.Machine.execStx d h rd ra rb s
  | .fenceS d h => Sys2Proof.Machine.execFenceS d h s
  | .fenceF d h => Sys2Proof.Machine.execFenceF d h s
  | .fenceI d h => Sys2Proof.Machine.execFenceI d h s
  | .wait d h => Sys2Proof.Machine.execWait d h s
  | .sysreq d h => Sys2Proof.Machine.execSysreq d h s
  | .brkpt d h => Sys2Proof.Machine.execBrkpt d h s
  | .tret d h => Sys2Proof.Machine.execTret d h s
  | .crd d h rd n => Sys2Proof.Machine.execCrd d h rd n s
  | .cwr d h ra n => Sys2Proof.Machine.execCwr d h ra n s
  | .cmod d h rd ra n set => Sys2Proof.Machine.execCmod d h rd ra n set s
  | .eventTaken d h => Sys2Proof.Machine.execEventTaken d h s
  | .hartWake d h => Sys2Proof.Machine.execHartWake d h s
  | .cyccmpMatch d h => Sys2Proof.Machine.execCyccmpMatch d h s
  | .checkpoint d h => Sys2Proof.Machine.execCheckpoint d h s
  | .lockstepDivergence d h => Sys2Proof.Machine.execLockstepDivergence d h s
  | .accessResponse d h load env => Sys2Proof.Machine.execAccessResponse d h load env s
  | .targetTimeout d h load => Sys2Proof.Machine.execTargetTimeout d h load s
  | .withdrawalAnswer d h delivered env => Sys2Proof.Machine.execWithdrawalAnswer d h delivered env s
  | .debugAccessTimeout d addr write => Sys2Proof.Machine.execDebugAccessTimeout d addr write s
  | .install who => Sys2Proof.Machine.execInstall who s
  | .revoke who => Sys2Proof.Machine.execRevoke who s
  | .coreClkSelect d v => Sys2Proof.Machine.execCoreClkSelect d v s
  | .stagingWrite who off v width worn => Sys2Proof.Machine.execStagingWrite who off v width worn s
  | .go who fence => Sys2Proof.Machine.execGo who fence s
  | .capoFlitReceive d => Sys2Proof.Machine.execCapoFlitReceive d s
  | .pageReloadEnd d => Sys2Proof.Machine.execPageReloadEnd d s
  | .epochDrained d => Sys2Proof.Machine.execEpochDrained d s
  | .epochRetire => Sys2Proof.Machine.execEpochRetire s
  | .bankSyncEnd d => Sys2Proof.Machine.execBankSyncEnd d s
  | .restamp d pp => Sys2Proof.Machine.execRestamp d pp s
  | .translationSlow d pp => Sys2Proof.Machine.execTranslationSlow d pp s
  | .fenceTimerExpire d pp tc => Sys2Proof.Machine.execFenceTimerExpire d pp tc s
  | .scrubPass d corrected badPage => Sys2Proof.Machine.execScrubPass d corrected badPage s
  | .cellDraw d w hint => Sys2Proof.Machine.execCellDraw d w hint s
  | .zeroEngineStep d clean => Sys2Proof.Machine.execZeroEngineStep d clean s
  | .auditRound d => Sys2Proof.Machine.execAuditRound d s
  | .reclaim who d tag => Sys2Proof.Machine.execReclaim who d tag s
  | .leakvKeep who d tag => Sys2Proof.Machine.execLeakvKeep who d tag s
  | .bufReservationWrite d part ix v => Sys2Proof.Machine.execBufReservationWrite d part ix v s
  | .holdQueueRelease flow => Sys2Proof.Machine.execHoldQueueRelease flow s
  | .holdAgeExpire flow => Sys2Proof.Machine.execHoldAgeExpire flow s
  | .pxvRed who d tag => Sys2Proof.Machine.execPxvRed who d tag s
  | .pxvHold who d tag => Sys2Proof.Machine.execPxvHold who d tag s
  | .pxvDemote who d tag => Sys2Proof.Machine.execPxvDemote who d tag s
  | .pxvRefuse who d tag => Sys2Proof.Machine.execPxvRefuse who d tag s
  | .pxQuietExpire flow => Sys2Proof.Machine.execPxQuietExpire flow s
  | .schedulerSelect d pp ecc => Sys2Proof.Machine.execSchedulerSelect d pp ecc s
  | .qshapeWrite d pp q v => Sys2Proof.Machine.execQshapeWrite d pp q v s
  | .histTick d pp => Sys2Proof.Machine.execHistTick d pp s
  | .snap d pp => Sys2Proof.Machine.execSnap d pp s
  | .faceConfigRequest n face fn t what => Sys2Proof.Machine.execFaceConfigRequest n face fn t what s
  | .followTimeout n => Sys2Proof.Machine.execFollowTimeout n s
  | .almlockWrite who v => Sys2Proof.Machine.execAlmlockWrite who v s
  | .almpatchWrite who ix word v => Sys2Proof.Machine.execAlmpatchWrite who ix word v s
  | .proxyCompletion d t => Sys2Proof.Machine.execProxyCompletion d t s
  | .proxyTimeout d tag => Sys2Proof.Machine.execProxyTimeout d tag s
  | .secondaryBusReset n k => Sys2Proof.Machine.execSecondaryBusReset n k s
  | .faceLinkRetrain n k => Sys2Proof.Machine.execFaceLinkRetrain n k s
  | .powerControllerControl n k off => Sys2Proof.Machine.execPowerControllerControl n k off s
  | .initiateFlr n => Sys2Proof.Machine.execInitiateFlr n s
  | .pmeTurnOff n face => Sys2Proof.Machine.execPmeTurnOff n face s
  | .pmeToTimeout n face => Sys2Proof.Machine.execPmeToTimeout n face s
  | .walkReadCompletion d id ok entry ptbad => Sys2Proof.Machine.execWalkReadCompletion d id ok entry ptbad s
  | .walkReadTimeout d id => Sys2Proof.Machine.execWalkReadTimeout d id s
  | .ptabWrite who off v => Sys2Proof.Machine.execPtabWrite who off v s
  | .ptownWrite who f v => Sys2Proof.Machine.execPtownWrite who f v s
  | .xltinvAll who => Sys2Proof.Machine.execXltinvAll who s
  | .xltinvContext who ctx => Sys2Proof.Machine.execXltinvContext who ctx s
  | .xltinvRange who ctx pages => Sys2Proof.Machine.execXltinvRange who ctx pages s
  | .xltinvEnd => Sys2Proof.Machine.execXltinvEnd s
  | .prgResponse n face tag code ptbad => Sys2Proof.Machine.execPrgResponse n face tag code ptbad s
  | .prvSuccess who d tag ptbad => Sys2Proof.Machine.execPrvSuccess who d tag ptbad s
  | .prvInvalidRequest who d tag => Sys2Proof.Machine.execPrvInvalidRequest who d tag s
  | .prvResponseFailure who d tag => Sys2Proof.Machine.execPrvResponseFailure who d tag s
  | .dmaOwnerWrite d c v => Sys2Proof.Machine.execDmaOwnerWrite d c v s
  | .dmaEnable d c v => Sys2Proof.Machine.execDmaEnable d c v s
  | .dmaDisable d c v => Sys2Proof.Machine.execDmaDisable d c v s
  | .dmaTailWrite d c v => Sys2Proof.Machine.execDmaTailWrite d c v s
  | .dmaDescriptorFetch d c => Sys2Proof.Machine.execDmaDescriptorFetch d c s
  | .copy d c => Sys2Proof.Machine.execCopy d c s
  | .fill d c => Sys2Proof.Machine.execFill d c s
  | .dmaChunkIssue d hint ptbad => Sys2Proof.Machine.execDmaChunkIssue d hint ptbad s
  | .dmaReadCompletion d c tag ok data => Sys2Proof.Machine.execDmaReadCompletion d c tag ok data s
  | .dmaReadTimeout d c tag => Sys2Proof.Machine.execDmaReadTimeout d c tag s
  | .dmaCompletionRecord d c ok => Sys2Proof.Machine.execDmaCompletionRecord d c ok s
  | .dmaFvComplete who d c tag => Sys2Proof.Machine.execDmaFvComplete who d c tag s
  | .retry who d c tag => Sys2Proof.Machine.execRetry who d c tag s
  | .stop who d c tag => Sys2Proof.Machine.execStop who d c tag s
  | .faultTaken d env => Sys2Proof.Machine.execFaultTaken d env s
  | .escalationTimerExpire d ix => Sys2Proof.Machine.execEscalationTimerExpire d ix s
  | .quietExpire d ix pass ok env => Sys2Proof.Machine.execQuietExpire d ix pass ok env s
  | .handled who d tag sets => Sys2Proof.Machine.execHandled who d tag sets s
  | .escalate who d tag => Sys2Proof.Machine.execEscalate who d tag s
  | .release who d tag pass ok env => Sys2Proof.Machine.execRelease who d tag pass ok env s
  | .dpcTrigger n k => Sys2Proof.Machine.execDpcTrigger n k s
  | .dpcRelease n k => Sys2Proof.Machine.execDpcRelease n k s
  | .spanIsolationTimeout d => Sys2Proof.Machine.execSpanIsolationTimeout d s
  | .watchdogExpire d => Sys2Proof.Machine.execWatchdogExpire d s
  | .kick d => Sys2Proof.Machine.execKick d s
  | .pollForPlatformEventMessage ack => Sys2Proof.Machine.execPollForPlatformEventMessage ack s
  | .platformEventMessageResponse ok => Sys2Proof.Machine.execPlatformEventMessageResponse ok s
  | .evtRouteWrite d e v => Sys2Proof.Machine.execEvtRouteWrite d e v s
  | .domainRequest x v => Sys2Proof.Machine.execDomainRequest x v s
  | .domainWake x => Sys2Proof.Machine.execDomainWake x s
  | .domainTransitionEnd x => Sys2Proof.Machine.execDomainTransitionEnd x s
  | .domainFail x => Sys2Proof.Machine.execDomainFail x s
  | .bufbCloseEnd d k => Sys2Proof.Machine.execBufbCloseEnd d k s
  | .retainedAccessWake d ix => Sys2Proof.Machine.execRetainedAccessWake d ix s
  | .padRelease d v => Sys2Proof.Machine.execPadRelease d v s
  | .tempSample d tj => Sys2Proof.Machine.execTempSample d tj s
  | .tempSensorTimeout d => Sys2Proof.Machine.execTempSensorTimeout d s
  | .avsAck d accepted vdone => Sys2Proof.Machine.execAvsAck d accepted vdone s
  | .avsTimeout d => Sys2Proof.Machine.execAvsTimeout d s
  | .avsRetry d => Sys2Proof.Machine.execAvsRetry d s
  | .railOutOfRange r => Sys2Proof.Machine.execRailOutOfRange r s
  | .vhildLoss => Sys2Proof.Machine.execVhildLoss s
  | .vhildReturn => Sys2Proof.Machine.execVhildReturn s
  | .prsntChange n b low => Sys2Proof.Machine.execPrsntChange n b low s
  | .slotSeated n => Sys2Proof.Machine.execSlotSeated n s
  | .feedRangeChange n b mv => Sys2Proof.Machine.execFeedRangeChange n b mv s
  | .reverseTurnoff n b => Sys2Proof.Machine.execReverseTurnoff n b s
  | .oringReenhance n b => Sys2Proof.Machine.execOringReenhance n b s
  | .faultTimerStart n => Sys2Proof.Machine.execFaultTimerStart n s
  | .faultTimerStop n => Sys2Proof.Machine.execFaultTimerStop n s
  | .timeout n => Sys2Proof.Machine.execTimeout n s
  | .rampto n => Sys2Proof.Machine.execRampto n s
  | .fetfault n => Sys2Proof.Machine.execFetfault n s
  | .short n => Sys2Proof.Machine.execShort n s
  | .gateokChange n on => Sys2Proof.Machine.execGateokChange n on s
  | .pgoodQualify n => Sys2Proof.Machine.execPgoodQualify n s
  | .perstRelease n => Sys2Proof.Machine.execPerstRelease n s
  | .pwrenSet n v => Sys2Proof.Machine.execPwrenSet n v s
  | .pwrenClear n v => Sys2Proof.Machine.execPwrenClear n v s
  | .dischargeEnd n => Sys2Proof.Machine.execDischargeEnd n s
  | .proceed who n tag => Sys2Proof.Machine.execProceed who n tag s
  | .abort who n tag => Sys2Proof.Machine.execAbort who n tag s
  | .sendByte r v => Sys2Proof.Machine.execSendByte r v s
  | .recvByte r v => Sys2Proof.Machine.execRecvByte r v s
  | .writeByte r v => Sys2Proof.Machine.execWriteByte r v s
  | .readByte r v => Sys2Proof.Machine.execReadByte r v s
  | .writeWord r v => Sys2Proof.Machine.execWriteWord r v s
  | .readWord r v => Sys2Proof.Machine.execReadWord r v s
  | .blockWrite r v => Sys2Proof.Machine.execBlockWrite r v s
  | .blockRead r v => Sys2Proof.Machine.execBlockRead r v s
  | .i2cWrite r v => Sys2Proof.Machine.execI2cWrite r v s
  | .i2cRead r v => Sys2Proof.Machine.execI2cRead r v s
  | .lock r => Sys2Proof.Machine.execLock r s
  | .unlock r => Sys2Proof.Machine.execUnlock r s
  | .smbusTransactionEnd d ix status data => Sys2Proof.Machine.execSmbusTransactionEnd d ix status data s
  | .smbusClockTimeout d ix => Sys2Proof.Machine.execSmbusClockTimeout d ix s
  | .windowReadHoldExpire n k off => Sys2Proof.Machine.execWindowReadHoldExpire n k off s
  | .talloc d => Sys2Proof.Machine.execTalloc d s
  | .free d t => Sys2Proof.Machine.execFree d t s
  | .ticketDiscard d t => Sys2Proof.Machine.execTicketDiscard d t s
  | .lockIdleTimeout d ix => Sys2Proof.Machine.execLockIdleTimeout d ix s
  | .sidebandPoll d wake clkreq => Sys2Proof.Machine.execSidebandPoll d wake clkreq s
  | .hildSignalRead d => Sys2Proof.Machine.execHildSignalRead d s
  | .clkreqRequest d pp on => Sys2Proof.Machine.execClkreqRequest d pp on s
  | .segmentSeal d ch owner => Sys2Proof.Machine.execSegmentSeal d ch owner s
  | .triggerFire d ix => Sys2Proof.Machine.execTriggerFire d ix s
  | .freeze d => Sys2Proof.Machine.execFreeze d s
  | .rectrigEdge => Sys2Proof.Machine.execRectrigEdge s
  | .remoteTrigger d src => Sys2Proof.Machine.execRemoteTrigger d src s
  | .arm d v => Sys2Proof.Machine.execArm d v s
  | .anchorStart => Sys2Proof.Machine.execAnchorStart s
  | .anchorEnd d => Sys2Proof.Machine.execAnchorEnd d s
  | .startReplay d a feed => Sys2Proof.Machine.execStartReplay d a feed s
  | .replayDone d => Sys2Proof.Machine.execReplayDone d s
  | .recGetStat => Sys2Proof.Machine.execRecGetStat s
  | .recGetSegment d seg => Sys2Proof.Machine.execRecGetSegment d seg s
  | .recMctpFreeze => Sys2Proof.Machine.execRecMctpFreeze s
  | .recMctpArm => Sys2Proof.Machine.execRecMctpArm s
  | .dllpReceive d pp m => Sys2Proof.Machine.execDllpReceive d pp m s
  | .linkLowPowerEntry d pp k width => Sys2Proof.Machine.execLinkLowPowerEntry d pp k width s
  | .linkLowPowerExit d pp => Sys2Proof.Machine.execLinkLowPowerExit d pp s
  | .dischargeStart n => Sys2Proof.Machine.execDischargeStart n s
  | .rampVdsBelow200mv n => Sys2Proof.Machine.execRampVdsBelow200mv n s
  | .rejoinCopyEnd d => Sys2Proof.Machine.execRejoinCopyEnd d s
  | .illegalInstruction d h w uncorrectable => Sys2Proof.Machine.execIllegalInstruction d h w uncorrectable s

end Sys2Proof.Machine
end

