-- ==== Sys2Proof/Machine/Idle.lean ====
section
/-! DEFINITION. What happens while no command waits: time passes, and what depends on nothing but the state takes place (log entry 7). -/

namespace Sys2Proof.Machine

/-- One nanosecond of the meridian: 65,536 units (01 R39). -/
def tickUnits : Nat := 65536

/-- A die that resynchronises slews its count toward the lead die's by at most 1 part in 10^4, so by at most 6 units in a tick (01 R41). How
far within that bound is a free value (log entry 69). -/
def slew (d : Nat) (s : State) : State :=
  let k : Int := min 6 (Config.slewUnits d s.now).toNat
  let o := s.offsetToLead d
  if d = s.lead then s
  else s.modClock fun x => { x with offset := x.offset.set d (x.offset.get 0 d - max (-k) (min k o)) }

/-- Time passes: WRAPS counts a wrap of the lead die's meridian (01 R40), and dies that resynchronise slew (01 R41). -/
def passTime (s : State) : State :=
  let t := { s with now := s.now + tickUnits }
  let u := if s.meridian s.lead + tickUnits < 2 ^ 64 then t else t.count partMerstat PartMerstat.WRAPS 1
  u.forAll s.clock.slewing slew

/-- The domains that leave ON by themselves: ports and span links of the dies in service (14 R531). -/
def State.autoDomains (s : State) : List DomId :=
  s.activeDies.flatMap fun d =>
    ((List.range 16).map fun pp => dom d (16 + pp)) ++ ((List.range 8).filter (· != d)).map fun e => dom d (46 + e)

/-- Queued mirror copies of an analysis port that is disabled or not UP are dropped (06 R221). -/
def dropDeadMirrors (d a : Nat) (s : State) : State :=
  if s.fld (mircfg d a) BufMircfg.EN = 1 ∧ s.portUp (gport d (s.fld (mircfg d a) BufMircfg.PORT)) = true then s
  else ((s.bufDie d).mirrors.get [] a).foldl (fun t m => dropMirror d a m t)
    (s.modBufDie d fun b => { b with mirrors := b.mirrors.erase a })

/-- The queued mirror copies of a die: those that cannot be sent are dropped, and while the shared pool is short of SHED free cells the
oldest ones go (06 R221). -/
def tidyMirrors (d : Nat) (s : State) : State :=
  if (s.bufDie d).mirrors.all (fun x => x.2.isEmpty) then s
  else
    let s1 := s.forAll (List.range 4) (dropDeadMirrors d)
    if (s1.bufDie d).oldestMirror.isSome ∧ s1.sharedSize d - s1.sharedUsed d < s1.fld (dreg .bufMirshed d) BufMirshed.SHED then
      shedMirrors d ((s1.bufDie d).mirrors.map fun x => x.2.length).sum (raise (dreg .bufErr d) BufErr.MIRSHED s1)
    else s1

/-- A Nerov or span link that is up sends an IDLE flit with its current trailer (03 R81, R90). -/
def linkTick (x : Nat × Nat) (s : State) : State :=
  if s.linkState x.1 x.2 = 3 ∧ (16 ≤ x.2 ∨ s.isNerov (gport x.1 x.2) = true) then
    (updateXoff x.1 x.2 s).modLink x.1 x.2 fun l => { l with sent := some (l.idleFlit (decide (16 ≤ x.2))) }
  else s

/-- Every changed port of an apply has started training (02 R55; log entry 76). -/
def applyTick (d : Nat) (s : State) : State :=
  if s.fld (dreg .laneMapctl d) LaneMapctl.BUSY = 1 then s.setFld (dreg .laneMapctl d) LaneMapctl.BUSY 0 else s

/-- What runs in the lanes and link engines by itself: checkers, margining, IDLE flits, the end of an apply. -/
def engines (s : State) : State :=
  let s1 := (marginTick (checkTick s)).forAll s.activeDies applyTick
  s1.forAll (s1.links.map Prod.fst) linkTick

/-- What runs in a die's buffer and at the crossing of its control SRAM by itself: packets of the control island that waited for a cell, cells that could not move, lost reads of
channels, mirror copies that cannot stay, and writes that waited for the recorder (06 R204, R215, R220, R221, R224; 17 R608). -/
def bufferTick (d : Nat) (s : State) : State :=
  let s1 := settleAll d (serveControl d (s.bufDie d).ctlWait.length s)
  let lost := (s1.dma.ch.filter fun x => x.1.1 == d && !x.2.lost.isEmpty).map fun x => x.1.2
  serveForeign d ((s1.recDie d).waiting.length + 1) (tidyMirrors d (tidyCopied d (s1.forAll lost (lostReads d))))

/-- A step without a command: checkers, margining, links, a capo, function level resets and local targets go on, dies with a differing version are isolated, the recorder writes the events given to it, idle ports and span links go OFF,
and the buffers go on. -/
def idle (s : State) : State :=
  let c := capoTick (engines (passTime s))
  let s0 := (c.forAll c.tab.differ fun d => fun t => loseDie d 5 t).modTab fun t => { t with differ := [] }
  let s1 := recDrain ((s0.forAll s0.par.flr flrEnd).forAll ((s0.sch.queues.map fun x => x.1.1).filter fun x => decide (0x8000 ≤ x)) serveLocal)
  let s2 := s1.forAll s1.autoDomains autoOff
  s2.forAll s2.activeDies bufferTick

end Sys2Proof.Machine
end

