-- ==== Sys2Proof/Safety.lean ====
section
/-! DEFINITION. The terms in which the statements speak: that a command does something, when a hart can take an instruction and what it leaves
when the instruction retires, and the properties of a state that every step keeps. -/

namespace Sys2Proof.Machine

/-- A command has a next state, and the next state has a property. -/
def Does (c : Instr) (s : State) (p : State → Prop) : Prop := ∃ t, exec c s = .next t ∧ p t

/-- The memory's canonical form. -/
def MemOk (s : State) : Prop := s.mem.wf = true

/-- What a command that writes no register but those of some names leaves as it was: every other register, the memories, the harts, the
fuses and the queue. -/
def Keeps (ns : List RegName) (s t : State) : Prop :=
  t.mem = s.mem ∧ t.core = s.core ∧ t.fuses = s.fuses ∧ t.pending = s.pending ∧ ∀ r : Reg, r.name ∉ ns → t.reg r = s.reg r

/-- What a command leaves as it was that acts on the fabric alone: the memories, the harts, the fuses, the start and the queue. -/
def Still (s t : State) : Prop := t.mem = s.mem ∧ t.core = s.core ∧ t.fuses = s.fuses ∧ t.boot = s.boot ∧ t.pending = s.pending

/-! ### Harts -/

/-- Whether the instruction at a hart's pc can be fetched without a fault or a wake. -/
def State.fetchClean (s : State) (d h : Nat) : Bool :=
  match s.fetchDest d (s.hart d h).pc with
  | none => false
  | some x =>
    (s.refusedPage d x.target (s.midOf (.hart d h)) x.off 4 2).isNone && !(x.target == 18 && s.domCur (dom d (memDomain 18 x.off)) == 1)

/-- A hart outside a replay can take an instruction at once: it runs, nothing of it waits, the fetch is clean, and its journals have room. -/
def HartFree (s : State) (d h : Nat) : Prop :=
  s.hartRuns d h = true ∧ (s.hart d h).loads = [] ∧ s.fetchClean d h = true ∧ s.mode ≠ 7 ∧ (s.hart d h).inJ.length < 4095 ∧
    (s.hart d h).outJ.length < 4095

/-- The state after an instruction that changes one hart by `f` and retires. -/
def State.retired (s : State) (d h : Nat) (f : Hart → Hart) : State :=
  s.modHart d h fun x => let y := f x; { y with icount := y.icount + 1 }

/-- What an instruction that writes `v` to `rd` does to a hart. -/
def Hart.wrote (x : Hart) (rd : Nat) (v : Word) : Hart := { x with regs := rset x.regs rd v, pc := (x.pc + 4) % 2 ^ 64 }

/-- What a branch by `off` instructions does to a hart. -/
def Hart.branched (x : Hart) (off : Int) : Hart := { x with pc := (((x.pc : Int) + 4 * off) % (2 ^ 64 : Int)).toNat }

/-- A hart that goes on at the next instruction. -/
def Hart.stepped (x : Hart) : Hart := { x with pc := (x.pc + 4) % 2 ^ 64 }

/-! ### Fret engines -/

/-- A port's fret engine runs a course whose next instruction can execute. -/
def CourseFree (s : State) (d pp : Nat) (c : Course) : Prop :=
  s.fret.course.get {} (gport d pp) = c ∧ c.live = true ∧ c.verdict = none ∧ c.slot < 24

/-- The state with a port's course replaced. -/
def State.course (s : State) (d pp : Nat) (c : Course) : State :=
  { s with fret := { s.fret with course := s.fret.course.set (gport d pp) c } }

/-- What an instruction that writes `v` to `rd` does to a course. -/
def Course.wrote (c : Course) (rd : Nat) (v : Word) : Course := { c with regs := rset c.regs rd v, slot := c.slot + 1 }

end Sys2Proof.Machine
end

