-- ==== Sys2Proof/Certificates/Slice0/Obligations.lean ====
section
/-! DEFINITION. The statements for the provers. -/

open Sys2Proof Sys2Proof.Machine

/-- A step runs the command at the front of the queue with the queue's rest, and with an empty queue it is a tick (01_part_architecture.md R39, 95_what_each_step_holds.md). -/
def Obligations.StepRunsTheFrontCommand : Prop :=
  ∀ (s : State) (c : Instr) (rest : List Instr),
    step { s with pending := c :: rest } = exec c { s with pending := rest } ∧
    ∃ t, step { s with pending := [] } = .next t ∧ t.now = s.now + 65536 ∧ t.pending = []

/-- No command changes the queue of those that wait: each is taken once, in order (95_what_each_step_holds.md). -/
def Obligations.CommandsLeaveTheQueue : Prop :=
  ∀ (c : Instr) (s t : State), exec c s = .next t → t.pending = s.pending

/-- Every step keeps the memory in its canonical form, so that equal contents are equal states (11_control_memory_ordering_and_gates.md R405, 14_power_domains_and_regulators.md R532). -/
def Obligations.MemoryFormKeptByEveryStep : Prop :=
  ∀ (s t : State), MemOk s → step s = .next t → MemOk t

/-- The memory has its canonical form at reset, and every one of its bytes reads zero (14_power_domains_and_regulators.md R532). -/
def Obligations.MemoryFormAtReset : Prop :=
  MemOk State.reset ∧ ∀ a, State.reset.mem.get a = 0

/-- At part reset every register reads its reset value, no unit holds work, and the key vault's gate is armed and locked (R171, R402, R429, R488, R490, R646). -/
def Obligations.ResetValues : Prop :=
  let z := State.reset
  (∀ r : Reg, z.reg r = r.resetValue z.fuses) ∧
    z.pending = [] ∧ z.boot.held = true ∧ z.lead = 0 ∧ z.deputy = 0xF ∧ z.fld partLead PartLead.HILDPATH = 0xF ∧
    (∀ d, z.fld (gateCtl d 24) GateCtl.ARM = 1 ∧ z.fld (gateCtl d 24) GateCtl.LOCK = 1 ∧ z.regionLocked d 24 0 = true ∧
      ∀ group need, group < 16 → need < 3 → z.permits d 24 0 group need = (decide (group = 10) && decide (need = 0))) ∧
    (∀ d e, z.fld (z.route d e) EvtRoute.PEN = 1 ∧ z.fld (z.route d e) EvtRoute.BMC = 1 ∧ z.fld (z.route d e) EvtRoute.REC = 1 ∧
      z.fld (z.route d e) EvtRoute.INPUT = 8) ∧
    (∀ d e g, g < 128 → getBits (z.bankAt d e 0) 3 0 = 1 ∧ getBits (z.portWord d e g 0) 45 40 = 63) ∧
    (∀ d h, (z.hart d h).regs = [] ∧ (z.hart d h).sbuf = [] ∧ (z.hart d h).res = none) ∧
    (∀ d i, z.caseOn d i = false) ∧ ∀ d, z.recState d = 0

/-- A write of any master to a page that a locked region covers is refused: no memory and no register but the refusal's record changes (R424, R427, R428, R429, R432). -/
def Obligations.LockedPagesAreNeverWritten : Prop :=
  ∀ (s : State) (who : Master) (a n r : Nat) (v : Word) (env : BusEnv) (x : Dest),
    (∃ d h, who = .hart d h) ∨ who = .bmc ∨ who = .debug → s.reachOf who a = .at x → s.active x.die = true →
    s.lockedCover x.die x.target (x.off / 4096) = some r → 1 ≤ n →
    Does (.registerWrite who a n v env) s fun t => Keeps [.gateErr, .gateFrec0, .gateFrec1] s t ∧ t.boot = s.boot ∧ t.tab = s.tab ∧
      t.gate = s.gate ∧ t.fld (gateErr x.die) (if who = .debug then GateErr.DBGREF else GateErr.REFUSED) = 1

/-- A mode request is refused with the STATUS of its cause, or is accepted and waits for the older epoch or for its drain (R29, R30, R182, R194). -/
def Obligations.ModeRequests : Prop :=
  ∀ (s : State) (m dies ver : Nat) (c : Instr), (c, m) ∈ [(.modeReqMinimal, 0), (.modeReqHeld, 1), (.modeReqTransparent, 2), (.modeReqPartitioned, 3),
      (.modeReqShared, 4), (.modeReqFederated, 5), (.modeReqDiagnostic, 6), (.modeReqReplay dies ver, (7 : Nat))] →
    let busy := s.fld partMode PartMode.BUSY
    let refused := fun (v : Nat) => Does c s fun t => t = s.setFld partMode PartMode.STATUS v
    (s.mode = 0 → refused 4) ∧
    (s.mode ≠ 0 → busy = 1 → refused 3) ∧
    (s.mode = 7 → busy = 0 → refused 2) ∧
    (s.mode ∈ [1, 2, 3, 4, 5] → busy = 0 → m = 0 → refused 2) ∧
    (byCapo s.mode m = true → busy = 0 → s.capoTaken = true → Does c s fun t =>
      t = (s.setFld partCapo PartCapo.STATUS 3).setFld partMode PartMode.STATUS 3) ∧
    (byCapo s.mode m = true → busy = 0 → s.capoTaken = false → (s.tab.queue ≠ [] ∨ s.tab.heldWrites ≠ []) → Does c s fun t =>
      t = { s.setFld partMode PartMode.BUSY 1 with tab := { s.tab with check := some (m, s.modeReady s.mode m) } }) ∧
    (byCapo s.mode m = true → busy = 0 → s.capoTaken = false → s.tab.queue = [] → s.tab.heldWrites = [] → s.modeReady s.mode m = false → refused 5) ∧
    (byCapo s.mode m = true → busy = 0 → s.capoTaken = false → s.tab.queue = [] → s.tab.heldWrites = [] → s.modeReady s.mode m = true →
      (s.mode = 1 → s.fld { name := .partAlmlock } PartAlmlock.LOCK = 1) →
      let s1 := s.setFld partMode PartMode.BUSY 1
      ((s.mode, m) ∈ [(4, 3), (5, 4)] → Does c s fun t => t = { s1 with tab := { s.tab with drain := some m } }) ∧
      ((s.mode, m) ∉ [(4, 3), (5, 4)] → s.twoEpochs = true → Does c s fun t =>
        t = { s1.setFld partCapo PartCapo.STATUS 2 with tab := { s.tab with mode := some (m, s.mode), drain := none, waiting := true } }))

/-- DIAGNOSTIC and REPLAY are entered and left in two steps, and a drain ends in its capo or is refused (R29, R31, R71, R194, R619). -/
def Obligations.ModeTransitionsWithoutCapo : Prop :=
  ∀ (s : State) (m : Nat), m < 16 →
    let busy := s.fld partMode PartMode.BUSY
    (s.mode ∈ [2, 3, 4, 5] → busy = 0 → Does (.modeReqDiagnostic) s fun t => t.fld partMode PartMode.BUSY = 1 ∧ t.mode = s.mode ∧
      t.tab.request = some 6 ∧ t.mem = s.mem ∧
      ∀ d, s.active d = true → d < s.dieCount → t.lane.selected.get 0 d = s.fld (dreg .laneDiagsel d) LaneDiagsel.PORTS) ∧
    (∀ dies ver, s.mode = 1 → busy = 0 → s.granted 0 = true → s.recordingFits (dies, ver) = true → Does (.modeReqReplay dies ver) s fun t => t.fld partMode PartMode.BUSY = 1 ∧ t.mode = 1 ∧
      t.tab.request = some 7 ∧ t.mem = s.mem ∧
      ∀ d q, s.active d = true → d < s.dieCount → q < 16 → t.quad d q = if d = 0 ∧ q < 4 then 4 else 0) ∧
    (s.tab.request = some 6 → Does (.diagnosticEntryEnd) s fun t => t.mode = 6 ∧ t.baseMode = s.mode ∧ t.fld partMode PartMode.BUSY = 0 ∧
      t.fld partMode PartMode.STATUS = 1 ∧ t.tab = { s.tab with request := none } ∧ Keeps [.partMode] s t) ∧
    (s.mode = 6 → s.tab.request = some m → Does (.diagnosticExitEnd) s fun t => t.mode = m ∧ t.baseMode = m ∧ t.fld partMode PartMode.BUSY = 0 ∧
      t.fld partMode PartMode.STATUS = 1 ∧ t.tab = { s.tab with request := none } ∧ Keeps [.partMode] s t) ∧
    (s.tab.request = some 7 → Does (.replayEntryEnd) s fun t => t.mode = 7 ∧ t.fld partMode PartMode.BUSY = 0 ∧
      t.fld partMode PartMode.STATUS = 1 ∧ t.tab = { s.tab with request := none } ∧ Keeps [.partMode] s t) ∧
    (s.tab.drain = some m → s.drainOver m = true → s.twoEpochs = true → Does (.partitionDrainEnd) s fun t =>
      t = { s.setFld partCapo PartCapo.STATUS 2 with tab := { s.tab with mode := some (m, s.mode), drain := none, waiting := true } }) ∧
    (s.tab.drain = some m → Does (.partitionDrainTimeout) s fun t =>
      t = { (s.setFld partMode PartMode.BUSY 0).setFld partMode PartMode.STATUS 5 with tab := { s.tab with drain := none } })

/-- A register write stores through its gate, and the meridian and its clock follow R24 and R39 to R42 (R7, R24, R34, R39, R40, R41, R42, R427, R667). -/
def Obligations.RegisterAccessAndMeridian : Prop :=
  ∀ (s : State) (d : Nat), d < s.dieCount → s.active d = true →
    (∀ (ll : Nat) (v : Word) (env : BusEnv), ll < 64 → s.hasPath = true →
      let r : Reg := { name := .laneUserpat, die := d, i := ll }
      let ok := s.refusedPage d 0 0x80 (0x10040 + 0x100 * ll) 8 1
      (ok = none → Does (.registerWrite .bmc (dieBase d + 0x10040 + 0x100 * ll) 8 v env) s fun t =>
        t.reg r = v ∧ t.mem = s.mem ∧ ∀ x, x ≠ r → t.reg x = s.reg x) ∧
      (ok ≠ none → Does (.registerWrite .bmc (dieBase d + 0x10040 + 0x100 * ll) 8 v env) s fun t =>
        t.fld (dreg .gateErr d) GateErr.REFUSED = 1 ∧ Keeps [.gateErr, .gateFrec0, .gateFrec1] s t)) ∧
    (∀ offset : Int, d ≠ s.lead → Does (.meridianOffsetMeasure d offset) s fun t =>
      Keeps [.partMerstat] s t ∧
      (offset.natAbs ≤ 8 * 65536 → t.clock = { s.clock with offset := s.clock.offset.set d (s.clock.offset.get 0 s.lead + offset) } ∧ t.flt = s.flt) ∧
      (8 * 65536 < offset.natAbs → offset.natAbs ≤ 1000 * 65536 → d ∈ t.clock.slewing ∧ t.offsetToLead d = offset ∧
        (d ∉ s.clock.slewing → s.active s.lead = true → getBits (t.reg partMerstat) (PartMerstat.RESYNC.lo + d) (PartMerstat.RESYNC.lo + d) = 1)) ∧
      (1000 * 65536 < offset.natAbs → d ∈ t.clock.timeFault ∧ t.offsetToLead d = 0 ∧
        (s.active s.lead = true → getBits (t.reg partMerstat) (PartMerstat.TFAULT.lo + d) (PartMerstat.TFAULT.lo + d) = 1))) ∧
    (d ∈ s.clock.slewing → (s.offsetToLead d).natAbs ≤ 2 * 65536 → Does (.meridianResyncEnd d) s fun t =>
      t = { s with clock := { s.clock with slewing := s.clock.slewing.erase d, timeFault := s.clock.timeFault.erase d } }) ∧
    (Does (.meridianWrap) s fun t => t = { s.count partMerstat PartMerstat.WRAPS 1 with now := t.now } ∧ t.meridian s.lead = 0 ∧ s.now < t.now) ∧
    (s.clock.clock.get 0 d < 2 → Does (.refclkLoss d) s fun t =>
      let other := 1 - s.clock.clock.get 0 d
      Keeps [.partMerstat, .fltErr] s t ∧ (d, s.clock.clock.get 0 d) ∈ t.clock.lost ∧
      ((d, other) ∈ s.clock.lost → t.clock.clock.get 0 d = 2 ∧ t.fld (dreg .fltErr d) FltErr.REFBOTH = 1) ∧
      ((d, other) ∉ s.clock.lost → t.clock.clock.get 0 d = other ∧ t.fld (dreg .fltErr d) FltErr.REFCLK = 1 ∧
        (d ≠ s.lead → d ∈ t.clock.slewing))) ∧
    (∀ pp, s.pegWaiting d pp ≠ 0 → Does (.assistTimerExpire (.peg d pp)) s fun t =>
      Keeps [.lanePeg] s t ∧ (gport d pp, s.pegWaiting d pp) ∈ t.lane.pegExpired ∧
      ∀ ll, ll ∈ s.lanesOf d pp → t.fld (lanePeg d ll) LanePeg.TAG = 0 ∧ t.fld (lanePeg d ll) LanePeg.STATE = 2)

/-- APPLY, transmitter overrides, peg verdicts, lane tests and low power leave what R54 to R73 state (R54, R55, R58, R59, R64, R68, R70, R71, R73, R674). -/
def Obligations.LaneMapEqualizationAndTests : Prop :=
  ∀ (s : State) (d ll : Nat) (v : Word) (rx : LaneRx), d < s.dieCount → ll < 64 →
    let tx : Reg := { name := .laneTxeq, die := d, i := ll }
    let test : Reg := { name := .laneTest, die := d, i := ll }
    let stat := lreg .linkStat d
    let sum := LaneTxeq.CM2.of v + LaneTxeq.CM1.of v + LaneTxeq.C0.of v + LaneTxeq.CP1.of v
    let stores := Does (.laneTxeqWrite d ll v) s fun t => Keeps [.laneTxeq] s t ∧
      ∀ f, f ∈ [LaneTxeq.OVR, LaneTxeq.CM2, LaneTxeq.CM1, LaneTxeq.C0, LaneTxeq.CP1] → t.fld tx f = f.of v
    (applyStatus d s ≠ 1 → Does (.apply d) s fun t => t = s.setFld (dreg .laneMapctl d) LaneMapctl.STATUS (applyStatus d s)) ∧
    (applyStatus d s = 1 → Does (.apply d) s fun t => t.fld (dreg .laneMapctl d) LaneMapctl.STATUS = 1 ∧ Still s t ∧
      (∀ q, q < 16 → t.quad d q = (s.reg { name := .laneQmap, die := d, i := q }).toNat) ∧ ∀ e q, e ≠ d → t.quad e q = s.quad e q) ∧
    (LaneTxeq.OVR.of v = 1 → sum ≠ 63 → Does (.laneTxeqWrite d ll v) s fun t => t = s) ∧
    (LaneTxeq.OVR.of v = 0 → stores) ∧
    (LaneTxeq.OVR.of v = 1 → sum = 63 → LaneTxeq.CM2.of v = 0 → LaneTxeq.CM1.of v ≤ 15 →
      LaneTxeq.CM1.of v + LaneTxeq.CP1.of v + 21 ≤ LaneTxeq.C0.of v → stores) ∧
    (∀ h pp tag, LanePeggo.GO.of v = 1 → LanePeggo.PORT.of v = pp → LanePeggo.TAG.of v = tag → tag ≠ 0 → s.pegWaiting d pp = tag →
      (s.lanesOf d pp).all (s.pegFieldOk d pp) = true → Does (.peggo (.hart d h) d v) s fun t => Keeps [.lanePeg] s t ∧
        ∀ x, x ∈ s.lanesOf d pp → t.fld (lanePeg d x) LanePeg.TAG = 0 ∧ t.fld (lanePeg d x) LanePeg.STATE = 4 ∧
          t.lane.request.find (d, x) = some (s.pegSet d x)) ∧
    (LaneTest.GEN.of v = 1 → LaneTest.LOOP.of v ≤ 3 → LaneTest.PAT.of v ≤ 7 → s.testAllowed d ll = true →
      patternOk (LaneTest.PAT.of v) (s.laneRate d ll) = true → Does (.laneTestWrite d ll v rx) s fun t =>
        t.fld test LaneTest.STATUS = 1 ∧ (∀ f, f ∈ [LaneTest.LOOP, LaneTest.PAT, LaneTest.GEN, LaneTest.CHK] → t.fld test f = f.of v) ∧
        Keeps [.laneTest, .laneStat, .laneErrcnt, .laneBitcnt] s t) ∧
    (LaneTest.GEN.of v = 1 → LaneTest.CLR.of v = 0 → s.testAllowed d ll = false → Does (.laneTestWrite d ll v rx) s fun t =>
      t = s.setFld test LaneTest.STATUS 2) ∧
    (s.fld test LaneTest.GEN = 1 → s.fld test LaneTest.CHK = 1 → s.fld test LaneTest.SYNC = 1 → (s.reg (laneErrcnt d ll)).toNat < 2 ^ 64 - 1 →
      Does (.inject d ll) s fun t => t = s.setReg (laneErrcnt d ll) (s.reg (laneErrcnt d ll) + 1)) ∧
    (Does (.clr d ll) s fun t => t = (s.setReg (laneErrcnt d ll) 0).setReg (laneBitcnt d ll) 0) ∧
    (s.laneTests d ll = true → Does (.laneTestEnd d ll) s fun t => t.laneTests d ll = false ∧ t.fld (laneStat d ll) LaneStat.EIDLE = 1 ∧ Still s t) ∧
    (∀ pp k w, s.linkState d pp = 3 → k ∈ [1, 2, 6] → s.isNerov (gport d pp) = false → (k = 1 → s.fld (stat pp) LinkStat.FLIT = 0) →
      Does (.linkLowPowerEntry d pp k w) s fun t => t.linkState d pp = 5 ∧ (t.link d pp).lowPower = k ∧ Keeps [.linkStat, .laneRxeq, .laneDfe] s t) ∧
    (∀ pp, s.linkState d pp = 5 → (s.link d pp).lowPower ≠ 4 → Does (.linkLowPowerExit d pp) s fun t =>
      t = (setLinkState d pp 3 s).modLink d pp fun l => { l with lowPower := 0 }) ∧
    (∀ pp lane, s.isNerov (gport d pp) = true → s.linkState d pp = 5 → (s.link d pp).lowPower = 4 → (s.link d pp).noFastExit = false →
      (s.lanesOf d pp)[lane]? = some ll →
      Does (.nerovFastExit d pp lane true) s (fun t => t.linkState d pp = 3 ∧ (t.link d pp).lowPower = 0 ∧ Keeps [.linkStat, .laneStat] s t) ∧
      (2 ≤ s.lane.fastFail.get 0 (d, ll) → Does (.nerovFastExit d pp lane false) s fun t =>
        t.linkState d pp = 4 ∧ (t.link d pp).noFastExit = true ∧ (t.link d pp).fullTrain = true ∧
          Keeps [.linkStat, .linkErr, .laneRxeq, .laneDfe] s t))

/-- Flits and DLLPs are taken, acknowledged and replayed as R78 to R93 state, and measurements are stored (R78, R79, R81, R84, R85, R86, R87, R91, R92, R93, R94, R102). -/
def Obligations.LinkReliableTransport : Prop :=
  ∀ (s : State) (d i : Nat) (f : Flit), d < s.dieCount → s.active d = true →
    let l := s.link d i
    let err := lreg .linkErr d i
    let dist := (f.seq + 65536 + 65536 - l.rxAck - 1) % 65536
    (s.linkLive d i = true → f.good = false → Does (.flitReceive d i f) s fun t => t.fld err LinkErr.CRC = 1 ∧ t.links = s.links ∧ Keeps [.linkErr] s t) ∧
    (s.linkLive d i = true → f.good = true → f.typ ≠ 0 → f.ackv = false → f.fcv = false →
      (l.rxAck < 65536 → f.seq = (l.rxAck + 1) % 65536 → l.reorder = [] → Does (.flitReceive d i f) s fun t =>
        ∃ x, t = s.modLink d i fun l => { l with rxAck := f.seq, toCore := if f.typ = 1 then l.toCore ++ [f] else l.toCore, xoffOut := x }) ∧
      (512 ≤ dist → dist < 65024 → Does (.flitReceive d i f) s fun t => t.fld err LinkErr.SEQ = 1 ∧ (t.link d i).toCore = l.toCore ∧
        (t.link d i).rxAck = l.rxAck ∧ Keeps [.linkErr] s t)) ∧
    (s.linkLive d i = true → f.good = true → f.typ = 0 → f.ackv = true → f.fcv = false → f.ackmap = 0 → l.neverSent f.ack = false → l.newQ = [] →
      l.lateAck = none → i < 16 → Does (.flitReceive d i f) s fun t => ∃ x, t = s.modLink d i fun l =>
        { l with held := l.held.filter (fun h => !(decide ((f.ack + 65536 - h.flit.seq) % 65536 < 32768))), xoffOut := x }) ∧
    (∀ h rest, l.held = h :: rest → (∀ x, x ∈ rest → x.flit.seq ≠ h.flit.seq) → s.linkState d i = 3 →
      (h.replays < 3 → Does (.ackTimerExpire d i) s fun t => ∃ g x,
        (g.seq, g.typ, g.vl, g.cls, g.payload) = (h.flit.seq, h.flit.typ, h.flit.vl, h.flit.cls, h.flit.payload) ∧ g.ack = l.rxAck ∧
        t = (s.modLink d i fun l =>
          { l with held := { h with replays := h.replays + 1, sentAt := s.now, flit := g } :: rest, lateAck := some h.flit.seq, sent := some g,
                   xoffOut := x }).count (lreg .linkCnt d i) LinkCnt.REPLAYS 1) ∧
      (h.replays = 3 → i < 16 → Does (.ackTimerExpire d i) s fun t => t.fld err LinkErr.REPLAYLIM = 1 ∧ t.linkState d i = 4)) ∧
    (s.linkState d i = 3 → (l.replay.map fun h => h.seq).Nodup → (∀ h, h ∈ l.replay → h.replays + 1 < s.replayN d i) → Does (.pcieReplayTimerExpire d i) s fun t =>
      Keeps [.linkCnt] s t ∧ (t.link d i).replay.map (fun h => (h.seq, h.pkt, h.replays)) = l.replay.map (fun h => (h.seq, h.pkt, h.replays + 1))) ∧
    (∀ n, s.linkLive d i = true → 2048 ≤ (n + 4096 - l.pcieNext) % 4096 → l.lateAck = none → Does (.dllpReceive d i (.ack n)) s fun t =>
      t = s.modLink d i fun l => { l with replay := l.replay.filter fun h => decide (2048 ≤ (n + 4096 - h.seq) % 4096) }) ∧
    (∀ c h x, s.linkLive d i = true → Does (.dllpReceive d i (.updateFC c h x)) s fun t => Keeps [] s t ∧
      (t.link d i).crH.get 0 c = l.crH.get 0 c + h ∧ (t.link d i).crD.get 0 c = l.crD.get 0 c + x ∧ t.regs = s.regs) ∧
    (∀ rtt, (16 ≤ i ∨ s.isNerov (gport d i) = true) → s.linkState d i = 3 → 4 * rtt < 65536 →
      ((rtt * s.rawRate d i + 2559) / 2560 + 20 + 15) / 16 * 16 < 65536 → Does (.rttMeasure d i rtt) s fun t =>
        t.fld (lreg .linkRtt d i) LinkRtt.RTT = rtt ∧ t.fld (lreg .linkRtt d i) LinkRtt.ACKT = 4 * rtt ∧
        t.fld (lreg .linkVlhead d i) LinkVlhead.HMIN = ((rtt * s.rawRate d i + 2559) / 2560 + 20 + 15) / 16 * 16 ∧ Keeps [.linkRtt, .linkVlhead, .bufErr] s t) ∧
    (∀ lane spares, s.fld (dreg .linkHealth d) LinkHealth.THRESH ≠ 0 → s.linkLive d i = true →
      let active := fun (t : State) => t.fld (lreg .linkLanes d i) LinkLanes.ACTIVE
      (i < 16 → s.isNerov (gport d i) = true → lane < 16 → (active s).testBit lane = true →
        3 ≤ ((List.range 16).filter (active s).testBit).length → Does (.laneMarkedBad d i lane spares) s fun t =>
          (∀ k, k < 16 → (active t).testBit k = ((active s).testBit k && k != lane)) ∧ (t.fld (lreg .linkLanes d i) LinkLanes.BAD).testBit lane = true ∧
          t.fld err LinkErr.LANE = 1 ∧ Keeps [.linkLanes, .linkErr, .linkStat, .laneRxeq, .laneDfe] s t) ∧
      (16 ≤ i → spares ≠ 0 → Does (.laneMarkedBad d i lane spares) s fun t =>
        t.linkState d i = 8 ∧ t.linkState (i - 16) (16 + d) = 8 ∧ (t.link d i).bad = l.bad ++ [spares] ∧ Keeps [.linkStat] s t) ∧
      (16 ≤ i → i - 16 ≠ d → s.linkState d i = 8 → l.bad = [spares] → 1 < spares → (s.link (i - 16) (16 + d)).bad = [] →
        0 < s.fld (lreg .linkSpstat d i) LinkSpstat.SPARES → Does (.linkUp d i) s fun t =>
          t.linkState d i = 3 ∧ t.linkState (i - 16) (16 + d) = 3 ∧ (t.link d i).bad = [] ∧
          t.fld (lreg .linkSpstat d i) LinkSpstat.SPARES = s.fld (lreg .linkSpstat d i) LinkSpstat.SPARES - 1 ∧ t.fld err LinkErr.LANE = 1 ∧
          Keeps [.linkStat, .linkSpstat, .linkErr] s t))

/-- Links train, come up, go down and are reconfigured, and retrain verdicts act, as R96 to R103 state (R52, R96, R97, R98, R100, R103, R107). -/
def Obligations.LinkTrainingAndVerdicts : Prop :=
  ∀ (s : State) (d pp : Nat) (r : TrainResult), d < s.dieCount → pp < 16 →
    let st := lreg .linkStat d pp
    let cfg := lreg .linkCfg d pp
    let nerov := s.isNerov (gport d pp)
    let trains := s.mayTrain d pp = true ∧ s.linkState d pp ≠ 3 ∧ s.linkState d pp ≠ 5 ∧ s.linkState d pp ≠ 8
    let begins := trains ∧ s.linkState d pp ≠ 2 ∧ s.linkState d pp ≠ 4
    let again := fun (c : Instr) => Does c s fun t => t.linkState d pp = 3 ∧ (t.link d pp).grace = false ∧ (t.link d pp).ever = true ∧ Still s t
    let up := fun (c : Instr) => Does c s fun t => t.linkState d pp = 3 ∧ t.fld st LinkStat.RATE = s.trainRate d pp r ∧
      (t.link d pp).grace = false ∧ (t.link d pp).ever = true ∧ Still s t
    let fails := fun (c : Instr) => Does c s fun t => t.linkState d pp = 1 ∧ t.fld (lreg .linkErr d pp) LinkErr.TRAIN = 1 ∧ Still s t
    let quiet := (s.assist PartAssist.PEG = 0 ∨ s.mode = 0) ∧ r.through = true ∧ ∀ p, p ∈ r.pegs → p.stage ≠ 1 ∧ p.stage ≠ 2
    (r.reached = true → s.mayTrain d pp = true → s.linkState d pp = 4 → (s.link d pp).fullTrain = false →
      (nerov = false → again (.pcieLinkTrain d pp r)) ∧ (nerov = true → r.kloend = true → again (.nerovTrain d pp r))) ∧
    (nerov = false → begins → r.reached = true → quiet → up (.pcieLinkTrain d pp r)) ∧
    (nerov = true → begins → r.reached = true → r.kloend = true → quiet → up (.nerovTrain d pp r)) ∧
    (trains → s.linkState d pp ≠ 4 →
      (nerov = false → r.reached = false → fails (.pcieLinkTrain d pp r)) ∧
      (nerov = true → r.kloend = false → fails (.nerovTrain d pp r)) ∧
      (nerov = true → fails (.nerovTrainTimeout d pp))) ∧
    (s.mayTrain d pp = true → s.linkState d pp ≠ 3 → s.linkState d pp ≠ 0 → s.linkState d pp ≠ 5 → s.pegWaiting d pp = 0 → Does (.linkUp d pp) s fun t =>
      t.linkState d pp = 3 ∧ (t.link d pp).grace = false ∧ (t.link d pp).ever = true ∧ t.fld st LinkStat.HELD = 0 ∧ Still s t) ∧
    (s.linkLive d pp = true → s.active d = true → Does (.linkDown d pp) s fun t =>
      t.linkState d pp = (if s.mayTrain d pp then 1 else 7) ∧ (t.link d pp).held = [] ∧ (t.link d pp).replay = [] ∧
      t.fld (lreg .linkErr d pp) LinkErr.DOWN = 1 ∧ Still s t) ∧
    ((s.link d pp).grace = true → Does (.graceTimerExpire d pp) s fun t => (t.link d pp).grace = false ∧ t.fld st LinkStat.HELD = 0 ∧ Still s t) ∧
    (∀ e, e < s.dieCount → d ≠ e → s.linkLive d (16 + e) = true → Does (.spanLinkDown d e) s fun t =>
      t.linkState d (16 + e) = 7 ∧ t.linkState e (16 + d) = 7 ∧ Still s t) ∧
    (∀ v : Word,
      let ok := if nerov = true then LinkCfg.TRATE.of v = 6 ∨ LinkCfg.TRATE.of v = 7 else 1 ≤ LinkCfg.TRATE.of v ∧ LinkCfg.TRATE.of v ≤ 7
      let stored := fun (t : State) => t.fld cfg LinkCfg.KIND = LinkCfg.KIND.of v ∧ t.fld cfg LinkCfg.REPLAYN = LinkCfg.REPLAYN.of v ∧
        t.fld cfg LinkCfg.GRACE = min 500 (LinkCfg.GRACE.of v) ∧ (ok → t.fld cfg LinkCfg.TRATE = LinkCfg.TRATE.of v) ∧
        (¬ ok → t.fld cfg LinkCfg.TRATE = s.fld cfg LinkCfg.TRATE)
      (s.fld cfg LinkCfg.ENABLE = LinkCfg.ENABLE.of v → Does (.linkCfgWrite d pp v) s fun t => stored t ∧ Keeps [.linkCfg] s t) ∧
      (s.fld cfg LinkCfg.ENABLE = 1 → LinkCfg.ENABLE.of v = 0 → Does (.linkCfgWrite d pp v) s fun t =>
        stored t ∧ t.fld cfg LinkCfg.ENABLE = 0 ∧ t.linkState d pp = 0 ∧ Still s t)) ∧
    (∀ h tag, tag ≠ 0 → s.fld (lreg .linkRtv d pp) LinkRtv.TAG = tag →
      let ended := fun (t : State) => t.fld (lreg .linkRtv d pp) LinkRtv.TAG = 0 ∧ Still s t
      Does (.keep (.hart d h) d pp tag) s (fun t => ended t ∧ Keeps [.linkRtv] s t ∧
        (s.linkState d pp = 4 → (t.link d pp).restartCounts = true) ∧
        (s.linkState d pp ≠ 4 → ∀ x ∈ (t.link d pp).held, x.replays = 0)) ∧
      (s.canStep d pp = true → Does (.stepdown (.hart d h) d pp tag) s fun t => ended t ∧ t.linkState d pp = 4 ∧
        (t.link d pp).stepRate = some (s.fld st LinkStat.RATE - 1)) ∧
      Does (.down (.hart d h) d pp tag) s (fun t => ended t ∧ t.linkState d pp = (if s.mayTrain d pp then 1 else 7)))

/-- The fret-only instructions read headers and tables into a course, set its metadata, and give its verdict (R126, R127, R128, R129, R130, R133, R135, R138, R164, R165). -/
def Obligations.FretCourseInstructions : Prop :=
  ∀ (s : State) (d pp rd ra rb imm : Nat) (c : Course), CourseFree s d pp c → rd < 16 → imm < 65536 → d < s.dieCount → pp < 16 →
    let g := gport d pp
    let x : Exec := .course d pp
    let p := c.pkt
    let a := rget c.regs ra
    let e := p.epoch
    let gives := fun (i : Instr) (v : Word) => exec i s = .next (s.course d pp (c.wrote rd v))
    let sets := fun (i : Instr) (m : Meta) => exec i s = .next (s.course d pp { c with mdata := m, slot := c.slot + 1 })
    (∀ sel v, (sel, v) ∈ [(0x00, p.tlp.kind % 16), (0x01, p.tlp.cls), (0x02, p.tlp.tc % 8), (0x04, p.tlp.len % 2 ^ 13),
      (0x06, if p.tlp.isMem || p.tlp.kind == 4 || p.tlp.kind == 5 || ((p.tlp.kind == 10 || p.tlp.kind == 11) && p.tlp.mroute == 1) then
        p.tlp.addr % 2 ^ 64 else 0),
      (0x08, p.tlp.rid % 65536), (0x18, p.iport % 128), (0x19, s.portOwner (pdie p.iport) e p.iport), (0x1A, e % 65536)] →
      gives (.hxf x rd sel) (BitVec.ofNat 64 v)) ∧
    (∀ pos n, pos < 128 → n < 8 → gives (.hxb x rd (n * 128 + pos)) (BitVec.ofNat 64 (ofBytesBE ((List.range (n + 1)).map fun i =>
      if pos + i < 64 then p.tlp.raw.getD (pos + i) 0 else 0)))) ∧
    (∀ h, h < 16 → gives (.lk x rd ra rb h {}) (s.lookup d e g h a (rget c.regs rb)) ∧
      (bitOf (s.bankAt d e (0x7000 + 256 * g + 16 * h)) 63 = false → gives (.lk x rd ra rb h {}) 0)) ∧
    gives (.lkf x rd ra {}) (if a.toNat / 32768 = d then s.bankAt d e (0x600000 + 32 * a.toNat) else 0) ∧
    sets (.mset x 0 ra) { c.mdata with egress := a.toNat % 65536 } ∧
    sets (.mset x 2 ra) { c.mdata with flow := a.toNat % 2 ^ 19 } ∧
    sets (.mseti x 1 imm) { c.mdata with queue := some (imm % 16) } ∧
    sets (.mseti x 3 imm) { c.mdata with mirror := imm % 4 } ∧
    sets (.mseti x 4 imm) { c.mdata with noct := imm % 2 } ∧
    sets (.mseti x 5 imm) { c.mdata with xctx := imm } ∧
    (s.fret.parked = [] → s.fret.heldBack.get [] g = [] → s.recState d = 0 → c.bad = false → p.iport = g →
      let ends := fun (t : State) (v : Nat) => t.fret.course.get {} g = {} ∧ t.mem = s.mem ∧ t.core = s.core ∧
        t.fld { name := .fretVcnt, die := d, i := pp, j := v } FretVcnt.COUNT =
          (s.count { name := .fretVcnt, die := d, i := pp, j := v } FretVcnt.COUNT 1).fld { name := .fretVcnt, die := d, i := pp, j := v } FretVcnt.COUNT
      let decides := fun (i : Instr) (v : Nat) => Does i s fun t => ends t v ∧ Keeps [.fretVcnt] s t ∧
        t.fret.decided.get [] g = s.fret.decided.get [] g ++ [{ p with mdata := c.mdata, verdict := v, reason := imm }]
      decides (.vFwd x imm) 0 ∧ decides (.vFwdm x imm) 1 ∧ decides (.vHold x imm) 2 ∧
      (p.src = .port → p.tlp.cls = 1 → s.active d = true → Does (.vRefuse x imm) s fun t => ends t 3 ∧
        t.fret.decided.get [] g = s.fret.decided.get [] g ∧
        t.fld (tlerr g) (if imm.testBit 15 then FltTlerr.CASENT else FltTlerr.URSENT) = 1 ∧
        ∃ z, z.rid = p.tlp.rid ∧ z.tag = p.tlp.tag ∧ z.cst = (if imm.testBit 15 then 4 else 1) ∧
          ((∃ q y, t.queue g q = s.queue g q ++ [y] ∧ y.tlp = z) ∨ (t.bufDie d).ctlWait = (s.bufDie d).ctlWait ++ [(g, z)])) ∧
      Does (.vTrap x imm) s fun t => ends t 4 ∧
        let tag := nextTag 255 (s.fret.trapTag.get 0 d)
        t.fret.parked = [((g, 0), { pkt := { p with mdata := c.mdata, verdict := 4, reason := imm }, tag := tag })] ∧
        (tag < 256 → t.fld (traprec .fretTraprec0 g 0) FretTraprec0.TAG = tag) ∧ t.fld (traprec .fretTraprec0 g 0) FretTraprec0.VALID = 1)

/-- Packets are admitted, enter a course, pass forwarding entry, take their tag and cross the span as R112 to R148 state (R112, R113, R114, R116, R136, R143, R145, R148, R219). -/
def Obligations.AdmissionForwardingAndTagging : Prop :=
  ∀ (s : State) (d pp : Nat), d < s.dieCount → pp < 16 → s.active d = true → s.recState d = 0 →
    let g := gport d pp
    let hq := s.fret.hq.get [] g
    (∀ (p : Tlp) (seq hint : Nat), s.portUp g = true → s.flt.partCase = false → s.isNerov g = false → (s.link d pp).pcieRx = seq →
      p.crcBad = false →
      (p.malformed = true → s.hasPartial g = false → Does (.tlpAdmit d pp p seq hint) s fun t =>
        t.fld (tlerr g) FltTlerr.MALFORMED = 1 ∧ t.fret.hq.get [] g = hq) ∧
      (p.malformed = false → s.takenEarly g p = false → s.hasPartial g = false → p.whole = true →
        (storeRecord d (.pcie g p.cls) hint p s).isSome = true → Does (.tlpAdmit d pp p seq hint) s fun t =>
          (t.link d pp).pcieRx = (seq + 1) % 4096 ∧ t.mem = s.mem ∧
          ∃ y, t.fret.hq.get [] g = hq ++ [y] ∧ y.tlp = p ∧ y.iport = g ∧ y.epoch = s.newE d ∧ y.src = .port)) ∧
    (∀ p rest, hq = p :: rest → g ∉ s.fret.stopped → (s.fret.course.get {} g).live = false → s.modeOf p ∉ [0, 1] → s.mode ≠ 7 →
      s.progOf p.epoch g ≠ 63 → Does (.headerEnterCourse d pp true {}) s fun t => t.fret.hq.get [] g = rest ∧
        t.fret.course.get {} g = { pkt := p, prog := s.progOf p.epoch g, live := true } ∧ Keeps [] s t) ∧
    Does (.tableWordFetched d pp) s (fun t => t = { s with fret := { s.fret with stopped := s.fret.stopped.erase g } }) ∧
    (∀ p rest, s.fret.decided.get [] g = p :: rest → p.iport = g → p.src = .port → p.tlp.isErrMsg = false →
      (s.resolve p = none → Does (.tlpForwardingEntry d pp false) s fun t => t.fret.decided.get [] g = rest ∧
        t.fld (preg .fretErr g) FretErr.BADEGRESS = 1 ∧ t.fret.toTag.get [] g = s.fret.toTag.get [] g) ∧
      (∀ q, s.checks p = .ok q → s.tagFull p = false → p.tlp.isMem = true → p.xctx? = none → p.flow? = none → q.xctx? = none → q.flow? = none →
        Does (.tlpForwardingEntry d pp false) s fun t => t.fret.decided.get [] g = rest ∧
          t.fret.toTag.get [] g = s.fret.toTag.get [] g ++ [{ q with colour := 3 }] ∧ t.mem = s.mem)) ∧
    (∀ p rest o, s.fret.toTag.get [] g = p :: rest → p.iport = g → p.src = .port → p.dests = [o] → pdie o = d → o < 128 → p.hold = false →
      p.verdict = 0 → p.demq = none → s.linkState d (pnum o) = 3 → Does (.tlpTag d pp) s fun t => t.fret.toTag.get [] g = rest ∧
        ∃ y, t.queue o y.queue = s.queue o y.queue ++ [y] ∧ y.tlp = p.tlp ∧ y.egress = o ∧
          y.seq = ((s.streamOf (g, o, p.tlp.tc)).count.get 0 p.tlp.cls + 1) % 65536 ∧
          (t.streamOf (g, o, p.tlp.tc)).count.get 0 p.tlp.cls = y.seq) ∧
    (∀ e p hint, s.active e = true → d ≠ e → p.src = .port → (p.cellsOn e).all (fun c => !(s.cell e c).bad) = true → s.active (pdie p.iport) = true → pdie p.egress = d → p.egress < 128 → s.hasTag p = false →
      s.dieState d = 3 → s.linkState d (pnum p.egress) = 3 → (storeRecord d (.span d e p.tlp.tc p.tlp.cls) hint p.tlp s).isSome = true →
      Does (.spanRecordReceive d e p hint .clean) s fun t => t.mem = s.mem ∧
        ∃ y, t.queue p.egress p.queue = s.queue p.egress p.queue ++ [y] ∧ y.tlp = p.tlp ∧ y.seq = p.seq ∧ y.iport = p.iport) ∧
    (∀ e p hint, s.hasTag p = true → pdie p.egress = d → (p.cellsOn e).all (fun c => !(s.cell e c).bad) = true →
      Does (.spanRecordReceive d e p hint .clean) s fun t => t = s) ∧
    (∀ p rest, (s.bufDie d).spanPending = p :: rest → p.src = .port → s.tagGone p = true → Does (.spanReleaseReport d p.iport p.egress p.tlp.tc p.tlp.cls p.seq) s fun t =>
      (t.bufDie d).spanPending = rest ∧ (t.streamOf p.stream).outst.get 0 p.tlp.cls = (s.streamOf p.stream).outst.get 0 p.tlp.cls - 1 ∧
      Keeps [] s t)

/-- FRET_LOAD checks and stages a program, and trap verdicts and the trap timer decide a parked packet once (R120, R138, R139, R140, R144, R155, R158). -/
def Obligations.ProgramLoadsAndTrapVerdicts : Prop :=
  ∀ (s : State) (d : Nat) (v : Word), d < s.dieCount →
    let r := dreg .fretLoad d
    let slot := FretLoad.SLOT.of v
    let len := FretLoad.LEN.of v
    let words := (List.range 24).map fun i => (s.reg (fretStage d i)).toNat % 2 ^ 32
    let c := loadCheck words len slot
    (FretLoad.GO.of v = 1 → s.fld r FretLoad.BUSY ≠ 1 →
      ((s.mode = 0 ∨ s.mode = 7) → Does (.fretLoad d v) s fun t => t.fld r FretLoad.STATUS = 11 ∧ t.tab = s.tab ∧ Keeps [.fretLoad] s t) ∧
      (s.mode ≠ 0 → s.mode ≠ 7 → s.stageClosed = false → c.1 ≠ 1 → Does (.fretLoad d v) s fun t =>
        t.fld r FretLoad.STATUS = c.1 ∧ t.fld r FretLoad.BADIDX = c.2 ∧ t.tab = s.tab ∧ Keeps [.fretLoad] s t) ∧
      (s.mode ≠ 0 → s.mode ≠ 7 → s.stageClosed = false → c.1 = 1 → s.tab.heldWrites = [] →
        (∀ e page, s.active e = true → s.pageOk e 19 (0x58 + e) page 1 = true) → Does (.fretLoad d v) s fun t =>
        t.fld r FretLoad.STATUS = 1 ∧ Keeps [.fretLoad] s t ∧
        ∀ e j, s.active e = true → e < s.dieCount → 2 * j + 1 < len →
          bankWord (t.tabDie e).shadow (0x200 + 16 * slot + j) = BitVec.ofNat 64 (words.getD (2 * j + 1) 0 * 2 ^ 32 + words.getD (2 * j) 0))) ∧
    (let g := gport d (FretTrapv.PORT.of v)
     let k := FretTrapv.SLOT.of v
     ∀ x, s.fret.parked.find (g, k) = some x → x.pkt.iport = g → s.fret.heldBack.get [] g = [] →
       let md := if FretTrapv.OVR.of v = 1 then { x.pkt.mdata with egress := FretTrapv.EGRESS.of v, queue := some (FretTrapv.QUEUE.of v) } else x.pkt.mdata
       let freed := fun (t : State) => t.fret.parked.find (g, k) = none ∧ t.reg (traprec .fretTraprec0 g k) = 0 ∧ Still s t
       let decides := fun (i : Instr) (code : Nat) => Does i s fun t => freed t ∧
         t.fret.decided.get [] g = s.fret.decided.get [] g ++ [{ x.pkt with mdata := md, verdict := code, reason := 0, parked := true }]
       (x.tag = FretTrapv.TAG.of v → decides (.trapvFwd d v) 0 ∧ decides (.trapvFwdm d v) 1 ∧ decides (.trapvHold d v) 2 ∧
         (x.pkt.src = .port → x.pkt.tlp.cls ≠ 2 → s.active d = true → Does (.trapvRefuse d v) s fun t => freed t ∧ t.fld (tlerr g) FltTlerr.URSENT = 1 ∧
           t.fret.decided.get [] g = s.fret.decided.get [] g)) ∧
       (x.tag ≠ FretTrapv.TAG.of v →
         ((g, k, FretTrapv.TAG.of v) ∉ s.fret.trapExpired → Does (.trapvFwd d v) s fun t =>
           t.fret.parked = s.fret.parked ∧ t.fld (dreg .evtPulse d) EvtPulse.VREF = 1) ∧
         ((g, k, FretTrapv.TAG.of v) ∈ s.fret.trapExpired → Does (.trapvFwd d v) s fun t => t = s.count (dreg .fretDiecnt d) FretDiecnt.LATE 1)) ∧
       (s.fld (dreg .fretTrapcfg d) FretTrapcfg.FALLBACK ≠ 0 → Does (.trapTimerExpire d (FretTrapv.PORT.of v) k) s fun t => freed t ∧
         (g, k, x.tag) ∈ t.fret.trapExpired ∧
         t.fret.decided.get [] g = s.fret.decided.get [] g ++ [{ x.pkt with verdict := 0, reason := 0, parked := true }]))

/-- Staged words reach every shadow bank or wait in order, GO starts, waits or is refused, and each die flips on its CAPO flit (R168, R169, R182, R183, R185, R189). -/
def Obligations.StagingAndCapo : Prop :=
  ∀ (s : State) (who : Master) (off d : Nat) (v : Word) (fence : Bool) (worn : List Nat), d < s.dieCount → s.lead < s.dieCount → s.active s.lead = true →
    let l := s.lead
    let e := (s.newE l + 1) % 65536
    let soft := (worn.map fun x => (x, off / 8)) ++ s.tab.soft
    (s.flt.noLead = false → off % 8 = 0 → off < 8 * bankWords →
      (0x3000 ≤ off → s.stageClosed = false → Does (.stagingWrite who off v 8 worn) s fun t => Keeps [.gateErr, .gateFrec0, .gateFrec1] s t ∧
        ∀ x, x ∈ s.activeDies → (t.tabDie x).newest = (s.tabDie x).newest ∧
          bankWord (t.tabDie x).shadow (off / 8) = (if s.pageOk x 19 (0x58 + x) (off / 4096) 1 then v &&& bankMask s.dieCount (off / 8)
            else bankWord (s.tabDie x).shadow (off / 8)) ∧
          ∀ k, k ≠ off / 8 → bankWord (t.tabDie x).shadow k = bankWord (s.tabDie x).shadow k) ∧
      (0x3000 ≤ off → s.stageClosed = true → s.tab.queue.length < 4096 → Does (.stagingWrite who off v 8 worn) s fun t =>
        t = { s with tab := { s.tab with queue := s.tab.queue ++ [(off / 8, v)], soft := soft } }) ∧
      (off < 0x3000 → s.active (s.viaDie who) = true → Does (.stagingWrite who off v 8 worn) s fun t =>
        t.fld (dreg .tabErr (s.viaDie who)) TabErr.PROTECT = 1 ∧ t.tab = { s.tab with soft := soft } ∧ Keeps [.tabErr] s t)) ∧
    (let status := fun (n : Nat) => Does (.go who fence) s fun t => t.fld partCapo PartCapo.STATUS = n ∧
       t.fld partCapo PartCapo.FENCE = b2n fence ∧ t.fld partCapo PartCapo.BUSY = s.fld partCapo PartCapo.BUSY ∧
       t.tab = { s.tab with waiting := s.tab.waiting || n == 2 } ∧ Keeps [.partCapo] s t
     ((s.mode = 0 ∨ s.mode = 7) → status 4) ∧
     (s.mode ≠ 0 → s.mode ≠ 7 → s.capoTaken = true → status 3) ∧
     (s.mode ≠ 0 → s.mode ≠ 7 → s.capoTaken = false → s.twoEpochs = true → status 2) ∧
     (s.mode ≠ 0 → s.mode ≠ 7 → s.capoTaken = false → s.twoEpochs = false → s.tab.mode = none → Does (.go who fence) s fun t =>
       t.fld partCapo PartCapo.BUSY = 1 ∧ t.fld partCapo PartCapo.STATUS = 0 ∧ t.tab.applying = true ∧ t.tab.toFlip = s.activeDies ∧
         t.tab.capoE = e ∧ t.stageClosed = true ∧ t.newE l = s.newE l ∧ Keeps [.partCapo] s t ∧
         ((s.tabDie l).badPages = [] → (∀ x, x ∈ s.activeDies → s.sameVersion x = true) → s.activeDies.erase l ≠ [] → (s.bufDie l).spanWait = [] →
           let u := capoTick t
           u.newE l = e ∧ u.fld { name := .partEpoch } PartEpoch.NEW = e ∧ (u.tabDie l).older = some (s.tabDie l).newest ∧
             (∀ x, x ∈ s.activeDies → x ≠ l → x ∈ u.tab.flits ∨ u.dieState x = 4) ∧ (s.recState l = 0 → u.mem = s.mem)))) ∧
    (d ∈ s.tab.flits → d ∈ s.tab.toFlip → s.tab.toFlip.erase d ≠ [] → (s.bufDie d).spanWait = [] → Does (.capoFlitReceive d) s fun t =>
      t.newE d = s.tab.capoE ∧ (t.tabDie d).older = some (s.tabDie d).newest ∧ t.tab.toFlip = s.tab.toFlip.erase d ∧ t.dieState d = 3 ∧
      (s.recState d = 0 → t.mem = s.mem) ∧ ∀ k, k ≠ 0 → bankWord (t.tabDie d).newest k = bankWord (s.tabDie d).shadow k) ∧
    (d ∉ s.tab.toFlip → Does (.capoFlitReceive d) s fun t => t = s)

/-- Pages are reloaded and scrubbed, older epochs drain, retire and sync, old packets are restamped, and the fence expires (R181, R185, R188, R189, R190, R191, R193). -/
def Obligations.RetirementReloadAndFence : Prop :=
  ∀ (s : State) (d pp : Nat), d < s.dieCount → pp < 16 → s.active d = true →
    let g := gport d pp
    let b := s.tabDie d
    let x := s.xltDie d
    (∀ p rest, b.reload = p :: rest → s.reloadFrom d ≠ 0xF → b.newE = s.newE (s.reloadFrom d) →
      (rest ≠ [] ∨ s.dieState d = 4) → Does (.pageReloadEnd d) s fun t => (t.tabDie d).reload = rest ∧
        (rest = [] → d ∈ t.tab.flits) ∧ (t.tabDie d).newE = b.newE ∧ Keeps [.tabCnt] s t ∧
        (∀ k, pageOf k = p → bankWord (t.tabDie d).shadow k = bankWord (s.tabDie (s.reloadFrom d)).shadow k) ∧
        (∀ k, pageOf k ≠ p → bankWord (t.tabDie d).shadow k = bankWord b.shadow k)) ∧
    (b.older.isSome = true → d ∉ s.tab.drained → s.unsettled d b.oldE = 0 → Does (.epochDrained d) s fun t =>
      t.tab = { s.tab with drained := d :: s.tab.drained } ∧
      t.fld (dreg .tabDrain d) TabDrain.LAST = min 65535 ((s.meridian d + 2 ^ 64 - b.flipAt) % 2 ^ 64 / 65536) ∧ Keeps [.tabDrain] s t) ∧
    (s.tab.toFlip = [] → b.older.isSome = true → (∀ e, e ∈ s.activeDies → e ∈ s.tab.drained) → s.newE s.lead < 65536 → Does .epochRetire s fun t =>
      (∀ e, e ∈ s.activeDies → (t.tabDie e).older = none ∧ (t.tabDie e).newest = (s.tabDie e).newest ∧ (t.tabDie e).syncing = true) ∧
      t.fld { name := .partEpoch } PartEpoch.OLD = s.newE s.lead ∧ Keeps [.partEpoch] s t) ∧
    (b.syncing = true →
      ((∃ e, e ∈ s.activeDies ∧ e ≠ d ∧ (s.tabDie e).syncing = true) → Does (.bankSyncEnd d) s fun t => (t.tabDie d).syncing = false ∧
        t.tab.queue = s.tab.queue ∧ Keeps [] s t ∧
        ∀ k, bankWord (t.tabDie d).shadow k = if pageOf k ∈ b.syncPages then bankWord b.newest k else bankWord b.shadow k) ∧
      ((∀ e, e ∈ s.activeDies → (s.tabDie e).older = none ∧ (e = d ∨ (s.tabDie e).syncing = false)) → s.capoRuns = false → s.tab.waiting = false → s.tab.check = none →
        Does (.bankSyncEnd d) s fun t => (t.tabDie d).syncing = false ∧ t.tab.queue = [] ∧ t.tab.heldWrites = [] ∧
          Keeps [.gateErr, .gateFrec0, .gateFrec1, .fretLoad] s t)) ∧
    (b.older = none → Does (.restamp d pp) s fun t => t = s) ∧
    (∀ p, b.older.isSome = true → s.fret.decided.get [] g = [p] → olderEpoch p.epoch b.newE = true → s.tagFull p = true →
      Does (.restamp d pp) s fun t => t.fret.decided.get [] g = [] ∧
        t.fret.hq.get [] g = { p with epoch := b.newE, mdata := {}, verdict := 0, reason := 0 } :: s.fret.hq.get [] g ∧
        t.fld (dreg .tabCnt d) TabCnt.RESTAMPS = (s.count (dreg .tabCnt d) TabCnt.RESTAMPS 1).fld (dreg .tabCnt d) TabCnt.RESTAMPS ∧ t.mem = s.mem) ∧
    (∀ w, x.walks.find? (fun w => w.who == .tlp g && !w.queued) = some w →
      (256 ≤ x.fq.length → Does (.translationSlow d pp) s fun t => t.fld (dreg .xltErr d) XltErr.FQFULL = 1 ∧ (t.xltDie d).fq = x.fq ∧ t.mem = s.mem) ∧
      (x.fq.length < 256 → Does (.translationSlow d pp) s fun t => t.fld (dreg .xltErr d) XltErr.SLOW = 1 ∧ t.mem = s.mem ∧
        ∃ y, (t.xltDie d).fq = x.fq ++ [y] ∧ y.ctx = w.ctx ∧ y.va = w.va ∧ y.walk = some w.id)) ∧
    (∀ tc, s.fenceActive g tc (s.newE d) = true → Does (.fenceTimerExpire d pp tc) s fun t =>
      t.fld (dreg .tabErr d) TabErr.FENCE = 1 ∧ t.fenceActive g tc (s.newE d) = false ∧ Keeps [.tabErr] s t) ∧
    (∀ c, Does (.scrubPass d c none) s fun t => t = s.modTabDie d fun y => { y with corrected := y.corrected + c }) ∧
    (∀ c p bank, p < 224 → Does (.scrubPass d c (some (p, bank))) s fun t => t.fld (dreg .tabErr d) TabErr.SCRUB = 1 ∧
      (if bank = 0 then p ∈ (t.tabDie d).badNewest else p ∈ (t.tabDie d).badPages) ∧ p ∈ (t.tabDie d).reload ∧ Keeps [.tabErr] s t)

/-- Cells are drawn, zeroed, retired and audited, and leak verdicts and reservations act, as R204 to R228 state (R204, R207, R208, R210, R218, R225, R226, R227, R228). -/
def Obligations.CellsZeroingAndAudit : Prop :=
  ∀ (s : State) (d : Nat), d < s.dieCount → s.active d = true →
    let b := s.bufDie d
    let err := dreg .bufErr d
    let cells := b.cells.map Prod.fst
    let found := fun c => (s.holderCells d).count c
    (∀ w hint,
      let o := s.writerOwner w
      let opened := fun (t : State) (c : Nat) => (t.bufDie d).openCell.find w = some c ∧ (t.cell d c).state = 2 ∧ (t.cell d c).owner = o ∧
        (t.cell d c).ledger = s.drawLedger d w ∧ (t.cell d c).refs = 0 ∧ t.regs = s.regs ∧ Keeps [] s t
      let room := cells.Nodup ∧ (s.drawLedger d w).isSome = true
      let waits := Does (.cellDraw d w hint) s fun t => w ∈ (t.bufDie d).waiting ∧ (t.bufDie d).cells = b.cells ∧ Keeps [] s t
      (∀ c, room → b.drawFrom o hint = .zero c → Does (.cellDraw d w hint) s fun t => opened t c ∧ (t.cell d c).data = []) ∧
      (∀ x c, room → b.drawFrom o hint = .recycle x c → Does (.cellDraw d w hint) s fun t => opened t c ∧
        ∀ y, y ≠ x → (∀ p, b.openCell.find w ≠ some p) → (t.bufDie d).rawPool y = b.rawPool y) ∧
      (b.drawFrom o hint = .nothing → waits) ∧ (s.drawLedger d w = none → waits)) ∧
    (∀ clean,
      let target := s.fld { name := .bufZcfg, die := d } BufZcfg.ZTARGET
      let verify := takeFirst (fun c => !(b.away c)) b.verify
      (target ≤ b.zeroPool → Does (.zeroEngineStep d clean) s fun t => t = s) ∧
      (∀ c rest, b.zeroPool < target → verify = some (c, rest) →
        Does (.zeroEngineStep d true) s (fun t => t.cell d c = {} ∧ (t.bufDie d).verify = rest ∧ Keeps [.bufZcnt] s t) ∧
        Does (.zeroEngineStep d false) s (fun t => (t.cell d c).state = 5 ∧ (t.bufDie d).verify = rest ∧
          (t.bufDie d).retired = b.retired + 1 ∧ t.fld err BufErr.RETIRE = 1 ∧ Keeps [.bufErr, .bufZcnt] s t)) ∧
      (∀ o c rest, b.zeroPool < target → verify = none → ownerTags.find? (fun o => !(b.pool o).isEmpty && !(b.ownerBusy o)) = some o →
        b.pool o = c :: rest → Does (.zeroEngineStep d clean) s fun t => t.cell d c = {} ∧
          (t.bufDie d).rawPool o = (b.rawPool o).erase c ∧ Keeps [.bufZcnt] s t)) ∧
    (cells.Nodup →
      Does (.auditRound d) s fun t => t.mem = s.mem ∧
        t.fld { name := .bufAudit, die := d } BufAudit.ROUNDS =
          (s.count { name := .bufAudit, die := d } BufAudit.ROUNDS 1).fld { name := .bufAudit, die := d } BufAudit.ROUNDS ∧
        ∀ c, c ∈ cells →
          let x := s.cell d c
          ((x.state ≤ 1 ∧ 0 < found c) → (t.cell d c).refs = found c ∧ (t.cell d c).state = 3 ∧ t.fld err BufErr.REFOVER = 1) ∧
          ((x.state = 2 ∨ x.state = 3) → x.bad = false → found c < x.refs →
            (x.suspect ≠ some (x.refs, found c, b.round) →
              (t.cell d c).suspect = some (x.refs, found c, b.round + 1) ∧ t.fld err BufErr.LEAK = 1) ∧
            (x.suspect = some (x.refs, found c, b.round) → x.listed = false → s.assist PartAssist.LEAK = 0 →
              (t.cell d c).refs = found c ∧ t.fld err BufErr.RECLAIM = 1))) ∧
    (∀ h tag, tag ≠ 0 →
      (s.fld (dreg .bufLeakv d) BufLeakv.TAG = tag →
        let ended := fun (t : State) => t.fld (dreg .bufLeakv d) BufLeakv.TAG = 0 ∧ ∀ i, i < 64 → t.reg (leakRec d i) = 0
        Does (.leakvKeep (.hart d h) d tag) s (fun t => ended t ∧ (∀ c, (t.cell d c).refs = (s.cell d c).refs) ∧
          Keeps [.bufLeakv, .bufLeakrec] s t) ∧
        Does (.reclaim (.hart d h) d tag) s (fun t => ended t ∧ Keeps [.bufLeakv, .bufLeakrec, .bufErr, .bufAudit] s t ∧
          ∀ i, i < 64 → s.fld (leakRec d i) BufLeakrec.VALID = 1 →
            let c := s.fld (leakRec d i) BufLeakrec.CELL
            (s.cell d c).listed = true → (∀ j, j < i → s.fld (leakRec d j) BufLeakrec.CELL ≠ c) →
              (t.cell d c).refs = s.fld (leakRec d i) BufLeakrec.FOUND ∧ t.fld err BufErr.RECLAIM = 1)) ∧
      (s.fld (dreg .bufLeakv d) BufLeakv.TAG ≠ tag → tag ∉ b.leakExpired →
        Does (.leakvKeep (.hart d h) d tag) s (fun t => t.fld (dreg .evtPulse d) EvtPulse.VREF = 1 ∧ t.buf = s.buf) ∧
        Does (.reclaim (.hart d h) d tag) s (fun t => t.fld (dreg .evtPulse d) EvtPulse.VREF = 1 ∧ t.buf = s.buf))) ∧
    (∀ (n : Nat) (v : Word),
      let p : Reg := { name := .bufPart, die := d, i := n }
      let q : Reg := { name := .bufPres, die := d, i := n }
      let withPart := (s.setFld p BufPart.PCAP (BufPart.PCAP.of v)).setFld p BufPart.MINRES (BufPart.MINRES.of v)
      let withPres := (s.setFld q BufPres.HOLDRES (BufPres.HOLDRES.of v)).setFld q BufPres.INRES (BufPres.INRES.of v)
      let refused := fun (t : State) => t.fld err BufErr.RESV = 1 ∧ Keeps [.bufErr] s t
      (n < s.partCount → 16384 ≤ withPart.sharedSize d → Does (.bufReservationWrite d true n v) s fun t => t = withPart ∧
        t.fld p BufPart.PCAP = BufPart.PCAP.of v ∧ t.fld p BufPart.MINRES = BufPart.MINRES.of v) ∧
      (n < s.partCount → withPart.sharedSize d < 16384 → Does (.bufReservationWrite d true n v) s refused) ∧
      (n < 16 → 16384 ≤ withPres.sharedSize d → Does (.bufReservationWrite d false n v) s fun t => t = withPres ∧
        t.fld q BufPres.HOLDRES = BufPres.HOLDRES.of v ∧ t.fld q BufPres.INRES = BufPres.INRES.of v) ∧
      (n < 16 → withPres.sharedSize d < 16384 → Does (.bufReservationWrite d false n v) s refused))

/-- A hold queue lets one packet go when its bucket does, its age is only reported, and policing verdicts act until the flow is quiet (R244, R255, R258, R260, R261). -/
def Obligations.HoldQueuesAndPolicingVerdicts : Prop :=
  ∀ (s : State) (n : Nat),
    let d := n / flowsPerDie
    let f := s.flow n
    let c := s.flowCtx d (s.newE d) n
    (f.hold = [] → f.leaving = [] → Does (.holdQueueRelease n) s fun t => t = s) ∧
    (∀ p, f.hold = [p] → f.leaving = [] → pdie p.egress = pdie p.iport → p.egress < 128 → s.linkState (pdie p.egress) (pnum p.egress) = 3 →
      let goes := fun (t : State) => (t.flow n).hold = [] ∧ t.mem = s.mem ∧
        ∃ y, t.queue p.egress p.queue = s.queue p.egress p.queue ++ [y] ∧ y.tlp = p.tlp ∧ y.hold = false ∧ y.colour = p.colour ∧ y.seq = p.seq
      let r := f.refill c (s.nsOf d)
      let b := p.tlp.wire
      (c.valid = false → Does (.holdQueueRelease n) s fun t => goes t ∧ (t.flow n).tp = f.tp) ∧
      (c.valid = true → c.bad = false → c.chain = false →
        ((b * fix ≤ r.tp ∨ c.pbs * fix ≤ r.tp) → Does (.holdQueueRelease n) s fun t => goes t ∧ (t.flow n).tp = r.tp - b * fix ∧
          (t.flow n).tc = (if b * fix ≤ r.tc then r.tc - b * fix else r.tc)) ∧
        (r.tp < b * fix → r.tp < c.pbs * fix → Does (.holdQueueRelease n) s fun t => t = s.modFlow n fun _ => r))) ∧
    (∀ p rest, f.hold = p :: rest → s.active d = true → Does (.holdAgeExpire n) s fun t =>
      t.fld (dreg .schErr d) SchErr.HOLDAGE = 1 ∧ t.sch = s.sch ∧ Keeps [.schErr] s t) ∧
    (∀ (die h tag i : Nat), i < 64 →
      let waits := fun k => s.fld (pxrec die k) SchPxrec.VALID = 1 ∧ s.fld (pxrec die k) SchPxrec.ACTING = 0 ∧ s.fld (pxrec die k) SchPxrec.TAG = tag
      let acts := fun (a : Instr) (act : Nat) => Does a s fun t => t.fld (pxrec die i) SchPxrec.ACTING = 1 ∧
        (t.flow (s.pxFlow die i)).xstate = 2 ∧ (t.flow (s.pxFlow die i)).xact = act ∧ Keeps [.schPxrec] s t
      let refused := fun (a : Instr) => Does a s fun t => t.fld (dreg .evtPulse die) EvtPulse.VREF = 1 ∧ t.sch = s.sch
      (waits i → (∀ j, j < i → s.fld (pxrec die j) SchPxrec.TAG ≠ tag) → (s.flow (s.pxFlow die i)).xent = i →
        acts (.pxvRed (.hart die h) die tag) 0 ∧ acts (.pxvHold (.hart die h) die tag) 1 ∧ acts (.pxvDemote (.hart die h) die tag) 2 ∧
        acts (.pxvRefuse (.hart die h) die tag) 3) ∧
      ((∀ j, j < 64 → s.fld (pxrec die j) SchPxrec.TAG ≠ tag) → (die, tag) ∉ s.sch.pxExpired →
        refused (.pxvRed (.hart die h) die tag) ∧ refused (.pxvHold (.hart die h) die tag) ∧ refused (.pxvDemote (.hart die h) die tag) ∧
        refused (.pxvRefuse (.hart die h) die tag))) ∧
    (f.xstate = 2 → Does (.pxQuietExpire n) s fun t => t.reg (pxrec d f.xent) = 0 ∧ (t.flow n).xstate = 0 ∧ (t.flow n).tp = f.tp ∧
      Keeps [.schPxrec] s t) ∧
    (f.xstate ≠ 2 → Does (.pxQuietExpire n) s fun t => t = s)

/-- The scheduler sends the head of the first strict queue that may send, shapers refill, and ticks and snapshots feed the histograms (R264, R265, R266, R267, R268, R223, R277, R280). -/
def Obligations.SchedulerShapersAndSampling : Prop :=
  ∀ (s : State) (d pp : Nat), d < s.dieCount → pp < 16 →
    let g := gport d pp
    let l := s.link d pp
    let cfg := preg .schHcfg g
    (∀ ecc, s.linkState d pp ≠ 3 → Does (.schedulerSelect d pp ecc) s fun t => t = s) ∧
    (∀ q p rest, s.linkState d pp = 3 → s.isNerov g = false → s.recState d = 0 → q < 16 → s.queue g q = p :: rest → p.src = .port →
      (∀ k, k < 16 → s.fld (qcfg g k) SchQcfg.SP = 1 ∧ s.fld (qshape g k) SchQshape.RATE = 0) →
      s.releasable p = true → s.canTake g p.tlp = true → (∀ k, k < q → s.eligible g k = false) →
        ((p.cellsOn d).all (fun c => !(s.cell d c).bad) = true → Does (.schedulerSelect d pp .clean) s fun t => t.queue g q = rest ∧ (∀ k, k ≠ q → t.queue g k = s.queue g k) ∧ t.mem = s.mem ∧
          (t.link d pp).replay = l.replay ++ [{ seq := l.pcieNext, pkt := p }] ∧ (t.link d pp).pcieNext = (l.pcieNext + 1) % 4096) ∧
        (s.active d = true → p.tlp.cls ≠ 1 → Does (.schedulerSelect d pp .header) s fun t => t.queue g q = rest ∧
          (t.link d pp).replay = l.replay ∧ (t.link d pp).pcieNext = l.pcieNext ∧ t.fld (dreg .bufErr d) BufErr.UNCOR = 1 ∧ t.mem = s.mem)) ∧
    (∀ q (v : Word), q < 16 → Does (.qshapeWrite d pp q v) s fun t => t.reg (qshape g q) = v ∧ Keeps [.schQshape] s t ∧
      (t.schedOf g).level.get 0 q = ((SchQshape.BURST.of v * fix : Nat) : Int) ∧ (t.schedOf g).last.get 0 q = s.nsOf d ∧
      ∀ k, k ≠ q → (t.schedOf g).level.get 0 k = (s.schedOf g).level.get 0 k) ∧
    (s.fld cfg SchHcfg.EN = 0 → Does (.histTick d pp) s fun t => t = s) ∧
    (s.fld cfg SchHcfg.EN ≠ 0 → Does (.histTick d pp) s fun t => Keeps [] s t ∧ ∀ q b, q < 16 → b < 16 →
      let old := fun k => s.sch.hist.get 0 (g, q, k, b)
      t.sch.hist.get 0 (g, q, 0, b) = (if b = histBin (s.fld cfg SchHcfg.ZSCALE) (s.depth g q) then satAdd 32 (old 0) 1 else old 0) ∧
      (s.queue g q = [] → t.sch.hist.get 0 (g, q, 1, b) = if b = 0 then satAdd 32 (old 1) 1 else old 1)) ∧
    (Does (.snap d pp) s fun t => Keeps [.schHist, .schHctl] s t ∧
      t.fld (preg .schHctl g) SchHctl.SNAPSEQ = (s.fld (preg .schHctl g) SchHctl.SNAPSEQ + 1) % 65536 ∧
      ∀ q k b, q < 16 → k < 2 → b < 16 →
        t.reg { name := .schHist, die := d, i := pp, j := q, k := 16 * k + b } = BitVec.ofNat 64 (s.sch.hist.get 0 (g, q, k, b)) ∧
        t.sch.hist.get 0 (g, q, k, b) = 0)

/-- Configuration requests are answered, Followed writes are held and released on time, and the proxy answers the borrower (R75, R285, R286, R288, R289, R293, R294, R299, R473). -/
def Obligations.FaceConfigurationFollowAndProxy : Prop :=
  ∀ (s : State) (n f fn : Nat) (q : Tlp),
    let answers := fun (t : State) (g : Nat) (c : Tlp) => (∃ k y, t.queue g k = s.queue g k ++ [y] ∧ y.tlp = c ∧ y.src = .part) ∨
      (t.bufDie (pdie g)).ctlWait = (s.bufDie (pdie g)).ctlWait ++ [(g, c)]
    let w := q.addr / 4
    let follow := followReg n
    (∀ g p rest, s.facePort n f = some g → s.active (pdie g) = true → ((s.par.held.get [] n).any fun x => x.2.1 == f) = false →
      takeFirst (fun p => p.tlp == q && p.iport == g && s.releasable p) (s.queue (0x8000 + fn) 0) = some (p, rest) →
      n ∉ s.par.flr → (∀ x, x ∈ rest → x.tlp.isCfg = true) →
      let taken := fun (t : State) => t.queue (0x8000 + fn) 0 = rest ∧ t.mem = s.mem
      Does (.faceConfigRequest n f fn q .absent) s (fun t => taken t ∧ answers t g (completionFor q cplUR [])) ∧
      (q.kind = 6 → Does (.faceConfigRequest n f fn q .read) s fun t => taken t ∧
        answers t g (completionFor q cplSC (bytesLE 4 (s.cfgWord n f fn w)))) ∧
      (q.kind = 7 → q.be = 0xF → (Config.almWrite (s.imageOf n fn) w).toNat < 2 ^ 32 → (Config.almW1c (s.imageOf n fn) w).toNat < 2 ^ 32 →
        Does (.faceConfigRequest n f fn q .stored) s fun t => taken t ∧ answers t g (completionFor q cplSC []) ∧ ∀ b, b < 32 →
          let one := (Config.almW1c (s.imageOf n fn) w).toNat.testBit b && (ofBytesLE q.payload).testBit b
          (t.cfgWord n f fn w).testBit b = (!one && if (Config.almWrite (s.imageOf n fn) w).toNat.testBit b
            then (ofBytesLE q.payload).testBit b else (s.cfgWord n f fn w).testBit b)) ∧
      (∀ lane dir k x, q.kind = 7 → s.marginLane n fn g lane = some x → s.marginOk x.1 x.2 = true → dir < 4 → k ≤ marginSteps dir →
        Does (.faceConfigRequest n f fn q (.margin lane (.step dir k))) s fun t => taken t ∧
          t.lane.margin.get {} x = { limit := (s.lane.margin.get {} x).limit, status := 1, dir := dir, step := k }) ∧
      (q.kind = 7 → s.mode ≠ 0 → Does (.faceConfigRequest n f fn q (.followed none)) s fun t => taken t ∧
        let fseq := (s.fld follow PartFollow.LAST + 1) % 65536
        t.fld follow PartFollow.LAST = fseq ∧
        t.par.held.get [] n = s.par.held.get [] n ++ [(fseq, f, completionFor q cplSC [], s.now)])) ∧
    (∀ x rest g, s.par.held.get [] n = x :: rest → s.mode ≠ 0 → s.facePort n x.2.1 = some g → s.active (pdie g) = true →
      Does (.followTimeout n) s fun t => t.par.held.get [] n = rest ∧ t.fld (dreg .parErr (pdie g)) ParErr.FOLLOW = 1 ∧
        answers t g x.2.2.1 ∧ t.mem = s.mem) ∧
    (∀ (who : Master) (v : Word) (i : Nat), i < 64 →
      let lock : Reg := { name := .partAlmlock }
      let p0 : Reg := { name := .partAlmpatch0, i := i }
      let p1 : Reg := { name := .partAlmpatch1, i := i }
      (s.fld lock PartAlmlock.LOCK = 0 →
        (PartAlmlock.LOCK.of v = 1 → Does (.almlockWrite who v) s fun t => t.fld lock PartAlmlock.LOCK = 1 ∧ Still s t) ∧
        Does (.almpatchWrite who i 0 v) s (fun t => Keeps [.partAlmpatch0] s t ∧ t.fld p0 PartAlmpatch0.VALID = PartAlmpatch0.VALID.of v ∧
          t.fld p0 PartAlmpatch0.IMAGE = PartAlmpatch0.IMAGE.of v ∧ t.fld p0 PartAlmpatch0.DWOFF = PartAlmpatch0.DWOFF.of v ∧
          t.fld p0 PartAlmpatch0.VALUE = PartAlmpatch0.VALUE.of v) ∧
        Does (.almpatchWrite who i 1 v) s (fun t => Keeps [.partAlmpatch1] s t ∧ t.fld p1 PartAlmpatch1.MASK = PartAlmpatch1.MASK.of v)) ∧
      (PartAlmlock.LOCK.of v = 0 → Does (.almlockWrite who v) s fun t => t = s) ∧
      (s.fld lock PartAlmlock.LOCK = 1 → Does (.almlockWrite who v) s (fun t => t = s) ∧ ∀ k, Does (.almpatchWrite who i k v) s fun t => t = s)) ∧
    (∀ (d : Nat) (x : Proxy) (rest : List Proxy) (b : Tlp),
      takeFirst (fun x => x.die == d && x.tag == q.tag) s.par.proxy = some (x, rest) → x.req = some b → s.active (pdie x.port) = true →
        Does (.proxyCompletion d q) s (fun t => t.par.proxy = rest ∧ answers t x.port (completionFor b q.cst q.payload) ∧ t.regs = s.regs) ∧
        (s.active (pdie x.lent) = true → Does (.proxyTimeout d q.tag) s fun t => t.par.proxy = rest ∧ (d, q.tag) ∈ t.par.proxyLate ∧
          answers t x.port (completionFor b cplUR []) ∧ t.fld (tlerr x.lent) FltTlerr.CPLTO = 1)) ∧
    (∀ d, takeFirst (fun (x : Proxy) => x.die == d && x.tag == q.tag) s.par.proxy = none → (d, q.tag) ∈ s.par.proxyLate →
      Does (.proxyCompletion d q) s fun t => t.par.proxyLate = s.par.proxyLate.erase (d, q.tag) ∧ t.sch = s.sch ∧
        t.fld (dreg .fltCnt d) FltCnt.LATE = (s.count (dreg .fltCnt d) FltCnt.LATE 1).fld (dreg .fltCnt d) FltCnt.LATE)

/-- The actions of a host on its partition: bus reset, retrain, slot power, FLR and PME_Turn_Off (R293, R301, R306, R307, R308, R311). -/
def Obligations.HostActions : Prop :=
  ∀ (s : State) (n k f : Nat),
    let e := s.newE s.lead
    let kind := s.bindKind s.lead e n k
    let g := s.bindPort s.lead e n k
    let same := fun (c : Instr) => Does c s fun t => t = s
    (kind = 1 → s.linkLive (pdie g) (pnum g) = true → Does (.secondaryBusReset n k) s fun t =>
      t.linkState (pdie g) (pnum g) = (if s.mayTrain (pdie g) (pnum g) then 1 else 7) ∧ (t.link (pdie g) (pnum g)).held = [] ∧ Still s t) ∧
    ((kind = 0 ∨ kind = 3) → same (.secondaryBusReset n k) ∧ same (.faceLinkRetrain n k) ∧ ∀ off, same (.powerControllerControl n k off)) ∧
    (kind = 1 → s.linkState (pdie g) (pnum g) = 3 → Does (.faceLinkRetrain n k) s fun t => t.linkState (pdie g) (pnum g) = 4 ∧
      Keeps [.linkStat, .linkErr, .laneRxeq, .laneDfe] s t) ∧
    (s.linkState (pdie g) (pnum g) ≠ 3 → same (.faceLinkRetrain n k)) ∧
    (∀ off,
      (∀ slot, kind = 1 → s.bindSlot s.lead e n k = some slot → s.hasPath = true → s.hild.down = false →
        Does (.powerControllerControl n k off) s fun t => t.fld (hreg .hildCtl slot) HildCtl.PWREN = b2n (!off) ∧
          (t.vport n k).slotStat.testBit slotCommand = true ∧ Still s t) ∧
      (s.bindSlot s.lead e n k = none → same (.powerControllerControl n k off))) ∧
    (∀ u, s.facePort n f = some u → f < 2 → pdie u < s.dieCount →
      (n ∉ s.par.flr → Does (.initiateFlr n) s fun t => t.par.flr = s.par.flr ++ [n] ∧
        let u := flrEnd n t
        (u.face n f).dstate = 0 ∧ (u.face n f).bme = false ∧ (u.face n f).msix = false ∧ (u.face n f).masked = [] ∧ (u.face n f).pba = [] ∧
          u.par.pending.get [] n = [] ∧ n ∉ u.par.flr) ∧
      (n ∈ s.par.flr → same (.initiateFlr n)) ∧
      (let below := ((List.range 64).filter fun k =>
         s.bindKind s.lead e n k == 1 && s.bindFace s.lead e n k == f && s.portUp (s.bindPort s.lead e n k)).map (s.bindPort s.lead e n)
       let done := fun (t : State) => (t.face n f).turnOff = none ∧ (t.face n f).dstate = 4 ∧ t.mem = s.mem
       (below = [] → Does (.pmeTurnOff n f) s done) ∧
       (below ≠ [] → Does (.pmeTurnOff n f) s fun t => (t.face n f).turnOff = some below ∧ (t.face n f).dstate = (s.face n f).dstate ∧
         t.regs = s.regs) ∧
       (∀ l, (s.face n f).turnOff = some l → s.active (pdie u) = true → Does (.pmeToTimeout n f) s fun t => done t ∧
         t.fld (dreg .parErr (pdie u)) ParErr.PMETO = 1)))

/-- Page-table writes respect frame owners, invalidations drop what they name, walks go on entry by entry, page request verdicts act once (R328, R329, R330, R331, R333, R335, R339, R352). -/
def Obligations.TranslationTablesAndRequests : Prop :=
  ∀ (s : State) (d h id ctx pages : Nat) (v : Word) (who : Master) (bad : Bool),
    let inv := xltinvReg
    let x := s.xltDie d
    let left := fun (t : State) => t = s.modXltDie d fun y => { y with walks := y.walks.filter fun w => w.id != id }
    let dropped := fun (t : State) (hit : XltEntry → Bool) => t.fld inv PartXltinv.BUSY = 1 ∧ t.fld inv PartXltinv.STATUS = 0 ∧
      Keeps [.partXltinv] s t ∧
      ∀ e, e ∈ s.activeDies → (t.xltDie e).cache = (s.xltDie e).cache.filter (fun c => !(hit c)) ∧ ∀ w ∈ (t.xltDie e).walks, w.cacheIt = false
    let refused := fun (t : State) => t.fld inv PartXltinv.STATUS = 2 ∧ t.xlt = s.xlt ∧ Keeps [.partXltinv] s t
    (∀ off, off % 8 = 0 → off < 2 ^ 22 → s.flt.noLead = false →
      (∀ e, e ∈ s.activeDies ∨ e = s.lead → s.pageOk e 19 (0x58 + e) ((ptabOff + off) / 4096) 1 = true) →
      let o := s.frameOwner (off / 4096)
      let stored := fun (t : State) => t = { s with xlt := { s.xlt with ptab := s.xlt.ptab.set (off / 8) v } } ∧ t.ptabWord (off / 8) = v
      (o ≠ 0x3F → Does (.ptabWrite (.hart d h) off v) s stored) ∧
      (o = 0x3F → Does (.ptabWrite (.hart d h) off v) s fun t => t = s) ∧
      (Does (.ptabWrite (.endpoint o) off v) s stored) ∧
      (∀ n, o ≠ n → Does (.ptabWrite (.endpoint n) off v) s fun t => t = s)) ∧
    (∀ f, f < 1024 →
      (PartPtown.OWNER.of v ≠ s.frameOwner f → Does (.ptownWrite who f v) s fun t => t.frameOwner f = PartPtown.OWNER.of v ∧
        Keeps [.partPtown] s t ∧ ∀ k, t.ptabWord k = if k / 512 = f then 0 else s.ptabWord k) ∧
      (PartPtown.OWNER.of v = s.frameOwner f → Does (.ptownWrite who f v) s fun t => t = s)) ∧
    (s.fld inv PartXltinv.BUSY = 0 →
      Does (.xltinvAll who) s (fun t => dropped t fun _ => true) ∧
      Does (.xltinvContext who ctx) s (fun t => dropped t fun c => c.ctx == ctx) ∧
      Does (.xltinvRange who ctx pages) s (fun t => dropped t fun c =>
        let first := s.fld { name := .partXltinva } PartXltinva.ADDR
        c.ctx == ctx && decide (c.page ≤ first + pages) && decide (first < c.page + c.size / 4096)) ∧
      Does .xltinvEnd s (fun t => t = s)) ∧
    (s.fld inv PartXltinv.BUSY = 1 →
      Does (.xltinvAll who) s refused ∧ Does (.xltinvContext who ctx) s refused ∧ Does (.xltinvRange who ctx pages) s refused ∧
      ((∀ e ∈ s.activeDies, ∀ w ∈ (s.xltDie e).walks, w.cacheIt = true) → Does .xltinvEnd s fun t =>
        t.fld inv PartXltinv.BUSY = 0 ∧ t.fld inv PartXltinv.STATUS = 1 ∧ t.xlt = s.xlt ∧ Keeps [.partXltinv] s t) ∧
      ((∃ e ∈ s.activeDies, ∃ w ∈ (s.xltDie e).walks, w.cacheIt = false) → Does .xltinvEnd s fun t => t = s)) ∧
    (∀ w, x.walks.find? (fun w => w.id == id) = some w →
      (∀ u g, ptStep w.lvl v w.rd w.wr = .next u → s.upOf d w.epoch (getBits w.w0 62 57) (getBits w.w0 52 52) = some g → s.active (pdie g) = true →
        Does (.walkReadCompletion d id true v bad) s fun t => t.mem = s.mem ∧ (t.xltDie d).walks.map (fun w => w.id) = x.walks.map (fun w => w.id) ∧
          let read := fun (q : Tlp) => q.kind = 1 ∧ q.reqLen = 8 ∧ q.addr = u * 4096 + 8 * ptIndex (w.lvl - 1) w.va
          (∃ k y, t.queue g k = s.queue g k ++ [y] ∧ read y.tlp) ∨
            ∃ q, read q ∧ (t.bufDie (pdie g)).ctlWait = (s.bufDie (pdie g)).ctlWait ++ [(g, q)]) ∧
      (∀ c, w.who = .chunk c → (s.chan d c).run = none →
        (∀ out size r wr, ptStep w.lvl v w.rd w.wr = .page out size r wr → Does (.walkReadCompletion d id true v bad) s fun t =>
          (w.cacheIt = false → left t) ∧ (w.cacheIt = true → (t.xltDie d).walks = x.walks.filter (fun w => w.id != id) ∧
            (t.xltDie d).cache.head? = some { ctx := w.ctx, gen := s.genOf d w.ctx w.epoch, page := w.va / size * size / 4096, size := size,
                                              out := out, r := r, w := wr })) ∧
        Does (.walkReadCompletion d id false v bad) s left ∧
        Does (.walkReadTimeout d id) s fun t => t = s.modXltDie d fun y =>
          { y with walks := y.walks.filter fun w => w.id != id, late := id :: y.late })) ∧
    (x.walks.find? (fun w => w.id == id) = none →
      Does (.walkReadTimeout d id) s (fun t => t = s) ∧
      (id ∈ x.late → Does (.walkReadCompletion d id true v bad) s fun t => (t.xltDie d).late = x.late.erase id ∧
        t.fld (dreg .xltCnt d) XltCnt.LATE = (s.count (dreg .xltCnt d) XltCnt.LATE 1).fld (dreg .xltCnt d) XltCnt.LATE ∧ Keeps [.xltCnt] s t) ∧
      (id ∉ x.late → Does (.walkReadCompletion d id true v bad) s fun t => t = s)) ∧
    (∀ tag i,
      let c := s.fld (prec0 d i) XltPrec0.CHAN
      let n := s.fld (prec0 d i) XltPrec0.PART
      let face := getBits (s.ctxWord d (s.newE d) (s.fld (prec0 d i) XltPrec0.CTX) 0) 52 52
      let freed := fun (t : State) => t.fld (prec0 d i) XltPrec0.VALID = 0 ∧ t.mem = s.mem
      let resumed := fun (k : Nat) (t : State) => freed t ∧ (t.chan d c).fault = none ∧ (t.chan d c).parked = false ∧ (t.chan d c).next = k
      let ended := fun (st k : Nat) (y : Desc) (t : State) => freed t ∧ (t.chan d c).run = none ∧ (t.chan d c).fault = none ∧
        (t.chan d c).endings = (s.chan d c).endings ++ [{ desc := y, status := st, bytes := 256 * k, last := (s.chan d c).last }]
      (s.precEntry d tag = some i → s.fld (prec0 d i) XltPrec0.SRC = 1 → ∀ st k y, (s.chan d c).fault = some (st, k) → (s.chan d c).run = some y →
        (x.precMode.get 0 i = 2 → Does (.prvSuccess .bmc d tag bad) s (resumed k) ∧ Does (.prvInvalidRequest .bmc d tag) s (ended st k y) ∧
          Does (.prvResponseFailure .bmc d tag) s (ended st k y)) ∧
        (x.precMode.get 0 i = 1 → d < s.dieCount → s.active d = true → (∀ e, e < d → s.precEntry e tag = none) →
          Does (.prgResponse n face tag 0 bad) s (resumed k) ∧ Does (.prgResponse n face tag 1 bad) s (ended st k y))) ∧
      (s.precEntry d tag = none → tag ∉ x.precExpired →
        Does (.prvSuccess .bmc d tag bad) s fun t => t.fld (dreg .evtPulse d) EvtPulse.VREF = 1 ∧ t.dma = s.dma ∧ t.xlt = s.xlt))

/-- A DMA channel's registers, descriptors and completion records act as R341 to R353 and R365 to R369 state (R341, R343, R344, R349, R353, R366, R367, R369). -/
def Obligations.DmaRegistersAndRing : Prop :=
  ∀ (s : State) (d c : Nat) (v : Word), d < s.dieCount → s.active d = true → c < 32 →
    let ctl := chReg .dmaChCtl d c
    let ring := chReg .dmaChRing d c
    let cfg := chReg .dmaChCfg d c
    let z := s.chan d c
    let fields := fun (t : State) => t.fld ctl DmaChCtl.PRI = DmaChCtl.PRI.of v ∧ t.fld ctl DmaChCtl.TC = DmaChCtl.TC.of v ∧
      t.fld ctl DmaChCtl.VEC = DmaChCtl.VEC.of v
    let ringErr := fun (t : State) => t.fld (dreg .dmaErr d) DmaErr.RINGERR = 1 ∧ t.fld ctl DmaChCtl.ENABLE = 0 ∧ (t.chan d c).stopped = true
    (Does (.dmaEnable d c v) s fun t => fields t ∧ t.fld ctl DmaChCtl.ENABLE = 1 ∧ (t.chan d c).stopped = false ∧ Keeps [.dmaChCtl] s t) ∧
    (Does (.dmaTailWrite d c v) s fun t => t.fld ring DmaChRing.TAIL = DmaChRing.TAIL.of v ∧ t.fld ring DmaChRing.HEAD = s.fld ring DmaChRing.HEAD ∧
      t.fld ring DmaChRing.SIZE = (if s.chOn d c then s.fld ring DmaChRing.SIZE else min 12 (DmaChRing.SIZE.of v)) ∧ t.dma = s.dma ∧
      Keeps [.dmaChRing] s t) ∧
    (let rest := fun (t : State) => t.fld cfg DmaChCfg.PRIMAX = DmaChCfg.PRIMAX.of v ∧ t.fld cfg DmaChCfg.SLOT = DmaChCfg.SLOT.of v
     (s.chOn d c = false → s.chHolds d c = false → Does (.dmaOwnerWrite d c v) s fun t => rest t ∧ t.chOwner d c = DmaChCfg.OWNER.of v ∧
       Keeps [.dmaChCfg] s t) ∧
     ((s.chOn d c = true ∨ s.chHolds d c = true) → Does (.dmaOwnerWrite d c v) s fun t => rest t ∧
       t.chOwner d c = s.chOwner d c ∧ t.fld (dreg .dmaErr d) DmaErr.BADCFG = 1 ∧ Keeps [.dmaChCfg, .dmaErr] s t)) ∧
    (s.chOn d c = false → Does (.dmaDisable d c v) s fun t => fields t ∧ t.dma = s.dma ∧ Keeps [.dmaChCtl] s t) ∧
    (s.chOn d c = true →
      let stops := fun (t : State) => fields t ∧ t.fld ctl DmaChCtl.ENABLE = 0 ∧ (t.chan d c).stopped = true ∧ (t.chan d c).descs = [] ∧
        t.fld ring DmaChRing.HEAD = s.fld ring DmaChRing.HEAD ∧ t.fld (chReg .dmaChStat d c) DmaChStat.FTAG = 0 ∧ t.mem = s.mem
      (z.run = none → Does (.dmaDisable d c v) s fun t => stops t ∧ (t.chan d c).endings = z.endings) ∧
      (∀ x, z.run = some x → z.fault = none → z.committed = z.next → Does (.dmaDisable d c v) s fun t => stops t ∧ (t.chan d c).run = none ∧
        (t.chan d c).endings = z.endings ++ [{ desc := x, status := 5, bytes := 256 * z.next, last := z.last }])) ∧
    (s.ringHead d c = s.ringTail d c → Does (.dmaDescriptorFetch d c) s fun t => t = s) ∧
    (s.chOn d c = true → s.chMayRun d c = true → z.run = none → z.descs = [] → z.fetching = [] → s.ringHead d c ≠ s.ringTail d c →
      let off := s.ringAddr d c (s.ringHead d c)
      (s.chOwner d c = 0x3E → off + 64 ≤ 0x400000 → s.refusedPage d 18 (0x40 + d) off 64 0 = none → Does (.dmaDescriptorFetch d c) s fun t =>
        let words := (List.range 8).map fun i => BitVec.ofNat 64 (ofBytesLE (s.mem.bytes (sramBase d + off + 8 * i) 8))
        t = s.modChan d c fun y => { y with descs := [{ words := words, index := s.ringHead d c }] }) ∧
      (s.chOwner d c < 32 → s.ringPort d c = none → Does (.dmaDescriptorFetch d c) s ringErr)) ∧
    (∀ x rest, z.descs = x :: rest →
      let runs := fun (a : Instr) => (x.bad = false → Does a s fun t => (t.chan d c).run = some x ∧ (t.chan d c).descs = rest ∧ (t.chan d c).next = 0 ∧
          (t.chan d c).committed = 0 ∧ t.regs = s.regs ∧ t.mem = s.mem) ∧
        (x.bad = true → Does a s fun t => (t.chan d c).run = none ∧ (t.chan d c).descs = rest ∧ t.fld (dreg .dmaErr d) DmaErr.BADDESC = 1 ∧
          (t.chan d c).endings = z.endings ++ [{ desc := x, status := 4, bytes := 0, last := [] }] ∧ t.mem = s.mem)
      (s.chOn d c = true → s.chMayRun d c = true → s.chDrain = false → z.run = none → (x.fence = false ∨ z.endings = []) →
        (x.op = 1 → runs (.copy d c)) ∧ (x.op = 2 → runs (.fill d c))) ∧
      (x.op ≠ 1 → Does (.copy d c) s fun t => t = s) ∧ (x.op ≠ 2 → Does (.fill d c) s fun t => t = s)) ∧
    (∀ e rest, z.endings = e :: rest → z.unreleased.get 0 e.desc.index = 0 → e.desc.wantsBack = false → e.reads = [] → e.status < 256 →
      s.chOwner d c = 0x3E → s.recState d = 0 → (s.recDie d).staged = [] → (s.recDie d).waiting = [] → MemOk s →
      let off := s.ringAddr d c e.desc.index + 48
      off + 16 ≤ 0x400000 → s.refusedPage d 18 (0x40 + d) off 16 1 = none →
        Does (.dmaCompletionRecord d c true) s (fun t => (t.chan d c).endings = rest ∧
          t.fld (chReg .dmaChStat d c) DmaChStat.LASTST = e.status ∧ t.mem.bytes (sramBase d + off) 16 = recordBytes e (s.meridian d) ∧
          ∀ a, ¬ (sramBase d + off ≤ a ∧ a < sramBase d + off + 16) → t.mem.get a = s.mem.get a) ∧
        Does (.dmaCompletionRecord d c false) s (fun t => ringErr t ∧ t.mem = s.mem))

/-- A chunk is issued for the chosen channel, completions and timeouts of reads commit or fault it, and fault verdicts act once (R344, R345, R346, R348, R350, R351, R352). -/
def Obligations.DmaChunksAndVerdicts : Prop :=
  ∀ (s : State) (d c : Nat) (x : Desc) (bad : Bool), d < s.dieCount → s.active d = true → c < 32 → (s.chan d c).run = some x →
    let z := s.chan d c
    let e := s.newE d
    let ended := fun (t : State) (st bytes : Nat) => (t.chan d c).run = none ∧ (t.chan d c).fault = none ∧
      (t.chan d c).endings = z.endings ++ [{ desc := x, status := st, bytes := bytes, last := z.last }]
    ((∀ k, k < 32 → k ≠ c → (s.chan d k).run = none ∧ (s.chan d k).descs = [] ∧ (s.chan d k).chunks = []) → z.descs = [] → z.next = 0 →
      z.committed = 0 → z.chunks = [] → z.fault = none → z.parked = false → z.xlating = none → s.chOn d c = true → s.chMayRun d c = true → s.chDrain = false →
      s.recState d = 0 → 256 < x.len →
      (∀ w hint, x.op = 2 → s.ctxDenied d c e x.dctx = false → x.dst % 4096 + 256 ≤ 4096 → x.dst < 2 ^ 64 →
        s.window d e (s.ctxWord d e x.dctx 1) x.dst = some w → w.wr = true → w.pt = false → (s.chDests d e x.dctx w.egress).isSome = true →
        Does (.dmaChunkIssue d hint bad) s fun t => (t.chan d c).run = some x ∧ (t.chan d c).next = 1 ∧
          (((t.chan d c).committed = 1 ∧ (t.chan d c).chunks = []) ∨ ((t.chan d c).committed = 0 ∧ (t.chan d c).chunks.length = 1))) ∧
      (∀ hint, s.ctxDenied d c e x.dctx = true → s.assist PartAssist.DMAF = 0 → Does (.dmaChunkIssue d hint bad) s fun t => ended t 6 0 ∧
        t.fld (dreg .dmaErr d) DmaErr.CTXDENIED = 1 ∧ t.mem = s.mem)) ∧
    (∀ y r tag, z.chunks = [y] → y.k = z.committed → y.reads = [r] → r.tag = tag → r.data = none → z.fault = none → z.parked = false →
      z.fetching = [] → (z.late.find? fun q => q.1 == tag) = none → s.assist PartAssist.DMAF = 0 →
      let fails := fun (t : State) => ended t 2 (256 * y.k) ∧ t.fld (dreg .dmaErr d) DmaErr.SRCERR = 1 ∧ (t.chan d c).chunks = [] ∧ t.mem = s.mem
      (∀ data, Does (.dmaReadCompletion d c tag false data) s fails) ∧
      Does (.dmaReadTimeout d c tag) s (fun t => fails t ∧ (tag, 0) ∈ (t.chan d c).late)) ∧
    (∀ tag ok data, z.late = [(tag, 0)] → Does (.dmaReadCompletion d c tag ok data) s fun t => (t.chan d c).late = [] ∧
      t.fld (dreg .dmaCnt d) DmaCnt.LATE = (s.count (dreg .dmaCnt d) DmaCnt.LATE 1).fld (dreg .dmaCnt d) DmaCnt.LATE ∧ Keeps [.dmaCnt] s t) ∧
    (∀ tag, z.chunks = [] → z.fetching = [] → (∀ e ∈ z.endings, e.reads = []) → Does (.dmaReadTimeout d c tag) s fun t => t = s) ∧
    (∀ tag st k, tag ≠ 0 → z.mode = 2 → z.fault = some (st, k) →
      let stat := chReg .dmaChStat d c
      (s.fld stat DmaChStat.FTAG = tag →
        Does (.dmaFvComplete .bmc d c tag) s (fun t => ended t st (256 * k) ∧ t.fld stat DmaChStat.FTAG = 0 ∧ t.mem = s.mem) ∧
        Does (.retry .bmc d c tag) s (fun t => (t.chan d c).run = some x ∧ (t.chan d c).fault = none ∧ (t.chan d c).parked = false ∧
          (t.chan d c).next = k ∧ t.fld stat DmaChStat.FTAG = 0 ∧ Keeps [.dmaChStat] s t) ∧
        Does (.stop .bmc d c tag) s (fun t => ended t st (256 * k) ∧ t.fld stat DmaChStat.FTAG = 0 ∧
          t.fld (chReg .dmaChCtl d c) DmaChCtl.ENABLE = 0 ∧ t.mem = s.mem)) ∧
      (s.fld stat DmaChStat.FTAG ≠ tag → tag ∉ z.expired →
        let refused := fun (a : Instr) => Does a s fun t => t.fld (dreg .evtPulse d) EvtPulse.VREF = 1 ∧ t.dma = s.dma
        refused (.dmaFvComplete .bmc d c tag) ∧ refused (.retry .bmc d c tag) ∧ refused (.stop .bmc d c tag)))

/-- On a hart the operations on registers of the base subset write their result and go on at pc + 4 (R125, R124, R403). -/
def Obligations.HartAluRegister : Prop :=
  ∀ (s : State) (d h rd ra rb : Nat), HartFree s d h →
    let x := s.hart d h
    let a := rget x.regs ra
    let b := rget x.regs rb
    let gives := fun (v : Word) => (.next (s.retired d h fun x => x.wrote rd v) : Host.Outcome State Fault Refusal)
    let keeps := (.next (s.retired d h Hart.stepped) : Host.Outcome State Fault Refusal)
    exec (.add (.hart d h) rd ra rb) s = gives (a + b) ∧
    exec (.sub (.hart d h) rd ra rb) s = gives (a - b) ∧
    exec (.and (.hart d h) rd ra rb) s = gives (a &&& b) ∧
    exec (.or (.hart d h) rd ra rb) s = gives (a ||| b) ∧
    exec (.xor (.hart d h) rd ra rb) s = gives (a ^^^ b) ∧
    exec (.sll (.hart d h) rd ra rb) s = gives (a <<< (b.toNat % 64)) ∧
    exec (.srl (.hart d h) rd ra rb) s = gives (a >>> (b.toNat % 64)) ∧
    exec (.sra (.hart d h) rd ra rb) s = gives (a.sshiftRight (b.toNat % 64)) ∧
    exec (.slt (.hart d h) rd ra rb) s = gives (if a.toInt < b.toInt then 1 else 0) ∧
    exec (.sltu (.hart d h) rd ra rb) s = gives (if a.toNat < b.toNat then 1 else 0) ∧
    exec (.min (.hart d h) rd ra rb) s = gives (if a.toInt < b.toInt then a else b) ∧
    exec (.minu (.hart d h) rd ra rb) s = gives (if a.toNat < b.toNat then a else b) ∧
    exec (.max (.hart d h) rd ra rb) s = gives (if a.toInt < b.toInt then b else a) ∧
    exec (.maxu (.hart d h) rd ra rb) s = gives (if a.toNat < b.toNat then b else a) ∧
    exec (.cmovz (.hart d h) rd ra rb) s = (if b = 0 then gives a else keeps) ∧
    exec (.cmovn (.hart d h) rd ra rb) s = (if b = 0 then keeps else gives a) ∧
    (∃ n, n ≤ 64 ∧ (∀ i, i < n → a.getLsbD (63 - i) = false) ∧ (n < 64 → a.getLsbD (63 - n) = true) ∧
      exec (.clz (.hart d h) rd ra) s = gives (BitVec.ofNat 64 n)) ∧
    (∃ n, n ≤ 64 ∧ (∀ i, i < n → a.getLsbD i = false) ∧ (n < 64 → a.getLsbD n = true) ∧
      exec (.ctz (.hart d h) rd ra) s = gives (BitVec.ofNat 64 n)) ∧
    exec (.popc (.hart d h) rd ra) s = gives (BitVec.ofNat 64 ((List.range 64).map fun i => (a.getLsbD i).toNat).sum)

/-- On a hart the operations with an immediate, LUI, EXTU and INSU do what the base subset says (R125, R124, R403). -/
def Obligations.HartAluImmediate : Prop :=
  ∀ (s : State) (d h rd ra imm : Nat), HartFree s d h →
    let x := s.hart d h
    let a := rget x.regs ra
    let old := rget x.regs rd
    let pos := imm % 64
    let len := imm / 64 % 64 + 1
    let gives := fun (v : Word) => (.next (s.retired d h fun x => x.wrote rd v) : Host.Outcome State Fault Refusal)
    exec (.addi (.hart d h) rd ra imm) s = gives (a + (BitVec.ofNat 16 imm).signExtend 64) ∧
    exec (.andi (.hart d h) rd ra imm) s = gives (a &&& BitVec.ofNat 64 (imm % 65536)) ∧
    exec (.ori (.hart d h) rd ra imm) s = gives (a ||| BitVec.ofNat 64 (imm % 65536)) ∧
    exec (.xori (.hart d h) rd ra imm) s = gives (a ^^^ BitVec.ofNat 64 (imm % 65536)) ∧
    exec (.slli (.hart d h) rd ra imm) s = gives (a <<< (imm % 64)) ∧
    exec (.srli (.hart d h) rd ra imm) s = gives (a >>> (imm % 64)) ∧
    exec (.srai (.hart d h) rd ra imm) s = gives (a.sshiftRight (imm % 64)) ∧
    exec (.slti (.hart d h) rd ra imm) s = gives (if a.toInt < ((BitVec.ofNat 16 imm).signExtend 64).toInt then 1 else 0) ∧
    exec (.sltui (.hart d h) rd ra imm) s = gives (if a.toNat < ((BitVec.ofNat 16 imm).signExtend 64).toNat then 1 else 0) ∧
    exec (.lui (.hart d h) rd imm) s = gives (((BitVec.ofNat 16 imm).signExtend 64) <<< 16) ∧
    (∃ v : Word, (∀ i, i < 64 → v.getLsbD i = (decide (i < len) && a.getLsbD (pos + i))) ∧
      exec (.extu (.hart d h) rd ra imm) s = gives v) ∧
    (∃ v : Word, (∀ i, i < 64 → v.getLsbD i = if pos ≤ i ∧ i < pos + len then a.getLsbD (i - pos) else old.getLsbD i) ∧
      exec (.insu (.hart d h) rd ra imm) s = gives v)

/-- On a hart a branch that is taken goes on at pc + 4 × OFF, and one that is not at pc + 4 (R374, R125, R373). -/
def Obligations.HartBranches : Prop :=
  ∀ (s : State) (d h ra rb bit off : Nat), HartFree s d h →
    let x := s.hart d h
    let a := rget x.regs ra
    let b := rget x.regs rb
    let go := fun (n : Nat) (taken : Prop) [Decidable taken] =>
      (.next (s.retired d h fun x => if taken then x.branched ((BitVec.ofNat n off).toInt) else x.stepped) : Host.Outcome State Fault Refusal)
    exec (.beq (.hart d h) ra rb off) s = go 16 (a = b) ∧
    exec (.bne (.hart d h) ra rb off) s = go 16 (a ≠ b) ∧
    exec (.blt (.hart d h) ra rb off) s = go 16 (a.toInt < b.toInt) ∧
    exec (.bge (.hart d h) ra rb off) s = go 16 (b.toInt ≤ a.toInt) ∧
    exec (.bltu (.hart d h) ra rb off) s = go 16 (a.toNat < b.toNat) ∧
    exec (.bgeu (.hart d h) ra rb off) s = go 16 (b.toNat ≤ a.toNat) ∧
    exec (.jmp (.hart d h) off) s = go 16 True ∧
    exec (.btst (.hart d h) ra bit off) s = go 15 (a.getLsbD (bit % 64) = true) ∧
    exec (.btcl (.hart d h) ra bit off) s = go 15 (a.getLsbD (bit % 64) = false)

/-- The multiply and divide instructions give the results of R376, with the fixed results for a zero divisor and for overflow (R376). -/
def Obligations.HartMultiplyDivide : Prop :=
  ∀ (s : State) (d h rd ra rb : Nat), HartFree s d h →
    let x := s.hart d h
    let a := rget x.regs ra
    let b := rget x.regs rb
    let gives := fun (v : Word) => (.next (s.retired d h fun x => x.wrote rd v) : Host.Outcome State Fault Refusal)
    exec (.mul d h rd ra rb) s = gives (BitVec.ofNat 64 (a.toNat * b.toNat)) ∧
    exec (.mulh d h rd ra rb) s = gives (((a.signExtend 128) * (b.signExtend 128)).extractLsb' 64 64) ∧
    exec (.mulhu d h rd ra rb) s = gives (((a.zeroExtend 128) * (b.zeroExtend 128)).extractLsb' 64 64) ∧
    exec (.mulhsu d h rd ra rb) s = gives (((a.signExtend 128) * (b.zeroExtend 128)).extractLsb' 64 64) ∧
    exec (.div d h rd ra rb) s = gives (if b = 0 then BitVec.allOnes 64 else if a = BitVec.intMin 64 ∧ b = BitVec.allOnes 64 then a
      else BitVec.ofInt 64 (a.toInt.tdiv b.toInt)) ∧
    exec (.divu d h rd ra rb) s = gives (if b = 0 then BitVec.allOnes 64 else BitVec.ofNat 64 (a.toNat / b.toNat)) ∧
    exec (.rem d h rd ra rb) s = gives (if b = 0 then a else if a = BitVec.intMin 64 ∧ b = BitVec.allOnes 64 then 0
      else BitVec.ofInt 64 (a.toInt.tmod b.toInt)) ∧
    exec (.remu d h rd ra rb) s = gives (if b = 0 then a else BitVec.ofNat 64 (a.toNat % b.toNat))

/-- JAL, JALR and AUIPC do what R377 says, JALR with the target computed before rd is written (R377). -/
def Obligations.HartJumps : Prop :=
  ∀ (s : State) (d h rd ra imm off : Nat), HartFree s d h →
    let x := s.hart d h
    let next : Word := BitVec.ofNat 64 ((x.pc + 4) % 2 ^ 64)
    let t := rget x.regs ra + (BitVec.ofNat 16 imm).signExtend 64
    exec (.jal d h rd off) s = .next (s.retired d h fun x =>
      { x with regs := rset x.regs rd next, pc := (((x.pc : Int) + 4 * (BitVec.ofNat 21 off).toInt) % (2 ^ 64 : Int)).toNat }) ∧
    (t.toNat % 4 = 0 → exec (.jalr d h rd ra imm) s = .next (s.retired d h fun x => { x with regs := rset x.regs rd next, pc := t.toNat })) ∧
    (t.toNat % 4 ≠ 0 → x.inM = true → bitOf x.mstate 3 = false → x.sbuf = [] →
      Does (.jalr d h rd ra imm) s fun u =>
        u.csrValue d h 0x42 = 0x03 ∧ u.csrValue d h 0x43 = t ∧ u.csrValue d h 0x41 = BitVec.ofNat 64 x.pc ∧ (u.hart d h).regs = x.regs ∧
        (u.hart d h).icount = x.icount ∧ u.mem = s.mem) ∧
    exec (.auipc d h rd imm) s = .next (s.retired d h fun y => y.wrote rd (BitVec.ofNat 64 x.pc + ((BitVec.ofNat 16 imm).signExtend 64) <<< 16))

/-- A load of the own control SRAM goes out, and its response brings the bytes, extended as R378 says (R378, R379, R411). -/
def Obligations.HartLoads : Prop :=
  ∀ (s : State) (d h rd ra imm : Nat) (y : Dest) (env : BusEnv), HartFree s d h → (s.hart d h).sbuf = [] →
    let x := s.hart d h
    let ea := (rget x.regs ra + (BitVec.ofNat 16 imm).signExtend 64).toNat
    s.decodeAddr d ea = some y → y.die = d → y.target = 18 → s.fenced d y = false → s.domCur (dom d (memDomain 18 y.off)) = 0 →
    let bytes := fun (n : Nat) => ofBytesLE (s.mem.bytes (sramBase d + y.off) n)
    let loads := fun (c : Instr) (n : Nat) (v : Word) =>
      ea % n = 0 → s.refusedPage d 18 (s.midOf (.hart d h)) y.off n 0 = none →
        Does c s fun t => (t.hart d h).pc = x.pc ∧ (t.hart d h).loads.length = 1 ∧ t.mem = s.mem ∧
          Does (.accessResponse d h (some 0) env) t fun u =>
            (u.hart d h).regs = rset x.regs rd v ∧ (u.hart d h).pc = (x.pc + 4) % 2 ^ 64 ∧ (u.hart d h).icount = x.icount + 1 ∧
            (u.hart d h).loads = [] ∧ (u.hart d h).res = x.res ∧ u.mem = s.mem
    loads (.lb d h rd ra imm) 1 ((BitVec.ofNat 8 (bytes 1)).signExtend 64) ∧
    loads (.lh d h rd ra imm) 2 ((BitVec.ofNat 16 (bytes 2)).signExtend 64) ∧
    loads (.lw d h rd ra imm) 4 ((BitVec.ofNat 32 (bytes 4)).signExtend 64) ∧
    loads (.ld d h rd ra imm) 8 (BitVec.ofNat 64 (bytes 8)) ∧
    loads (.lbu d h rd ra imm) 1 (BitVec.ofNat 64 (bytes 1)) ∧
    loads (.lhu d h rd ra imm) 2 (BitVec.ofNat 64 (bytes 2)) ∧
    loads (.lwu d h rd ra imm) 4 (BitVec.ofNat 64 (bytes 4))

/-- A load that is not aligned, or whose address lies in no region, raises LOAD_MISALIGNED or LOAD_FAULT and changes no register (R378, R379, R381, R384). -/
def Obligations.HartLoadExceptions : Prop :=
  ∀ (s : State) (d h rd ra imm : Nat), HartFree s d h → (s.hart d h).sbuf = [] →
    let x := s.hart d h
    x.inM = true → bitOf x.mstate 3 = false →
    let ea := (rget x.regs ra + (BitVec.ofNat 16 imm).signExtend 64).toNat
    let ax := (rget x.regs ra).toNat
    let traps := fun (c : Instr) (cause : Word) (addr : Nat) =>
      Does c s fun u => u.csrValue d h 0x42 = cause ∧ u.csrValue d h 0x43 = BitVec.ofNat 64 addr ∧ u.csrValue d h 0x41 = BitVec.ofNat 64 x.pc ∧
        (u.hart d h).regs = x.regs ∧ (u.hart d h).loads = [] ∧ (u.hart d h).icount = x.icount ∧ u.mem = s.mem
    (ea % 2 ≠ 0 → traps (.lh d h rd ra imm) 0x04 ea ∧ traps (.lhu d h rd ra imm) 0x04 ea) ∧
    (ea % 4 ≠ 0 → traps (.lw d h rd ra imm) 0x04 ea ∧ traps (.lwu d h rd ra imm) 0x04 ea) ∧
    (ea % 8 ≠ 0 → traps (.ld d h rd ra imm) 0x04 ea) ∧
    (ax % 8 ≠ 0 → traps (.ldx d h rd ra) 0x04 ax) ∧
    (s.decodeAddr d ea = none → traps (.lb d h rd ra imm) 0x06 ea ∧ traps (.lbu d h rd ra imm) 0x06 ea ∧
      (ea % 8 = 0 → traps (.lh d h rd ra imm) 0x06 ea ∧ traps (.lhu d h rd ra imm) 0x06 ea ∧ traps (.lw d h rd ra imm) 0x06 ea ∧
        traps (.lwu d h rd ra imm) 0x06 ea ∧ traps (.ld d h rd ra imm) 0x06 ea)) ∧
    (ax % 8 = 0 → (∀ y, s.decodeAddr d ax = some y → ¬ (y.die = d ∧ y.target = 18)) → traps (.ldx d h rd ra) 0x06 ax)

/-- A store retires into the store buffer, and its response writes exactly its bytes in the control SRAM (R378, R379, R408, R407). -/
def Obligations.HartStores : Prop :=
  ∀ (s : State) (d h rs ra imm : Nat) (y : Dest) (env : BusEnv), HartFree s d h → (s.hart d h).sbuf = [] →
    let x := s.hart d h
    let ea := (rget x.regs ra + (BitVec.ofNat 16 imm).signExtend 64).toNat
    let v := rget x.regs rs
    s.decodeAddr d ea = some y → y.die = d → y.target = 18 →
    let stores := fun (c : Instr) (n : Nat) =>
      ea % n = 0 →
        Does c s fun t => (t.hart d h).sbuf = [⟨ea, n, BitVec.ofNat 64 (v.toNat % 2 ^ (8 * n)), s.midOf (.hart d h)⟩] ∧
          (t.hart d h).pc = (x.pc + 4) % 2 ^ 64 ∧ (t.hart d h).icount = x.icount + 1 ∧ (t.hart d h).regs = x.regs ∧ t.mem = s.mem ∧
          (MemOk s → s.fenced d y = false → s.domCur (dom d (memDomain 18 y.off)) = 0 →
            s.refusedPage d 18 (s.midOf (.hart d h)) y.off n 1 = none →
            Does (.accessResponse d h none env) t fun u => (u.hart d h).sbuf = [] ∧ (u.hart d h).regs = x.regs ∧
              (∀ k, k < n → u.mem.get (sramBase d + y.off + k) = BitVec.ofNat 8 (v.toNat / 2 ^ (8 * k))) ∧
              (∀ a, ¬ (sramBase d + y.off ≤ a ∧ a < sramBase d + y.off + n) → u.mem.get a = s.mem.get a))
    stores (.sb d h rs ra imm) 1 ∧ stores (.sh d h rs ra imm) 2 ∧ stores (.sw d h rs ra imm) 4 ∧ stores (.sd d h rs ra imm) 8

/-- LDX makes a reservation, and STX stores and gives 0 exactly when the reservation stands (R380). -/
def Obligations.HartReservations : Prop :=
  ∀ (s : State) (d h rd ra rb : Nat) (y : Dest) (env : BusEnv), HartFree s d h → (s.hart d h).sbuf = [] → MemOk s →
    let x := s.hart d h
    let ea := (rget x.regs ra).toNat
    ea % 8 = 0 → s.decodeAddr d ea = some y → y.die = d → y.target = 18 → s.fenced d y = false → s.domCur (dom d (memDomain 18 y.off)) = 0 →
    s.refusedPage d 18 (s.midOf (.hart d h)) y.off 8 0 = none → s.refusedPage d 18 (s.midOf (.hart d h)) y.off 8 1 = none →
    s.recState d = 0 → (s.recDie d).staged = [] →
    Does (.ldx d h rd ra) s (fun t => Does (.accessResponse d h (some 0) env) t fun u =>
      (u.hart d h).regs = rset x.regs rd (BitVec.ofNat 64 (ofBytesLE (s.mem.bytes (sramBase d + y.off) 8))) ∧ (u.hart d h).res = some ea ∧
      (u.hart d h).pc = (x.pc + 4) % 2 ^ 64 ∧ u.mem = s.mem) ∧
    (x.res = some ea → Does (.stx d h rd ra rb) s fun u =>
      (u.hart d h).regs = rset x.regs rd 0 ∧ (u.hart d h).res = none ∧ (u.hart d h).pc = (x.pc + 4) % 2 ^ 64 ∧
      (∀ k, k < 8 → u.mem.get (sramBase d + y.off + k) = BitVec.ofNat 8 ((rget x.regs rb).toNat / 2 ^ (8 * k))) ∧
      (∀ a, ¬ (sramBase d + y.off ≤ a ∧ a < sramBase d + y.off + 8) → u.mem.get a = s.mem.get a)) ∧
    (x.res ≠ some ea → Does (.stx d h rd ra rb) s fun u =>
      (u.hart d h).regs = rset x.regs rd 1 ∧ (u.hart d h).res = none ∧ (u.hart d h).pc = (x.pc + 4) % 2 ^ 64 ∧ u.mem = s.mem)

/-- FENCE.S retires at once, FENCE.F, FENCE.I and WAIT once the buffer is empty, and WAIT sleeps when no enabled input is pending (R382, R396, R417). -/
def Obligations.HartFencesWait : Prop :=
  ∀ (s : State) (d h : Nat), HartFree s d h →
    let x := s.hart d h
    let goes := (.next (s.retired d h Hart.stepped) : Host.Outcome State Fault Refusal)
    exec (.fenceS d h) s = goes ∧
    (x.sbuf = [] → exec (.fenceF d h) s = goes ∧ exec (.fenceI d h) s = goes) ∧
    (x.sbuf ≠ [] → exec (.fenceF d h) s = .next s ∧ exec (.fenceI d h) s = .next s ∧ exec (.wait d h) s = .next s) ∧
    (x.sbuf = [] → x.inM = true ∨ bitOf x.mstate 32 = false →
      (s.anyEnabled d h = true → exec (.wait d h) s = goes) ∧
      (s.anyEnabled d h = false → s.sleepMode d h = 0 → Does (.wait d h) s fun t =>
        t = { s with core := t.core } ∧ (t.hart d h).asleep = some 0 ∧ (t.hart d h).pc = (x.pc + 4) % 2 ^ 64 ∧ (t.hart d h).regs = x.regs ∧
        t.hartRuns d h = false))

/-- SYSREQ and BRKPT in M enter the machine trap of R385: the saved registers, MSTATE, the reservation and the pc (R385). -/
def Obligations.HartTrapEntryToMachine : Prop :=
  ∀ (s : State) (d h : Nat), HartFree s d h → (s.hart d h).sbuf = [] → (s.hart d h).inM = true →
    let x := s.hart d h
    let enters := fun (c : Instr) (cause : Word) =>
      Does c s fun t => t = { s with core := t.core } ∧
        t.csrValue d h 0x41 = BitVec.ofNat 64 x.pc ∧ t.csrValue d h 0x42 = cause ∧ t.csrValue d h 0x43 = 0 ∧
        (t.hart d h).pc = (s.csrValue d h 0x44).toNat ∧ (t.hart d h).res = none ∧ (t.hart d h).regs = x.regs ∧ (t.hart d h).icount = x.icount ∧
        bitOf (t.csrValue d h 0x40) 16 = bitOf x.mstate 0 ∧ bitOf (t.csrValue d h 0x40) 17 = bitOf x.mstate 1 ∧
        bitOf (t.csrValue d h 0x40) 18 = bitOf x.mstate 2 ∧ bitOf (t.csrValue d h 0x40) 1 = false ∧ bitOf (t.csrValue d h 0x40) 3 = true ∧
        bitOf (t.csrValue d h 0x40) 0 = true ∧ bitOf (t.csrValue d h 0x40) 2 = bitOf x.mstate 2
    (bitOf x.mstate 3 = false → enters (.sysreq d h) 0x09 ∧ enters (.brkpt d h) 0x0A) ∧
    (bitOf x.mstate 3 = true →
      Does (.sysreq d h) s (fun t => (t.hart d h).stopped = true ∧ t.fld (dreg .fltErr d) FltErr.DBLTRAP = 1) ∧
      Does (.brkpt d h) s (fun t => (t.hart d h).stopped = true ∧ t.fld (dreg .fltErr d) FltErr.DBLTRAP = 1))

/-- An exception in S goes to S when MPASS passes its cause and to M otherwise, and TRET undoes each entry (R385, R384, R392). -/
def Obligations.HartTrapInSupervisor : Prop :=
  ∀ (s : State) (d h : Nat), HartFree s d h →
    let x := s.hart d h
    let m := fun (t : State) (i : Nat) => bitOf ((t.hart d h).mstate) i
    (x.sbuf = [] → x.inM = false →
      (bitOf (s.csrValue d h 0x47) 8 = true → Does (.sysreq d h) s fun t => t = { s with core := t.core } ∧
        t.csrValue d h 0x01 = BitVec.ofNat 64 x.pc ∧ t.csrValue d h 0x02 = 8 ∧ t.csrValue d h 0x03 = 0 ∧ (t.hart d h).inM = false ∧
        (t.hart d h).pc = (s.csrValue d h 0x04).toNat ∧ m t 10 = m s 2 ∧ m t 2 = false ∧ (t.hart d h).res = none ∧ (t.hart d h).regs = x.regs) ∧
      (bitOf (s.csrValue d h 0x47) 8 = false → m s 3 = false → Does (.sysreq d h) s fun t => t = { s with core := t.core } ∧
        t.csrValue d h 0x41 = BitVec.ofNat 64 x.pc ∧ t.csrValue d h 0x42 = 8 ∧ t.csrValue d h 0x43 = 0 ∧ (t.hart d h).inM = true ∧
        (t.hart d h).pc = (s.csrValue d h 0x44).toNat ∧ m t 16 = false ∧ m t 3 = true ∧ (t.hart d h).res = none ∧ (t.hart d h).regs = x.regs)) ∧
    (x.inM = true → Does (.tret d h) s fun t => t = { s with core := t.core } ∧
      m t 0 = m s 16 ∧ m t 1 = m s 17 ∧ m t 2 = m s 18 ∧ m t 3 = false ∧ (t.hart d h).pc = (s.csrValue d h 0x41).toNat ∧ (t.hart d h).regs = x.regs) ∧
    (x.inM = false → Does (.tret d h) s fun t => t = { s with core := t.core } ∧
      m t 2 = m s 10 ∧ m t 10 = false ∧ m t 0 = false ∧ (t.hart d h).pc = (s.csrValue d h 0x01).toNat ∧ (t.hart d h).regs = x.regs)

/-- The words of OPs 0x38 to 0x3E, and every word that is no instruction, raise ILLEGAL on a control core with the word as its value (R373, R375, R384). -/
def Obligations.HartIllegalWords : Prop :=
  ∀ (s : State) (d h rd ra rb k imm w : Nat) (ecc : LookupEcc), HartFree s d h → (s.hart d h).sbuf = [] → (s.hart d h).inM = true →
    bitOf (s.hart d h).mstate 3 = false → rd < 32 → ra < 32 → rb < 32 → k < 16 → imm < 65536 → w < 2 ^ 32 →
    let x := s.hart d h
    let traps := fun (c : Instr) (cause : Word) (v : Nat) =>
      Does c s fun t => t = { s with core := t.core } ∧ t.csrValue d h 0x42 = cause ∧ t.csrValue d h 0x43 = BitVec.ofNat 64 v ∧
        t.csrValue d h 0x41 = BitVec.ofNat 64 x.pc ∧ (t.hart d h).pc = (s.csrValue d h 0x44).toNat ∧ (t.hart d h).regs = x.regs ∧
        (t.hart d h).icount = x.icount
    traps (.hxf (.hart d h) rd imm) 0x01 (0x38 + 2 ^ 6 * rd + 2 ^ 16 * imm) ∧
    traps (.hxb (.hart d h) rd imm) 0x01 (0x39 + 2 ^ 6 * rd + 2 ^ 16 * imm) ∧
    traps (.lk (.hart d h) rd ra rb k ecc) 0x01 (0x3A + 2 ^ 6 * rd + 2 ^ 11 * ra + 2 ^ 16 * rb + 2 ^ 21 * k) ∧
    traps (.lkf (.hart d h) rd ra ecc) 0x01 (0x3B + 2 ^ 6 * rd + 2 ^ 11 * ra) ∧
    traps (.mset (.hart d h) rd ra) 0x01 (0x3C + 2 ^ 6 * rd + 2 ^ 11 * ra) ∧
    traps (.mseti (.hart d h) rd imm) 0x01 (0x3D + 2 ^ 6 * rd + 2 ^ 16 * imm) ∧
    traps (.vFwd (.hart d h) imm) 0x01 (0x3E + 2 ^ 16 * imm) ∧
    traps (.vFwdm (.hart d h) imm) 0x01 (0x3E + 2 ^ 6 * 1 + 2 ^ 16 * imm) ∧
    traps (.vHold (.hart d h) imm) 0x01 (0x3E + 2 ^ 6 * 2 + 2 ^ 16 * imm) ∧
    traps (.vRefuse (.hart d h) imm) 0x01 (0x3E + 2 ^ 6 * 3 + 2 ^ 16 * imm) ∧
    traps (.vTrap (.hart d h) imm) 0x01 (0x3E + 2 ^ 6 * 4 + 2 ^ 16 * imm) ∧
    traps (.illegalInstruction d h w false) 0x01 w ∧
    traps (.illegalInstruction d h w true) 0x02 x.pc

/-- CRD, CWR and CMOD read, write, set and clear control and status registers, and raise ILLEGAL where R383 permits no access (R383, R391, R372). -/
def Obligations.HartCsrAccess : Prop :=
  ∀ (s : State) (d h rd ra n : Nat), HartFree s d h → rd < 32 → ra < 32 → n < 1024 →
    let x := s.hart d h
    let a := rget x.regs ra
    (csrMayRead x.inM n = true → n ≠ 0x21 → n ≠ 0x23 → exec (.crd d h rd n) s = .next (s.retired d h fun y => y.wrote rd (s.csrValue d h n))) ∧
    Does (.cwr d h ra 0x05) s (fun t => t = { s with core := t.core } ∧ t.csrValue d h 0x05 = a ∧ (t.hart d h).regs = x.regs ∧
      (t.hart d h).pc = (x.pc + 4) % 2 ^ 64) ∧
    (x.inM = true → ∀ set : Bool, Does (.cmod d h rd ra 0x45 set) s fun t => t = { s with core := t.core } ∧
      let v := if set then s.csrValue d h 0x45 ||| a else s.csrValue d h 0x45 &&& ~~~a
      t.csrValue d h 0x45 = v ∧ (t.hart d h).regs = rset x.regs rd v ∧ (t.hart d h).pc = (x.pc + 4) % 2 ^ 64) ∧
    (x.sbuf = [] → bitOf x.mstate 3 = false → bitOf (s.csrValue d h 0x47) 1 = false →
      let traps := fun (c : Instr) (w : Nat) => Does c s fun t => t = { s with core := t.core } ∧ t.csrValue d h 0x42 = 0x01 ∧
        t.csrValue d h 0x43 = BitVec.ofNat 64 w ∧ (t.hart d h).regs = x.regs ∧ (t.hart d h).icount = x.icount
      (csrMayRead x.inM n = false → traps (.crd d h rd n) (0x31 + 2 ^ 6 * rd + 2 ^ 16 * n)) ∧
      (csrMayWrite x.inM n = false → traps (.cwr d h ra n) (0x32 + 2 ^ 11 * ra + 2 ^ 16 * n) ∧
        traps (.cmod d h rd ra n true) (0x33 + 2 ^ 6 * rd + 2 ^ 11 * ra + 2 ^ 16 * n + 2 ^ 26)))

/-- An event enters its vector, a sleeping hart wakes for an enabled input, and CYCCMP raises input 2 (R385, R389, R397, R388). -/
def Obligations.HartEvents : Prop :=
  ∀ (s : State) (d h v : Nat), s.hasDie d = true → s.active d = true → h < 2 → s.mode ≠ 7 → s.recState d = 0 → (s.recDie d).staged = [] →
    let x := s.hart d h
    (s.hartRuns d h = true → x.loads = [] → s.fetchFaults d h = false → s.nextInput d h = some v →
      (bitOf (x.evcfg v) 6 = false → Does (.eventTaken d h) s fun t => t.csrValue d h 0x41 = BitVec.ofNat 64 x.pc ∧
        t.csrValue d h 0x42 = BitVec.ofNat 64 (2 ^ 63 + v) ∧ (t.hart d h).pc = ((s.csrValue d h 0x46).toNat + 16 * v) % 2 ^ 64 ∧
        (t.hart d h).inM = true ∧ (t.hart d h).res = none ∧ (t.hart d h).regs = x.regs ∧ t.mem = s.mem) ∧
      (bitOf (x.evcfg v) 6 = true → Does (.eventTaken d h) s fun t => t.csrValue d h 0x01 = BitVec.ofNat 64 x.pc ∧
        t.csrValue d h 0x02 = BitVec.ofNat 64 (2 ^ 63 + v) ∧ (t.hart d h).pc = ((s.csrValue d h 0x06).toNat + 16 * v) % 2 ^ 64 ∧
        (t.hart d h).inM = false ∧ (t.hart d h).res = none ∧ (t.hart d h).regs = x.regs ∧ t.mem = s.mem)) ∧
    (x.asleep = some 0 → s.anyEnabled d h = true → Does (.hartWake d h) s fun t => t = { s with core := t.core } ∧
      (t.hart d h).asleep = none ∧ (t.hart d h).pc = x.pc ∧ (t.hart d h).regs = x.regs) ∧
    Does (.cyccmpMatch d h) s (fun t => t = { s with core := t.core } ∧ t.inputLevel d h 2 = true ∧ (t.hart d h).regs = x.regs)

/-- A checkpoint empties the journals, a first divergence counts a rollback, and a second one within 1 s retires the pair (R399, R401, R402, R394). -/
def Obligations.HartCheckpointsAndDivergence : Prop :=
  ∀ (s : State) (d h : Nat), s.hartRuns d h = true →
    let x := s.hart d h
    let p := s.pairOf d h
    Does (.checkpoint d h) s (fun t => t = { s with core := t.core } ∧ (t.hart d h).inJ = [] ∧ (t.hart d h).outJ = [] ∧
      (t.hart d h).ckpt = some { regs := x.regs, pc := x.pc, csr := x.csr, res := x.res, icount := x.icount } ∧ (t.hart d h).regs = x.regs) ∧
    ((s.core.dies.get {} d).diverged.find p = none → Does (.lockstepDivergence d h) s fun t =>
      (t.hart d h).regs = x.regs ∧ (t.hart d h).pc = x.pc ∧ t.fld (dreg .fltErr d) FltErr.ROLLBACK = 1 ∧
      (t.core.dies.get {} d).rollbacks.get 0 h = min (2 ^ 32 - 1) ((s.core.dies.get {} d).rollbacks.get 0 h + 1)) ∧
    ((s.core.dies.get {} d).diverged.find p = some (s.meridian d) → (s.core.dies.get {} d).retired = [] →
      Does (.lockstepDivergence d h) s fun t => (t.core.dies.get {} d).retired = [p] ∧ t.shared d = true ∧ t.fld (dreg .fltErr d) FltErr.PAIRRET = 1 ∧
        (t.hart d h).regs = x.regs ∧ (t.hart d h).pc = x.pc)

/-- A store that times out is an error at once, fences its target, and the gate's answer lifts the fence and names the outcome (R414, R415, R416, R437). -/
def Obligations.HartTimeoutAndWithdrawal : Prop :=
  ∀ (s : State) (d h : Nat) (e : StoreEnt) (rest : List StoreEnt) (y : Dest) (env : BusEnv), s.hasDie d = true → s.active d = true → h < 2 →
    (s.hart d h).sbuf = e :: rest → (s.hart d h).loads = [] → s.decodeAddr d e.addr = some y → s.fenced d y = false → y.die < 8 → e.addr < 2 ^ 40 →
    bitOf (s.csrValue d h 0x48) 63 = false → (s.core.dies.get {} d).withdrawn = [] → s.active y.die = true →
    let r : Reg := { name := .coreBerrrec, die := d, i := h }
    Does (.targetTimeout d h none) s fun t => (t.hart d h).sbuf = rest ∧ t.csrValue d h 0x48 = BitVec.ofNat 64 (2 ^ 63 + e.addr) ∧
      t.fld r CoreBerrrec.OUTCOME = 1 ∧ t.fld r CoreBerrrec.TARGET = y.target % 32 ∧ t.fld r CoreBerrrec.DIE = y.die ∧
      t.fld r CoreBerrrec.ADDRESS = e.addr ∧ t.fenced d y = true ∧ t.mem = s.mem ∧
      Does (.withdrawalAnswer d h false env) t fun u => u.fenced d y = false ∧ u.fld r CoreBerrrec.OUTCOME = 2 ∧ u.mem = s.mem ∧
        (u.hart d h).sbuf = rest

/-- In a fret engine the base subset has the same operations as on a control core, and runs slot by slot (R403, R125, R123). -/
def Obligations.CourseBaseSubset : Prop :=
  ∀ (s : State) (d pp rd ra rb imm bit off : Nat) (c : Course), CourseFree s d pp c → rd < 32 → off < 32768 →
    let a := rget c.regs ra
    let b := rget c.regs rb
    let old := rget c.regs rd
    let pos := imm % 64
    let len := imm / 64 % 64 + 1
    let gives := fun (v : Word) => (.next (s.course d pp (c.wrote rd v)) : Host.Outcome State Fault Refusal)
    let keeps := (.next (s.course d pp { c with slot := c.slot + 1 }) : Host.Outcome State Fault Refusal)
    let go := fun (taken : Prop) [Decidable taken] =>
      (.next (s.course d pp { c with slot := if taken then c.slot + off else c.slot + 1 }) : Host.Outcome State Fault Refusal)
    exec (.add (.course d pp) rd ra rb) s = gives (a + b) ∧
    exec (.sub (.course d pp) rd ra rb) s = gives (a - b) ∧
    exec (.and (.course d pp) rd ra rb) s = gives (a &&& b) ∧
    exec (.or (.course d pp) rd ra rb) s = gives (a ||| b) ∧
    exec (.xor (.course d pp) rd ra rb) s = gives (a ^^^ b) ∧
    exec (.sll (.course d pp) rd ra rb) s = gives (a <<< (b.toNat % 64)) ∧
    exec (.srl (.course d pp) rd ra rb) s = gives (a >>> (b.toNat % 64)) ∧
    exec (.sra (.course d pp) rd ra rb) s = gives (a.sshiftRight (b.toNat % 64)) ∧
    exec (.slt (.course d pp) rd ra rb) s = gives (if a.toInt < b.toInt then 1 else 0) ∧
    exec (.sltu (.course d pp) rd ra rb) s = gives (if a.toNat < b.toNat then 1 else 0) ∧
    exec (.min (.course d pp) rd ra rb) s = gives (if a.toInt < b.toInt then a else b) ∧
    exec (.minu (.course d pp) rd ra rb) s = gives (if a.toNat < b.toNat then a else b) ∧
    exec (.max (.course d pp) rd ra rb) s = gives (if a.toInt < b.toInt then b else a) ∧
    exec (.maxu (.course d pp) rd ra rb) s = gives (if a.toNat < b.toNat then b else a) ∧
    exec (.cmovz (.course d pp) rd ra rb) s = (if b = 0 then gives a else keeps) ∧
    exec (.cmovn (.course d pp) rd ra rb) s = (if b = 0 then keeps else gives a) ∧
    exec (.popc (.course d pp) rd ra) s = gives (BitVec.ofNat 64 ((List.range 64).map fun i => (a.getLsbD i).toNat).sum) ∧
    (a = 0 → exec (.clz (.course d pp) rd ra) s = gives 64 ∧ exec (.ctz (.course d pp) rd ra) s = gives 64) ∧
    exec (.addi (.course d pp) rd ra imm) s = gives (a + (BitVec.ofNat 16 imm).signExtend 64) ∧
    exec (.andi (.course d pp) rd ra imm) s = gives (a &&& BitVec.ofNat 64 (imm % 65536)) ∧
    exec (.ori (.course d pp) rd ra imm) s = gives (a ||| BitVec.ofNat 64 (imm % 65536)) ∧
    exec (.xori (.course d pp) rd ra imm) s = gives (a ^^^ BitVec.ofNat 64 (imm % 65536)) ∧
    exec (.slli (.course d pp) rd ra imm) s = gives (a <<< (imm % 64)) ∧
    exec (.srli (.course d pp) rd ra imm) s = gives (a >>> (imm % 64)) ∧
    exec (.srai (.course d pp) rd ra imm) s = gives (a.sshiftRight (imm % 64)) ∧
    exec (.slti (.course d pp) rd ra imm) s = gives (if a.toInt < ((BitVec.ofNat 16 imm).signExtend 64).toInt then 1 else 0) ∧
    exec (.sltui (.course d pp) rd ra imm) s = gives (if a.toNat < ((BitVec.ofNat 16 imm).signExtend 64).toNat then 1 else 0) ∧
    exec (.lui (.course d pp) rd imm) s = gives (((BitVec.ofNat 16 imm).signExtend 64) <<< 16) ∧
    (∃ v : Word, (∀ i, i < 64 → v.getLsbD i = (decide (i < len) && a.getLsbD (pos + i))) ∧
      exec (.extu (.course d pp) rd ra imm) s = gives v) ∧
    (∃ v : Word, (∀ i, i < 64 → v.getLsbD i = if pos ≤ i ∧ i < pos + len then a.getLsbD (i - pos) else old.getLsbD i) ∧
      exec (.insu (.course d pp) rd ra imm) s = gives v) ∧
    exec (.beq (.course d pp) ra rb off) s = go (a = b) ∧
    exec (.bne (.course d pp) ra rb off) s = go (a ≠ b) ∧
    exec (.blt (.course d pp) ra rb off) s = go (a.toInt < b.toInt) ∧
    exec (.bge (.course d pp) ra rb off) s = go (b.toInt ≤ a.toInt) ∧
    exec (.bltu (.course d pp) ra rb off) s = go (a.toNat < b.toNat) ∧
    exec (.bgeu (.course d pp) ra rb off) s = go (b.toNat ≤ a.toNat) ∧
    exec (.jmp (.course d pp) off) s = go True ∧
    exec (.btst (.course d pp) ra bit off) s = go (a.getLsbD (bit % 64) = true) ∧
    exec (.btcl (.course d pp) ra bit off) s = go (a.getLsbD (bit % 64) = false)

/-- INSTALL reports its first failure, REVOKE withdraws the token, a timed-out debug access sets DBGREF, and SEL = 1 waits for the lock (R428, R431, R433, R434, R442, R443). -/
def Obligations.DebugTokensAndControlClock : Prop :=
  ∀ (s : State) (who : Master) (d addr : Nat) (v : Word) (write : Bool),
    let ctl := fun (t : State) (f : Field) => t.fld partDbgCtl f
    let frec := fun (t : State) (f : Field) => t.fld (dreg .gateFrec0 d) f
    let selOnly := Does (.coreClkSelect d v) s fun t => t.fld (dreg .coreClk d) CoreClk.SEL = CoreClk.SEL.of v ∧
      t.fld (dreg .coreClk d) CoreClk.PLLLOCK = s.fld (dreg .coreClk d) CoreClk.PLLLOCK ∧ Keeps [.coreClk] s t
    (s.tokenStatus s.tokenBytes = 1 → Does (.install who) s fun t => ctl t PartDbgCtl.STATUS = 1 ∧ ctl t PartDbgCtl.ACTIVE = 1 ∧
      (∃ k, t.gate.token = some k ∧ k.grants = leAt s.tokenBytes 0x18 4 ∧ k.entries = tokenEntries s.tokenBytes) ∧ Keeps [.partDbgCtl] s t) ∧
    (s.tokenStatus s.tokenBytes ≠ 1 → s.active s.lead = true → Does (.install who) s fun t =>
      ctl t PartDbgCtl.STATUS = s.tokenStatus s.tokenBytes ∧ ctl t PartDbgCtl.ACTIVE = ctl s PartDbgCtl.ACTIVE ∧ t.gate = s.gate ∧
      t.fld (gateErr s.lead) GateErr.TOKEN = 1 ∧ Keeps [.partDbgCtl, .gateErr] s t) ∧
    Does (.revoke who) s (fun t => ctl t PartDbgCtl.ACTIVE = 0 ∧ (∀ e g page need, t.tokenPasses e g page need = false) ∧
      (∀ b, t.granted b = false) ∧ Keeps [.partDbgCtl] s t) ∧
    (s.active d = true → d < s.dieCount → Does (.debugAccessTimeout d addr write) s fun t =>
      t.fld (gateErr d) GateErr.DBGREF = 1 ∧ Keeps [.gateErr, .gateFrec0, .gateFrec1] s t ∧
      (s.fld (gateErr d) GateErr.REFUSED = 0 → s.fld (gateErr d) GateErr.DBGREF = 0 → addr < 2 ^ 40 →
        frec t GateFrec0.VALID = 1 ∧ frec t GateFrec0.MID = 0x81 ∧ frec t GateFrec0.ACC = b2n write ∧ frec t GateFrec0.ADDRESS = addr)) ∧
    (CoreClk.SEL.of v = 1 → s.fld (dreg .coreClk d) CoreClk.PLLLOCK = 0 → Does (.coreClkSelect d v) s fun t => t = s) ∧
    (CoreClk.SEL.of v = 0 → selOnly) ∧
    (s.fld (dreg .coreClk d) CoreClk.PLLLOCK = 1 → selOnly)

/-- A fault opens a case at SEV or joins its standing case, cases escalate to the next named level, and acknowledgement and exit end them (R446, R452, R453, R454, R456, R487, R34). -/
def Obligations.FaultCases : Prop :=
  ∀ (s : State) (d i tag : Nat) (who : Master) (f : FaultRec) (rest : List FaultRec) (env : WarmEnv) (pass ok : Bool) (re : RejoinEnv)
    (sets : List FaultRec),
    s.active d = true → d < s.dieCount → i < 256 →
    let k := classOf f.reg f.bit
    let u := s.unitOf d f
    let c := fun (x : State) (g : Field) => x.caseFld d i g
    let lvl := c s FltCase0.LEVEL
    let cap := s.cap (c s FltCase0.CLASS)
    let taken := s.flt.inbox.get [] d = f :: rest ∧ s.takes d f = true ∧ k ≠ 26
    let may := s.caseOfTag d tag = some i ∧ mayAnswer who (s.escMode d i) (c s FltCase0.PART) true = true
    let escalates := fun (x : Instr) =>
      (∀ l, s.nextLevel d i = some l → l ≤ 2 → Does x s fun t => c t FltCase0.LEVEL = l ∧ c t FltCase0.ESCRUN = b2n (decide (l < cap)) ∧ t.caseOn d i = s.caseOn d i) ∧
      (s.nextLevel d i = none → Does x s fun t => c t FltCase0.LEVEL = lvl ∧ c t FltCase0.ESCRUN = 0 ∧ c t FltCase0.WAITV = 0)
    let plain := ∀ b, b ∈ (s.caseHid d i).bits → b.1.name ∉ [.fltCase0, .fltCase1, .fltCnt]
    (taken → s.findCase d k u = none → s.freeCase d k (s.sev k) = some i → s.sev k ≤ 1 → Does (.faultTaken d env) s fun t =>
      t.caseOn d i = true ∧ c t FltCase0.LEVEL = s.sev k ∧ c t FltCase0.CLASS = k ∧ c t FltCase0.UKIND = u.kind % 16 ∧
      c t FltCase0.UNIT = u.unit % 2 ^ 18 ∧ c t FltCase0.COUNT = 1 ∧ c t FltCase0.ACKED = 0 ∧
      c t FltCase0.ESCRUN = b2n (decide (s.sev k < s.cap k)) ∧ (t.caseHid d i).bits = [(f.reg, f.bit)] ∧ t.flt.inbox.get [] d = rest) ∧
    (taken → s.findCase d k u = some i →
      (c s FltCase0.ACKED = 1 → Does (.faultTaken d env) s fun t => c t FltCase0.LEVEL = lvl ∧ c t FltCase0.ACKED = 0 ∧
        c t FltCase0.COUNT = min 31 (c s FltCase0.COUNT + 1) ∧ (lvl < cap → c t FltCase0.ESCRUN = 1)) ∧
      (c s FltCase0.ACKED = 0 → escalates (.faultTaken d env))) ∧
    (s.caseOn d i = true → c s FltCase0.ESCRUN = 1 → escalates (.escalationTimerExpire d i)) ∧
    (may → escalates (.escalate who d tag)) ∧
    (may → plain → Does (.handled who d tag []) s fun t => c t FltCase0.ACKED = 1 ∧ c t FltCase0.LEVEL = lvl ∧
      (∀ b, b ∈ (s.caseHid d i).bits → t.bit b.1 b.2 = false) ∧ (c s FltCase0.ACKED = 0 → c t FltCase0.ESCRUN = 0)) ∧
    (∀ g, may → plain → g ∈ sets → g.isSource = true → (g.reg, g.bit) ∈ (s.caseHid d i).bits → g.bit < 64 → s.active (faultDie s g.reg) = true →
      Does (.handled who d tag sets) s fun t => t.bit g.reg g.bit = true ∧ c t FltCase0.ACKED = c s FltCase0.ACKED) ∧
    (may → plain → lvl ≠ 6 → Does (.release who d tag pass ok re) s fun t => t.caseOn d i = false) ∧
    (s.caseOn d i = true → lvl ≠ 6 → Does (.quietExpire d i pass ok re) s fun t => t.caseOn d i = false ∧
      let n : Reg := { name := .fltRcnt, die := d, i := c s FltCase0.CLASS }
      ((s.caseHid d i).applied = [] → s.fld n FltRcnt.COUNT < 1000 → t.fld n FltRcnt.COUNT = s.fld n FltRcnt.COUNT + 1)) ∧
    (s.caseOfTag d tag = none → 
      let refused := fun (t : State) => t.fld (dreg .evtPulse d) EvtPulse.VREF = 1 ∧ t.flt.cases = s.flt.cases
      Does (.handled who d tag sets) s refused ∧ Does (.escalate who d tag) s refused ∧ Does (.release who d tag pass ok re) s refused)

/-- DPC holds a port down and lets it go, a die out of reach is lost, watchdogs expire and are kicked, and the BMC takes its messages in order (R461, R463, R467, R471, R476, R488, R26). -/
def Obligations.DieLossDpcWatchdogAndBmcQueue : Prop :=
  ∀ (s : State) (d n k e : Nat) (v : Word) (m : BmcMsg) (rest : List BmcMsg),
    let x := s.vport n k
    let le := s.newE s.lead
    let g := s.bindPort s.lead le n k
    let r := s.route d e
    let takes := fun (c : Instr) => Does c s fun t => t.flt.bmc = rest ∧ t.fld { name := .partEvtq } PartEvtq.DEPTH = rest.length ∧ Keeps [.partEvtq] s t
    (x.dpcEn = true → x.dpcTrig = false →
      (s.bindKind s.lead le n k = 1 → s.active (pdie g) = true → s.upFace g = none → Does (.dpcTrigger n k) s fun t =>
        (t.vport n k).dpcTrig = true ∧ t.fld (tlerr g) FltTlerr.DPCTRIG = 1 ∧ t.linkLive (pdie g) (pnum g) = false ∧ (n, k, g) ∈ t.flt.dpcPorts) ∧
      (s.bindKind s.lead le n k = 2 → Does (.dpcTrigger n k) s fun t =>
        (t.vport n k).dpcTrig = true ∧ t.flt.dpcCtx = s.flt.dpcCtx ++ [(n, k, s.bindCtx s.lead le n k)] ∧ Keeps [] s t)) ∧
    (x.dpcTrig = true → Does (.dpcRelease n k) s fun t => (t.vport n k).dpcTrig = false ∧
      (∀ y, y ∈ t.flt.dpcPorts ↔ y ∈ s.flt.dpcPorts ∧ ¬ (y.1 = n ∧ y.2.1 = k)) ∧ (∀ y, y ∈ t.flt.dpcCtx ↔ y ∈ s.flt.dpcCtx ∧ ¬ (y.1 = n ∧ y.2.1 = k))) ∧
    (s.active d = true → d < 8 → d ≠ s.lead → s.activeDies.length ≥ 2 → d ∉ s.reachable 8 [s.lead] → s.reachable 8 [s.lead] ≠ [s.lead] →
      Does (.spanIsolationTimeout d) s fun t => t.dieState d = 6) ∧
    (s.flt.wdog.get 0 d ≠ 0 → s.active d = true → Does (.watchdogExpire d) s fun t =>
      t.flt.wdog.get 0 d = 0 ∧ t.fld (dreg .fltErr d) FltErr.WDOG = 1 ∧ Keeps [.fltErr] s t) ∧
    (s.active d = true → Does (.kick d) s fun t =>
      t = { s with flt := { s.flt with wdog := s.flt.wdog.set d (s.fld { name := .partFltcfg } PartFltcfg.WDOG) } }) ∧
    (s.hasPath = true → s.flt.bmc = m :: rest → rest.length < 128 →
      takes (.pollForPlatformEventMessage true) ∧ takes (.platformEventMessageResponse true)) ∧
    Does (.pollForPlatformEventMessage false) s (fun t => t = s) ∧
    Does (.platformEventMessageResponse false) s (fun t => t = s) ∧
    (s.active d = true → e < 1024 → Does (.evtRouteWrite d e v) s fun t => Keeps [.evtRoute] s t ∧
      t.fld r EvtRoute.HEN = EvtRoute.HEN.of v ∧ t.fld r EvtRoute.HART = EvtRoute.HART.of v ∧ t.fld r EvtRoute.INPUT = max 8 (EvtRoute.INPUT.of v) ∧
      t.fld r EvtRoute.PEN = EvtRoute.PEN.of v ∧ t.fld r EvtRoute.PSEL = EvtRoute.PSEL.of v ∧ t.fld r EvtRoute.PARTN = EvtRoute.PARTN.of v ∧
      t.fld r EvtRoute.VEC = EvtRoute.VEC.of v ∧ t.fld r EvtRoute.BMC = EvtRoute.BMC.of v ∧ t.fld r EvtRoute.REC = EvtRoute.REC.of v) ∧
    (d ∈ s.flt.rejoining → s.dieState d = 1 → d < 8 → s.capoRuns = false → s.tab.drain = none → Does (.rejoinCopyEnd d) s fun t => t.active d = true)

/-- A part reset begins anew, and a start that fails writes its cause into the record of every die in service (R490, R492, R499, R501, R502, R521). -/
def Obligations.PartResetsAndFailedStarts : Prop :=
  ∀ (s : State) (d : Nat) (env : StartEnv) (wenv : WarmEnv) (prst : Bool),
    let cause := fun (t : State) (e : Nat) (f : Field) => t.fld (dreg .bootCause e) f
    let fails := fun (c : Instr) (code : Nat) => Does c s fun t => t.boot.failed = true ∧ t.boot.timer = false ∧
      ∀ e, e ∈ s.activeDies → cause t e BootCause.CODE = code ∧ cause t e BootCause.PREV1 = cause s e BootCause.CODE ∧
        cause t e BootCause.ATTEMPTS = min 3 (cause s e BootCause.ATTEMPTS + 1)
    (s.boot.held = true → Does (.powerUp env prst) s fun t => t.boot.held = false ∧ t.boot.prst = prst ∧ t.boot.resets = s.boot.resets + 1) ∧
    (s.boot.held = false → Does (.prstRelease env) s fun t => t.boot.prst = false ∧ t.boot.resets = s.boot.resets + 1) ∧
    (s.active d = true → Does (.preset d env) s fun t => t.boot.resets = s.boot.resets + 1) ∧
    (s.boot.failed = true → Does (.failedStartRestart env) s fun t => t.boot.resets = s.boot.resets + 1) ∧
    (s.boot.timer = true → s.trial = false → s.boot.failed = false → s.activeDies ≠ [] → fails (.startTimerExpire wenv) 0x12) ∧
    (s.boot.timer = true → s.trial = false → s.boot.failed = false → s.active d = true → d < s.dieCount → fails (.fail d) 0x15) ∧
    (s.active d = true → Does (.clratt d) s fun t => ∀ e, e < s.dieCount → cause t e BootCause.ATTEMPTS = 0)

/-- After a management reset every hart of a die in service starts anew: empty registers, reset CSRs, empty buffers (R404, R419, R504, R509). -/
def Obligations.ManagementResetRestartsHarts : Prop :=
  ∀ (s : State) (d : Nat) (env : WarmEnv),
    let fresh := fun (t : State) => ∀ e h, e < s.dieCount → h < 2 → t.active e = true →
      (t.hart e h).regs = [] ∧ (t.hart e h).csr = [] ∧ (t.hart e h).loads = [] ∧ (t.hart e h).sbuf = [] ∧ (t.hart e h).res = none
    (s.active d = true → Does (.mreset d env) s fresh) ∧
    (s.act BootAct.STATE = 4 → Does (.handoverTimeout env) s fresh)

/-- Staging, activation, the handover and SERVICE show the states that R506 to R511 and R522 give them (R506, R507, R508, R510, R511, R522, R523, R492). -/
def Obligations.StagingAndActivation : Prop :=
  ∀ (s : State) (d src : Nat) (who : Master) (badBody : List Nat), s.active d = true → d < s.dieCount → s.active s.lead = true → s.lead < s.dieCount →
    (src < 2 → s.act BootAct.BUSY = 0 → s.running ≠ some src →
      Does (.stage d src) s fun t => t.act BootAct.BUSY = 1 ∧ t.act BootAct.STATE = 1 ∧ t.boot.staging = some src ∧ t.mem = s.mem) ∧
    (s.boot.staging = some src → s.imageCheck src badBody = 0 → (∀ e, s.recState e = 0) →
      Does (.stageComplete badBody) s fun t => t.act BootAct.BUSY = 0 ∧ t.act BootAct.STATE = 2 ∧ t.act BootAct.STATUS = 1 ∧
        t.act BootAct.STAGEDVER = hdrVersion (s.imageHeader src) ∧ t.boot.staged = true ∧ t.boot.stagedFlash = src) ∧
    (s.boot.staging = some src → s.imageCheck src badBody ≠ 0 → s.trial = false →
      Does (.stageComplete badBody) s fun t => t.act BootAct.BUSY = 0 ∧ t.act BootAct.STATE = 0 ∧ t.act BootAct.STATUS = 8 ∧
        t.act BootAct.CODE = s.imageCheck src badBody % 256 ∧ t.mem = s.mem) ∧
    (s.act BootAct.BUSY = 0 → s.trial = false → s.mode ≠ 0 → s.mode ≠ 7 → s.boot.staged = true →
      (s.assist PartAssist.FWACT ≠ 2 ∨ who = .bmc) → s.fld partCapo PartCapo.BUSY = 0 →
      Does (.activate who d) s fun t =>
        if s.dieCount = 8 then t.act BootAct.STATE = 5 ∧ t.act BootAct.BUSY = 0
        else t.act BootAct.STATE = 4 ∧ t.act BootAct.BUSY = 1 ∧ t.boot.needReady = s.activeDies ∧
          t.fld (dreg .bootStat s.lead) BootStat.PHASE = 6) ∧
    (d ∈ s.boot.needReady → s.boot.needReady.erase d ≠ [] →
      Does (.hready d) s fun t => t = { s with boot := { s.boot with needReady := s.boot.needReady.erase d } }) ∧
    (d ∈ s.boot.needResume → s.boot.needResume.erase d ≠ [] →
      Does (.resume d) s fun t => t = { s with boot := { s.boot with needResume := s.boot.needResume.erase d } }) ∧
    (s.boot.needResume = [d] → Does (.resume d) s fun t => t.trial = true ∧ t.act BootAct.STATE = 6 ∧ t.boot.timer = true ∧
      t.fld (dreg .bootStat s.lead) BootStat.PHASE = 3 ∧ t.mem = s.mem) ∧
    (s.act BootAct.BUSY = 0 → s.boot.staged = true → s.trial = false →
      Does (.discard d) s fun t => t.act BootAct.STATE = 0 ∧ t.act BootAct.STAGEDVER = 0 ∧ t.boot.staged = false ∧ t.mem = s.mem) ∧
    (s.boot.timer = true → s.trial = false → Does (.service d) s fun t => t.boot.timer = false ∧
      t.fld (dreg .bootStat d) BootStat.PHASE = 3 ∧ t.fld (dreg .bootCause d) BootCause.ATTEMPTS = 0 ∧ t.mem = s.mem) ∧
    (s.boot.timer = true → s.trial = true → Does (.service d) s fun t => t.boot.timer = false ∧ t.trial = false ∧
      t.act BootAct.STATUS = 2 ∧ t.mem = s.mem)

/-- The verdicts on a waiting activation or migration act once, and a migration that needs none writes the store (R507, R515, R516, R524). -/
def Obligations.ActivationAndMigrationVerdicts : Prop :=
  ∀ (s : State) (d tag stat : Nat) (report : List Word) (store : List Byte), s.active d = true → d < s.dieCount → s.active s.lead = true → s.lead < s.dieCount →
    let actv : Reg := dreg .bootActv s.lead
    let migv : Reg := dreg .bootMigv s.lead
    (tag ≠ 0 → s.fld actv BootActv.TAG = tag →
      Does (.actvRefuse .bmc d tag) s (fun t => t.fld actv BootActv.TAG = 0 ∧ t.act BootAct.STATUS = 6 ∧ t.act BootAct.STATE = 2 ∧ t.mem = s.mem) ∧
      (s.dieCount = 8 → s.fld partCapo PartCapo.BUSY = 0 →
        Does (.actvActivate .bmc d tag) s (fun t => t.fld actv BootActv.TAG = 0 ∧ t.act BootAct.STATE = 5 ∧ t.mem = s.mem))) ∧
    (tag ≠ 0 → s.fld migv BootMigv.TAG = tag →
      Does (.migvMigrate .bmc d tag) s (fun t => t.fld migv BootMigv.TAG = 0 ∧ t.fld (dreg .bootMigStat s.lead) BootMigStat.STATE = 2 ∧ t.mem = s.mem) ∧
      Does (.migvDefaults .bmc d tag) s (fun t => t.fld migv BootMigv.TAG = 0 ∧ t.fld (dreg .bootMigStat s.lead) BootMigStat.STATE = 2)) ∧
    (d = s.lead → s.assist PartAssist.MIGRATE ≠ 2 → Does (.settingsMigration d stat report store) s fun t =>
      t.fld (dreg .bootMigStat d) BootMigStat.STATE = 2 ∧
      ∀ f, f < 2 → s.flashThere f = true → t.flashBytes f 0x400000 store.length = store)

/-- A flash command runs unless it would change the running image, ends with its STATUS, and an SVN burn waits for a part reset (R526, R527). -/
def Obligations.FlashCommandsAndSvn : Prop :=
  ∀ (s : State) (d : Nat) (v : Word) (left : List Byte), s.active d = true → d < s.dieCount →
    let r : Reg := dreg .bootFlctl d
    let port := BootFlctl.PORT.of v
    let addr := BootFlctl.ADDR.of v
    let y := s.boot.flcmd.get {} d
    let shown := fun (op : Nat) (t : State) => t.fld r BootFlctl.PORT = port ∧ t.fld r BootFlctl.OP = op ∧ t.fld r BootFlctl.ADDR = addr ∧
      t.fld r BootFlctl.LEN = BootFlctl.LEN.of v ∧ t.mem = s.mem
    let runs := fun (op : Nat) (t : State) => shown op t ∧ t.fld r BootFlctl.BUSY = 1 ∧
      t.boot = { s.boot with flcmd := s.boot.flcmd.set d { port := port, op := op, len := BootFlctl.LEN.of v, addr := addr } }
    let refused := fun (op busy status : Nat) (t : State) => shown op t ∧ t.fld r BootFlctl.BUSY = busy ∧ t.fld r BootFlctl.STATUS = status ∧ t.boot = s.boot
    (s.fld r BootFlctl.BUSY = 0 → Does (.flashRead d v) s (runs 0)) ∧
    (s.fld r BootFlctl.BUSY = 0 → s.running ≠ some port → Does (.flashProgram d v) s (runs 1) ∧ Does (.flashErase4k d v) s (runs 2) ∧
      Does (.flashErase64k d v) s (runs 3)) ∧
    (s.fld r BootFlctl.BUSY = 0 → s.running = some port → addr ≤ 0x1000FF →
      Does (.flashProgram d v) s (refused 1 0 5) ∧ Does (.flashErase4k d v) s (refused 2 0 5) ∧ Does (.flashErase64k d v) s (refused 3 0 5)) ∧
    (s.fld r BootFlctl.BUSY = 1 → Does (.flashRead d v) s (refused 0 1 4) ∧ Does (.flashProgram d v) s (refused 1 1 4) ∧
      Does (.flashErase4k d v) s (refused 2 1 4) ∧ Does (.flashErase64k d v) s (refused 3 1 4)) ∧
    (s.fld r BootFlctl.BUSY = 1 → s.flashThere y.port = true → y.op = 2 →
      Does (.flashCommandEnd d true left) s fun t => t.fld r BootFlctl.BUSY = 0 ∧ t.fld r BootFlctl.STATUS = 1 ∧ t.mem = s.mem ∧
        ∀ k, k < 4096 → t.flashByte y.port (y.addr / 4096 * 4096 + k) = 0xFF) ∧
    (s.fld r BootFlctl.BUSY = 1 → y.op = 0 →
      Does (.flashTimeout d left) s fun t => t.fld r BootFlctl.BUSY = 0 ∧ t.fld r BootFlctl.STATUS = 3 ∧ t.boot = s.boot ∧ t.mem = s.mem) ∧
    (s.fuses.svnFloor ≤ BootSvn.FLOOR.of v → BootSvn.FLOOR.of v ≤ s.fld (dreg .bootVer d) BootVer.SVN →
      Does (.svnBurn d v) s fun t => t.fld (dreg .bootSvn d) BootSvn.PEND = 1 ∧ t.fuses.svnFloor = s.fuses.svnFloor ∧
        t.fuses.svnPend ≠ none ∧ t.mem = s.mem)

/-- The DSP0267 commands take an update through its phases, write only the other flash, and discard the staged image on a cancel (R512, R507, R510). -/
def Obligations.PldmFirmwareUpdate : Prop :=
  ∀ (s : State) (f off : Nat) (data : List Byte) (badBody : List Nat) (env : WarmEnv), s.hasPath = true → s.active s.lead = true → s.lead < s.dieCount →
    let p := s.boot.pldm
    let replies := fun (t : State) => ∃ x, t = { s with boot := { s.boot with pldm := { p with replies := p.replies ++ [x] } } }
    Does .queryDeviceIdentifiers s replies ∧
    Does .getFirmwareParameters s replies ∧
    Does .getStatus s replies ∧
    (p.phase = 0 → Does .requestUpdate s fun t => t.boot.pldm.phase = 1 ∧ t.boot.flash = s.boot.flash) ∧
    (p.phase = 1 → Does .passComponentTable s fun t => t.boot.pldm.phase = 2 ∧ t.boot.flash = s.boot.flash) ∧
    (p.phase = 2 → ∀ r, s.running = some r → Does (.updateComponent f) s fun t => t.boot.pldm.phase = 3 ∧ t.boot.pldm.flash = 1 - r) ∧
    (p.phase = 3 → data.length ≤ 4096 → off + data.length ≤ 0x100100 → Does (.firmwareDataReceive off data) s fun t =>
      t.flashBytes p.flash off data.length = data ∧ (∀ g a, g ≠ p.flash → t.flashByte g a = s.flashByte g a) ∧
      (∀ a, ¬ (off ≤ a ∧ a < off + data.length) → t.flashByte p.flash a = s.flashByte p.flash a)) ∧
    (p.phase = 3 → s.act BootAct.BUSY = 0 → s.running ≠ some p.flash → s.imageCheck p.flash badBody = 0 → (∀ e, s.recState e = 0) →
      Does (.transferComplete badBody) s fun t => t.boot.staged = true ∧ t.boot.pldm.phase = 4 ∧ t.act BootAct.STATUS = 1) ∧
    (3 ≤ p.phase → Does .cancelUpdateComponent s fun t => t.boot.staged = false ∧ t.boot.pldm.phase = 2) ∧
    (p.phase ≠ 0 → Does .cancelUpdate s fun t => t.boot.staged = false ∧ t.boot.pldm.phase = 0) ∧
    (p.phase = 4 → s.mayActivate = true → s.dieCount = 8 → s.fld partCapo PartCapo.BUSY = 0 →
      Does (.activateFirmware false env) s fun t => t.act BootAct.STATE = 5 ∧ t.boot.pldm.phase = 0 ∧ t.mem = s.mem)

/-- A domain request is refused with its STATUS, waits, or starts a transition; a transition ends in its state or fails, and demand wakes a domain (R528, R529, R530, R531, R532, R534, R535, R536, R537, R539, R550). -/
def Obligations.PowerDomains : Prop :=
  ∀ (s : State) (x : DomId) (d i k : Nat) (v : Word),
    let q := PwrDom.REQ.of v
    let f := fun (t : State) (y : DomId) (g : Field) => t.fld y.reg g
    let only := fun (t : State) => Keeps [.pwrDom, .hildDom] s t
    let shows := fun (n : Nat) => Does (.domainRequest x v) s fun t => f t x PwrDom.STATUS = n ∧ f t x PwrDom.REQ = q ∧
      f t x PwrDom.AUTO = PwrDom.AUTO.of v ∧ t.domCur x = s.domCur x ∧ t.domBusy x = false ∧ only t
    let bank := x.hild = false ∧ 34 ≤ x.i ∧ x.i ≤ 45
    let wakes := fun (c : Instr) (y : DomId) => Does c s fun t => t.domBusy y = true ∧ (t.domSt y).target = 0 ∧ t.domCur y = s.domCur y ∧ t.mem = s.mem
    (s.hasDom x = true → s.domBusy x = false → q ≠ 3 →
      (domAllows x q = false → shows 2) ∧
      (domAllows x q = true → q = s.domCur x → shows 1) ∧
      (domAllows x q = true → q ≠ 0 → q ≠ s.domCur x → s.mayLeave x q = false → shows 3) ∧
      (domAllows x q = true → q ≠ 0 → q ≠ s.domCur x → s.mayLeave x q = true → s.childOn x = true → shows 4) ∧
      (domAllows x q = true → q ≠ 0 → q ≠ s.domCur x → s.mayLeave x q = true → s.childOn x = false → s.domCur x ≠ 2 → ¬ bank →
        Does (.domainRequest x v) s fun t => t.domBusy x = true ∧ (t.domSt x).target = q ∧ t.domCur x = s.domCur x ∧
          (f s x PwrDom.PADS = 1 → f t x PwrDom.LATCHED = 1) ∧ only t) ∧
      (q = 1 → domAllows x 1 = true → s.domCur x = 2 → s.mayLeave x 1 = true → s.childOn x = false → Does (.domainRequest x v) s fun t =>
        t.domBusy x = true ∧ (t.domSt x).target = 0 ∧ (t.domSt x).thenRet = true ∧ t.domCur x = 2 ∧ t.mem = s.mem) ∧
      (bank → q ≠ 0 → s.domCur x = 0 → domAllows x q = true → s.childOn x = false →
        ((closeBank x.d (x.i - 34) s).sharedSize x.d < 16384 → shows 6) ∧
        (16384 ≤ (closeBank x.d (x.i - 34) s).sharedSize x.d → Does (.domainRequest x v) s fun t => t.domBusy x = true ∧
          (t.domSt x).closing = some q ∧ x.i - 34 ∈ (t.bufDie x.d).closed ∧ t.domCur x = 0 ∧ only t)) ∧
      (q = 0 → s.domCur x ≠ 0 → wakes (.domainRequest x v) x)) ∧
    (s.hasDom x = true → s.domBusy x = true → q ≠ 3 → Does (.domainRequest x v) s fun t =>
      (t.domSt x).next = some q ∧ t.domBusy x = true ∧ t.domCur x = s.domCur x ∧ only t) ∧
    (s.hasDom x = true → q = 3 → Does (.domainRequest x v) s fun t => f t x PwrDom.REQ = f s x PwrDom.REQ ∧
      f t x PwrDom.AUTO = PwrDom.AUTO.of v ∧ t.pwr = s.pwr ∧ only t) ∧
    (s.hasDom x = true → s.domCur x ≠ 0 → s.domBusy x = false → wakes (.domainWake x) x) ∧
    (((58 ≤ i ∧ i ≤ 60) ∨ i = 65 ∨ i = 66) → d < s.dieCount → s.domCur (dom d i) = 1 → s.domBusy (dom d i) = false →
      wakes (.retainedAccessWake d i) (dom d i)) ∧
    (s.domBusy x = true → (s.domSt x).closing = none → (s.domSt x).thenRet = false → (s.domSt x).next = none →
      ((s.domSt x).target = 0 → Does (.domainTransitionEnd x) s fun t => t.domCur x = 0 ∧ t.domBusy x = false ∧ t.mem = s.mem) ∧
      ((s.domSt x).target = 1 → Does (.domainTransitionEnd x) s fun t => t.domCur x = 1 ∧ t.domBusy x = false ∧ Keeps [.pwrDom, .hildDom, .hildStat] s t) ∧
      ((s.domSt x).target = 2 → Does (.domainTransitionEnd x) s fun t => t.domCur x = 2 ∧ t.domBusy x = false ∧
        ∀ a, let lo := dieBase x.d + (domBytes x.i).1
          t.mem.get a = if x.hild = false ∧ lo ≤ a ∧ a < lo + (domBytes x.i).2 then 0 else s.mem.get a)) ∧
    (s.domBusy x = true → (s.domSt x).closing = none → (s.domSt x).next = none → Does (.domainFail x) s fun t => t.domCur x = s.domCur x ∧ t.domBusy x = false ∧
      f t x PwrDom.STATUS = 5 ∧ (x.hild = false → s.active x.d = true → t.fld (dreg .pwrErr x.d) PwrErr.DOMFAIL = 1) ∧ t.mem = s.mem) ∧
    ((s.domSt (dom d (34 + k))).closing = some q →
      ((s.bufDie d).bankFree k = true → Does (.bufbCloseEnd d k) s fun t => t.domBusy (dom d (34 + k)) = true ∧
        (t.domSt (dom d (34 + k))).target = q ∧ (t.domSt (dom d (34 + k))).closing = none ∧ t.buf = s.buf ∧ only t) ∧
      ((s.bufDie d).bankFree k = false → (s.domSt (dom d (34 + k))).next = none → Does (.bufbCloseEnd d k) s fun t => t.domBusy (dom d (34 + k)) = false ∧
        f t (dom d (34 + k)) PwrDom.STATUS = 3 ∧ (t.bufDie d).closed = (s.bufDie d).closed.erase k ∧ only t)) ∧
    (let p := dreg .pwrPad d
     let m := PwrPad.DOM.of v
     PwrPad.RELEASE.of v = 1 → d < s.dieCount →
      (s.fld p PwrPad.BUSY = 1 → Does (.padRelease d v) s fun t => t.fld p PwrPad.STATUS = 4 ∧ Keeps [.pwrPad] s t) ∧
      (s.fld p PwrPad.BUSY = 0 → domPads m = false → Does (.padRelease d v) s fun t => t.fld p PwrPad.STATUS = 2 ∧ Keeps [.pwrPad] s t) ∧
      (s.fld p PwrPad.BUSY = 0 → domPads m = true → s.domCur (dom d m) = 0 → s.domBusy (dom d m) = false →
        Does (.padRelease d v) s fun t => t.fld p PwrPad.STATUS = 1 ∧ f t (dom d m) PwrDom.LATCHED = 0 ∧ Keeps [.pwrPad, .pwrDom] s t) ∧
      (s.fld p PwrPad.BUSY = 0 → domPads m = true → s.domCur (dom d m) ≠ 0 → s.domBusy (dom d m) = false →
        Does (.padRelease d v) s fun t => t.fld p PwrPad.BUSY = 1 ∧ t.pwr.padWait.find d = some m ∧ t.domBusy (dom d m) = true ∧
          (t.domSt (dom d m)).target = 0))

/-- The core rail follows its requests and answers, a temperature sample sets what it must, and a rail out of range holds or takes what it feeds (R544, R545, R546, R547, R554, R574, R664, R665, R671, R672). -/
def Obligations.CoreRailAndTemperature : Prop :=
  ∀ (s : State) (d : Nat) (also : List Nat) (tj : Int) (v : Bool),
    let a := dreg .pwrAvs d
    let req := s.fld a PwrAvs.REQ
    let rel := s.fld a PwrAvs.RELIED
    let want := s.avsTarget d
    let next := if req + 25 < want then req + 25 else if want + 25 < req then req - 25 else want
    let comp := if 640 ≤ tj then 0 else if 0 ≤ tj then 15 else 30
    let need := s.fuses.vb d + comp + s.fld (dreg .pwrAvscfg d) PwrAvscfg.MARGIN
    let allOff := fun (t : State) => ∀ n, n < 32 → t.slotState n = 0 ∧ t.slotBit n HildStat.SEATED = false ∧
      t.slotBit n HildStat.PERSTREL = false ∧ t.slotBit n HildStat.PGOOD = false
    (s.fld a PwrAvs.STATE = 1 →
      (req = want → Does (.avsAck d true true) s fun t => t.fld a PwrAvs.RELIED = req ∧ t.fld a PwrAvs.REQ = req ∧ t.fld a PwrAvs.STATE = 0 ∧ Keeps [.pwrAvs] s t) ∧
      (req ≠ want → req ≠ 0 → want < 65536 → Does (.avsAck d true true) s fun t => t.fld a PwrAvs.REQ = next ∧
        t.fld a PwrAvs.RELIED = min req next ∧ t.fld a PwrAvs.STATE = 1 ∧ Keeps [.pwrAvs] s t) ∧
      (s.active d = true → Does (.avsAck d false v) s fun t => t.fld (dreg .pwrErr d) PwrErr.AVSNAK = 1 ∧ Keeps [.pwrErr] s t) ∧
      Does (.avsAck d true false) s (fun t => t = s) ∧
      (s.active d = true → Does (.avsTimeout d) s fun t => t.fld a PwrAvs.STATE = 2 ∧ t.fld (dreg .pwrErr d) PwrErr.AVSTO = 1 ∧ Keeps [.pwrAvs, .pwrErr] s t)) ∧
    (s.fld a PwrAvs.STATE ≠ 1 → Does (.avsAck d true true) s fun t => t = s) ∧
    (s.fld a PwrAvs.STATE = 2 → Does (.avsRetry d) s fun t => t.fld a PwrAvs.STATE = 1 ∧ t.fld a PwrAvs.REQ = req ∧ Keeps [.pwrAvs] s t) ∧
    (d < s.dieCount → -32768 ≤ tj → tj < 32768 → need < 65536 → Does (.tempSample d tj) s fun t =>
      (t.fld (dreg .pwrTemp d) PwrTemp.TJ : Int) = tj % 65536 ∧
      signed 16 (t.fld (dreg .pwrTemp d) PwrTemp.MAX) = max (signed 16 (s.fld (dreg .pwrTemp d) PwrTemp.MAX)) tj ∧
      t.fld a PwrAvs.NEED = need ∧
      (s.active d = true → s.fld a PwrAvs.NEED ≤ rel → rel < need → rel ≠ 0 → t.fld (dreg .pwrErr d) PwrErr.VLOW = 1) ∧
      (s.active d = true → s.warnLimit ≤ tj → d ∉ s.pwr.warned → t.fld (dreg .fltErr d) FltErr.THERMWARN = 1) ∧
      (s.active d = true → s.tripLimit ≤ tj → d ∉ s.pwr.tripped → t.fld (dreg .fltErr d) FltErr.THERMTRIP = 1) ∧
      Keeps [.pwrTemp, .pwrAvs, .pwrErr, .fltErr] s t) ∧
    (s.active d = true → d < s.dieCount → d ∉ s.pwr.tripped → Does (.tempSensorTimeout d) s fun t =>
      t.fld (dreg .fltErr d) FltErr.THERMTRIP = 1 ∧ d ∈ t.pwr.tripped ∧ Keeps [.fltErr] s t) ∧
    (s.boot.held = false →
      let holds := fun (t : State) => t.boot.held = true ∧ t.boot.resets = s.boot.resets + 1 ∧ ∀ e, e < t.dieCount → t.active e = false
      Does (.railOutOfRange .vlane) s holds ∧ Does (.railOutOfRange .vio18) s holds ∧ Does (.railOutOfRange .vio33) s holds ∧
      Does (.railOutOfRange (.vaon v)) s holds ∧
      (s.active d = true →
        ((∀ e ∈ s.activeDies, e = d ∨ e ∈ also) → Does (.railOutOfRange (.vcore d also)) s holds) ∧
        ((∃ e ∈ s.activeDies, e ≠ d ∧ e ∉ also) → Does (.railOutOfRange (.vcore d also)) s fun t =>
          ∀ e ∈ s.activeDies, e = d ∨ e ∈ also → t.dieState e = 6)) ∧
      Does (.railOutOfRange .vhild) s (fun t => allOff t ∧ t.hild.down = true)) ∧
    Does (.vhildLoss) s (fun t => allOff t ∧ t.hild.down = true ∧ t.mem = s.mem ∧ t.core = s.core) ∧
    (s.hild.down = true → Does (.vhildReturn) s fun t => t.hild.down = false ∧ allOff t ∧ ∀ n, n < 32 →
      t.fld (hreg .hildCtl n) HildCtl.PWREN = 0 ∧ t.reg (hreg .hildErr n) = 0 ∧ t.slotBit n HildStat.PRSNTA = s.slotBit n HildStat.PRSNTA ∧
      t.slotBit n HildStat.PRSNTB = s.slotBit n HildStat.PRSNTB)

/-- PWREN, presence and hot-plug verdicts turn a slot on, make it wait, and turn it off in the states of R556 to R573 (R557, R558, R559, R561, R564, R571, R572, R573, R575, R582). -/
def Obligations.HotSwapPowerOnAndOff : Prop :=
  ∀ (s : State) (n tag : Nat) (v : Word) (who : Master) (b : Bool), n < 32 → s.hild.down = false →
    let hs := hreg .hildStat n
    let st := s.slotState n
    let pwren := fun (t : State) => t.fld (hreg .hildCtl n) HildCtl.PWREN
    let others := fun (t : State) => (∀ m, m ≠ n → t.reg (hreg .hildStat m) = s.reg (hreg .hildStat m)) ∧ t.mem = s.mem ∧ t.core = s.core
    let fed := s.slotBit n HildStat.FEEDA = true ∨ s.slotBit n HildStat.FEEDB = true
    let ready := s.slotLive n = true ∧ s.slotBit n HildStat.SEATED = true ∧ fed
    let bits := fun (t : State) => pwren t = 1 ∧ t.fld (hreg .hildCtl n) HildCtl.BRKREQ = HildCtl.BRKREQ.of v ∧
      t.fld (hreg .hildCtl n) HildCtl.BRKONE = HildCtl.BRKONE.of v
    let x := s.slot n
    let may := tag ≠ 0 ∧ st = 1 ∧ s.fld hs HildStat.HPTAG = tag ∧ mayAnswer who x.mode x.owner true = true
    let pin := if b then HildStat.PRSNTB else HildStat.PRSNTA
    (s.hasPath = true →
      (ready → st = 0 → s.assist PartAssist.HOTPLUG = 0 → Does (.pwrenSet n v) s fun t =>
        t.slotState n = 2 ∧ (t.slot n).gate = 2 ∧ bits t ∧ others t) ∧
      (ready → st = 5 → x.toggle = true → s.assist PartAssist.HOTPLUG = 0 → Does (.pwrenSet n v) s fun t =>
        t.slotState n = 2 ∧ (t.slot n).toggle = false ∧ bits t ∧ others t) ∧
      (ready → st = 0 → s.assist PartAssist.HOTPLUG ≠ 0 → Does (.pwrenSet n v) s fun t =>
        t.slotState n = 1 ∧ t.fld hs HildStat.HPTAG = nextTag 255 s.hild.hpTag ∧ t.hild.waiting = n :: s.hild.waiting ∧
        t.fld { name := .hildHpv } HildHpv.TAG = nextTag 255 s.hild.hpTag ∧ bits t ∧ others t) ∧
      (s.slotDriven n = true → Does (.pwrenClear n v) s fun t => t.slotState n = st ∧ pwren t = 0 ∧
        t.slotBit n HildStat.PERSTREL = false ∧ (t.slot n).off = true ∧ others t) ∧
      (st = 5 → Does (.pwrenClear n v) s fun t => t.slotState n = 5 ∧ pwren t = 0 ∧ (t.slot n).toggle = true ∧ others t) ∧
      (st = 1 → Does (.pwrenClear n v) s fun t => t.slotState n = 0 ∧ pwren t = 0 ∧ t.fld hs HildStat.HPTAG = 0 ∧
        t.hild.waiting = s.hild.waiting.erase n ∧ others t) ∧
      (may → fed → Does (.proceed who n tag) s fun t => t.slotState n = 2 ∧ t.fld hs HildStat.HPTAG = 0 ∧ pwren t = pwren s ∧ others t) ∧
      (may → Does (.abort who n tag) s fun t => t.slotState n = 0 ∧ t.fld hs HildStat.HPTAG = 0 ∧ pwren t = 0 ∧ others t) ∧
      (s.fld hs HildStat.HPTAG ≠ tag → tag ∈ x.expired → s.fld partAlate PartAlate.COUNT < 1000 →
        let late := fun (t : State) => t.fld partAlate PartAlate.COUNT = s.fld partAlate PartAlate.COUNT + 1 ∧ Keeps [.partAlate] s t
        Does (.proceed who n tag) s late ∧ Does (.abort who n tag) s late) ∧
      (s.fld hs HildStat.HPTAG ≠ tag → tag ∉ x.expired →
        let refused := fun (t : State) => t.fld (dreg .evtPulse (s.slotDie n)) EvtPulse.VREF = 1 ∧ t.slotState n = st ∧ others t
        Does (.proceed who n tag) s refused ∧ Does (.abort who n tag) s refused)) ∧
    (s.hasPath = false → Does (.pwrenSet n v) s (fun t => t = s) ∧ Does (.pwrenClear n v) s (fun t => t = s) ∧
      Does (.proceed who n tag) s (fun t => t = s) ∧ Does (.abort who n tag) s (fun t => t = s)) ∧
    Does (.prsntChange n b true) s (fun t => t.slotBit n pin = true ∧ t.slotState n = st ∧ others t) ∧
    (s.slotBit n HildStat.SEATED = true → Does (.prsntChange n b false) s fun t => t.slotBit n pin = false ∧ t.slotBit n HildStat.SEATED = false ∧
      t.slotState n = 0 ∧ others t ∧ (st ≠ 0 → t.slotBit n HildStat.PERSTREL = false ∧ (t.slot n).gate = 1)) ∧
    (s.slotBit n HildStat.PRSNTA = true → s.slotBit n HildStat.PRSNTB = true → s.slotBit n HildStat.SEATED = false →
      (st ≠ 0 ∨ pwren s = 0) → Does (.slotSeated n) s fun t => t.slotBit n HildStat.SEATED = true ∧ t.slotState n = st ∧ others t) ∧
    (x.off = true → s.slotDriven n = true → Does (.dischargeStart n) s fun t => t.slotState n = 6 ∧ (t.slot n).gate = 0 ∧
      t.slotBit n HildStat.PGOOD = false ∧ others t) ∧
    (st = 6 → pwren s = 0 → Does (.dischargeEnd n) s fun t => t.slotState n = 0 ∧ others t)

/-- Feeds are judged against their limits, each trip latches the slot off under its own sticky bit, and power-good follows the gate (R560, R564, R565, R566, R567, R568, R569, R571, R583). -/
def Obligations.HotSwapTripsAndPowerGood : Prop :=
  ∀ (s : State) (n mv : Nat) (b : Bool), n < 32 → s.hild.down = false →
    let st := s.slotState n
    let bit := fun (t : State) (f : Field) => t.slotBit n f
    let err := fun (t : State) (f : Field) => t.fld (hreg .hildErr n) f
    let only := fun (t : State) => (∀ m, m ≠ n → t.reg (hreg .hildStat m) = s.reg (hreg .hildStat m)) ∧
      Keeps [.hildStat, .hildErr, .hildSum, .hildHpv, .hildTel] s t
    let uv := 100 * s.fld (hreg .hildFeed n) HildFeed.UV
    let ov := 100 * s.fld (hreg .hildFeed n) HildFeed.OV
    let feed := if b then HildStat.FEEDB else HildStat.FEEDA
    let on := if b then HildStat.ONB else HildStat.ONA
    let trips := fun (c : Instr) (f : Field) => Does c s fun t => t.slotState n = 5 ∧ err t f = 1 ∧ (t.slot n).gate = 1 ∧
      bit t HildStat.PGOOD = false ∧ bit t HildStat.PERSTREL = false ∧ bit t HildStat.TIMER = false ∧
      bitOf (t.reg { name := .hildSum }) n = true ∧ only t
    Does (.feedRangeChange n b mv) s (fun t => bit t feed = (decide (uv ≤ mv) && decide (mv ≤ ov)) ∧
      (bit s feed = true → mv < uv → err t (if b then HildErr.UVB else HildErr.UVA) = 1 ∧ bit t on = false) ∧
      (bit s feed = true → uv ≤ mv → ov < mv → err t (if b then HildErr.OVB else HildErr.OVA) = 1 ∧ bit t on = false) ∧ only t) ∧
    (s.slotLive n = true → bit s on = true → Does (.reverseTurnoff n b) s fun t =>
      bit t on = false ∧ err t (if b then HildErr.REVB else HildErr.REVA) = 1 ∧ t.slotState n = st ∧ only t) ∧
    (s.slotLive n = true → bit s feed = true → Does (.oringReenhance n b) s fun t => bit t on = true ∧ t.slotState n = st ∧ only t) ∧
    (s.slotLive n = true → s.slotDriven n = true →
      (bit s HildStat.TIMER = true → trips (.timeout n) HildErr.TIMEOUT) ∧
      (st = 2 → bit s HildStat.GATEOK = false → trips (.rampto n) HildErr.RAMPTO) ∧
      (st = 4 → bit s HildStat.GATEOK = true → trips (.fetfault n) HildErr.FETFAULT) ∧
      trips (.short n) HildErr.SHORT ∧
      Does (.faultTimerStart n) s (fun t => bit t HildStat.TIMER = true ∧
        t.slotState n = (if st = 4 then (if bit s HildStat.GATEOK then 3 else 2) else st) ∧
        (st = 4 → bit t HildStat.PGOOD = false ∧ bit t HildStat.PERSTREL = false) ∧ only t) ∧
      (st = 2 → Does (.gateokChange n true) s fun t => bit t HildStat.GATEOK = true ∧ t.slotState n = 3 ∧ only t) ∧
      Does (.gateokChange n false) s (fun t => bit t HildStat.GATEOK = false ∧ t.slotState n = 2 ∧
        (st = 4 → bit t HildStat.PGOOD = false ∧ bit t HildStat.PERSTREL = false) ∧ only t) ∧
      (st = 2 → Does (.rampVdsBelow200mv n) s fun t => (t.slot n).gate = 3 ∧ t.regs = s.regs ∧ Keeps [] s t) ∧
      (bit s HildStat.GATEOK = true → bit s HildStat.TIMER = false → bit s HildStat.PGOOD = false →
        Does (.pgoodQualify n) s fun t => t.slotState n = 4 ∧ bit t HildStat.PGOOD = true ∧ bit t HildStat.PERSTREL = bit s HildStat.PERSTREL ∧
          bitOf (t.reg { name := .hildSum }) (32 + n) = true ∧ only t)) ∧
    Does (.faultTimerStop n) s (fun t => bit t HildStat.TIMER = false ∧ t.slotState n = st ∧ only t) ∧
    (bit s HildStat.PGOOD = true → (s.slot n).off = false → Does (.perstRelease n) s fun t =>
      bit t HildStat.PERSTREL = true ∧ t.slotState n = st ∧ only t)

/-- A transaction is checked, queued in order and run on its segment, under a lock only for its holder, and ends with its STATUS and data (R587, R588, R589, R591, R592, R594, R596, R603, R604). -/
def Obligations.SidebandTransactions : Prop :=
  ∀ (s : State) (d t n k i sl status off : Nat) (v : Word) (data : List Byte) (x y : SbbTxn) (rest : List SbbTxn),
    let res := tktRes d t
    let open_ := d < s.dieCount ∧ t < 32 ∧ (s.fld res SbbTktRes.STATE = 1 ∨ s.fld res SbbTktRes.STATE = 4)
    let idleSeg := fun (e j : Nat) => s.sbbUp e = true ∧ (s.seg e j).running = none ∧ (s.seg e j).queue = [] ∧ (s.seg e j).holder = none
    let seqUp := fun (t' : State) => t'.fld res SbbTktRes.SEQ = (s.fld res SbbTktRes.SEQ + 1) % 256
    let tktRuns := fun (c : Instr) (p : Nat) => badXfer (withProt p v) = false → idleSeg d (s.slotChan (xferSlot v)) → Does c s fun u =>
      (u.seg d (s.slotChan (xferSlot v))).running = some { who := some (.ticket d t), xfer := withProt p v } ∧
      u.fld res SbbTktRes.STATE = 3 ∧ u.reg { name := .sbbTktXfer, die := d, i := t } = withProt p v ∧ seqUp u ∧ u.mem = s.mem ∧ u.core = s.core
    let tktWaits := fun (c : Instr) (p : Nat) => badXfer (withProt p v) = false → (s.seg d (s.slotChan (xferSlot v))).running = some x → Does c s fun u =>
      (u.seg d (s.slotChan (xferSlot v))).running = some x ∧ u.fld res SbbTktRes.STATE = 2 ∧ seqUp u ∧
      ∃ z, (u.seg d (s.slotChan (xferSlot v))).queue = (s.seg d (s.slotChan (xferSlot v))).queue ++ [z] ∧ z.who = some (.ticket d t)
    let tktBad := fun (c : Instr) (p : Nat) => badXfer (withProt p v) = true → Does c s fun u =>
      u.fld res SbbTktRes.STATE = 4 ∧ u.fld res SbbTktRes.STATUS = 8 ∧ u.sbb = s.sbb ∧ seqUp u
    let winRuns := fun (c : Instr) (p : Nat) => badXfer (withProt p v) = false → idleSeg (s.slotDie sl) (s.slotChan sl) → Does c s fun u =>
      (u.seg (s.slotDie sl) (s.slotChan sl)).running = some { who := some (.window n k), xfer := withProt p v } ∧
      (u.win n k).state = 3 ∧ (u.win n k).xfer = withProt p v ∧ (u.win n k).queue = [.xfer (withProt p v)] ∧ u.mem = s.mem ∧ u.core = s.core
    let winFull := fun (c : Instr) (_ : Nat) => Does c s fun u => (u.win n k).ovr = true ∧ (u.win n k).queue = (s.win n k).queue
    (let r : SbbReq := .ticket d t
     open_ → s.slotDie (xferSlot v) = d → tktRuns (.sendByte r v) 1 ∧ tktRuns (.recvByte r v) 2 ∧ tktRuns (.writeByte r v) 3 ∧ tktRuns (.readByte r v) 4 ∧ tktRuns (.writeWord r v) 5 ∧ tktRuns (.readWord r v) 6 ∧ tktRuns (.blockWrite r v) 7 ∧ tktRuns (.blockRead r v) 8 ∧ tktRuns (.i2cWrite r v) 9 ∧ tktRuns (.i2cRead r v) 10) ∧
    (let r : SbbReq := .ticket d t
     open_ → s.slotDie (xferSlot v) = d → tktWaits (.sendByte r v) 1 ∧ tktWaits (.recvByte r v) 2 ∧ tktWaits (.writeByte r v) 3 ∧ tktWaits (.readByte r v) 4 ∧ tktWaits (.writeWord r v) 5 ∧ tktWaits (.readWord r v) 6 ∧ tktWaits (.blockWrite r v) 7 ∧ tktWaits (.blockRead r v) 8 ∧ tktWaits (.i2cWrite r v) 9 ∧ tktWaits (.i2cRead r v) 10) ∧
    (let r : SbbReq := .ticket d t
     open_ → tktBad (.sendByte r v) 1 ∧ tktBad (.recvByte r v) 2 ∧ tktBad (.writeByte r v) 3 ∧ tktBad (.readByte r v) 4 ∧ tktBad (.writeWord r v) 5 ∧ tktBad (.readWord r v) 6 ∧ tktBad (.blockWrite r v) 7 ∧ tktBad (.blockRead r v) 8 ∧ tktBad (.i2cWrite r v) 9 ∧ tktBad (.i2cRead r v) 10) ∧
    (let r : SbbReq := .window n k
     n < 32 → k < 64 → s.winSlot n k = some sl → s.win n k = {} → winRuns (.sendByte r v) 1 ∧ winRuns (.recvByte r v) 2 ∧ winRuns (.writeByte r v) 3 ∧ winRuns (.readByte r v) 4 ∧ winRuns (.writeWord r v) 5 ∧ winRuns (.readWord r v) 6 ∧ winRuns (.blockWrite r v) 7 ∧ winRuns (.blockRead r v) 8 ∧ winRuns (.i2cWrite r v) 9 ∧ winRuns (.i2cRead r v) 10) ∧
    (let r : SbbReq := .window n k
     n < 32 → k < 64 → 8 ≤ (s.win n k).queue.length → winFull (.sendByte r v) 1 ∧ winFull (.recvByte r v) 2 ∧ winFull (.writeByte r v) 3 ∧ winFull (.readByte r v) 4 ∧ winFull (.writeWord r v) 5 ∧ winFull (.readWord r v) 6 ∧ winFull (.blockWrite r v) 7 ∧ winFull (.blockRead r v) 8 ∧ winFull (.i2cWrite r v) 9 ∧ winFull (.i2cRead r v) 10) ∧
    (open_ → s.slotDie (xferSlot (s.reg { name := .sbbTktXfer, die := d, i := t })) = d →
      let j := s.slotChan (xferSlot (s.reg { name := .sbbTktXfer, die := d, i := t }))
      (idleSeg d j → Does (.lock (.ticket d t)) s fun u => (u.seg d j).holder = some (.ticket d t) ∧
        u.fld res SbbTktRes.STATE = 4 ∧ u.fld res SbbTktRes.STATUS = 0) ∧
      (s.sbbUp d = true → (s.seg d j).running = none → (s.seg d j).queue = [] → (s.seg d j).holder = some (.ticket d t) →
        Does (.unlock (.ticket d t)) s fun u => (u.seg d j).holder = none ∧ u.fld res SbbTktRes.STATE = 4 ∧ u.fld res SbbTktRes.STATUS = 0)) ∧
    ((s.seg d i).running = some x → x.who = some (.ticket d t) → status ≤ 5 → data.length ≤ 32 →
      let errs := fun (u : State) (c : Nat) => s.active d = true →
        (c = 3 → u.fld (dreg .sbbErr d) SbbErr.BUSTO = 1) ∧ (c = 4 → u.fld (dreg .sbbErr d) SbbErr.BUSERR = 1) ∧ (c = 5 → u.fld (dreg .sbbErr d) SbbErr.PEC = 1)
      ((s.seg d i).queue = [] → Does (.smbusTransactionEnd d i status data) s fun u => (u.seg d i).running = none ∧
        u.fld res SbbTktRes.STATE = 4 ∧ u.fld res SbbTktRes.STATUS = status ∧ u.fld res SbbTktRes.COUNT = data.length ∧ errs u status ∧
        (xferProt x.xfer = 4 ∨ xferProt x.xfer = 8 → ∀ j, j < 4 →
          (u.reg { name := .sbbTktDbuf, die := d, i := t, j := j }).toNat = ofBytesLE ((data.drop (8 * j)).take 8))) ∧
      ((s.seg d i).queue = [] → Does (.smbusClockTimeout d i) s fun u => (u.seg d i).running = none ∧
        u.fld res SbbTktRes.STATE = 4 ∧ u.fld res SbbTktRes.STATUS = 3 ∧ errs u 3) ∧
      ((s.seg d i).queue = y :: rest → (s.seg d i).holder = none → y.held = false → xferProt y.xfer < 11 → (∃ t', y.who = some (.ticket d t')) →
        s.sbbUp d = true → Does (.smbusTransactionEnd d i status data) s fun u => (u.seg d i).running = some y ∧ (u.seg d i).queue = rest)) ∧
    ((s.win n k).queue ≠ [] → Does (.windowReadHoldExpire n k off) s fun u => ∃ a, u = { s with sbb := { s.sbb with replies := s.sbb.replies ++ [a] } } ∧
      (off = 0x10 → getBits a.2.2.2 59 56 = 0xF)) ∧
    ((s.win n k).queue = [] → Does (.windowReadHoldExpire n k off) s fun u => u = s)

/-- Tickets are allocated lowest first, freed and discarded, an idle lock ends, and polls and Hild reads give the signals of R597 to R600 (R594, R595, R596, R597, R598, R599, R600). -/
def Obligations.SidebandTicketsAndSignals : Prop :=
  ∀ (s : State) (d t i n k sl pp wake clkreq : Nat) (on : Bool), d < s.dieCount →
    let st := fun (u : State) => u.fld (tktRes d t) SbbTktRes.STATE
    let sig := fun (u : State) (f : Field) => u.fld { name := .sbbSegSig, die := d, i := i } f
    (t < 32 → st s = 0 → (∀ m, m < t → s.fld (tktRes d m) SbbTktRes.STATE ≠ 0) → Does (.talloc d) s fun u =>
      u = (s.setFld (tktRes d t) SbbTktRes.STATE 1).setFld (dreg .sbbTalloc d) SbbTalloc.TICKET t) ∧
    ((∀ m, m < 32 → s.fld (tktRes d m) SbbTktRes.STATE ≠ 0) → Does (.talloc d) s fun u =>
      u = s.setFld (dreg .sbbTalloc d) SbbTalloc.TICKET 0xFF) ∧
    (t < 32 → st s ≠ 0 → i < s.slotsPerDie → Does (.free d t) s fun u => st u = 0 ∧
      (let leave := fun (x : SbbTxn) => if x.who = some (.ticket d t) then { x with who := none } else x
       (u.seg d i).queue = (s.seg d i).queue.map leave ∧ (u.seg d i).running = (s.seg d i).running.map leave) ∧
      (u.seg d i).holder = (s.seg d i).holder ∧ Keeps [.sbbTktRes, .sbbSegStat] s u) ∧
    (t < 32 → (st s = 1 ∨ st s = 4) → i < s.slotsPerDie → s.active d = true → s.fld (dreg .sbbCnt d) SbbCnt.DISCARDS < 1000 →
      (∀ j, (s.seg d j).queue = []) → Does (.ticketDiscard d t) s fun u => st u = 0 ∧ (u.seg d i).holder ≠ some (.ticket d t) ∧
        u.fld (dreg .sbbErr d) SbbErr.TKTDISC = 1 ∧ u.fld (dreg .sbbCnt d) SbbCnt.DISCARDS = s.fld (dreg .sbbCnt d) SbbCnt.DISCARDS + 1) ∧
    ((s.seg d i).holder ≠ none → (s.seg d i).running = none → (s.seg d i).queue = [] → s.active d = true → Does (.lockIdleTimeout d i) s fun u =>
      (u.seg d i).holder = none ∧ u.fld (dreg .sbbErr d) SbbErr.LOCKTO = 1 ∧ Keeps [.sbbErr, .sbbSegStat] s u) ∧
    (s.sbbUp d = true → i < s.slotsPerDie → Does (.sidebandPoll d wake clkreq) s fun u =>
      (u.seg d i).wake = wake.testBit i ∧ (u.seg d i).clkreq = clkreq.testBit i ∧ u.mem = s.mem ∧ u.core = s.core ∧
      (wake.testBit i ≠ (s.seg d i).wake → sig u SbbSegSig.WAKE = b2n (wake.testBit i) ∧
        sig u SbbSegSig.WAKECHG = (sig s SbbSegSig.WAKECHG + 1) % 256) ∧
      (clkreq.testBit i ≠ (s.seg d i).clkreq → sig u SbbSegSig.CLKREQ = b2n (clkreq.testBit i) ∧
        sig u SbbSegSig.CLKCHG = (sig s SbbSegSig.CLKCHG + 1) % 256) ∧
      (wake.testBit i = (s.seg d i).wake → sig u SbbSegSig.WAKECHG = sig s SbbSegSig.WAKECHG)) ∧
    (s.sbbUp d = false → Does (.sidebandPoll d wake clkreq) s fun u => u = s) ∧
    (s.sbbUp d = true → i < s.slotsPerDie →
      let slot := d * s.slotsPerDie + i
      (s.hasPath = true → Does (.hildSignalRead d) s fun u => sig u SbbSegSig.STALE = 0 ∧
        sig u SbbSegSig.PRSNTA = b2n (s.slotBit slot HildStat.PRSNTA) ∧ sig u SbbSegSig.PRSNTB = b2n (s.slotBit slot HildStat.PRSNTB) ∧
        sig u SbbSegSig.PERST = b2n (!s.slotBit slot HildStat.PERSTREL) ∧ sig u SbbSegSig.PWRBRK = b2n (s.slotBit slot HildStat.PWRBRK) ∧
        Keeps [.sbbSegSig] s u) ∧
      (s.hasPath = false → Does (.hildSignalRead d) s fun u => sig u SbbSegSig.STALE = 1 ∧ sig u SbbSegSig.PRSNTA = sig s SbbSegSig.PRSNTA ∧
        sig u SbbSegSig.PERST = sig s SbbSegSig.PERST ∧ Keeps [.sbbSegSig] s u)) ∧
    (let e := s.newE d
     n = s.portOwner d e (gport d pp) → s.vpOfPort d e n (gport d pp) = some k → s.bindSlot d e n k = some sl → s.sbbUp (s.slotDie sl) = true →
      Does (.clkreqRequest d pp on) s fun u =>
        u = { s with sbb := { s.sbb with clkOut := if on then sl :: s.sbb.clkOut.erase sl else s.sbb.clkOut.erase sl } })

/-- ARM starts and stops a recorder and releases what is frozen; the first trigger starts the post-trigger count, others do not restart it (R610, R614, R615, R618, R623, R625, R627). -/
def Obligations.RecorderArmingAndTriggers : Prop :=
  ∀ (s : State) (d i src : Nat) (v : Word), s.active d = true → d < s.dieCount →
    let r := dreg .recStat d
    let n := 8 * s.fld (dreg .recCfg d) RecCfg.POST
    let fires := fun (c : Instr) (die m : Nat) =>
      (s.recState d = 1 → n ≠ 0 → Does c s fun t => t.recState d = 2 ∧ t.fld r RecStat.TDIE = die ∧ t.fld r RecStat.TMATCH = m ∧ (t.recDie d).post = some n) ∧
      (s.recState d = 1 → n = 0 → Does c s fun t => t.recState d = 3 ∧ t.fld r RecStat.TDIE = die ∧ t.fld r RecStat.TMATCH = m ∧
        (t.recDie d).openSeg = [] ∧ (t.recDie d).frozen = (t.recDie d).sealed) ∧
      (s.recState d = 2 → Does c s fun t => t.recState d ≠ 1 ∧ t.fld r RecStat.TDIE = s.fld r RecStat.TDIE ∧ t.fld r RecStat.TMATCH = s.fld r RecStat.TMATCH) ∧
      ((s.recState d = 0 ∨ s.recState d = 3) → Does c s fun t => t = s)
    (RecCtl.ARM.of v = 1 → Does (.arm d v) s fun t => t.recState d = (if s.recState d = 0 ∨ s.recState d = 3 then 1 else s.recState d) ∧
      (s.recState d = 3 → (t.recDie d).frozen = []) ∧ t.fld r RecStat.BROKEN = 0 ∧ Keeps [.recCtl, .recStat] s t) ∧
    (RecCtl.ARM.of v = 0 → Does (.arm d v) s fun t => t.recState d = (if s.recState d = 1 ∨ s.recState d = 2 then 0 else s.recState d) ∧
      t.recd = s.recd ∧ Keeps [.recCtl, .recStat] s t) ∧
    Does (.arm d v) s (fun t => t.fld (dreg .recCtl d) RecCtl.ARM = RecCtl.ARM.of v ∧ t.fld (dreg .recCtl d) RecCtl.STREAM = RecCtl.STREAM.of v ∧
      t.fld (dreg .recCtl d) RecCtl.STOPMISS = RecCtl.STOPMISS.of v) ∧
    (s.mayFire d i = true → fires (.triggerFire d i) d i) ∧
    (i < 8 → s.fld { name := .recTrig, die := d, i := i } RecTrig.EN = 1 → s.fld { name := .recTrig, die := d, i := i } RecTrig.KIND = 2 → fires (.triggerFire d i) d i) ∧
    (i < 8 → s.fld { name := .recTrig, die := d, i := i } RecTrig.EN = 1 → s.fld { name := .recTrig, die := d, i := i } RecTrig.KIND = 0 →
      s.eventLevel d (s.fld { name := .recTrig, die := d, i := i } RecTrig.EVENT) = true → fires (.triggerFire d i) d i) ∧
    (s.mayFire d i = false → Does (.triggerFire d i) s fun t => t = s) ∧
    ((s.fld { name := .recTrig, die := d, i := i } RecTrig.EN = 0 ∨ 2 < s.fld { name := .recTrig, die := d, i := i } RecTrig.KIND) → Does (.triggerFire d i) s fun t => t = s) ∧
    fires (.freeze d) d (s.softMatcher d) ∧
    (src < 8 → fires (.remoteTrigger d src) src 0xF) ∧
    (s.recState d = 1 → i < 8 → s.fld { name := .recTrig, die := d, i := i } RecTrig.EN = 1 → s.fld { name := .recTrig, die := d, i := i } RecTrig.KIND = 2 →
      Does (.rectrigEdge) s fun t => t.recState d = 2 ∨ t.recState d = 3) ∧
    (s.recState d = 1 → Does (.recMctpFreeze) s fun t => t.recState d = (if n = 0 then 3 else 2) ∧ t.fld r RecStat.TDIE = d) ∧
    ((s.recState d = 0 ∨ s.recState d = 3) → Does (.recMctpArm) s fun t => t.recState d = 1 ∧ t.fld (dreg .recCtl d) RecCtl.ARM = 1)

/-- Sealing, dumping, anchors and the start and end of a replay do what R610 to R621 state (R610, R612, R615, R617, R618, R620, R630). -/
def Obligations.RecorderSegmentsAnchorsAndReplay : Prop :=
  ∀ (s : State) (d ch owner seg h : Nat) (o : OpenSeg) (a : Anchor) (feed : List FeedRec), d < s.dieCount →
    let st := dreg .recStat d
    let rpt := fun (t : State) => t.fld (recRpt d) RecRpt.RSTATE
    ((s.recDie d).openSeg.find (ch, owner) = some o → MemOk s → o.seg < 2048 →
      ((s.recState d ≠ 2 ∨ (s.recDie d).post = none ∨ ∃ m, (s.recDie d).post = some (m + 2)) → Does (.segmentSeal d ch owner) s fun t => (t.recDie d).openSeg.find (ch, owner) = none ∧
        (t.recDie d).sealed = (s.recDie d).sealed ++ [o.seg] ∧ t.mem.get (segAddr d o.seg + 7) = BitVec.ofNat 8 (o.flags ||| 8) ∧ MemOk t ∧
        ∀ x, (x < segAddr d o.seg ∨ segAddr d o.seg + 4096 ≤ x) → t.mem.get x = s.mem.get x) ∧
      (s.recState d = 2 → (s.recDie d).post = some 1 → Does (.segmentSeal d ch owner) s fun t => t.recState d = 3 ∧ (t.recDie d).openSeg = [] ∧
        o.seg ∈ (t.recDie d).frozen ∧ MemOk t)) ∧
    ((s.recDie d).openSeg.find (ch, owner) = none → Does (.segmentSeal d ch owner) s fun t => t = s) ∧
    Does (.recGetStat) s (fun t =>
      let stats := (List.range s.dieCount).map fun e => (1, e, 0, bytesLE 8 (s.reg (dreg .recStat e)).toNat)
      t = { s with recd := { s.recd with replies := s.recd.replies ++ stats } }) ∧
    (seg < 2048 → Does (.recGetSegment d seg) s fun t =>
      t = { s with recd := { s.recd with replies := s.recd.replies ++ [(2, d, seg, s.mem.bytes (segAddr d seg) 4096)] } }) ∧
    (s.fld (dreg .recCfg s.lead) RecCfg.ANCHOR = 0 → Does (.anchorStart) s fun t => t = s) ∧
    (s.fld (dreg .recCfg s.lead) RecCfg.ANCHOR ≠ 0 → s.active d = true → s.fld (dreg .recCtl d) RecCtl.STREAM = 1 →
      (s.recState d = 1 ∨ s.recState d = 2) → s.fld st RecStat.ANCH = 0 → Does (.anchorStart) s fun t => t.fld st RecStat.ANCH = 1 ∧
        ∃ x, (t.recDie d).anchor = some x ∧ x.newest = (s.tabDie d).newest ∧ x.shadow = (s.tabDie d).shadow ∧ x.ptab = s.xlt.ptab) ∧
    ((s.recDie d).anchor ≠ none → s.fld st RecStat.BROKEN = 1 → s.active d = true → Does (.anchorEnd d) s fun t => t.fld st RecStat.ANCH = 0 ∧
      (t.recDie d).anchor = none ∧ t.fld (dreg .recErr d) RecErr.ANCHFAIL = 1 ∧ t.mem = s.mem) ∧
    ((s.recDie d).anchor ≠ none → s.fld st RecStat.BROKEN = 0 → Does (.anchorEnd d) s fun t => t.fld st RecStat.ANCH = 0 ∧ (t.recDie d).anchor = none) ∧
    (s.active d = true → s.mode = 7 → rpt s ≠ 2 → h < 2 → Does (.startReplay d a []) s fun t => rpt t = 2 ∧ t.recState d = 4 ∧
      t.fld (recRpt d) RecRpt.MISSES = 0 ∧ (t.hart d h).pc = (a.harts.getD h {}).pc ∧ (t.hart d h).regs = (a.harts.getD h {}).regs ∧
      (t.hart d h).icount = (a.harts.getD h {}).icount ∧ (t.hart d h).sbuf = []) ∧
    (s.active d = true → s.mode = 7 → rpt s ≠ 2 → MemOk s → ∀ x bs, sramBase d ≤ x → x + 64 ≤ sramBase d + 0x400000 → bs.length = 64 →
      a.lines = [(x, bs)] → Does (.startReplay d a []) s fun t => t.mem.bytes x 64 = bs ∧ ∀ y, (y < x ∨ x + 64 ≤ y) → t.mem.get y = s.mem.get y) ∧
    ((s.mode ≠ 7 ∨ rpt s = 2) → Does (.startReplay d a feed) s fun t => t = s) ∧
    (s.replays d = true → (s.recDie d).feed = [] → h < 2 → Does (.replayDone d) s fun t => rpt t = 3 ∧ (t.hart d h).paused = true ∧
      (t.hart d h).pc = (s.hart d h).pc ∧ t.mem = s.mem) ∧
    ((s.recDie d).feed ≠ [] → (∀ r, r ∈ (s.recDie d).feed → r.ofHart = true) → Does (.replayDone d) s fun t => t = s)
end

