-- ==== Sys2Proof/Laws/Bits.lean ====
section
/-! SUPPORT. Laws of bit fields, association maps and saturating counts: what reads after writes give. -/

namespace Sys2Proof.Machine

/-! ### Bit fields -/

/-- A word is what lies above a field, the field, and what lies below it. -/
theorem word_split (w hi lo : Nat) (h : lo ≤ hi) :
    w = 2 ^ lo * (2 ^ (hi + 1 - lo) * (w / 2 ^ (hi + 1)) + (w >>> lo) % 2 ^ (hi + 1 - lo)) + w % 2 ^ lo := by
  have hp : (2 : Nat) ^ (hi + 1) = 2 ^ lo * 2 ^ (hi + 1 - lo) := by rw [← pow_add]; congr 1; omega
  have h1 : w / 2 ^ (hi + 1) = w / 2 ^ lo / 2 ^ (hi + 1 - lo) := by rw [hp, Nat.div_div_eq_div_mul]
  rw [Nat.shiftRight_eq_div_pow, h1, Nat.div_add_mod, Nat.div_add_mod]

/-- A word with a field replaced, as a number. -/
theorem setBits_toNat (w : Word) (hi lo v : Nat) (h : lo ≤ hi) (h64 : hi < 64) :
    (setBits w hi lo v).toNat =
      2 ^ lo * (2 ^ (hi + 1 - lo) * (w.toNat / 2 ^ (hi + 1)) + v % 2 ^ (hi + 1 - lo)) + w.toNat % 2 ^ lo := by
  have hs := word_split w.toNat hi lo h
  have hp : (2 : Nat) ^ (hi + 1) = 2 ^ lo * 2 ^ (hi + 1 - lo) := by rw [← pow_add]; congr 1; omega
  have hk : v % 2 ^ (hi + 1 - lo) < 2 ^ (hi + 1 - lo) := Nat.mod_lt _ (by positivity)
  have hb : w.toNat % 2 ^ lo < 2 ^ lo := Nat.mod_lt _ (by positivity)
  have ha : w.toNat / 2 ^ (hi + 1) < 2 ^ (63 - hi) := by
    rw [Nat.div_lt_iff_lt_mul (by positivity), ← pow_add]
    exact lt_of_lt_of_eq w.isLt (by congr 1; omega)
  have h63 : (2 : Nat) ^ 64 = 2 ^ lo * (2 ^ (hi + 1 - lo) * 2 ^ (63 - hi)) := by rw [← pow_add, ← pow_add]; congr 1; omega
  simp only [setBits, getBits, BitVec.toNat_ofNat]
  generalize w.toNat / 2 ^ (hi + 1) = a at *
  generalize w.toNat >>> lo % 2 ^ (hi + 1 - lo) = g at *
  generalize w.toNat % 2 ^ lo = b at *
  generalize v % 2 ^ (hi + 1 - lo) = u at *
  rw [hs]
  have e : 2 ^ lo * (2 ^ (hi + 1 - lo) * a + g) + b - g * 2 ^ lo + u * 2 ^ lo
      = 2 ^ lo * (2 ^ (hi + 1 - lo) * a + u) + b := by
    have : 2 ^ lo * (2 ^ (hi + 1 - lo) * a + g) = 2 ^ lo * (2 ^ (hi + 1 - lo) * a) + g * 2 ^ lo := by ring
    rw [this, Nat.add_right_comm, Nat.add_sub_cancel]; ring
  rw [e]
  apply Nat.mod_eq_of_lt
  rw [h63]
  have h1 : 2 ^ (hi + 1 - lo) * a + u + 1 ≤ 2 ^ (hi + 1 - lo) * 2 ^ (63 - hi) := by
    calc 2 ^ (hi + 1 - lo) * a + u + 1 ≤ 2 ^ (hi + 1 - lo) * (a + 1) := by rw [Nat.mul_succ]; omega
      _ ≤ _ := Nat.mul_le_mul_left _ ha
  calc 2 ^ lo * (2 ^ (hi + 1 - lo) * a + u) + b < 2 ^ lo * (2 ^ (hi + 1 - lo) * a + u) + 2 ^ lo := by omega
    _ = 2 ^ lo * (2 ^ (hi + 1 - lo) * a + u + 1) := by ring
    _ ≤ _ := Nat.mul_le_mul_left _ h1

/-- A field is smaller than its range. -/
theorem getBits_lt (w : Word) (hi lo : Nat) : getBits w hi lo < 2 ^ (hi + 1 - lo) := Nat.mod_lt _ (by positivity)

/-- Reading a field that was written gives what was written, cut to the field's width. -/
theorem getBits_setBits_same (w : Word) (hi lo v : Nat) (h : lo ≤ hi) (h64 : hi < 64) :
    getBits (setBits w hi lo v) hi lo = v % 2 ^ (hi + 1 - lo) := by
  unfold getBits
  rw [setBits_toNat w hi lo v h h64, Nat.shiftRight_eq_div_pow, Nat.mul_add_div (by positivity),
    Nat.div_eq_of_lt (Nat.mod_lt _ (by positivity)), Nat.add_zero, Nat.mul_add_mod]
  exact Nat.mod_eq_of_lt (Nat.mod_lt _ (by positivity))

/-- A bit of a word with a field replaced. -/
theorem bitOf_setBits (w : Word) (hi lo v i : Nat) (h : lo ≤ hi) (h64 : hi < 64) :
    bitOf (setBits w hi lo v) i = if lo ≤ i ∧ i ≤ hi then v.testBit (i - lo) else bitOf w i := by
  have hb : w.toNat % 2 ^ lo < 2 ^ lo := Nat.mod_lt _ (by positivity)
  have hk : ∀ u, u % 2 ^ (hi + 1 - lo) < 2 ^ (hi + 1 - lo) := fun u => Nat.mod_lt _ (by positivity)
  unfold bitOf
  rw [setBits_toNat w hi lo v h h64, Nat.testBit_two_pow_mul_add _ hb]
  conv_rhs => rw [word_split w.toNat hi lo h, Nat.testBit_two_pow_mul_add _ hb, Nat.testBit_two_pow_mul_add _ (hk _)]
  rw [Nat.testBit_two_pow_mul_add _ (hk _)]
  by_cases h1 : i < lo
  · rw [if_pos h1, if_pos h1, if_neg (by omega)]
  · rw [if_neg h1, if_neg h1]
    by_cases h2 : i ≤ hi
    · rw [if_pos (by omega), if_pos (by omega), Nat.testBit_mod_two_pow]
      simp; omega
    · rw [if_neg (by omega), if_neg (by omega), if_neg (by omega)]

/-- A bit of a field. -/
theorem testBit_getBits (w : Word) (hi lo i : Nat) : (getBits w hi lo).testBit i = (decide (i < hi + 1 - lo) && bitOf w (lo + i)) := by
  unfold getBits bitOf
  rw [Nat.testBit_mod_two_pow, Nat.testBit_shiftRight]

/-- Reading a field beside the one that was written gives what it held. -/
theorem getBits_setBits_other (w : Word) (hi lo v hi' lo' : Nat) (h : lo ≤ hi) (h64 : hi < 64) (hd : hi' < lo ∨ hi < lo') :
    getBits (setBits w hi lo v) hi' lo' = getBits w hi' lo' := by
  apply Nat.eq_of_testBit_eq
  intro i
  rw [testBit_getBits, testBit_getBits, bitOf_setBits w hi lo v _ h h64]
  by_cases hi2 : i < hi' + 1 - lo'
  · rw [if_neg (by omega)]
  · simp [hi2]

/-! ### Association maps -/

section Maps
variable {κ α : Type} [DecidableEq κ]

@[simp] theorem FMap.get_nil (d : α) (k : κ) : FMap.get ([] : FMap κ α) d k = d := rfl
@[simp] theorem FMap.find_nil (k : κ) : FMap.find ([] : FMap κ α) k = none := rfl

/-- An erased key reads the default. -/
@[simp] theorem FMap.get_erase_same (m : FMap κ α) (d : α) (k : κ) : (m.erase k).get d k = d := by
  induction m with
  | nil => rfl
  | cons x m ih =>
    obtain ⟨k', v⟩ := x
    by_cases h : k' = k
    · simp [FMap.erase, h, ih]
    · simp [FMap.erase, h, FMap.get, ih]

/-- Erasing a key leaves every other one. -/
theorem FMap.get_erase_ne (m : FMap κ α) (d : α) {k l : κ} (h : l ≠ k) : (m.erase k).get d l = m.get d l := by
  induction m with
  | nil => rfl
  | cons x m ih =>
    obtain ⟨k', v⟩ := x
    by_cases h1 : k' = k
    · subst h1
      simp [FMap.erase, FMap.get, ih, Ne.symm h]
    · by_cases h2 : k' = l
      · subst h2
        simp [FMap.erase, FMap.get, h]
      · simp [FMap.erase, h1, FMap.get, ih, h2]

@[simp] theorem FMap.get_set_same (m : FMap κ α) (d : α) (k : κ) (v : α) : (m.set k v).get d k = v := by simp [FMap.set, FMap.get]

theorem FMap.get_set_ne (m : FMap κ α) (d : α) {k l : κ} (v : α) (h : l ≠ k) : (m.set k v).get d l = m.get d l := by
  rw [FMap.set, FMap.get, if_neg (fun e => h e.symm), FMap.get_erase_ne m d h]

/-- The value after a key was set. -/
theorem FMap.get_set (m : FMap κ α) (d : α) (k l : κ) (v : α) : (m.set k v).get d l = if l = k then v else m.get d l := by
  by_cases h : l = k
  · subst h; simp
  · rw [if_neg h, FMap.get_set_ne m d v h]

@[simp] theorem FMap.find_erase_same (m : FMap κ α) (k : κ) : (m.erase k).find k = none := by
  induction m with
  | nil => rfl
  | cons x m ih =>
    obtain ⟨k', v⟩ := x
    by_cases h : k' = k
    · simp [FMap.erase, h, ih]
    · simp [FMap.erase, h, FMap.find, ih]

theorem FMap.find_erase_ne (m : FMap κ α) {k l : κ} (h : l ≠ k) : (m.erase k).find l = m.find l := by
  induction m with
  | nil => rfl
  | cons x m ih =>
    obtain ⟨k', v⟩ := x
    by_cases h1 : k' = k
    · subst h1
      simp [FMap.erase, FMap.find, ih, Ne.symm h]
    · by_cases h2 : k' = l
      · subst h2
        simp [FMap.erase, FMap.find, h]
      · simp [FMap.erase, h1, FMap.find, ih, h2]

@[simp] theorem FMap.find_set_same (m : FMap κ α) (k : κ) (v : α) : (m.set k v).find k = some v := by simp [FMap.set, FMap.find]

theorem FMap.find_set_ne (m : FMap κ α) {k l : κ} (v : α) (h : l ≠ k) : (m.set k v).find l = m.find l := by
  rw [FMap.set, FMap.find, if_neg (fun e => h e.symm), FMap.find_erase_ne m h]

/-- Keeping a part of a map keeps the value of a key whose every entry is kept. -/
theorem FMap.get_filter (m : FMap κ α) (p : κ × α → Bool) (d : α) (k : κ) (h : ∀ v, p (k, v) = true) :
    FMap.get (m.filter p) d k = m.get d k := by
  induction m with
  | nil => rfl
  | cons x m ih =>
    obtain ⟨k', v⟩ := x
    by_cases h1 : k' = k
    · subst h1; simp [List.filter, h, FMap.get]
    · by_cases h2 : p (k', v) = true <;> simp [List.filter, h2, FMap.get, h1, ih]

/-- Dropping every entry of a key gives the default. -/
theorem FMap.get_filter_out (m : FMap κ α) (p : κ × α → Bool) (d : α) (k : κ) (h : ∀ v, p (k, v) = false) :
    FMap.get (m.filter p) d k = d := by
  induction m with
  | nil => rfl
  | cons x m ih =>
    obtain ⟨k', v⟩ := x
    by_cases h1 : k' = k
    · subst h1; simp [List.filter, h, ih]
    · by_cases h2 : p (k', v) = true <;> simp [List.filter, h2, FMap.get, h1, ih]

end Maps

/-! ### Lists and counts -/

/-- What `takeFirst` gives: the first element that fits, and the list without it. -/
theorem takeFirst_some {α : Type} (p : α → Bool) {l : List α} {x : α} {r : List α} (h : takeFirst p l = some (x, r)) :
    p x = true ∧ x ∈ l ∧ ∀ y, y ∈ r → y ∈ l := by
  induction l generalizing r with
  | nil => simp [takeFirst] at h
  | cons y ys ih =>
    simp only [takeFirst] at h
    by_cases hp : p y = true
    · rw [if_pos hp] at h
      cases h
      exact ⟨hp, by simp, fun z hz => by simp [hz]⟩
    · rw [if_neg hp] at h
      cases ht : takeFirst p ys with
      | none => simp [ht] at h
      | some q =>
        obtain ⟨a, b⟩ := q
        simp only [ht] at h
        cases h
        obtain ⟨h1, h2, h3⟩ := ih ht
        refine ⟨h1, by simp [h2], fun z hz => ?_⟩
        rcases List.mem_cons.mp hz with rfl | hz
        · simp
        · simp [h3 z hz]

/-- `takeFirst` gives nothing exactly when nothing fits. -/
theorem takeFirst_none {α : Type} (p : α → Bool) {l : List α} : takeFirst p l = none ↔ ∀ x, x ∈ l → p x = false := by
  induction l with
  | nil => simp [takeFirst]
  | cons y ys ih =>
    simp only [takeFirst]
    by_cases hp : p y = true
    · simp [hp]
    · cases ht : takeFirst p ys with
      | none => simpa [ht, hp] using ih.mp ht
      | some q =>
        have := mt ih.mpr (by simp [ht])
        simp [hp]
        simpa using this

/-- A saturating count stays in its width. -/
theorem satAdd_lt (n a b : Nat) : satAdd n a b < 2 ^ n := by
  have : 0 < 2 ^ n := by positivity
  unfold satAdd
  omega

/-- A count that does not reach its limit adds. -/
theorem satAdd_eq (n a b : Nat) (h : a + b < 2 ^ n) : satAdd n a b = a + b := by
  unfold satAdd
  omega

/-- A tag stays in its range. -/
theorem nextTag_range (m t : Nat) (h : 1 ≤ m) : 1 ≤ nextTag m t ∧ nextTag m t ≤ m := by
  unfold nextTag
  split <;> omega

end Sys2Proof.Machine
end

