-- ==== Sys2Proof/Laws/Memory.lean ====
section
/-! SUPPORT. Laws of the byte memory: what reads after writes give, and that every operation keeps the canonical form. -/

namespace Sys2Proof.Machine

@[simp] theorem Memory.get_nil (x : Nat) : Memory.get [] x = 0 := rfl

/-- The canonical form of a list with a first entry. -/
theorem Memory.wfFrom_cons (a : Nat) (b : Byte) (m : Memory) (lo : Option Nat) :
    Memory.wfFrom ((a, b) :: m) lo = true ↔ (∀ l, lo = some l → l < a) ∧ b ≠ 0 ∧ Memory.wfFrom m (some a) = true := by
  cases lo <;> simp [Memory.wfFrom, memDefault, and_assoc]

/-- A lower bound may be lowered. -/
theorem Memory.wfFrom_mono {m : Memory} {a b : Nat} (h : a ≤ b) (hm : Memory.wfFrom m (some b) = true) : Memory.wfFrom m (some a) = true := by
  cases m with
  | nil => rfl
  | cons x m =>
    obtain ⟨c, v⟩ := x
    rw [Memory.wfFrom_cons] at hm ⊢
    refine ⟨fun l hl => ?_, hm.2⟩
    cases hl
    have := hm.1 b rfl
    omega

/-- A bound may be dropped. -/
theorem Memory.wf_of_wfFrom {m : Memory} {a : Nat} (hm : Memory.wfFrom m (some a) = true) : m.wf = true := by
  cases m with
  | nil => rfl
  | cons x m =>
    obtain ⟨c, v⟩ := x
    rw [Memory.wf, Memory.wfFrom_cons]
    rw [Memory.wfFrom_cons] at hm
    exact ⟨by simp, hm.2⟩

/-- Below the bound of a canonical list every address reads as unlisted. -/
theorem Memory.get_below {m : Memory} {a x : Nat} (hm : Memory.wfFrom m (some a) = true) (h : x ≤ a) : m.get x = 0 := by
  induction m generalizing a with
  | nil => rfl
  | cons y m ih =>
    obtain ⟨c, v⟩ := y
    rw [Memory.wfFrom_cons] at hm
    have := hm.1 a rfl
    rw [Memory.get, if_neg (by omega)]
    exact ih hm.2.2 (by omega)

/-- A write above a bound keeps the form above it. -/
theorem Memory.wfFrom_put {m : Memory} {a x : Nat} (v : Byte) (hm : Memory.wfFrom m (some a) = true) (h : a < x) :
    Memory.wfFrom (m.put x v) (some a) = true := by
  induction m generalizing a with
  | nil =>
    unfold Memory.put
    split
    · rfl
    · rename_i hv
      rw [Memory.wfFrom_cons]
      exact ⟨fun l hl => by cases hl; exact h, hv, rfl⟩
  | cons y m ih =>
    obtain ⟨c, w⟩ := y
    have hc := (Memory.wfFrom_cons c w m (some a)).mp hm
    unfold Memory.put
    split
    · split
      · exact hm
      · rename_i hv
        rw [Memory.wfFrom_cons]
        refine ⟨fun l hl => by cases hl; exact h, hv, ?_⟩
        rw [Memory.wfFrom_cons]
        exact ⟨fun l hl => by cases hl; assumption, hc.2⟩
    · split
      · rename_i hx
        subst hx
        split
        · exact Memory.wfFrom_mono (by omega) hc.2.2
        · rename_i hv
          rw [Memory.wfFrom_cons]
          exact ⟨fun l hl => by cases hl; exact h, hv, hc.2.2⟩
      · rw [Memory.wfFrom_cons]
        exact ⟨hc.1, hc.2.1, ih hc.2.2 (by omega)⟩

/-- A write keeps the canonical form. -/
theorem Memory.wf_put {m : Memory} (x : Nat) (v : Byte) (hm : m.wf = true) : (m.put x v).wf = true := by
  cases m with
  | nil =>
    unfold Memory.put
    split
    · rfl
    · rename_i hv
      rw [Memory.wf, Memory.wfFrom_cons]
      exact ⟨by simp, hv, rfl⟩
  | cons y m =>
    obtain ⟨c, w⟩ := y
    have hc := (Memory.wfFrom_cons c w m none).mp hm
    unfold Memory.put
    split
    · split
      · exact hm
      · rename_i hv
        rw [Memory.wf, Memory.wfFrom_cons]
        refine ⟨by simp, hv, ?_⟩
        rw [Memory.wfFrom_cons]
        exact ⟨fun l hl => by cases hl; assumption, hc.2⟩
    · split
      · split
        · exact Memory.wf_of_wfFrom hc.2.2
        · rename_i hx hv
          subst hx
          rw [Memory.wf, Memory.wfFrom_cons]
          exact ⟨by simp, hv, hc.2.2⟩
      · rw [Memory.wf, Memory.wfFrom_cons]
        exact ⟨by simp, hc.2.1, Memory.wfFrom_put v hc.2.2 (by omega)⟩

/-- A write of bytes keeps the canonical form. -/
theorem Memory.wf_putBytes {m : Memory} (x : Nat) (bs : List Byte) (hm : m.wf = true) : (m.putBytes x bs).wf = true := by
  induction bs generalizing m x with
  | nil => exact hm
  | cons b bs ih => exact ih _ (Memory.wf_put x b hm)

/-- Dropping entries keeps the form above a bound. -/
theorem Memory.wfFrom_filter {m : Memory} {lo : Option Nat} (p : Host.Cell → Bool) (hm : Memory.wfFrom m lo = true) :
    Memory.wfFrom (m.filter p) lo = true := by
  induction m generalizing lo with
  | nil => rfl
  | cons y m ih =>
    obtain ⟨c, w⟩ := y
    have hc := (Memory.wfFrom_cons c w m lo).mp hm
    by_cases hp : p (c, w) = true
    · rw [List.filter_cons_of_pos hp, Memory.wfFrom_cons]
      exact ⟨hc.1, hc.2.1, ih hc.2.2⟩
    · rw [List.filter_cons_of_neg hp]
      have h1 := ih hc.2.2
      cases lo with
      | none => exact Memory.wf_of_wfFrom h1
      | some l => exact Memory.wfFrom_mono (Nat.le_of_lt (hc.1 l rfl)) h1

/-- Dropping entries keeps the canonical form. -/
theorem Memory.wf_filter {m : Memory} (p : Host.Cell → Bool) (hm : m.wf = true) : Memory.wf (m.filter p) = true :=
  Memory.wfFrom_filter p hm

/-- Losing a range keeps the canonical form. -/
theorem Memory.wf_clear {m : Memory} (lo hi : Nat) (hm : m.wf = true) : (m.clear lo hi).wf = true := Memory.wf_filter _ hm

/-- What a canonical list reads at an address after a write. -/
theorem Memory.get_put_from {m : Memory} {lo : Option Nat} (x y : Nat) (v : Byte) (hm : Memory.wfFrom m lo = true) :
    (m.put x v).get y = if y = x then v else m.get y := by
  induction m generalizing lo with
  | nil =>
    unfold Memory.put
    by_cases hv : v = memDefault
    · subst hv; simp [Memory.get, memDefault]
    · rw [if_neg hv]
      by_cases h : x = y
      · simp [h, Memory.get]
      · simp [Memory.get, h, Ne.symm h]
  | cons c m ih =>
    obtain ⟨a, b⟩ := c
    have hc := (Memory.wfFrom_cons a b m lo).mp hm
    unfold Memory.put
    by_cases h1 : x < a
    · rw [if_pos h1]
      have hx : Memory.get ((a, b) :: m) x = 0 := by
        rw [Memory.get, if_neg (by omega)]
        exact Memory.get_below hc.2.2 (by omega)
      by_cases hv : v = memDefault
      · rw [if_pos hv]
        by_cases h : y = x
        · subst h; rw [if_pos rfl, hx, hv]; rfl
        · rw [if_neg h]
      · rw [if_neg hv, Memory.get]
        by_cases h : x = y
        · rw [if_pos h, if_pos h.symm]
        · rw [if_neg h, if_neg (Ne.symm h)]
    · rw [if_neg h1]
      by_cases h2 : x = a
      · subst h2
        rw [if_pos rfl]
        by_cases hv : v = memDefault
        · rw [if_pos hv]
          by_cases h : y = x
          · subst h; rw [if_pos rfl, hv, Memory.get_below hc.2.2 (le_refl _)]; rfl
          · rw [if_neg h, Memory.get, if_neg (Ne.symm h)]
        · rw [if_neg hv, Memory.get, Memory.get]
          by_cases h : x = y
          · rw [if_pos h, if_pos h.symm]
          · rw [if_neg h, if_neg (Ne.symm h), if_neg h]
      · rw [if_neg h2, Memory.get, Memory.get, ih hc.2.2]
        by_cases h : a = y
        · rw [if_pos h, if_pos h, if_neg (by omega)]
        · rw [if_neg h, if_neg h]

/-- A read after a write gives the value written at its address, and what stood there at every other one. -/
theorem Memory.get_put {m : Memory} (x y : Nat) (v : Byte) (hm : m.wf = true) : (m.put x v).get y = if y = x then v else m.get y :=
  Memory.get_put_from x y v hm

/-- A read outside the bytes written gives what stood there. -/
theorem Memory.get_putBytes_other {m : Memory} (x y : Nat) (bs : List Byte) (hm : m.wf = true) (h : y < x ∨ x + bs.length ≤ y) :
    (m.putBytes x bs).get y = m.get y := by
  induction bs generalizing m x with
  | nil => rfl
  | cons b bs ih =>
    rw [List.length_cons] at h
    rw [Memory.putBytes, ih (x + 1) (Memory.wf_put x b hm) (by omega), Memory.get_put x y b hm, if_neg (by omega)]

/-- A read of a byte written gives it. -/
theorem Memory.get_putBytes {m : Memory} (x k : Nat) (bs : List Byte) (hm : m.wf = true) (h : k < bs.length) :
    (m.putBytes x bs).get (x + k) = bs.getD k 0 := by
  induction bs generalizing m x k with
  | nil => simp at h
  | cons b bs ih =>
    rw [Memory.putBytes]
    cases k with
    | zero =>
      rw [show x + 0 = x from rfl, Memory.get_putBytes_other (x + 1) x bs (Memory.wf_put x b hm) (by omega), Memory.get_put x x b hm, if_pos rfl]
      rfl
    | succ k =>
      have := ih (x + 1) k (Memory.wf_put x b hm) (by simpa using h)
      rw [show x + (k + 1) = x + 1 + k by omega, this]
      rfl

/-- Bytes read back after they were written. -/
theorem Memory.bytes_putBytes {m : Memory} (x : Nat) (bs : List Byte) (hm : m.wf = true) : (m.putBytes x bs).bytes x bs.length = bs := by
  apply List.ext_getElem
  · simp [Memory.bytes]
  · intro k h1 h2
    simp only [Memory.bytes, List.getElem_map, List.getElem_range]
    rw [Memory.get_putBytes x k bs hm h2, List.getD_eq_getElem?_getD, List.getElem?_eq_getElem h2]
    rfl

/-- A lost range reads as unlisted, every other address as before. -/
theorem Memory.get_clear (m : Memory) (lo hi x : Nat) : (m.clear lo hi).get x = if lo ≤ x ∧ x < hi then 0 else m.get x := by
  induction m with
  | nil => simp [Memory.clear]
  | cons c m ih =>
    obtain ⟨a, b⟩ := c
    unfold Memory.clear at ih ⊢
    by_cases h : lo ≤ a ∧ a < hi
    · rw [List.filter_cons_of_neg (by simp [h]), ih, Memory.get]
      by_cases hx : a = x
      · subst hx; rw [if_pos h, if_pos h]
      · rw [if_neg hx]
    · rw [List.filter_cons_of_pos (by simp; omega), Memory.get, Memory.get]
      by_cases hx : a = x
      · subst hx; rw [if_pos rfl, if_neg h, if_pos rfl]
      · rw [if_neg hx, if_neg hx, ih]

end Sys2Proof.Machine
end

