-- ==== Sys2Proof/Laws/State.lean ====
section
/-! SUPPORT. One law per field of State and update: what an update leaves, and what it puts in the field it changes. -/

namespace Sys2Proof.Machine

variable (s : State)

/-! ### `setReg` -/

@[simp] theorem State.setReg_pending (r : Reg) (v : Word) : (s.setReg r v).pending = s.pending := rfl
@[simp] theorem State.setReg_now (r : Reg) (v : Word) : (s.setReg r v).now = s.now := rfl
@[simp] theorem State.setReg_freeCtr (r : Reg) (v : Word) : (s.setReg r v).freeCtr = s.freeCtr := rfl
@[simp] theorem State.setReg_fuses (r : Reg) (v : Word) : (s.setReg r v).fuses = s.fuses := rfl
@[simp] theorem State.setReg_regs (r : Reg) (v : Word) : (s.setReg r v).regs = s.regs.set r v := rfl
@[simp] theorem State.setReg_clock (r : Reg) (v : Word) : (s.setReg r v).clock = s.clock := rfl
@[simp] theorem State.setReg_lane (r : Reg) (v : Word) : (s.setReg r v).lane = s.lane := rfl
@[simp] theorem State.setReg_links (r : Reg) (v : Word) : (s.setReg r v).links = s.links := rfl
@[simp] theorem State.setReg_rtvTag (r : Reg) (v : Word) : (s.setReg r v).rtvTag = s.rtvTag := rfl
@[simp] theorem State.setReg_fret (r : Reg) (v : Word) : (s.setReg r v).fret = s.fret := rfl
@[simp] theorem State.setReg_tab (r : Reg) (v : Word) : (s.setReg r v).tab = s.tab := rfl
@[simp] theorem State.setReg_buf (r : Reg) (v : Word) : (s.setReg r v).buf = s.buf := rfl
@[simp] theorem State.setReg_sch (r : Reg) (v : Word) : (s.setReg r v).sch = s.sch := rfl
@[simp] theorem State.setReg_par (r : Reg) (v : Word) : (s.setReg r v).par = s.par := rfl
@[simp] theorem State.setReg_xlt (r : Reg) (v : Word) : (s.setReg r v).xlt = s.xlt := rfl
@[simp] theorem State.setReg_dma (r : Reg) (v : Word) : (s.setReg r v).dma = s.dma := rfl
@[simp] theorem State.setReg_flt (r : Reg) (v : Word) : (s.setReg r v).flt = s.flt := rfl
@[simp] theorem State.setReg_pwr (r : Reg) (v : Word) : (s.setReg r v).pwr = s.pwr := rfl
@[simp] theorem State.setReg_hild (r : Reg) (v : Word) : (s.setReg r v).hild = s.hild := rfl
@[simp] theorem State.setReg_sbb (r : Reg) (v : Word) : (s.setReg r v).sbb = s.sbb := rfl
@[simp] theorem State.setReg_core (r : Reg) (v : Word) : (s.setReg r v).core = s.core := rfl
@[simp] theorem State.setReg_gate (r : Reg) (v : Word) : (s.setReg r v).gate = s.gate := rfl
@[simp] theorem State.setReg_boot (r : Reg) (v : Word) : (s.setReg r v).boot = s.boot := rfl
@[simp] theorem State.setReg_recd (r : Reg) (v : Word) : (s.setReg r v).recd = s.recd := rfl
@[simp] theorem State.setReg_mem (r : Reg) (v : Word) : (s.setReg r v).mem = s.mem := rfl

/-! ### `setFld` -/

@[simp] theorem State.setFld_pending (r : Reg) (f : Field) (v : Nat) : (s.setFld r f v).pending = s.pending := rfl
@[simp] theorem State.setFld_now (r : Reg) (f : Field) (v : Nat) : (s.setFld r f v).now = s.now := rfl
@[simp] theorem State.setFld_freeCtr (r : Reg) (f : Field) (v : Nat) : (s.setFld r f v).freeCtr = s.freeCtr := rfl
@[simp] theorem State.setFld_fuses (r : Reg) (f : Field) (v : Nat) : (s.setFld r f v).fuses = s.fuses := rfl
@[simp] theorem State.setFld_clock (r : Reg) (f : Field) (v : Nat) : (s.setFld r f v).clock = s.clock := rfl
@[simp] theorem State.setFld_lane (r : Reg) (f : Field) (v : Nat) : (s.setFld r f v).lane = s.lane := rfl
@[simp] theorem State.setFld_links (r : Reg) (f : Field) (v : Nat) : (s.setFld r f v).links = s.links := rfl
@[simp] theorem State.setFld_rtvTag (r : Reg) (f : Field) (v : Nat) : (s.setFld r f v).rtvTag = s.rtvTag := rfl
@[simp] theorem State.setFld_fret (r : Reg) (f : Field) (v : Nat) : (s.setFld r f v).fret = s.fret := rfl
@[simp] theorem State.setFld_tab (r : Reg) (f : Field) (v : Nat) : (s.setFld r f v).tab = s.tab := rfl
@[simp] theorem State.setFld_buf (r : Reg) (f : Field) (v : Nat) : (s.setFld r f v).buf = s.buf := rfl
@[simp] theorem State.setFld_sch (r : Reg) (f : Field) (v : Nat) : (s.setFld r f v).sch = s.sch := rfl
@[simp] theorem State.setFld_par (r : Reg) (f : Field) (v : Nat) : (s.setFld r f v).par = s.par := rfl
@[simp] theorem State.setFld_xlt (r : Reg) (f : Field) (v : Nat) : (s.setFld r f v).xlt = s.xlt := rfl
@[simp] theorem State.setFld_dma (r : Reg) (f : Field) (v : Nat) : (s.setFld r f v).dma = s.dma := rfl
@[simp] theorem State.setFld_flt (r : Reg) (f : Field) (v : Nat) : (s.setFld r f v).flt = s.flt := rfl
@[simp] theorem State.setFld_pwr (r : Reg) (f : Field) (v : Nat) : (s.setFld r f v).pwr = s.pwr := rfl
@[simp] theorem State.setFld_hild (r : Reg) (f : Field) (v : Nat) : (s.setFld r f v).hild = s.hild := rfl
@[simp] theorem State.setFld_sbb (r : Reg) (f : Field) (v : Nat) : (s.setFld r f v).sbb = s.sbb := rfl
@[simp] theorem State.setFld_core (r : Reg) (f : Field) (v : Nat) : (s.setFld r f v).core = s.core := rfl
@[simp] theorem State.setFld_gate (r : Reg) (f : Field) (v : Nat) : (s.setFld r f v).gate = s.gate := rfl
@[simp] theorem State.setFld_boot (r : Reg) (f : Field) (v : Nat) : (s.setFld r f v).boot = s.boot := rfl
@[simp] theorem State.setFld_recd (r : Reg) (f : Field) (v : Nat) : (s.setFld r f v).recd = s.recd := rfl
@[simp] theorem State.setFld_mem (r : Reg) (f : Field) (v : Nat) : (s.setFld r f v).mem = s.mem := rfl

/-! ### `count` -/

@[simp] theorem State.count_pending (r : Reg) (f : Field) (n : Nat) : (s.count r f n).pending = s.pending := rfl
@[simp] theorem State.count_now (r : Reg) (f : Field) (n : Nat) : (s.count r f n).now = s.now := rfl
@[simp] theorem State.count_freeCtr (r : Reg) (f : Field) (n : Nat) : (s.count r f n).freeCtr = s.freeCtr := rfl
@[simp] theorem State.count_fuses (r : Reg) (f : Field) (n : Nat) : (s.count r f n).fuses = s.fuses := rfl
@[simp] theorem State.count_clock (r : Reg) (f : Field) (n : Nat) : (s.count r f n).clock = s.clock := rfl
@[simp] theorem State.count_lane (r : Reg) (f : Field) (n : Nat) : (s.count r f n).lane = s.lane := rfl
@[simp] theorem State.count_links (r : Reg) (f : Field) (n : Nat) : (s.count r f n).links = s.links := rfl
@[simp] theorem State.count_rtvTag (r : Reg) (f : Field) (n : Nat) : (s.count r f n).rtvTag = s.rtvTag := rfl
@[simp] theorem State.count_fret (r : Reg) (f : Field) (n : Nat) : (s.count r f n).fret = s.fret := rfl
@[simp] theorem State.count_tab (r : Reg) (f : Field) (n : Nat) : (s.count r f n).tab = s.tab := rfl
@[simp] theorem State.count_buf (r : Reg) (f : Field) (n : Nat) : (s.count r f n).buf = s.buf := rfl
@[simp] theorem State.count_sch (r : Reg) (f : Field) (n : Nat) : (s.count r f n).sch = s.sch := rfl
@[simp] theorem State.count_par (r : Reg) (f : Field) (n : Nat) : (s.count r f n).par = s.par := rfl
@[simp] theorem State.count_xlt (r : Reg) (f : Field) (n : Nat) : (s.count r f n).xlt = s.xlt := rfl
@[simp] theorem State.count_dma (r : Reg) (f : Field) (n : Nat) : (s.count r f n).dma = s.dma := rfl
@[simp] theorem State.count_flt (r : Reg) (f : Field) (n : Nat) : (s.count r f n).flt = s.flt := rfl
@[simp] theorem State.count_pwr (r : Reg) (f : Field) (n : Nat) : (s.count r f n).pwr = s.pwr := rfl
@[simp] theorem State.count_hild (r : Reg) (f : Field) (n : Nat) : (s.count r f n).hild = s.hild := rfl
@[simp] theorem State.count_sbb (r : Reg) (f : Field) (n : Nat) : (s.count r f n).sbb = s.sbb := rfl
@[simp] theorem State.count_core (r : Reg) (f : Field) (n : Nat) : (s.count r f n).core = s.core := rfl
@[simp] theorem State.count_gate (r : Reg) (f : Field) (n : Nat) : (s.count r f n).gate = s.gate := rfl
@[simp] theorem State.count_boot (r : Reg) (f : Field) (n : Nat) : (s.count r f n).boot = s.boot := rfl
@[simp] theorem State.count_recd (r : Reg) (f : Field) (n : Nat) : (s.count r f n).recd = s.recd := rfl
@[simp] theorem State.count_mem (r : Reg) (f : Field) (n : Nat) : (s.count r f n).mem = s.mem := rfl

/-! ### `setSat` -/

@[simp] theorem State.setSat_pending (r : Reg) (f : Field) (v : Nat) : (s.setSat r f v).pending = s.pending := rfl
@[simp] theorem State.setSat_now (r : Reg) (f : Field) (v : Nat) : (s.setSat r f v).now = s.now := rfl
@[simp] theorem State.setSat_freeCtr (r : Reg) (f : Field) (v : Nat) : (s.setSat r f v).freeCtr = s.freeCtr := rfl
@[simp] theorem State.setSat_fuses (r : Reg) (f : Field) (v : Nat) : (s.setSat r f v).fuses = s.fuses := rfl
@[simp] theorem State.setSat_clock (r : Reg) (f : Field) (v : Nat) : (s.setSat r f v).clock = s.clock := rfl
@[simp] theorem State.setSat_lane (r : Reg) (f : Field) (v : Nat) : (s.setSat r f v).lane = s.lane := rfl
@[simp] theorem State.setSat_links (r : Reg) (f : Field) (v : Nat) : (s.setSat r f v).links = s.links := rfl
@[simp] theorem State.setSat_rtvTag (r : Reg) (f : Field) (v : Nat) : (s.setSat r f v).rtvTag = s.rtvTag := rfl
@[simp] theorem State.setSat_fret (r : Reg) (f : Field) (v : Nat) : (s.setSat r f v).fret = s.fret := rfl
@[simp] theorem State.setSat_tab (r : Reg) (f : Field) (v : Nat) : (s.setSat r f v).tab = s.tab := rfl
@[simp] theorem State.setSat_buf (r : Reg) (f : Field) (v : Nat) : (s.setSat r f v).buf = s.buf := rfl
@[simp] theorem State.setSat_sch (r : Reg) (f : Field) (v : Nat) : (s.setSat r f v).sch = s.sch := rfl
@[simp] theorem State.setSat_par (r : Reg) (f : Field) (v : Nat) : (s.setSat r f v).par = s.par := rfl
@[simp] theorem State.setSat_xlt (r : Reg) (f : Field) (v : Nat) : (s.setSat r f v).xlt = s.xlt := rfl
@[simp] theorem State.setSat_dma (r : Reg) (f : Field) (v : Nat) : (s.setSat r f v).dma = s.dma := rfl
@[simp] theorem State.setSat_flt (r : Reg) (f : Field) (v : Nat) : (s.setSat r f v).flt = s.flt := rfl
@[simp] theorem State.setSat_pwr (r : Reg) (f : Field) (v : Nat) : (s.setSat r f v).pwr = s.pwr := rfl
@[simp] theorem State.setSat_hild (r : Reg) (f : Field) (v : Nat) : (s.setSat r f v).hild = s.hild := rfl
@[simp] theorem State.setSat_sbb (r : Reg) (f : Field) (v : Nat) : (s.setSat r f v).sbb = s.sbb := rfl
@[simp] theorem State.setSat_core (r : Reg) (f : Field) (v : Nat) : (s.setSat r f v).core = s.core := rfl
@[simp] theorem State.setSat_gate (r : Reg) (f : Field) (v : Nat) : (s.setSat r f v).gate = s.gate := rfl
@[simp] theorem State.setSat_boot (r : Reg) (f : Field) (v : Nat) : (s.setSat r f v).boot = s.boot := rfl
@[simp] theorem State.setSat_recd (r : Reg) (f : Field) (v : Nat) : (s.setSat r f v).recd = s.recd := rfl
@[simp] theorem State.setSat_mem (r : Reg) (f : Field) (v : Nat) : (s.setSat r f v).mem = s.mem := rfl

/-! ### `drew` -/

@[simp] theorem State.drew_pending : (s.drew).pending = s.pending := rfl
@[simp] theorem State.drew_now : (s.drew).now = s.now := rfl
@[simp] theorem State.drew_freeCtr : (s.drew).freeCtr = s.freeCtr + 1 := rfl
@[simp] theorem State.drew_fuses : (s.drew).fuses = s.fuses := rfl
@[simp] theorem State.drew_regs : (s.drew).regs = s.regs := rfl
@[simp] theorem State.drew_clock : (s.drew).clock = s.clock := rfl
@[simp] theorem State.drew_lane : (s.drew).lane = s.lane := rfl
@[simp] theorem State.drew_links : (s.drew).links = s.links := rfl
@[simp] theorem State.drew_rtvTag : (s.drew).rtvTag = s.rtvTag := rfl
@[simp] theorem State.drew_fret : (s.drew).fret = s.fret := rfl
@[simp] theorem State.drew_tab : (s.drew).tab = s.tab := rfl
@[simp] theorem State.drew_buf : (s.drew).buf = s.buf := rfl
@[simp] theorem State.drew_sch : (s.drew).sch = s.sch := rfl
@[simp] theorem State.drew_par : (s.drew).par = s.par := rfl
@[simp] theorem State.drew_xlt : (s.drew).xlt = s.xlt := rfl
@[simp] theorem State.drew_dma : (s.drew).dma = s.dma := rfl
@[simp] theorem State.drew_flt : (s.drew).flt = s.flt := rfl
@[simp] theorem State.drew_pwr : (s.drew).pwr = s.pwr := rfl
@[simp] theorem State.drew_hild : (s.drew).hild = s.hild := rfl
@[simp] theorem State.drew_sbb : (s.drew).sbb = s.sbb := rfl
@[simp] theorem State.drew_core : (s.drew).core = s.core := rfl
@[simp] theorem State.drew_gate : (s.drew).gate = s.gate := rfl
@[simp] theorem State.drew_boot : (s.drew).boot = s.boot := rfl
@[simp] theorem State.drew_recd : (s.drew).recd = s.recd := rfl
@[simp] theorem State.drew_mem : (s.drew).mem = s.mem := rfl

/-! ### `modClock` -/

@[simp] theorem State.modClock_pending (f : ClockSt → ClockSt) : (s.modClock f).pending = s.pending := rfl
@[simp] theorem State.modClock_now (f : ClockSt → ClockSt) : (s.modClock f).now = s.now := rfl
@[simp] theorem State.modClock_freeCtr (f : ClockSt → ClockSt) : (s.modClock f).freeCtr = s.freeCtr := rfl
@[simp] theorem State.modClock_fuses (f : ClockSt → ClockSt) : (s.modClock f).fuses = s.fuses := rfl
@[simp] theorem State.modClock_regs (f : ClockSt → ClockSt) : (s.modClock f).regs = s.regs := rfl
@[simp] theorem State.modClock_clock (f : ClockSt → ClockSt) : (s.modClock f).clock = f s.clock := rfl
@[simp] theorem State.modClock_lane (f : ClockSt → ClockSt) : (s.modClock f).lane = s.lane := rfl
@[simp] theorem State.modClock_links (f : ClockSt → ClockSt) : (s.modClock f).links = s.links := rfl
@[simp] theorem State.modClock_rtvTag (f : ClockSt → ClockSt) : (s.modClock f).rtvTag = s.rtvTag := rfl
@[simp] theorem State.modClock_fret (f : ClockSt → ClockSt) : (s.modClock f).fret = s.fret := rfl
@[simp] theorem State.modClock_tab (f : ClockSt → ClockSt) : (s.modClock f).tab = s.tab := rfl
@[simp] theorem State.modClock_buf (f : ClockSt → ClockSt) : (s.modClock f).buf = s.buf := rfl
@[simp] theorem State.modClock_sch (f : ClockSt → ClockSt) : (s.modClock f).sch = s.sch := rfl
@[simp] theorem State.modClock_par (f : ClockSt → ClockSt) : (s.modClock f).par = s.par := rfl
@[simp] theorem State.modClock_xlt (f : ClockSt → ClockSt) : (s.modClock f).xlt = s.xlt := rfl
@[simp] theorem State.modClock_dma (f : ClockSt → ClockSt) : (s.modClock f).dma = s.dma := rfl
@[simp] theorem State.modClock_flt (f : ClockSt → ClockSt) : (s.modClock f).flt = s.flt := rfl
@[simp] theorem State.modClock_pwr (f : ClockSt → ClockSt) : (s.modClock f).pwr = s.pwr := rfl
@[simp] theorem State.modClock_hild (f : ClockSt → ClockSt) : (s.modClock f).hild = s.hild := rfl
@[simp] theorem State.modClock_sbb (f : ClockSt → ClockSt) : (s.modClock f).sbb = s.sbb := rfl
@[simp] theorem State.modClock_core (f : ClockSt → ClockSt) : (s.modClock f).core = s.core := rfl
@[simp] theorem State.modClock_gate (f : ClockSt → ClockSt) : (s.modClock f).gate = s.gate := rfl
@[simp] theorem State.modClock_boot (f : ClockSt → ClockSt) : (s.modClock f).boot = s.boot := rfl
@[simp] theorem State.modClock_recd (f : ClockSt → ClockSt) : (s.modClock f).recd = s.recd := rfl
@[simp] theorem State.modClock_mem (f : ClockSt → ClockSt) : (s.modClock f).mem = s.mem := rfl

/-! ### `modLane` -/

@[simp] theorem State.modLane_pending (f : LaneSt → LaneSt) : (s.modLane f).pending = s.pending := rfl
@[simp] theorem State.modLane_now (f : LaneSt → LaneSt) : (s.modLane f).now = s.now := rfl
@[simp] theorem State.modLane_freeCtr (f : LaneSt → LaneSt) : (s.modLane f).freeCtr = s.freeCtr := rfl
@[simp] theorem State.modLane_fuses (f : LaneSt → LaneSt) : (s.modLane f).fuses = s.fuses := rfl
@[simp] theorem State.modLane_regs (f : LaneSt → LaneSt) : (s.modLane f).regs = s.regs := rfl
@[simp] theorem State.modLane_clock (f : LaneSt → LaneSt) : (s.modLane f).clock = s.clock := rfl
@[simp] theorem State.modLane_lane (f : LaneSt → LaneSt) : (s.modLane f).lane = f s.lane := rfl
@[simp] theorem State.modLane_links (f : LaneSt → LaneSt) : (s.modLane f).links = s.links := rfl
@[simp] theorem State.modLane_rtvTag (f : LaneSt → LaneSt) : (s.modLane f).rtvTag = s.rtvTag := rfl
@[simp] theorem State.modLane_fret (f : LaneSt → LaneSt) : (s.modLane f).fret = s.fret := rfl
@[simp] theorem State.modLane_tab (f : LaneSt → LaneSt) : (s.modLane f).tab = s.tab := rfl
@[simp] theorem State.modLane_buf (f : LaneSt → LaneSt) : (s.modLane f).buf = s.buf := rfl
@[simp] theorem State.modLane_sch (f : LaneSt → LaneSt) : (s.modLane f).sch = s.sch := rfl
@[simp] theorem State.modLane_par (f : LaneSt → LaneSt) : (s.modLane f).par = s.par := rfl
@[simp] theorem State.modLane_xlt (f : LaneSt → LaneSt) : (s.modLane f).xlt = s.xlt := rfl
@[simp] theorem State.modLane_dma (f : LaneSt → LaneSt) : (s.modLane f).dma = s.dma := rfl
@[simp] theorem State.modLane_flt (f : LaneSt → LaneSt) : (s.modLane f).flt = s.flt := rfl
@[simp] theorem State.modLane_pwr (f : LaneSt → LaneSt) : (s.modLane f).pwr = s.pwr := rfl
@[simp] theorem State.modLane_hild (f : LaneSt → LaneSt) : (s.modLane f).hild = s.hild := rfl
@[simp] theorem State.modLane_sbb (f : LaneSt → LaneSt) : (s.modLane f).sbb = s.sbb := rfl
@[simp] theorem State.modLane_core (f : LaneSt → LaneSt) : (s.modLane f).core = s.core := rfl
@[simp] theorem State.modLane_gate (f : LaneSt → LaneSt) : (s.modLane f).gate = s.gate := rfl
@[simp] theorem State.modLane_boot (f : LaneSt → LaneSt) : (s.modLane f).boot = s.boot := rfl
@[simp] theorem State.modLane_recd (f : LaneSt → LaneSt) : (s.modLane f).recd = s.recd := rfl
@[simp] theorem State.modLane_mem (f : LaneSt → LaneSt) : (s.modLane f).mem = s.mem := rfl

/-! ### `modFret` -/

@[simp] theorem State.modFret_pending (f : FretSt → FretSt) : (s.modFret f).pending = s.pending := rfl
@[simp] theorem State.modFret_now (f : FretSt → FretSt) : (s.modFret f).now = s.now := rfl
@[simp] theorem State.modFret_freeCtr (f : FretSt → FretSt) : (s.modFret f).freeCtr = s.freeCtr := rfl
@[simp] theorem State.modFret_fuses (f : FretSt → FretSt) : (s.modFret f).fuses = s.fuses := rfl
@[simp] theorem State.modFret_regs (f : FretSt → FretSt) : (s.modFret f).regs = s.regs := rfl
@[simp] theorem State.modFret_clock (f : FretSt → FretSt) : (s.modFret f).clock = s.clock := rfl
@[simp] theorem State.modFret_lane (f : FretSt → FretSt) : (s.modFret f).lane = s.lane := rfl
@[simp] theorem State.modFret_links (f : FretSt → FretSt) : (s.modFret f).links = s.links := rfl
@[simp] theorem State.modFret_rtvTag (f : FretSt → FretSt) : (s.modFret f).rtvTag = s.rtvTag := rfl
@[simp] theorem State.modFret_fret (f : FretSt → FretSt) : (s.modFret f).fret = f s.fret := rfl
@[simp] theorem State.modFret_tab (f : FretSt → FretSt) : (s.modFret f).tab = s.tab := rfl
@[simp] theorem State.modFret_buf (f : FretSt → FretSt) : (s.modFret f).buf = s.buf := rfl
@[simp] theorem State.modFret_sch (f : FretSt → FretSt) : (s.modFret f).sch = s.sch := rfl
@[simp] theorem State.modFret_par (f : FretSt → FretSt) : (s.modFret f).par = s.par := rfl
@[simp] theorem State.modFret_xlt (f : FretSt → FretSt) : (s.modFret f).xlt = s.xlt := rfl
@[simp] theorem State.modFret_dma (f : FretSt → FretSt) : (s.modFret f).dma = s.dma := rfl
@[simp] theorem State.modFret_flt (f : FretSt → FretSt) : (s.modFret f).flt = s.flt := rfl
@[simp] theorem State.modFret_pwr (f : FretSt → FretSt) : (s.modFret f).pwr = s.pwr := rfl
@[simp] theorem State.modFret_hild (f : FretSt → FretSt) : (s.modFret f).hild = s.hild := rfl
@[simp] theorem State.modFret_sbb (f : FretSt → FretSt) : (s.modFret f).sbb = s.sbb := rfl
@[simp] theorem State.modFret_core (f : FretSt → FretSt) : (s.modFret f).core = s.core := rfl
@[simp] theorem State.modFret_gate (f : FretSt → FretSt) : (s.modFret f).gate = s.gate := rfl
@[simp] theorem State.modFret_boot (f : FretSt → FretSt) : (s.modFret f).boot = s.boot := rfl
@[simp] theorem State.modFret_recd (f : FretSt → FretSt) : (s.modFret f).recd = s.recd := rfl
@[simp] theorem State.modFret_mem (f : FretSt → FretSt) : (s.modFret f).mem = s.mem := rfl

/-! ### `modTab` -/

@[simp] theorem State.modTab_pending (f : TabSt → TabSt) : (s.modTab f).pending = s.pending := rfl
@[simp] theorem State.modTab_now (f : TabSt → TabSt) : (s.modTab f).now = s.now := rfl
@[simp] theorem State.modTab_freeCtr (f : TabSt → TabSt) : (s.modTab f).freeCtr = s.freeCtr := rfl
@[simp] theorem State.modTab_fuses (f : TabSt → TabSt) : (s.modTab f).fuses = s.fuses := rfl
@[simp] theorem State.modTab_regs (f : TabSt → TabSt) : (s.modTab f).regs = s.regs := rfl
@[simp] theorem State.modTab_clock (f : TabSt → TabSt) : (s.modTab f).clock = s.clock := rfl
@[simp] theorem State.modTab_lane (f : TabSt → TabSt) : (s.modTab f).lane = s.lane := rfl
@[simp] theorem State.modTab_links (f : TabSt → TabSt) : (s.modTab f).links = s.links := rfl
@[simp] theorem State.modTab_rtvTag (f : TabSt → TabSt) : (s.modTab f).rtvTag = s.rtvTag := rfl
@[simp] theorem State.modTab_fret (f : TabSt → TabSt) : (s.modTab f).fret = s.fret := rfl
@[simp] theorem State.modTab_tab (f : TabSt → TabSt) : (s.modTab f).tab = f s.tab := rfl
@[simp] theorem State.modTab_buf (f : TabSt → TabSt) : (s.modTab f).buf = s.buf := rfl
@[simp] theorem State.modTab_sch (f : TabSt → TabSt) : (s.modTab f).sch = s.sch := rfl
@[simp] theorem State.modTab_par (f : TabSt → TabSt) : (s.modTab f).par = s.par := rfl
@[simp] theorem State.modTab_xlt (f : TabSt → TabSt) : (s.modTab f).xlt = s.xlt := rfl
@[simp] theorem State.modTab_dma (f : TabSt → TabSt) : (s.modTab f).dma = s.dma := rfl
@[simp] theorem State.modTab_flt (f : TabSt → TabSt) : (s.modTab f).flt = s.flt := rfl
@[simp] theorem State.modTab_pwr (f : TabSt → TabSt) : (s.modTab f).pwr = s.pwr := rfl
@[simp] theorem State.modTab_hild (f : TabSt → TabSt) : (s.modTab f).hild = s.hild := rfl
@[simp] theorem State.modTab_sbb (f : TabSt → TabSt) : (s.modTab f).sbb = s.sbb := rfl
@[simp] theorem State.modTab_core (f : TabSt → TabSt) : (s.modTab f).core = s.core := rfl
@[simp] theorem State.modTab_gate (f : TabSt → TabSt) : (s.modTab f).gate = s.gate := rfl
@[simp] theorem State.modTab_boot (f : TabSt → TabSt) : (s.modTab f).boot = s.boot := rfl
@[simp] theorem State.modTab_recd (f : TabSt → TabSt) : (s.modTab f).recd = s.recd := rfl
@[simp] theorem State.modTab_mem (f : TabSt → TabSt) : (s.modTab f).mem = s.mem := rfl

/-! ### `modSch` -/

@[simp] theorem State.modSch_pending (f : SchSt → SchSt) : (s.modSch f).pending = s.pending := rfl
@[simp] theorem State.modSch_now (f : SchSt → SchSt) : (s.modSch f).now = s.now := rfl
@[simp] theorem State.modSch_freeCtr (f : SchSt → SchSt) : (s.modSch f).freeCtr = s.freeCtr := rfl
@[simp] theorem State.modSch_fuses (f : SchSt → SchSt) : (s.modSch f).fuses = s.fuses := rfl
@[simp] theorem State.modSch_regs (f : SchSt → SchSt) : (s.modSch f).regs = s.regs := rfl
@[simp] theorem State.modSch_clock (f : SchSt → SchSt) : (s.modSch f).clock = s.clock := rfl
@[simp] theorem State.modSch_lane (f : SchSt → SchSt) : (s.modSch f).lane = s.lane := rfl
@[simp] theorem State.modSch_links (f : SchSt → SchSt) : (s.modSch f).links = s.links := rfl
@[simp] theorem State.modSch_rtvTag (f : SchSt → SchSt) : (s.modSch f).rtvTag = s.rtvTag := rfl
@[simp] theorem State.modSch_fret (f : SchSt → SchSt) : (s.modSch f).fret = s.fret := rfl
@[simp] theorem State.modSch_tab (f : SchSt → SchSt) : (s.modSch f).tab = s.tab := rfl
@[simp] theorem State.modSch_buf (f : SchSt → SchSt) : (s.modSch f).buf = s.buf := rfl
@[simp] theorem State.modSch_sch (f : SchSt → SchSt) : (s.modSch f).sch = f s.sch := rfl
@[simp] theorem State.modSch_par (f : SchSt → SchSt) : (s.modSch f).par = s.par := rfl
@[simp] theorem State.modSch_xlt (f : SchSt → SchSt) : (s.modSch f).xlt = s.xlt := rfl
@[simp] theorem State.modSch_dma (f : SchSt → SchSt) : (s.modSch f).dma = s.dma := rfl
@[simp] theorem State.modSch_flt (f : SchSt → SchSt) : (s.modSch f).flt = s.flt := rfl
@[simp] theorem State.modSch_pwr (f : SchSt → SchSt) : (s.modSch f).pwr = s.pwr := rfl
@[simp] theorem State.modSch_hild (f : SchSt → SchSt) : (s.modSch f).hild = s.hild := rfl
@[simp] theorem State.modSch_sbb (f : SchSt → SchSt) : (s.modSch f).sbb = s.sbb := rfl
@[simp] theorem State.modSch_core (f : SchSt → SchSt) : (s.modSch f).core = s.core := rfl
@[simp] theorem State.modSch_gate (f : SchSt → SchSt) : (s.modSch f).gate = s.gate := rfl
@[simp] theorem State.modSch_boot (f : SchSt → SchSt) : (s.modSch f).boot = s.boot := rfl
@[simp] theorem State.modSch_recd (f : SchSt → SchSt) : (s.modSch f).recd = s.recd := rfl
@[simp] theorem State.modSch_mem (f : SchSt → SchSt) : (s.modSch f).mem = s.mem := rfl

/-! ### `modPar` -/

@[simp] theorem State.modPar_pending (f : ParSt → ParSt) : (s.modPar f).pending = s.pending := rfl
@[simp] theorem State.modPar_now (f : ParSt → ParSt) : (s.modPar f).now = s.now := rfl
@[simp] theorem State.modPar_freeCtr (f : ParSt → ParSt) : (s.modPar f).freeCtr = s.freeCtr := rfl
@[simp] theorem State.modPar_fuses (f : ParSt → ParSt) : (s.modPar f).fuses = s.fuses := rfl
@[simp] theorem State.modPar_regs (f : ParSt → ParSt) : (s.modPar f).regs = s.regs := rfl
@[simp] theorem State.modPar_clock (f : ParSt → ParSt) : (s.modPar f).clock = s.clock := rfl
@[simp] theorem State.modPar_lane (f : ParSt → ParSt) : (s.modPar f).lane = s.lane := rfl
@[simp] theorem State.modPar_links (f : ParSt → ParSt) : (s.modPar f).links = s.links := rfl
@[simp] theorem State.modPar_rtvTag (f : ParSt → ParSt) : (s.modPar f).rtvTag = s.rtvTag := rfl
@[simp] theorem State.modPar_fret (f : ParSt → ParSt) : (s.modPar f).fret = s.fret := rfl
@[simp] theorem State.modPar_tab (f : ParSt → ParSt) : (s.modPar f).tab = s.tab := rfl
@[simp] theorem State.modPar_buf (f : ParSt → ParSt) : (s.modPar f).buf = s.buf := rfl
@[simp] theorem State.modPar_sch (f : ParSt → ParSt) : (s.modPar f).sch = s.sch := rfl
@[simp] theorem State.modPar_par (f : ParSt → ParSt) : (s.modPar f).par = f s.par := rfl
@[simp] theorem State.modPar_xlt (f : ParSt → ParSt) : (s.modPar f).xlt = s.xlt := rfl
@[simp] theorem State.modPar_dma (f : ParSt → ParSt) : (s.modPar f).dma = s.dma := rfl
@[simp] theorem State.modPar_flt (f : ParSt → ParSt) : (s.modPar f).flt = s.flt := rfl
@[simp] theorem State.modPar_pwr (f : ParSt → ParSt) : (s.modPar f).pwr = s.pwr := rfl
@[simp] theorem State.modPar_hild (f : ParSt → ParSt) : (s.modPar f).hild = s.hild := rfl
@[simp] theorem State.modPar_sbb (f : ParSt → ParSt) : (s.modPar f).sbb = s.sbb := rfl
@[simp] theorem State.modPar_core (f : ParSt → ParSt) : (s.modPar f).core = s.core := rfl
@[simp] theorem State.modPar_gate (f : ParSt → ParSt) : (s.modPar f).gate = s.gate := rfl
@[simp] theorem State.modPar_boot (f : ParSt → ParSt) : (s.modPar f).boot = s.boot := rfl
@[simp] theorem State.modPar_recd (f : ParSt → ParSt) : (s.modPar f).recd = s.recd := rfl
@[simp] theorem State.modPar_mem (f : ParSt → ParSt) : (s.modPar f).mem = s.mem := rfl

/-! ### `modFlt` -/

@[simp] theorem State.modFlt_pending (f : FltSt → FltSt) : (s.modFlt f).pending = s.pending := rfl
@[simp] theorem State.modFlt_now (f : FltSt → FltSt) : (s.modFlt f).now = s.now := rfl
@[simp] theorem State.modFlt_freeCtr (f : FltSt → FltSt) : (s.modFlt f).freeCtr = s.freeCtr := rfl
@[simp] theorem State.modFlt_fuses (f : FltSt → FltSt) : (s.modFlt f).fuses = s.fuses := rfl
@[simp] theorem State.modFlt_regs (f : FltSt → FltSt) : (s.modFlt f).regs = s.regs := rfl
@[simp] theorem State.modFlt_clock (f : FltSt → FltSt) : (s.modFlt f).clock = s.clock := rfl
@[simp] theorem State.modFlt_lane (f : FltSt → FltSt) : (s.modFlt f).lane = s.lane := rfl
@[simp] theorem State.modFlt_links (f : FltSt → FltSt) : (s.modFlt f).links = s.links := rfl
@[simp] theorem State.modFlt_rtvTag (f : FltSt → FltSt) : (s.modFlt f).rtvTag = s.rtvTag := rfl
@[simp] theorem State.modFlt_fret (f : FltSt → FltSt) : (s.modFlt f).fret = s.fret := rfl
@[simp] theorem State.modFlt_tab (f : FltSt → FltSt) : (s.modFlt f).tab = s.tab := rfl
@[simp] theorem State.modFlt_buf (f : FltSt → FltSt) : (s.modFlt f).buf = s.buf := rfl
@[simp] theorem State.modFlt_sch (f : FltSt → FltSt) : (s.modFlt f).sch = s.sch := rfl
@[simp] theorem State.modFlt_par (f : FltSt → FltSt) : (s.modFlt f).par = s.par := rfl
@[simp] theorem State.modFlt_xlt (f : FltSt → FltSt) : (s.modFlt f).xlt = s.xlt := rfl
@[simp] theorem State.modFlt_dma (f : FltSt → FltSt) : (s.modFlt f).dma = s.dma := rfl
@[simp] theorem State.modFlt_flt (f : FltSt → FltSt) : (s.modFlt f).flt = f s.flt := rfl
@[simp] theorem State.modFlt_pwr (f : FltSt → FltSt) : (s.modFlt f).pwr = s.pwr := rfl
@[simp] theorem State.modFlt_hild (f : FltSt → FltSt) : (s.modFlt f).hild = s.hild := rfl
@[simp] theorem State.modFlt_sbb (f : FltSt → FltSt) : (s.modFlt f).sbb = s.sbb := rfl
@[simp] theorem State.modFlt_core (f : FltSt → FltSt) : (s.modFlt f).core = s.core := rfl
@[simp] theorem State.modFlt_gate (f : FltSt → FltSt) : (s.modFlt f).gate = s.gate := rfl
@[simp] theorem State.modFlt_boot (f : FltSt → FltSt) : (s.modFlt f).boot = s.boot := rfl
@[simp] theorem State.modFlt_recd (f : FltSt → FltSt) : (s.modFlt f).recd = s.recd := rfl
@[simp] theorem State.modFlt_mem (f : FltSt → FltSt) : (s.modFlt f).mem = s.mem := rfl

/-! ### `modBoot` -/

@[simp] theorem State.modBoot_pending (f : BootSt → BootSt) : (s.modBoot f).pending = s.pending := rfl
@[simp] theorem State.modBoot_now (f : BootSt → BootSt) : (s.modBoot f).now = s.now := rfl
@[simp] theorem State.modBoot_freeCtr (f : BootSt → BootSt) : (s.modBoot f).freeCtr = s.freeCtr := rfl
@[simp] theorem State.modBoot_fuses (f : BootSt → BootSt) : (s.modBoot f).fuses = s.fuses := rfl
@[simp] theorem State.modBoot_regs (f : BootSt → BootSt) : (s.modBoot f).regs = s.regs := rfl
@[simp] theorem State.modBoot_clock (f : BootSt → BootSt) : (s.modBoot f).clock = s.clock := rfl
@[simp] theorem State.modBoot_lane (f : BootSt → BootSt) : (s.modBoot f).lane = s.lane := rfl
@[simp] theorem State.modBoot_links (f : BootSt → BootSt) : (s.modBoot f).links = s.links := rfl
@[simp] theorem State.modBoot_rtvTag (f : BootSt → BootSt) : (s.modBoot f).rtvTag = s.rtvTag := rfl
@[simp] theorem State.modBoot_fret (f : BootSt → BootSt) : (s.modBoot f).fret = s.fret := rfl
@[simp] theorem State.modBoot_tab (f : BootSt → BootSt) : (s.modBoot f).tab = s.tab := rfl
@[simp] theorem State.modBoot_buf (f : BootSt → BootSt) : (s.modBoot f).buf = s.buf := rfl
@[simp] theorem State.modBoot_sch (f : BootSt → BootSt) : (s.modBoot f).sch = s.sch := rfl
@[simp] theorem State.modBoot_par (f : BootSt → BootSt) : (s.modBoot f).par = s.par := rfl
@[simp] theorem State.modBoot_xlt (f : BootSt → BootSt) : (s.modBoot f).xlt = s.xlt := rfl
@[simp] theorem State.modBoot_dma (f : BootSt → BootSt) : (s.modBoot f).dma = s.dma := rfl
@[simp] theorem State.modBoot_flt (f : BootSt → BootSt) : (s.modBoot f).flt = s.flt := rfl
@[simp] theorem State.modBoot_pwr (f : BootSt → BootSt) : (s.modBoot f).pwr = s.pwr := rfl
@[simp] theorem State.modBoot_hild (f : BootSt → BootSt) : (s.modBoot f).hild = s.hild := rfl
@[simp] theorem State.modBoot_sbb (f : BootSt → BootSt) : (s.modBoot f).sbb = s.sbb := rfl
@[simp] theorem State.modBoot_core (f : BootSt → BootSt) : (s.modBoot f).core = s.core := rfl
@[simp] theorem State.modBoot_gate (f : BootSt → BootSt) : (s.modBoot f).gate = s.gate := rfl
@[simp] theorem State.modBoot_boot (f : BootSt → BootSt) : (s.modBoot f).boot = f s.boot := rfl
@[simp] theorem State.modBoot_recd (f : BootSt → BootSt) : (s.modBoot f).recd = s.recd := rfl
@[simp] theorem State.modBoot_mem (f : BootSt → BootSt) : (s.modBoot f).mem = s.mem := rfl

/-! ### `modLink` -/

@[simp] theorem State.modLink_pending (d i : Nat) (f : LinkSt → LinkSt) : (s.modLink d i f).pending = s.pending := rfl
@[simp] theorem State.modLink_now (d i : Nat) (f : LinkSt → LinkSt) : (s.modLink d i f).now = s.now := rfl
@[simp] theorem State.modLink_freeCtr (d i : Nat) (f : LinkSt → LinkSt) : (s.modLink d i f).freeCtr = s.freeCtr := rfl
@[simp] theorem State.modLink_fuses (d i : Nat) (f : LinkSt → LinkSt) : (s.modLink d i f).fuses = s.fuses := rfl
@[simp] theorem State.modLink_regs (d i : Nat) (f : LinkSt → LinkSt) : (s.modLink d i f).regs = s.regs := rfl
@[simp] theorem State.modLink_clock (d i : Nat) (f : LinkSt → LinkSt) : (s.modLink d i f).clock = s.clock := rfl
@[simp] theorem State.modLink_lane (d i : Nat) (f : LinkSt → LinkSt) : (s.modLink d i f).lane = s.lane := rfl
@[simp] theorem State.modLink_rtvTag (d i : Nat) (f : LinkSt → LinkSt) : (s.modLink d i f).rtvTag = s.rtvTag := rfl
@[simp] theorem State.modLink_fret (d i : Nat) (f : LinkSt → LinkSt) : (s.modLink d i f).fret = s.fret := rfl
@[simp] theorem State.modLink_tab (d i : Nat) (f : LinkSt → LinkSt) : (s.modLink d i f).tab = s.tab := rfl
@[simp] theorem State.modLink_buf (d i : Nat) (f : LinkSt → LinkSt) : (s.modLink d i f).buf = s.buf := rfl
@[simp] theorem State.modLink_sch (d i : Nat) (f : LinkSt → LinkSt) : (s.modLink d i f).sch = s.sch := rfl
@[simp] theorem State.modLink_par (d i : Nat) (f : LinkSt → LinkSt) : (s.modLink d i f).par = s.par := rfl
@[simp] theorem State.modLink_xlt (d i : Nat) (f : LinkSt → LinkSt) : (s.modLink d i f).xlt = s.xlt := rfl
@[simp] theorem State.modLink_dma (d i : Nat) (f : LinkSt → LinkSt) : (s.modLink d i f).dma = s.dma := rfl
@[simp] theorem State.modLink_flt (d i : Nat) (f : LinkSt → LinkSt) : (s.modLink d i f).flt = s.flt := rfl
@[simp] theorem State.modLink_pwr (d i : Nat) (f : LinkSt → LinkSt) : (s.modLink d i f).pwr = s.pwr := rfl
@[simp] theorem State.modLink_hild (d i : Nat) (f : LinkSt → LinkSt) : (s.modLink d i f).hild = s.hild := rfl
@[simp] theorem State.modLink_sbb (d i : Nat) (f : LinkSt → LinkSt) : (s.modLink d i f).sbb = s.sbb := rfl
@[simp] theorem State.modLink_core (d i : Nat) (f : LinkSt → LinkSt) : (s.modLink d i f).core = s.core := rfl
@[simp] theorem State.modLink_gate (d i : Nat) (f : LinkSt → LinkSt) : (s.modLink d i f).gate = s.gate := rfl
@[simp] theorem State.modLink_boot (d i : Nat) (f : LinkSt → LinkSt) : (s.modLink d i f).boot = s.boot := rfl
@[simp] theorem State.modLink_recd (d i : Nat) (f : LinkSt → LinkSt) : (s.modLink d i f).recd = s.recd := rfl
@[simp] theorem State.modLink_mem (d i : Nat) (f : LinkSt → LinkSt) : (s.modLink d i f).mem = s.mem := rfl

/-! ### `modTabDie` -/

@[simp] theorem State.modTabDie_pending (d : Nat) (f : TabDie → TabDie) : (s.modTabDie d f).pending = s.pending := rfl
@[simp] theorem State.modTabDie_now (d : Nat) (f : TabDie → TabDie) : (s.modTabDie d f).now = s.now := rfl
@[simp] theorem State.modTabDie_freeCtr (d : Nat) (f : TabDie → TabDie) : (s.modTabDie d f).freeCtr = s.freeCtr := rfl
@[simp] theorem State.modTabDie_fuses (d : Nat) (f : TabDie → TabDie) : (s.modTabDie d f).fuses = s.fuses := rfl
@[simp] theorem State.modTabDie_regs (d : Nat) (f : TabDie → TabDie) : (s.modTabDie d f).regs = s.regs := rfl
@[simp] theorem State.modTabDie_clock (d : Nat) (f : TabDie → TabDie) : (s.modTabDie d f).clock = s.clock := rfl
@[simp] theorem State.modTabDie_lane (d : Nat) (f : TabDie → TabDie) : (s.modTabDie d f).lane = s.lane := rfl
@[simp] theorem State.modTabDie_links (d : Nat) (f : TabDie → TabDie) : (s.modTabDie d f).links = s.links := rfl
@[simp] theorem State.modTabDie_rtvTag (d : Nat) (f : TabDie → TabDie) : (s.modTabDie d f).rtvTag = s.rtvTag := rfl
@[simp] theorem State.modTabDie_fret (d : Nat) (f : TabDie → TabDie) : (s.modTabDie d f).fret = s.fret := rfl
@[simp] theorem State.modTabDie_buf (d : Nat) (f : TabDie → TabDie) : (s.modTabDie d f).buf = s.buf := rfl
@[simp] theorem State.modTabDie_sch (d : Nat) (f : TabDie → TabDie) : (s.modTabDie d f).sch = s.sch := rfl
@[simp] theorem State.modTabDie_par (d : Nat) (f : TabDie → TabDie) : (s.modTabDie d f).par = s.par := rfl
@[simp] theorem State.modTabDie_xlt (d : Nat) (f : TabDie → TabDie) : (s.modTabDie d f).xlt = s.xlt := rfl
@[simp] theorem State.modTabDie_dma (d : Nat) (f : TabDie → TabDie) : (s.modTabDie d f).dma = s.dma := rfl
@[simp] theorem State.modTabDie_flt (d : Nat) (f : TabDie → TabDie) : (s.modTabDie d f).flt = s.flt := rfl
@[simp] theorem State.modTabDie_pwr (d : Nat) (f : TabDie → TabDie) : (s.modTabDie d f).pwr = s.pwr := rfl
@[simp] theorem State.modTabDie_hild (d : Nat) (f : TabDie → TabDie) : (s.modTabDie d f).hild = s.hild := rfl
@[simp] theorem State.modTabDie_sbb (d : Nat) (f : TabDie → TabDie) : (s.modTabDie d f).sbb = s.sbb := rfl
@[simp] theorem State.modTabDie_core (d : Nat) (f : TabDie → TabDie) : (s.modTabDie d f).core = s.core := rfl
@[simp] theorem State.modTabDie_gate (d : Nat) (f : TabDie → TabDie) : (s.modTabDie d f).gate = s.gate := rfl
@[simp] theorem State.modTabDie_boot (d : Nat) (f : TabDie → TabDie) : (s.modTabDie d f).boot = s.boot := rfl
@[simp] theorem State.modTabDie_recd (d : Nat) (f : TabDie → TabDie) : (s.modTabDie d f).recd = s.recd := rfl
@[simp] theorem State.modTabDie_mem (d : Nat) (f : TabDie → TabDie) : (s.modTabDie d f).mem = s.mem := rfl

/-! ### `modBufDie` -/

@[simp] theorem State.modBufDie_pending (d : Nat) (f : BufDie → BufDie) : (s.modBufDie d f).pending = s.pending := rfl
@[simp] theorem State.modBufDie_now (d : Nat) (f : BufDie → BufDie) : (s.modBufDie d f).now = s.now := rfl
@[simp] theorem State.modBufDie_freeCtr (d : Nat) (f : BufDie → BufDie) : (s.modBufDie d f).freeCtr = s.freeCtr := rfl
@[simp] theorem State.modBufDie_fuses (d : Nat) (f : BufDie → BufDie) : (s.modBufDie d f).fuses = s.fuses := rfl
@[simp] theorem State.modBufDie_regs (d : Nat) (f : BufDie → BufDie) : (s.modBufDie d f).regs = s.regs := rfl
@[simp] theorem State.modBufDie_clock (d : Nat) (f : BufDie → BufDie) : (s.modBufDie d f).clock = s.clock := rfl
@[simp] theorem State.modBufDie_lane (d : Nat) (f : BufDie → BufDie) : (s.modBufDie d f).lane = s.lane := rfl
@[simp] theorem State.modBufDie_links (d : Nat) (f : BufDie → BufDie) : (s.modBufDie d f).links = s.links := rfl
@[simp] theorem State.modBufDie_rtvTag (d : Nat) (f : BufDie → BufDie) : (s.modBufDie d f).rtvTag = s.rtvTag := rfl
@[simp] theorem State.modBufDie_fret (d : Nat) (f : BufDie → BufDie) : (s.modBufDie d f).fret = s.fret := rfl
@[simp] theorem State.modBufDie_tab (d : Nat) (f : BufDie → BufDie) : (s.modBufDie d f).tab = s.tab := rfl
@[simp] theorem State.modBufDie_sch (d : Nat) (f : BufDie → BufDie) : (s.modBufDie d f).sch = s.sch := rfl
@[simp] theorem State.modBufDie_par (d : Nat) (f : BufDie → BufDie) : (s.modBufDie d f).par = s.par := rfl
@[simp] theorem State.modBufDie_xlt (d : Nat) (f : BufDie → BufDie) : (s.modBufDie d f).xlt = s.xlt := rfl
@[simp] theorem State.modBufDie_dma (d : Nat) (f : BufDie → BufDie) : (s.modBufDie d f).dma = s.dma := rfl
@[simp] theorem State.modBufDie_flt (d : Nat) (f : BufDie → BufDie) : (s.modBufDie d f).flt = s.flt := rfl
@[simp] theorem State.modBufDie_pwr (d : Nat) (f : BufDie → BufDie) : (s.modBufDie d f).pwr = s.pwr := rfl
@[simp] theorem State.modBufDie_hild (d : Nat) (f : BufDie → BufDie) : (s.modBufDie d f).hild = s.hild := rfl
@[simp] theorem State.modBufDie_sbb (d : Nat) (f : BufDie → BufDie) : (s.modBufDie d f).sbb = s.sbb := rfl
@[simp] theorem State.modBufDie_core (d : Nat) (f : BufDie → BufDie) : (s.modBufDie d f).core = s.core := rfl
@[simp] theorem State.modBufDie_gate (d : Nat) (f : BufDie → BufDie) : (s.modBufDie d f).gate = s.gate := rfl
@[simp] theorem State.modBufDie_boot (d : Nat) (f : BufDie → BufDie) : (s.modBufDie d f).boot = s.boot := rfl
@[simp] theorem State.modBufDie_recd (d : Nat) (f : BufDie → BufDie) : (s.modBufDie d f).recd = s.recd := rfl
@[simp] theorem State.modBufDie_mem (d : Nat) (f : BufDie → BufDie) : (s.modBufDie d f).mem = s.mem := rfl

/-! ### `modXltDie` -/

@[simp] theorem State.modXltDie_pending (d : Nat) (f : XltDie → XltDie) : (s.modXltDie d f).pending = s.pending := rfl
@[simp] theorem State.modXltDie_now (d : Nat) (f : XltDie → XltDie) : (s.modXltDie d f).now = s.now := rfl
@[simp] theorem State.modXltDie_freeCtr (d : Nat) (f : XltDie → XltDie) : (s.modXltDie d f).freeCtr = s.freeCtr := rfl
@[simp] theorem State.modXltDie_fuses (d : Nat) (f : XltDie → XltDie) : (s.modXltDie d f).fuses = s.fuses := rfl
@[simp] theorem State.modXltDie_regs (d : Nat) (f : XltDie → XltDie) : (s.modXltDie d f).regs = s.regs := rfl
@[simp] theorem State.modXltDie_clock (d : Nat) (f : XltDie → XltDie) : (s.modXltDie d f).clock = s.clock := rfl
@[simp] theorem State.modXltDie_lane (d : Nat) (f : XltDie → XltDie) : (s.modXltDie d f).lane = s.lane := rfl
@[simp] theorem State.modXltDie_links (d : Nat) (f : XltDie → XltDie) : (s.modXltDie d f).links = s.links := rfl
@[simp] theorem State.modXltDie_rtvTag (d : Nat) (f : XltDie → XltDie) : (s.modXltDie d f).rtvTag = s.rtvTag := rfl
@[simp] theorem State.modXltDie_fret (d : Nat) (f : XltDie → XltDie) : (s.modXltDie d f).fret = s.fret := rfl
@[simp] theorem State.modXltDie_tab (d : Nat) (f : XltDie → XltDie) : (s.modXltDie d f).tab = s.tab := rfl
@[simp] theorem State.modXltDie_buf (d : Nat) (f : XltDie → XltDie) : (s.modXltDie d f).buf = s.buf := rfl
@[simp] theorem State.modXltDie_sch (d : Nat) (f : XltDie → XltDie) : (s.modXltDie d f).sch = s.sch := rfl
@[simp] theorem State.modXltDie_par (d : Nat) (f : XltDie → XltDie) : (s.modXltDie d f).par = s.par := rfl
@[simp] theorem State.modXltDie_dma (d : Nat) (f : XltDie → XltDie) : (s.modXltDie d f).dma = s.dma := rfl
@[simp] theorem State.modXltDie_flt (d : Nat) (f : XltDie → XltDie) : (s.modXltDie d f).flt = s.flt := rfl
@[simp] theorem State.modXltDie_pwr (d : Nat) (f : XltDie → XltDie) : (s.modXltDie d f).pwr = s.pwr := rfl
@[simp] theorem State.modXltDie_hild (d : Nat) (f : XltDie → XltDie) : (s.modXltDie d f).hild = s.hild := rfl
@[simp] theorem State.modXltDie_sbb (d : Nat) (f : XltDie → XltDie) : (s.modXltDie d f).sbb = s.sbb := rfl
@[simp] theorem State.modXltDie_core (d : Nat) (f : XltDie → XltDie) : (s.modXltDie d f).core = s.core := rfl
@[simp] theorem State.modXltDie_gate (d : Nat) (f : XltDie → XltDie) : (s.modXltDie d f).gate = s.gate := rfl
@[simp] theorem State.modXltDie_boot (d : Nat) (f : XltDie → XltDie) : (s.modXltDie d f).boot = s.boot := rfl
@[simp] theorem State.modXltDie_recd (d : Nat) (f : XltDie → XltDie) : (s.modXltDie d f).recd = s.recd := rfl
@[simp] theorem State.modXltDie_mem (d : Nat) (f : XltDie → XltDie) : (s.modXltDie d f).mem = s.mem := rfl

/-! ### `modChan` -/

@[simp] theorem State.modChan_pending (d c : Nat) (f : ChanSt → ChanSt) : (s.modChan d c f).pending = s.pending := rfl
@[simp] theorem State.modChan_now (d c : Nat) (f : ChanSt → ChanSt) : (s.modChan d c f).now = s.now := rfl
@[simp] theorem State.modChan_freeCtr (d c : Nat) (f : ChanSt → ChanSt) : (s.modChan d c f).freeCtr = s.freeCtr := rfl
@[simp] theorem State.modChan_fuses (d c : Nat) (f : ChanSt → ChanSt) : (s.modChan d c f).fuses = s.fuses := rfl
@[simp] theorem State.modChan_regs (d c : Nat) (f : ChanSt → ChanSt) : (s.modChan d c f).regs = s.regs := rfl
@[simp] theorem State.modChan_clock (d c : Nat) (f : ChanSt → ChanSt) : (s.modChan d c f).clock = s.clock := rfl
@[simp] theorem State.modChan_lane (d c : Nat) (f : ChanSt → ChanSt) : (s.modChan d c f).lane = s.lane := rfl
@[simp] theorem State.modChan_links (d c : Nat) (f : ChanSt → ChanSt) : (s.modChan d c f).links = s.links := rfl
@[simp] theorem State.modChan_rtvTag (d c : Nat) (f : ChanSt → ChanSt) : (s.modChan d c f).rtvTag = s.rtvTag := rfl
@[simp] theorem State.modChan_fret (d c : Nat) (f : ChanSt → ChanSt) : (s.modChan d c f).fret = s.fret := rfl
@[simp] theorem State.modChan_tab (d c : Nat) (f : ChanSt → ChanSt) : (s.modChan d c f).tab = s.tab := rfl
@[simp] theorem State.modChan_buf (d c : Nat) (f : ChanSt → ChanSt) : (s.modChan d c f).buf = s.buf := rfl
@[simp] theorem State.modChan_sch (d c : Nat) (f : ChanSt → ChanSt) : (s.modChan d c f).sch = s.sch := rfl
@[simp] theorem State.modChan_par (d c : Nat) (f : ChanSt → ChanSt) : (s.modChan d c f).par = s.par := rfl
@[simp] theorem State.modChan_xlt (d c : Nat) (f : ChanSt → ChanSt) : (s.modChan d c f).xlt = s.xlt := rfl
@[simp] theorem State.modChan_flt (d c : Nat) (f : ChanSt → ChanSt) : (s.modChan d c f).flt = s.flt := rfl
@[simp] theorem State.modChan_pwr (d c : Nat) (f : ChanSt → ChanSt) : (s.modChan d c f).pwr = s.pwr := rfl
@[simp] theorem State.modChan_hild (d c : Nat) (f : ChanSt → ChanSt) : (s.modChan d c f).hild = s.hild := rfl
@[simp] theorem State.modChan_sbb (d c : Nat) (f : ChanSt → ChanSt) : (s.modChan d c f).sbb = s.sbb := rfl
@[simp] theorem State.modChan_core (d c : Nat) (f : ChanSt → ChanSt) : (s.modChan d c f).core = s.core := rfl
@[simp] theorem State.modChan_gate (d c : Nat) (f : ChanSt → ChanSt) : (s.modChan d c f).gate = s.gate := rfl
@[simp] theorem State.modChan_boot (d c : Nat) (f : ChanSt → ChanSt) : (s.modChan d c f).boot = s.boot := rfl
@[simp] theorem State.modChan_recd (d c : Nat) (f : ChanSt → ChanSt) : (s.modChan d c f).recd = s.recd := rfl
@[simp] theorem State.modChan_mem (d c : Nat) (f : ChanSt → ChanSt) : (s.modChan d c f).mem = s.mem := rfl

/-! ### `modFlow` -/

@[simp] theorem State.modFlow_pending (n : Nat) (f : FlowSt → FlowSt) : (s.modFlow n f).pending = s.pending := rfl
@[simp] theorem State.modFlow_now (n : Nat) (f : FlowSt → FlowSt) : (s.modFlow n f).now = s.now := rfl
@[simp] theorem State.modFlow_freeCtr (n : Nat) (f : FlowSt → FlowSt) : (s.modFlow n f).freeCtr = s.freeCtr := rfl
@[simp] theorem State.modFlow_fuses (n : Nat) (f : FlowSt → FlowSt) : (s.modFlow n f).fuses = s.fuses := rfl
@[simp] theorem State.modFlow_regs (n : Nat) (f : FlowSt → FlowSt) : (s.modFlow n f).regs = s.regs := rfl
@[simp] theorem State.modFlow_clock (n : Nat) (f : FlowSt → FlowSt) : (s.modFlow n f).clock = s.clock := rfl
@[simp] theorem State.modFlow_lane (n : Nat) (f : FlowSt → FlowSt) : (s.modFlow n f).lane = s.lane := rfl
@[simp] theorem State.modFlow_links (n : Nat) (f : FlowSt → FlowSt) : (s.modFlow n f).links = s.links := rfl
@[simp] theorem State.modFlow_rtvTag (n : Nat) (f : FlowSt → FlowSt) : (s.modFlow n f).rtvTag = s.rtvTag := rfl
@[simp] theorem State.modFlow_fret (n : Nat) (f : FlowSt → FlowSt) : (s.modFlow n f).fret = s.fret := rfl
@[simp] theorem State.modFlow_tab (n : Nat) (f : FlowSt → FlowSt) : (s.modFlow n f).tab = s.tab := rfl
@[simp] theorem State.modFlow_buf (n : Nat) (f : FlowSt → FlowSt) : (s.modFlow n f).buf = s.buf := rfl
@[simp] theorem State.modFlow_par (n : Nat) (f : FlowSt → FlowSt) : (s.modFlow n f).par = s.par := rfl
@[simp] theorem State.modFlow_xlt (n : Nat) (f : FlowSt → FlowSt) : (s.modFlow n f).xlt = s.xlt := rfl
@[simp] theorem State.modFlow_dma (n : Nat) (f : FlowSt → FlowSt) : (s.modFlow n f).dma = s.dma := rfl
@[simp] theorem State.modFlow_flt (n : Nat) (f : FlowSt → FlowSt) : (s.modFlow n f).flt = s.flt := rfl
@[simp] theorem State.modFlow_pwr (n : Nat) (f : FlowSt → FlowSt) : (s.modFlow n f).pwr = s.pwr := rfl
@[simp] theorem State.modFlow_hild (n : Nat) (f : FlowSt → FlowSt) : (s.modFlow n f).hild = s.hild := rfl
@[simp] theorem State.modFlow_sbb (n : Nat) (f : FlowSt → FlowSt) : (s.modFlow n f).sbb = s.sbb := rfl
@[simp] theorem State.modFlow_core (n : Nat) (f : FlowSt → FlowSt) : (s.modFlow n f).core = s.core := rfl
@[simp] theorem State.modFlow_gate (n : Nat) (f : FlowSt → FlowSt) : (s.modFlow n f).gate = s.gate := rfl
@[simp] theorem State.modFlow_boot (n : Nat) (f : FlowSt → FlowSt) : (s.modFlow n f).boot = s.boot := rfl
@[simp] theorem State.modFlow_recd (n : Nat) (f : FlowSt → FlowSt) : (s.modFlow n f).recd = s.recd := rfl
@[simp] theorem State.modFlow_mem (n : Nat) (f : FlowSt → FlowSt) : (s.modFlow n f).mem = s.mem := rfl

/-! ### `modFace` -/

@[simp] theorem State.modFace_pending (n i : Nat) (f : FaceSt → FaceSt) : (s.modFace n i f).pending = s.pending := rfl
@[simp] theorem State.modFace_now (n i : Nat) (f : FaceSt → FaceSt) : (s.modFace n i f).now = s.now := rfl
@[simp] theorem State.modFace_freeCtr (n i : Nat) (f : FaceSt → FaceSt) : (s.modFace n i f).freeCtr = s.freeCtr := rfl
@[simp] theorem State.modFace_fuses (n i : Nat) (f : FaceSt → FaceSt) : (s.modFace n i f).fuses = s.fuses := rfl
@[simp] theorem State.modFace_regs (n i : Nat) (f : FaceSt → FaceSt) : (s.modFace n i f).regs = s.regs := rfl
@[simp] theorem State.modFace_clock (n i : Nat) (f : FaceSt → FaceSt) : (s.modFace n i f).clock = s.clock := rfl
@[simp] theorem State.modFace_lane (n i : Nat) (f : FaceSt → FaceSt) : (s.modFace n i f).lane = s.lane := rfl
@[simp] theorem State.modFace_links (n i : Nat) (f : FaceSt → FaceSt) : (s.modFace n i f).links = s.links := rfl
@[simp] theorem State.modFace_rtvTag (n i : Nat) (f : FaceSt → FaceSt) : (s.modFace n i f).rtvTag = s.rtvTag := rfl
@[simp] theorem State.modFace_fret (n i : Nat) (f : FaceSt → FaceSt) : (s.modFace n i f).fret = s.fret := rfl
@[simp] theorem State.modFace_tab (n i : Nat) (f : FaceSt → FaceSt) : (s.modFace n i f).tab = s.tab := rfl
@[simp] theorem State.modFace_buf (n i : Nat) (f : FaceSt → FaceSt) : (s.modFace n i f).buf = s.buf := rfl
@[simp] theorem State.modFace_sch (n i : Nat) (f : FaceSt → FaceSt) : (s.modFace n i f).sch = s.sch := rfl
@[simp] theorem State.modFace_xlt (n i : Nat) (f : FaceSt → FaceSt) : (s.modFace n i f).xlt = s.xlt := rfl
@[simp] theorem State.modFace_dma (n i : Nat) (f : FaceSt → FaceSt) : (s.modFace n i f).dma = s.dma := rfl
@[simp] theorem State.modFace_flt (n i : Nat) (f : FaceSt → FaceSt) : (s.modFace n i f).flt = s.flt := rfl
@[simp] theorem State.modFace_pwr (n i : Nat) (f : FaceSt → FaceSt) : (s.modFace n i f).pwr = s.pwr := rfl
@[simp] theorem State.modFace_hild (n i : Nat) (f : FaceSt → FaceSt) : (s.modFace n i f).hild = s.hild := rfl
@[simp] theorem State.modFace_sbb (n i : Nat) (f : FaceSt → FaceSt) : (s.modFace n i f).sbb = s.sbb := rfl
@[simp] theorem State.modFace_core (n i : Nat) (f : FaceSt → FaceSt) : (s.modFace n i f).core = s.core := rfl
@[simp] theorem State.modFace_gate (n i : Nat) (f : FaceSt → FaceSt) : (s.modFace n i f).gate = s.gate := rfl
@[simp] theorem State.modFace_boot (n i : Nat) (f : FaceSt → FaceSt) : (s.modFace n i f).boot = s.boot := rfl
@[simp] theorem State.modFace_recd (n i : Nat) (f : FaceSt → FaceSt) : (s.modFace n i f).recd = s.recd := rfl
@[simp] theorem State.modFace_mem (n i : Nat) (f : FaceSt → FaceSt) : (s.modFace n i f).mem = s.mem := rfl

/-! ### `modVport` -/

@[simp] theorem State.modVport_pending (n k : Nat) (f : VpSt → VpSt) : (s.modVport n k f).pending = s.pending := rfl
@[simp] theorem State.modVport_now (n k : Nat) (f : VpSt → VpSt) : (s.modVport n k f).now = s.now := rfl
@[simp] theorem State.modVport_freeCtr (n k : Nat) (f : VpSt → VpSt) : (s.modVport n k f).freeCtr = s.freeCtr := rfl
@[simp] theorem State.modVport_fuses (n k : Nat) (f : VpSt → VpSt) : (s.modVport n k f).fuses = s.fuses := rfl
@[simp] theorem State.modVport_regs (n k : Nat) (f : VpSt → VpSt) : (s.modVport n k f).regs = s.regs := rfl
@[simp] theorem State.modVport_clock (n k : Nat) (f : VpSt → VpSt) : (s.modVport n k f).clock = s.clock := rfl
@[simp] theorem State.modVport_lane (n k : Nat) (f : VpSt → VpSt) : (s.modVport n k f).lane = s.lane := rfl
@[simp] theorem State.modVport_links (n k : Nat) (f : VpSt → VpSt) : (s.modVport n k f).links = s.links := rfl
@[simp] theorem State.modVport_rtvTag (n k : Nat) (f : VpSt → VpSt) : (s.modVport n k f).rtvTag = s.rtvTag := rfl
@[simp] theorem State.modVport_fret (n k : Nat) (f : VpSt → VpSt) : (s.modVport n k f).fret = s.fret := rfl
@[simp] theorem State.modVport_tab (n k : Nat) (f : VpSt → VpSt) : (s.modVport n k f).tab = s.tab := rfl
@[simp] theorem State.modVport_buf (n k : Nat) (f : VpSt → VpSt) : (s.modVport n k f).buf = s.buf := rfl
@[simp] theorem State.modVport_sch (n k : Nat) (f : VpSt → VpSt) : (s.modVport n k f).sch = s.sch := rfl
@[simp] theorem State.modVport_xlt (n k : Nat) (f : VpSt → VpSt) : (s.modVport n k f).xlt = s.xlt := rfl
@[simp] theorem State.modVport_dma (n k : Nat) (f : VpSt → VpSt) : (s.modVport n k f).dma = s.dma := rfl
@[simp] theorem State.modVport_flt (n k : Nat) (f : VpSt → VpSt) : (s.modVport n k f).flt = s.flt := rfl
@[simp] theorem State.modVport_pwr (n k : Nat) (f : VpSt → VpSt) : (s.modVport n k f).pwr = s.pwr := rfl
@[simp] theorem State.modVport_hild (n k : Nat) (f : VpSt → VpSt) : (s.modVport n k f).hild = s.hild := rfl
@[simp] theorem State.modVport_sbb (n k : Nat) (f : VpSt → VpSt) : (s.modVport n k f).sbb = s.sbb := rfl
@[simp] theorem State.modVport_core (n k : Nat) (f : VpSt → VpSt) : (s.modVport n k f).core = s.core := rfl
@[simp] theorem State.modVport_gate (n k : Nat) (f : VpSt → VpSt) : (s.modVport n k f).gate = s.gate := rfl
@[simp] theorem State.modVport_boot (n k : Nat) (f : VpSt → VpSt) : (s.modVport n k f).boot = s.boot := rfl
@[simp] theorem State.modVport_recd (n k : Nat) (f : VpSt → VpSt) : (s.modVport n k f).recd = s.recd := rfl
@[simp] theorem State.modVport_mem (n k : Nat) (f : VpSt → VpSt) : (s.modVport n k f).mem = s.mem := rfl

/-! ### `modCore` -/

@[simp] theorem State.modCore_pending (d : Nat) (f : CoreDie → CoreDie) : (s.modCore d f).pending = s.pending := rfl
@[simp] theorem State.modCore_now (d : Nat) (f : CoreDie → CoreDie) : (s.modCore d f).now = s.now := rfl
@[simp] theorem State.modCore_freeCtr (d : Nat) (f : CoreDie → CoreDie) : (s.modCore d f).freeCtr = s.freeCtr := rfl
@[simp] theorem State.modCore_fuses (d : Nat) (f : CoreDie → CoreDie) : (s.modCore d f).fuses = s.fuses := rfl
@[simp] theorem State.modCore_regs (d : Nat) (f : CoreDie → CoreDie) : (s.modCore d f).regs = s.regs := rfl
@[simp] theorem State.modCore_clock (d : Nat) (f : CoreDie → CoreDie) : (s.modCore d f).clock = s.clock := rfl
@[simp] theorem State.modCore_lane (d : Nat) (f : CoreDie → CoreDie) : (s.modCore d f).lane = s.lane := rfl
@[simp] theorem State.modCore_links (d : Nat) (f : CoreDie → CoreDie) : (s.modCore d f).links = s.links := rfl
@[simp] theorem State.modCore_rtvTag (d : Nat) (f : CoreDie → CoreDie) : (s.modCore d f).rtvTag = s.rtvTag := rfl
@[simp] theorem State.modCore_fret (d : Nat) (f : CoreDie → CoreDie) : (s.modCore d f).fret = s.fret := rfl
@[simp] theorem State.modCore_tab (d : Nat) (f : CoreDie → CoreDie) : (s.modCore d f).tab = s.tab := rfl
@[simp] theorem State.modCore_buf (d : Nat) (f : CoreDie → CoreDie) : (s.modCore d f).buf = s.buf := rfl
@[simp] theorem State.modCore_sch (d : Nat) (f : CoreDie → CoreDie) : (s.modCore d f).sch = s.sch := rfl
@[simp] theorem State.modCore_par (d : Nat) (f : CoreDie → CoreDie) : (s.modCore d f).par = s.par := rfl
@[simp] theorem State.modCore_xlt (d : Nat) (f : CoreDie → CoreDie) : (s.modCore d f).xlt = s.xlt := rfl
@[simp] theorem State.modCore_dma (d : Nat) (f : CoreDie → CoreDie) : (s.modCore d f).dma = s.dma := rfl
@[simp] theorem State.modCore_flt (d : Nat) (f : CoreDie → CoreDie) : (s.modCore d f).flt = s.flt := rfl
@[simp] theorem State.modCore_pwr (d : Nat) (f : CoreDie → CoreDie) : (s.modCore d f).pwr = s.pwr := rfl
@[simp] theorem State.modCore_hild (d : Nat) (f : CoreDie → CoreDie) : (s.modCore d f).hild = s.hild := rfl
@[simp] theorem State.modCore_sbb (d : Nat) (f : CoreDie → CoreDie) : (s.modCore d f).sbb = s.sbb := rfl
@[simp] theorem State.modCore_gate (d : Nat) (f : CoreDie → CoreDie) : (s.modCore d f).gate = s.gate := rfl
@[simp] theorem State.modCore_boot (d : Nat) (f : CoreDie → CoreDie) : (s.modCore d f).boot = s.boot := rfl
@[simp] theorem State.modCore_recd (d : Nat) (f : CoreDie → CoreDie) : (s.modCore d f).recd = s.recd := rfl
@[simp] theorem State.modCore_mem (d : Nat) (f : CoreDie → CoreDie) : (s.modCore d f).mem = s.mem := rfl

/-! ### `modHart` -/

@[simp] theorem State.modHart_pending (d h : Nat) (f : Hart → Hart) : (s.modHart d h f).pending = s.pending := rfl
@[simp] theorem State.modHart_now (d h : Nat) (f : Hart → Hart) : (s.modHart d h f).now = s.now := rfl
@[simp] theorem State.modHart_freeCtr (d h : Nat) (f : Hart → Hart) : (s.modHart d h f).freeCtr = s.freeCtr := rfl
@[simp] theorem State.modHart_fuses (d h : Nat) (f : Hart → Hart) : (s.modHart d h f).fuses = s.fuses := rfl
@[simp] theorem State.modHart_regs (d h : Nat) (f : Hart → Hart) : (s.modHart d h f).regs = s.regs := rfl
@[simp] theorem State.modHart_clock (d h : Nat) (f : Hart → Hart) : (s.modHart d h f).clock = s.clock := rfl
@[simp] theorem State.modHart_lane (d h : Nat) (f : Hart → Hart) : (s.modHart d h f).lane = s.lane := rfl
@[simp] theorem State.modHart_links (d h : Nat) (f : Hart → Hart) : (s.modHart d h f).links = s.links := rfl
@[simp] theorem State.modHart_rtvTag (d h : Nat) (f : Hart → Hart) : (s.modHart d h f).rtvTag = s.rtvTag := rfl
@[simp] theorem State.modHart_fret (d h : Nat) (f : Hart → Hart) : (s.modHart d h f).fret = s.fret := rfl
@[simp] theorem State.modHart_tab (d h : Nat) (f : Hart → Hart) : (s.modHart d h f).tab = s.tab := rfl
@[simp] theorem State.modHart_buf (d h : Nat) (f : Hart → Hart) : (s.modHart d h f).buf = s.buf := rfl
@[simp] theorem State.modHart_sch (d h : Nat) (f : Hart → Hart) : (s.modHart d h f).sch = s.sch := rfl
@[simp] theorem State.modHart_par (d h : Nat) (f : Hart → Hart) : (s.modHart d h f).par = s.par := rfl
@[simp] theorem State.modHart_xlt (d h : Nat) (f : Hart → Hart) : (s.modHart d h f).xlt = s.xlt := rfl
@[simp] theorem State.modHart_dma (d h : Nat) (f : Hart → Hart) : (s.modHart d h f).dma = s.dma := rfl
@[simp] theorem State.modHart_flt (d h : Nat) (f : Hart → Hart) : (s.modHart d h f).flt = s.flt := rfl
@[simp] theorem State.modHart_pwr (d h : Nat) (f : Hart → Hart) : (s.modHart d h f).pwr = s.pwr := rfl
@[simp] theorem State.modHart_hild (d h : Nat) (f : Hart → Hart) : (s.modHart d h f).hild = s.hild := rfl
@[simp] theorem State.modHart_sbb (d h : Nat) (f : Hart → Hart) : (s.modHart d h f).sbb = s.sbb := rfl
@[simp] theorem State.modHart_gate (d h : Nat) (f : Hart → Hart) : (s.modHart d h f).gate = s.gate := rfl
@[simp] theorem State.modHart_boot (d h : Nat) (f : Hart → Hart) : (s.modHart d h f).boot = s.boot := rfl
@[simp] theorem State.modHart_recd (d h : Nat) (f : Hart → Hart) : (s.modHart d h f).recd = s.recd := rfl
@[simp] theorem State.modHart_mem (d h : Nat) (f : Hart → Hart) : (s.modHart d h f).mem = s.mem := rfl

/-! ### `modRec` -/

@[simp] theorem State.modRec_pending (d : Nat) (f : RecDie → RecDie) : (s.modRec d f).pending = s.pending := rfl
@[simp] theorem State.modRec_now (d : Nat) (f : RecDie → RecDie) : (s.modRec d f).now = s.now := rfl
@[simp] theorem State.modRec_freeCtr (d : Nat) (f : RecDie → RecDie) : (s.modRec d f).freeCtr = s.freeCtr := rfl
@[simp] theorem State.modRec_fuses (d : Nat) (f : RecDie → RecDie) : (s.modRec d f).fuses = s.fuses := rfl
@[simp] theorem State.modRec_regs (d : Nat) (f : RecDie → RecDie) : (s.modRec d f).regs = s.regs := rfl
@[simp] theorem State.modRec_clock (d : Nat) (f : RecDie → RecDie) : (s.modRec d f).clock = s.clock := rfl
@[simp] theorem State.modRec_lane (d : Nat) (f : RecDie → RecDie) : (s.modRec d f).lane = s.lane := rfl
@[simp] theorem State.modRec_links (d : Nat) (f : RecDie → RecDie) : (s.modRec d f).links = s.links := rfl
@[simp] theorem State.modRec_rtvTag (d : Nat) (f : RecDie → RecDie) : (s.modRec d f).rtvTag = s.rtvTag := rfl
@[simp] theorem State.modRec_fret (d : Nat) (f : RecDie → RecDie) : (s.modRec d f).fret = s.fret := rfl
@[simp] theorem State.modRec_tab (d : Nat) (f : RecDie → RecDie) : (s.modRec d f).tab = s.tab := rfl
@[simp] theorem State.modRec_buf (d : Nat) (f : RecDie → RecDie) : (s.modRec d f).buf = s.buf := rfl
@[simp] theorem State.modRec_sch (d : Nat) (f : RecDie → RecDie) : (s.modRec d f).sch = s.sch := rfl
@[simp] theorem State.modRec_par (d : Nat) (f : RecDie → RecDie) : (s.modRec d f).par = s.par := rfl
@[simp] theorem State.modRec_xlt (d : Nat) (f : RecDie → RecDie) : (s.modRec d f).xlt = s.xlt := rfl
@[simp] theorem State.modRec_dma (d : Nat) (f : RecDie → RecDie) : (s.modRec d f).dma = s.dma := rfl
@[simp] theorem State.modRec_flt (d : Nat) (f : RecDie → RecDie) : (s.modRec d f).flt = s.flt := rfl
@[simp] theorem State.modRec_pwr (d : Nat) (f : RecDie → RecDie) : (s.modRec d f).pwr = s.pwr := rfl
@[simp] theorem State.modRec_hild (d : Nat) (f : RecDie → RecDie) : (s.modRec d f).hild = s.hild := rfl
@[simp] theorem State.modRec_sbb (d : Nat) (f : RecDie → RecDie) : (s.modRec d f).sbb = s.sbb := rfl
@[simp] theorem State.modRec_core (d : Nat) (f : RecDie → RecDie) : (s.modRec d f).core = s.core := rfl
@[simp] theorem State.modRec_gate (d : Nat) (f : RecDie → RecDie) : (s.modRec d f).gate = s.gate := rfl
@[simp] theorem State.modRec_boot (d : Nat) (f : RecDie → RecDie) : (s.modRec d f).boot = s.boot := rfl
@[simp] theorem State.modRec_mem (d : Nat) (f : RecDie → RecDie) : (s.modRec d f).mem = s.mem := rfl

/-! ### `modSched` -/

@[simp] theorem State.modSched_pending (g : Nat) (f : SchedSt → SchedSt) : (s.modSched g f).pending = s.pending := rfl
@[simp] theorem State.modSched_now (g : Nat) (f : SchedSt → SchedSt) : (s.modSched g f).now = s.now := rfl
@[simp] theorem State.modSched_freeCtr (g : Nat) (f : SchedSt → SchedSt) : (s.modSched g f).freeCtr = s.freeCtr := rfl
@[simp] theorem State.modSched_fuses (g : Nat) (f : SchedSt → SchedSt) : (s.modSched g f).fuses = s.fuses := rfl
@[simp] theorem State.modSched_regs (g : Nat) (f : SchedSt → SchedSt) : (s.modSched g f).regs = s.regs := rfl
@[simp] theorem State.modSched_clock (g : Nat) (f : SchedSt → SchedSt) : (s.modSched g f).clock = s.clock := rfl
@[simp] theorem State.modSched_lane (g : Nat) (f : SchedSt → SchedSt) : (s.modSched g f).lane = s.lane := rfl
@[simp] theorem State.modSched_links (g : Nat) (f : SchedSt → SchedSt) : (s.modSched g f).links = s.links := rfl
@[simp] theorem State.modSched_rtvTag (g : Nat) (f : SchedSt → SchedSt) : (s.modSched g f).rtvTag = s.rtvTag := rfl
@[simp] theorem State.modSched_fret (g : Nat) (f : SchedSt → SchedSt) : (s.modSched g f).fret = s.fret := rfl
@[simp] theorem State.modSched_tab (g : Nat) (f : SchedSt → SchedSt) : (s.modSched g f).tab = s.tab := rfl
@[simp] theorem State.modSched_buf (g : Nat) (f : SchedSt → SchedSt) : (s.modSched g f).buf = s.buf := rfl
@[simp] theorem State.modSched_par (g : Nat) (f : SchedSt → SchedSt) : (s.modSched g f).par = s.par := rfl
@[simp] theorem State.modSched_xlt (g : Nat) (f : SchedSt → SchedSt) : (s.modSched g f).xlt = s.xlt := rfl
@[simp] theorem State.modSched_dma (g : Nat) (f : SchedSt → SchedSt) : (s.modSched g f).dma = s.dma := rfl
@[simp] theorem State.modSched_flt (g : Nat) (f : SchedSt → SchedSt) : (s.modSched g f).flt = s.flt := rfl
@[simp] theorem State.modSched_pwr (g : Nat) (f : SchedSt → SchedSt) : (s.modSched g f).pwr = s.pwr := rfl
@[simp] theorem State.modSched_hild (g : Nat) (f : SchedSt → SchedSt) : (s.modSched g f).hild = s.hild := rfl
@[simp] theorem State.modSched_sbb (g : Nat) (f : SchedSt → SchedSt) : (s.modSched g f).sbb = s.sbb := rfl
@[simp] theorem State.modSched_core (g : Nat) (f : SchedSt → SchedSt) : (s.modSched g f).core = s.core := rfl
@[simp] theorem State.modSched_gate (g : Nat) (f : SchedSt → SchedSt) : (s.modSched g f).gate = s.gate := rfl
@[simp] theorem State.modSched_boot (g : Nat) (f : SchedSt → SchedSt) : (s.modSched g f).boot = s.boot := rfl
@[simp] theorem State.modSched_recd (g : Nat) (f : SchedSt → SchedSt) : (s.modSched g f).recd = s.recd := rfl
@[simp] theorem State.modSched_mem (g : Nat) (f : SchedSt → SchedSt) : (s.modSched g f).mem = s.mem := rfl

/-! ### `modSeg` -/

@[simp] theorem State.modSeg_pending (d i : Nat) (f : SegSt → SegSt) : (s.modSeg d i f).pending = s.pending := rfl
@[simp] theorem State.modSeg_now (d i : Nat) (f : SegSt → SegSt) : (s.modSeg d i f).now = s.now := rfl
@[simp] theorem State.modSeg_freeCtr (d i : Nat) (f : SegSt → SegSt) : (s.modSeg d i f).freeCtr = s.freeCtr := rfl
@[simp] theorem State.modSeg_fuses (d i : Nat) (f : SegSt → SegSt) : (s.modSeg d i f).fuses = s.fuses := rfl
@[simp] theorem State.modSeg_regs (d i : Nat) (f : SegSt → SegSt) : (s.modSeg d i f).regs = s.regs := rfl
@[simp] theorem State.modSeg_clock (d i : Nat) (f : SegSt → SegSt) : (s.modSeg d i f).clock = s.clock := rfl
@[simp] theorem State.modSeg_lane (d i : Nat) (f : SegSt → SegSt) : (s.modSeg d i f).lane = s.lane := rfl
@[simp] theorem State.modSeg_links (d i : Nat) (f : SegSt → SegSt) : (s.modSeg d i f).links = s.links := rfl
@[simp] theorem State.modSeg_rtvTag (d i : Nat) (f : SegSt → SegSt) : (s.modSeg d i f).rtvTag = s.rtvTag := rfl
@[simp] theorem State.modSeg_fret (d i : Nat) (f : SegSt → SegSt) : (s.modSeg d i f).fret = s.fret := rfl
@[simp] theorem State.modSeg_tab (d i : Nat) (f : SegSt → SegSt) : (s.modSeg d i f).tab = s.tab := rfl
@[simp] theorem State.modSeg_buf (d i : Nat) (f : SegSt → SegSt) : (s.modSeg d i f).buf = s.buf := rfl
@[simp] theorem State.modSeg_sch (d i : Nat) (f : SegSt → SegSt) : (s.modSeg d i f).sch = s.sch := rfl
@[simp] theorem State.modSeg_par (d i : Nat) (f : SegSt → SegSt) : (s.modSeg d i f).par = s.par := rfl
@[simp] theorem State.modSeg_xlt (d i : Nat) (f : SegSt → SegSt) : (s.modSeg d i f).xlt = s.xlt := rfl
@[simp] theorem State.modSeg_dma (d i : Nat) (f : SegSt → SegSt) : (s.modSeg d i f).dma = s.dma := rfl
@[simp] theorem State.modSeg_flt (d i : Nat) (f : SegSt → SegSt) : (s.modSeg d i f).flt = s.flt := rfl
@[simp] theorem State.modSeg_pwr (d i : Nat) (f : SegSt → SegSt) : (s.modSeg d i f).pwr = s.pwr := rfl
@[simp] theorem State.modSeg_hild (d i : Nat) (f : SegSt → SegSt) : (s.modSeg d i f).hild = s.hild := rfl
@[simp] theorem State.modSeg_core (d i : Nat) (f : SegSt → SegSt) : (s.modSeg d i f).core = s.core := rfl
@[simp] theorem State.modSeg_gate (d i : Nat) (f : SegSt → SegSt) : (s.modSeg d i f).gate = s.gate := rfl
@[simp] theorem State.modSeg_boot (d i : Nat) (f : SegSt → SegSt) : (s.modSeg d i f).boot = s.boot := rfl
@[simp] theorem State.modSeg_recd (d i : Nat) (f : SegSt → SegSt) : (s.modSeg d i f).recd = s.recd := rfl
@[simp] theorem State.modSeg_mem (d i : Nat) (f : SegSt → SegSt) : (s.modSeg d i f).mem = s.mem := rfl

/-! ### `modWin` -/

@[simp] theorem State.modWin_pending (n k : Nat) (f : WinSt → WinSt) : (s.modWin n k f).pending = s.pending := rfl
@[simp] theorem State.modWin_now (n k : Nat) (f : WinSt → WinSt) : (s.modWin n k f).now = s.now := rfl
@[simp] theorem State.modWin_freeCtr (n k : Nat) (f : WinSt → WinSt) : (s.modWin n k f).freeCtr = s.freeCtr := rfl
@[simp] theorem State.modWin_fuses (n k : Nat) (f : WinSt → WinSt) : (s.modWin n k f).fuses = s.fuses := rfl
@[simp] theorem State.modWin_regs (n k : Nat) (f : WinSt → WinSt) : (s.modWin n k f).regs = s.regs := rfl
@[simp] theorem State.modWin_clock (n k : Nat) (f : WinSt → WinSt) : (s.modWin n k f).clock = s.clock := rfl
@[simp] theorem State.modWin_lane (n k : Nat) (f : WinSt → WinSt) : (s.modWin n k f).lane = s.lane := rfl
@[simp] theorem State.modWin_links (n k : Nat) (f : WinSt → WinSt) : (s.modWin n k f).links = s.links := rfl
@[simp] theorem State.modWin_rtvTag (n k : Nat) (f : WinSt → WinSt) : (s.modWin n k f).rtvTag = s.rtvTag := rfl
@[simp] theorem State.modWin_fret (n k : Nat) (f : WinSt → WinSt) : (s.modWin n k f).fret = s.fret := rfl
@[simp] theorem State.modWin_tab (n k : Nat) (f : WinSt → WinSt) : (s.modWin n k f).tab = s.tab := rfl
@[simp] theorem State.modWin_buf (n k : Nat) (f : WinSt → WinSt) : (s.modWin n k f).buf = s.buf := rfl
@[simp] theorem State.modWin_sch (n k : Nat) (f : WinSt → WinSt) : (s.modWin n k f).sch = s.sch := rfl
@[simp] theorem State.modWin_par (n k : Nat) (f : WinSt → WinSt) : (s.modWin n k f).par = s.par := rfl
@[simp] theorem State.modWin_xlt (n k : Nat) (f : WinSt → WinSt) : (s.modWin n k f).xlt = s.xlt := rfl
@[simp] theorem State.modWin_dma (n k : Nat) (f : WinSt → WinSt) : (s.modWin n k f).dma = s.dma := rfl
@[simp] theorem State.modWin_flt (n k : Nat) (f : WinSt → WinSt) : (s.modWin n k f).flt = s.flt := rfl
@[simp] theorem State.modWin_pwr (n k : Nat) (f : WinSt → WinSt) : (s.modWin n k f).pwr = s.pwr := rfl
@[simp] theorem State.modWin_hild (n k : Nat) (f : WinSt → WinSt) : (s.modWin n k f).hild = s.hild := rfl
@[simp] theorem State.modWin_core (n k : Nat) (f : WinSt → WinSt) : (s.modWin n k f).core = s.core := rfl
@[simp] theorem State.modWin_gate (n k : Nat) (f : WinSt → WinSt) : (s.modWin n k f).gate = s.gate := rfl
@[simp] theorem State.modWin_boot (n k : Nat) (f : WinSt → WinSt) : (s.modWin n k f).boot = s.boot := rfl
@[simp] theorem State.modWin_recd (n k : Nat) (f : WinSt → WinSt) : (s.modWin n k f).recd = s.recd := rfl
@[simp] theorem State.modWin_mem (n k : Nat) (f : WinSt → WinSt) : (s.modWin n k f).mem = s.mem := rfl

/-! ### `modSlot` -/

@[simp] theorem State.modSlot_pending (n : Nat) (f : SlotSt → SlotSt) : (s.modSlot n f).pending = s.pending := rfl
@[simp] theorem State.modSlot_now (n : Nat) (f : SlotSt → SlotSt) : (s.modSlot n f).now = s.now := rfl
@[simp] theorem State.modSlot_freeCtr (n : Nat) (f : SlotSt → SlotSt) : (s.modSlot n f).freeCtr = s.freeCtr := rfl
@[simp] theorem State.modSlot_fuses (n : Nat) (f : SlotSt → SlotSt) : (s.modSlot n f).fuses = s.fuses := rfl
@[simp] theorem State.modSlot_regs (n : Nat) (f : SlotSt → SlotSt) : (s.modSlot n f).regs = s.regs := rfl
@[simp] theorem State.modSlot_clock (n : Nat) (f : SlotSt → SlotSt) : (s.modSlot n f).clock = s.clock := rfl
@[simp] theorem State.modSlot_lane (n : Nat) (f : SlotSt → SlotSt) : (s.modSlot n f).lane = s.lane := rfl
@[simp] theorem State.modSlot_links (n : Nat) (f : SlotSt → SlotSt) : (s.modSlot n f).links = s.links := rfl
@[simp] theorem State.modSlot_rtvTag (n : Nat) (f : SlotSt → SlotSt) : (s.modSlot n f).rtvTag = s.rtvTag := rfl
@[simp] theorem State.modSlot_fret (n : Nat) (f : SlotSt → SlotSt) : (s.modSlot n f).fret = s.fret := rfl
@[simp] theorem State.modSlot_tab (n : Nat) (f : SlotSt → SlotSt) : (s.modSlot n f).tab = s.tab := rfl
@[simp] theorem State.modSlot_buf (n : Nat) (f : SlotSt → SlotSt) : (s.modSlot n f).buf = s.buf := rfl
@[simp] theorem State.modSlot_sch (n : Nat) (f : SlotSt → SlotSt) : (s.modSlot n f).sch = s.sch := rfl
@[simp] theorem State.modSlot_par (n : Nat) (f : SlotSt → SlotSt) : (s.modSlot n f).par = s.par := rfl
@[simp] theorem State.modSlot_xlt (n : Nat) (f : SlotSt → SlotSt) : (s.modSlot n f).xlt = s.xlt := rfl
@[simp] theorem State.modSlot_dma (n : Nat) (f : SlotSt → SlotSt) : (s.modSlot n f).dma = s.dma := rfl
@[simp] theorem State.modSlot_flt (n : Nat) (f : SlotSt → SlotSt) : (s.modSlot n f).flt = s.flt := rfl
@[simp] theorem State.modSlot_pwr (n : Nat) (f : SlotSt → SlotSt) : (s.modSlot n f).pwr = s.pwr := rfl
@[simp] theorem State.modSlot_sbb (n : Nat) (f : SlotSt → SlotSt) : (s.modSlot n f).sbb = s.sbb := rfl
@[simp] theorem State.modSlot_core (n : Nat) (f : SlotSt → SlotSt) : (s.modSlot n f).core = s.core := rfl
@[simp] theorem State.modSlot_gate (n : Nat) (f : SlotSt → SlotSt) : (s.modSlot n f).gate = s.gate := rfl
@[simp] theorem State.modSlot_boot (n : Nat) (f : SlotSt → SlotSt) : (s.modSlot n f).boot = s.boot := rfl
@[simp] theorem State.modSlot_recd (n : Nat) (f : SlotSt → SlotSt) : (s.modSlot n f).recd = s.recd := rfl
@[simp] theorem State.modSlot_mem (n : Nat) (f : SlotSt → SlotSt) : (s.modSlot n f).mem = s.mem := rfl

/-! ### `modCell` -/

@[simp] theorem State.modCell_pending (d c : Nat) (f : CellRec → CellRec) : (s.modCell d c f).pending = s.pending := rfl
@[simp] theorem State.modCell_now (d c : Nat) (f : CellRec → CellRec) : (s.modCell d c f).now = s.now := rfl
@[simp] theorem State.modCell_freeCtr (d c : Nat) (f : CellRec → CellRec) : (s.modCell d c f).freeCtr = s.freeCtr := rfl
@[simp] theorem State.modCell_fuses (d c : Nat) (f : CellRec → CellRec) : (s.modCell d c f).fuses = s.fuses := rfl
@[simp] theorem State.modCell_regs (d c : Nat) (f : CellRec → CellRec) : (s.modCell d c f).regs = s.regs := rfl
@[simp] theorem State.modCell_clock (d c : Nat) (f : CellRec → CellRec) : (s.modCell d c f).clock = s.clock := rfl
@[simp] theorem State.modCell_lane (d c : Nat) (f : CellRec → CellRec) : (s.modCell d c f).lane = s.lane := rfl
@[simp] theorem State.modCell_links (d c : Nat) (f : CellRec → CellRec) : (s.modCell d c f).links = s.links := rfl
@[simp] theorem State.modCell_rtvTag (d c : Nat) (f : CellRec → CellRec) : (s.modCell d c f).rtvTag = s.rtvTag := rfl
@[simp] theorem State.modCell_fret (d c : Nat) (f : CellRec → CellRec) : (s.modCell d c f).fret = s.fret := rfl
@[simp] theorem State.modCell_tab (d c : Nat) (f : CellRec → CellRec) : (s.modCell d c f).tab = s.tab := rfl
@[simp] theorem State.modCell_sch (d c : Nat) (f : CellRec → CellRec) : (s.modCell d c f).sch = s.sch := rfl
@[simp] theorem State.modCell_par (d c : Nat) (f : CellRec → CellRec) : (s.modCell d c f).par = s.par := rfl
@[simp] theorem State.modCell_xlt (d c : Nat) (f : CellRec → CellRec) : (s.modCell d c f).xlt = s.xlt := rfl
@[simp] theorem State.modCell_dma (d c : Nat) (f : CellRec → CellRec) : (s.modCell d c f).dma = s.dma := rfl
@[simp] theorem State.modCell_flt (d c : Nat) (f : CellRec → CellRec) : (s.modCell d c f).flt = s.flt := rfl
@[simp] theorem State.modCell_pwr (d c : Nat) (f : CellRec → CellRec) : (s.modCell d c f).pwr = s.pwr := rfl
@[simp] theorem State.modCell_hild (d c : Nat) (f : CellRec → CellRec) : (s.modCell d c f).hild = s.hild := rfl
@[simp] theorem State.modCell_sbb (d c : Nat) (f : CellRec → CellRec) : (s.modCell d c f).sbb = s.sbb := rfl
@[simp] theorem State.modCell_core (d c : Nat) (f : CellRec → CellRec) : (s.modCell d c f).core = s.core := rfl
@[simp] theorem State.modCell_gate (d c : Nat) (f : CellRec → CellRec) : (s.modCell d c f).gate = s.gate := rfl
@[simp] theorem State.modCell_boot (d c : Nat) (f : CellRec → CellRec) : (s.modCell d c f).boot = s.boot := rfl
@[simp] theorem State.modCell_recd (d c : Nat) (f : CellRec → CellRec) : (s.modCell d c f).recd = s.recd := rfl
@[simp] theorem State.modCell_mem (d c : Nat) (f : CellRec → CellRec) : (s.modCell d c f).mem = s.mem := rfl

/-! ### `modCase` -/

@[simp] theorem State.modCase_pending (d i : Nat) (f : CaseHid → CaseHid) : (s.modCase d i f).pending = s.pending := rfl
@[simp] theorem State.modCase_now (d i : Nat) (f : CaseHid → CaseHid) : (s.modCase d i f).now = s.now := rfl
@[simp] theorem State.modCase_freeCtr (d i : Nat) (f : CaseHid → CaseHid) : (s.modCase d i f).freeCtr = s.freeCtr := rfl
@[simp] theorem State.modCase_fuses (d i : Nat) (f : CaseHid → CaseHid) : (s.modCase d i f).fuses = s.fuses := rfl
@[simp] theorem State.modCase_regs (d i : Nat) (f : CaseHid → CaseHid) : (s.modCase d i f).regs = s.regs := rfl
@[simp] theorem State.modCase_clock (d i : Nat) (f : CaseHid → CaseHid) : (s.modCase d i f).clock = s.clock := rfl
@[simp] theorem State.modCase_lane (d i : Nat) (f : CaseHid → CaseHid) : (s.modCase d i f).lane = s.lane := rfl
@[simp] theorem State.modCase_links (d i : Nat) (f : CaseHid → CaseHid) : (s.modCase d i f).links = s.links := rfl
@[simp] theorem State.modCase_rtvTag (d i : Nat) (f : CaseHid → CaseHid) : (s.modCase d i f).rtvTag = s.rtvTag := rfl
@[simp] theorem State.modCase_fret (d i : Nat) (f : CaseHid → CaseHid) : (s.modCase d i f).fret = s.fret := rfl
@[simp] theorem State.modCase_tab (d i : Nat) (f : CaseHid → CaseHid) : (s.modCase d i f).tab = s.tab := rfl
@[simp] theorem State.modCase_buf (d i : Nat) (f : CaseHid → CaseHid) : (s.modCase d i f).buf = s.buf := rfl
@[simp] theorem State.modCase_sch (d i : Nat) (f : CaseHid → CaseHid) : (s.modCase d i f).sch = s.sch := rfl
@[simp] theorem State.modCase_par (d i : Nat) (f : CaseHid → CaseHid) : (s.modCase d i f).par = s.par := rfl
@[simp] theorem State.modCase_xlt (d i : Nat) (f : CaseHid → CaseHid) : (s.modCase d i f).xlt = s.xlt := rfl
@[simp] theorem State.modCase_dma (d i : Nat) (f : CaseHid → CaseHid) : (s.modCase d i f).dma = s.dma := rfl
@[simp] theorem State.modCase_pwr (d i : Nat) (f : CaseHid → CaseHid) : (s.modCase d i f).pwr = s.pwr := rfl
@[simp] theorem State.modCase_hild (d i : Nat) (f : CaseHid → CaseHid) : (s.modCase d i f).hild = s.hild := rfl
@[simp] theorem State.modCase_sbb (d i : Nat) (f : CaseHid → CaseHid) : (s.modCase d i f).sbb = s.sbb := rfl
@[simp] theorem State.modCase_core (d i : Nat) (f : CaseHid → CaseHid) : (s.modCase d i f).core = s.core := rfl
@[simp] theorem State.modCase_gate (d i : Nat) (f : CaseHid → CaseHid) : (s.modCase d i f).gate = s.gate := rfl
@[simp] theorem State.modCase_boot (d i : Nat) (f : CaseHid → CaseHid) : (s.modCase d i f).boot = s.boot := rfl
@[simp] theorem State.modCase_recd (d i : Nat) (f : CaseHid → CaseHid) : (s.modCase d i f).recd = s.recd := rfl
@[simp] theorem State.modCase_mem (d i : Nat) (f : CaseHid → CaseHid) : (s.modCase d i f).mem = s.mem := rfl

/-! ### `modQueue` -/

@[simp] theorem State.modQueue_pending (g q : Nat) (f : List Pkt → List Pkt) : (s.modQueue g q f).pending = s.pending := rfl
@[simp] theorem State.modQueue_now (g q : Nat) (f : List Pkt → List Pkt) : (s.modQueue g q f).now = s.now := rfl
@[simp] theorem State.modQueue_freeCtr (g q : Nat) (f : List Pkt → List Pkt) : (s.modQueue g q f).freeCtr = s.freeCtr := rfl
@[simp] theorem State.modQueue_fuses (g q : Nat) (f : List Pkt → List Pkt) : (s.modQueue g q f).fuses = s.fuses := rfl
@[simp] theorem State.modQueue_regs (g q : Nat) (f : List Pkt → List Pkt) : (s.modQueue g q f).regs = s.regs := rfl
@[simp] theorem State.modQueue_clock (g q : Nat) (f : List Pkt → List Pkt) : (s.modQueue g q f).clock = s.clock := rfl
@[simp] theorem State.modQueue_lane (g q : Nat) (f : List Pkt → List Pkt) : (s.modQueue g q f).lane = s.lane := rfl
@[simp] theorem State.modQueue_links (g q : Nat) (f : List Pkt → List Pkt) : (s.modQueue g q f).links = s.links := rfl
@[simp] theorem State.modQueue_rtvTag (g q : Nat) (f : List Pkt → List Pkt) : (s.modQueue g q f).rtvTag = s.rtvTag := rfl
@[simp] theorem State.modQueue_fret (g q : Nat) (f : List Pkt → List Pkt) : (s.modQueue g q f).fret = s.fret := rfl
@[simp] theorem State.modQueue_tab (g q : Nat) (f : List Pkt → List Pkt) : (s.modQueue g q f).tab = s.tab := rfl
@[simp] theorem State.modQueue_buf (g q : Nat) (f : List Pkt → List Pkt) : (s.modQueue g q f).buf = s.buf := rfl
@[simp] theorem State.modQueue_par (g q : Nat) (f : List Pkt → List Pkt) : (s.modQueue g q f).par = s.par := rfl
@[simp] theorem State.modQueue_xlt (g q : Nat) (f : List Pkt → List Pkt) : (s.modQueue g q f).xlt = s.xlt := rfl
@[simp] theorem State.modQueue_dma (g q : Nat) (f : List Pkt → List Pkt) : (s.modQueue g q f).dma = s.dma := rfl
@[simp] theorem State.modQueue_flt (g q : Nat) (f : List Pkt → List Pkt) : (s.modQueue g q f).flt = s.flt := rfl
@[simp] theorem State.modQueue_pwr (g q : Nat) (f : List Pkt → List Pkt) : (s.modQueue g q f).pwr = s.pwr := rfl
@[simp] theorem State.modQueue_hild (g q : Nat) (f : List Pkt → List Pkt) : (s.modQueue g q f).hild = s.hild := rfl
@[simp] theorem State.modQueue_sbb (g q : Nat) (f : List Pkt → List Pkt) : (s.modQueue g q f).sbb = s.sbb := rfl
@[simp] theorem State.modQueue_core (g q : Nat) (f : List Pkt → List Pkt) : (s.modQueue g q f).core = s.core := rfl
@[simp] theorem State.modQueue_gate (g q : Nat) (f : List Pkt → List Pkt) : (s.modQueue g q f).gate = s.gate := rfl
@[simp] theorem State.modQueue_boot (g q : Nat) (f : List Pkt → List Pkt) : (s.modQueue g q f).boot = s.boot := rfl
@[simp] theorem State.modQueue_recd (g q : Nat) (f : List Pkt → List Pkt) : (s.modQueue g q f).recd = s.recd := rfl
@[simp] theorem State.modQueue_mem (g q : Nat) (f : List Pkt → List Pkt) : (s.modQueue g q f).mem = s.mem := rfl

/-! ### `modDom` -/

@[simp] theorem State.modDom_pending (x : DomId) (f : DomSt → DomSt) : (s.modDom x f).pending = s.pending := rfl
@[simp] theorem State.modDom_now (x : DomId) (f : DomSt → DomSt) : (s.modDom x f).now = s.now := rfl
@[simp] theorem State.modDom_freeCtr (x : DomId) (f : DomSt → DomSt) : (s.modDom x f).freeCtr = s.freeCtr := rfl
@[simp] theorem State.modDom_fuses (x : DomId) (f : DomSt → DomSt) : (s.modDom x f).fuses = s.fuses := rfl
@[simp] theorem State.modDom_regs (x : DomId) (f : DomSt → DomSt) : (s.modDom x f).regs = s.regs := rfl
@[simp] theorem State.modDom_clock (x : DomId) (f : DomSt → DomSt) : (s.modDom x f).clock = s.clock := rfl
@[simp] theorem State.modDom_lane (x : DomId) (f : DomSt → DomSt) : (s.modDom x f).lane = s.lane := rfl
@[simp] theorem State.modDom_links (x : DomId) (f : DomSt → DomSt) : (s.modDom x f).links = s.links := rfl
@[simp] theorem State.modDom_rtvTag (x : DomId) (f : DomSt → DomSt) : (s.modDom x f).rtvTag = s.rtvTag := rfl
@[simp] theorem State.modDom_fret (x : DomId) (f : DomSt → DomSt) : (s.modDom x f).fret = s.fret := rfl
@[simp] theorem State.modDom_tab (x : DomId) (f : DomSt → DomSt) : (s.modDom x f).tab = s.tab := rfl
@[simp] theorem State.modDom_buf (x : DomId) (f : DomSt → DomSt) : (s.modDom x f).buf = s.buf := rfl
@[simp] theorem State.modDom_sch (x : DomId) (f : DomSt → DomSt) : (s.modDom x f).sch = s.sch := rfl
@[simp] theorem State.modDom_par (x : DomId) (f : DomSt → DomSt) : (s.modDom x f).par = s.par := rfl
@[simp] theorem State.modDom_xlt (x : DomId) (f : DomSt → DomSt) : (s.modDom x f).xlt = s.xlt := rfl
@[simp] theorem State.modDom_dma (x : DomId) (f : DomSt → DomSt) : (s.modDom x f).dma = s.dma := rfl
@[simp] theorem State.modDom_flt (x : DomId) (f : DomSt → DomSt) : (s.modDom x f).flt = s.flt := rfl
@[simp] theorem State.modDom_hild (x : DomId) (f : DomSt → DomSt) : (s.modDom x f).hild = s.hild := rfl
@[simp] theorem State.modDom_sbb (x : DomId) (f : DomSt → DomSt) : (s.modDom x f).sbb = s.sbb := rfl
@[simp] theorem State.modDom_core (x : DomId) (f : DomSt → DomSt) : (s.modDom x f).core = s.core := rfl
@[simp] theorem State.modDom_gate (x : DomId) (f : DomSt → DomSt) : (s.modDom x f).gate = s.gate := rfl
@[simp] theorem State.modDom_boot (x : DomId) (f : DomSt → DomSt) : (s.modDom x f).boot = s.boot := rfl
@[simp] theorem State.modDom_recd (x : DomId) (f : DomSt → DomSt) : (s.modDom x f).recd = s.recd := rfl
@[simp] theorem State.modDom_mem (x : DomId) (f : DomSt → DomSt) : (s.modDom x f).mem = s.mem := rfl

/-! ### `modStream` -/

@[simp] theorem State.modStream_pending (k : StreamKey) (f : Stream → Stream) : (s.modStream k f).pending = s.pending := rfl
@[simp] theorem State.modStream_now (k : StreamKey) (f : Stream → Stream) : (s.modStream k f).now = s.now := rfl
@[simp] theorem State.modStream_freeCtr (k : StreamKey) (f : Stream → Stream) : (s.modStream k f).freeCtr = s.freeCtr := rfl
@[simp] theorem State.modStream_fuses (k : StreamKey) (f : Stream → Stream) : (s.modStream k f).fuses = s.fuses := rfl
@[simp] theorem State.modStream_regs (k : StreamKey) (f : Stream → Stream) : (s.modStream k f).regs = s.regs := rfl
@[simp] theorem State.modStream_clock (k : StreamKey) (f : Stream → Stream) : (s.modStream k f).clock = s.clock := rfl
@[simp] theorem State.modStream_lane (k : StreamKey) (f : Stream → Stream) : (s.modStream k f).lane = s.lane := rfl
@[simp] theorem State.modStream_links (k : StreamKey) (f : Stream → Stream) : (s.modStream k f).links = s.links := rfl
@[simp] theorem State.modStream_rtvTag (k : StreamKey) (f : Stream → Stream) : (s.modStream k f).rtvTag = s.rtvTag := rfl
@[simp] theorem State.modStream_tab (k : StreamKey) (f : Stream → Stream) : (s.modStream k f).tab = s.tab := rfl
@[simp] theorem State.modStream_buf (k : StreamKey) (f : Stream → Stream) : (s.modStream k f).buf = s.buf := rfl
@[simp] theorem State.modStream_sch (k : StreamKey) (f : Stream → Stream) : (s.modStream k f).sch = s.sch := rfl
@[simp] theorem State.modStream_par (k : StreamKey) (f : Stream → Stream) : (s.modStream k f).par = s.par := rfl
@[simp] theorem State.modStream_xlt (k : StreamKey) (f : Stream → Stream) : (s.modStream k f).xlt = s.xlt := rfl
@[simp] theorem State.modStream_dma (k : StreamKey) (f : Stream → Stream) : (s.modStream k f).dma = s.dma := rfl
@[simp] theorem State.modStream_flt (k : StreamKey) (f : Stream → Stream) : (s.modStream k f).flt = s.flt := rfl
@[simp] theorem State.modStream_pwr (k : StreamKey) (f : Stream → Stream) : (s.modStream k f).pwr = s.pwr := rfl
@[simp] theorem State.modStream_hild (k : StreamKey) (f : Stream → Stream) : (s.modStream k f).hild = s.hild := rfl
@[simp] theorem State.modStream_sbb (k : StreamKey) (f : Stream → Stream) : (s.modStream k f).sbb = s.sbb := rfl
@[simp] theorem State.modStream_core (k : StreamKey) (f : Stream → Stream) : (s.modStream k f).core = s.core := rfl
@[simp] theorem State.modStream_gate (k : StreamKey) (f : Stream → Stream) : (s.modStream k f).gate = s.gate := rfl
@[simp] theorem State.modStream_boot (k : StreamKey) (f : Stream → Stream) : (s.modStream k f).boot = s.boot := rfl
@[simp] theorem State.modStream_recd (k : StreamKey) (f : Stream → Stream) : (s.modStream k f).recd = s.recd := rfl
@[simp] theorem State.modStream_mem (k : StreamKey) (f : Stream → Stream) : (s.modStream k f).mem = s.mem := rfl

/-! ### `modPldm` -/

@[simp] theorem State.modPldm_pending (f : Pldm → Pldm) : (s.modPldm f).pending = s.pending := rfl
@[simp] theorem State.modPldm_now (f : Pldm → Pldm) : (s.modPldm f).now = s.now := rfl
@[simp] theorem State.modPldm_freeCtr (f : Pldm → Pldm) : (s.modPldm f).freeCtr = s.freeCtr := rfl
@[simp] theorem State.modPldm_fuses (f : Pldm → Pldm) : (s.modPldm f).fuses = s.fuses := rfl
@[simp] theorem State.modPldm_regs (f : Pldm → Pldm) : (s.modPldm f).regs = s.regs := rfl
@[simp] theorem State.modPldm_clock (f : Pldm → Pldm) : (s.modPldm f).clock = s.clock := rfl
@[simp] theorem State.modPldm_lane (f : Pldm → Pldm) : (s.modPldm f).lane = s.lane := rfl
@[simp] theorem State.modPldm_links (f : Pldm → Pldm) : (s.modPldm f).links = s.links := rfl
@[simp] theorem State.modPldm_rtvTag (f : Pldm → Pldm) : (s.modPldm f).rtvTag = s.rtvTag := rfl
@[simp] theorem State.modPldm_fret (f : Pldm → Pldm) : (s.modPldm f).fret = s.fret := rfl
@[simp] theorem State.modPldm_tab (f : Pldm → Pldm) : (s.modPldm f).tab = s.tab := rfl
@[simp] theorem State.modPldm_buf (f : Pldm → Pldm) : (s.modPldm f).buf = s.buf := rfl
@[simp] theorem State.modPldm_sch (f : Pldm → Pldm) : (s.modPldm f).sch = s.sch := rfl
@[simp] theorem State.modPldm_par (f : Pldm → Pldm) : (s.modPldm f).par = s.par := rfl
@[simp] theorem State.modPldm_xlt (f : Pldm → Pldm) : (s.modPldm f).xlt = s.xlt := rfl
@[simp] theorem State.modPldm_dma (f : Pldm → Pldm) : (s.modPldm f).dma = s.dma := rfl
@[simp] theorem State.modPldm_flt (f : Pldm → Pldm) : (s.modPldm f).flt = s.flt := rfl
@[simp] theorem State.modPldm_pwr (f : Pldm → Pldm) : (s.modPldm f).pwr = s.pwr := rfl
@[simp] theorem State.modPldm_hild (f : Pldm → Pldm) : (s.modPldm f).hild = s.hild := rfl
@[simp] theorem State.modPldm_sbb (f : Pldm → Pldm) : (s.modPldm f).sbb = s.sbb := rfl
@[simp] theorem State.modPldm_core (f : Pldm → Pldm) : (s.modPldm f).core = s.core := rfl
@[simp] theorem State.modPldm_gate (f : Pldm → Pldm) : (s.modPldm f).gate = s.gate := rfl
@[simp] theorem State.modPldm_recd (f : Pldm → Pldm) : (s.modPldm f).recd = s.recd := rfl
@[simp] theorem State.modPldm_mem (f : Pldm → Pldm) : (s.modPldm f).mem = s.mem := rfl

end Sys2Proof.Machine
end

