-- ==== Sys2Proof/Laws/Registers.lean ====
section
/-! SUPPORT. Laws of registers and of the operations that every meaning shares: what reading a field after a write gives, what setting a fault
source, counting, delivering an event and answering a verdict can do, and which registers each of them leaves. -/

namespace Sys2Proof.Machine

/-! ### Registers -/

/-- A register depends on the register map and the fuses alone. -/
theorem State.reg_congr {s t : State} (r : Reg) (h : t.regs = s.regs) (hf : t.fuses = s.fuses) : t.reg r = s.reg r := by
  unfold State.reg; rw [h, hf]

@[simp] theorem State.reg_setReg_same (s : State) (r : Reg) (v : Word) : (s.setReg r v).reg r = v := by simp [State.reg]

theorem State.reg_setReg_ne (s : State) {r q : Reg} (v : Word) (h : q ≠ r) : (s.setReg r v).reg q = s.reg q := by
  simp [State.reg, FMap.get_set_ne _ _ v h]

/-- A register after one was set. -/
theorem State.reg_setReg (s : State) (r q : Reg) (v : Word) : (s.setReg r v).reg q = if q = r then v else s.reg q := by
  by_cases h : q = r
  · subst h; simp
  · rw [if_neg h, State.reg_setReg_ne s v h]

theorem State.reg_setFld_ne (s : State) {r q : Reg} (f : Field) (v : Nat) (h : q ≠ r) : (s.setFld r f v).reg q = s.reg q :=
  State.reg_setReg_ne s _ h

/-- A field that was written reads as written, cut to its width. -/
theorem State.fld_setFld_same (s : State) (r : Reg) (f : Field) (v : Nat) (h : f.lo ≤ f.hi) (h64 : f.hi < 64) :
    (s.setFld r f v).fld r f = v % 2 ^ (f.hi + 1 - f.lo) := by
  unfold State.fld State.setFld
  rw [State.reg_setReg_same, getBits_setBits_same _ _ _ _ h h64]

/-- A field beside the one that was written keeps its value. -/
theorem State.fld_setFld_other (s : State) (r : Reg) (f g : Field) (v : Nat) (h : f.lo ≤ f.hi) (h64 : f.hi < 64) (hd : g.hi < f.lo ∨ f.hi < g.lo) :
    (s.setFld r f v).fld r g = s.fld r g := by
  unfold State.fld State.setFld
  rw [State.reg_setReg_same, getBits_setBits_other _ _ _ _ _ _ h h64 hd]

/-- A field of another register keeps its value. -/
theorem State.fld_setFld_ne (s : State) {r q : Reg} (f g : Field) (v : Nat) (h : q ≠ r) : (s.setFld r f v).fld q g = s.fld q g := by
  unfold State.fld; rw [State.reg_setFld_ne s f v h]

theorem State.fld_setReg_same (s : State) (r : Reg) (f : Field) (v : Word) : (s.setReg r v).fld r f = f.of v := by
  simp [State.fld, Field.of]

theorem State.fld_setReg_ne (s : State) {r q : Reg} (f : Field) (v : Word) (h : q ≠ r) : (s.setReg r v).fld q f = s.fld q f := by
  unfold State.fld; rw [State.reg_setReg_ne s v h]

/-- A counter after a count. -/
theorem State.fld_count_same (s : State) (r : Reg) (f : Field) (n : Nat) (h : f.lo ≤ f.hi) (h64 : f.hi < 64) :
    (s.count r f n).fld r f = satAdd (f.hi + 1 - f.lo) (s.fld r f) n := by
  unfold State.count
  rw [State.fld_setFld_same _ _ _ _ h h64, Nat.mod_eq_of_lt (satAdd_lt _ _ _)]

/-! ### Registers and the parts of State -/

@[simp] theorem State.reg_modClock (s : State) (f : ClockSt → ClockSt) (r : Reg) : (s.modClock f).reg r = s.reg r := rfl
@[simp] theorem State.reg_modLane (s : State) (f : LaneSt → LaneSt) (r : Reg) : (s.modLane f).reg r = s.reg r := rfl
@[simp] theorem State.reg_modFret (s : State) (f : FretSt → FretSt) (r : Reg) : (s.modFret f).reg r = s.reg r := rfl
@[simp] theorem State.reg_modTab (s : State) (f : TabSt → TabSt) (r : Reg) : (s.modTab f).reg r = s.reg r := rfl
@[simp] theorem State.reg_modSch (s : State) (f : SchSt → SchSt) (r : Reg) : (s.modSch f).reg r = s.reg r := rfl
@[simp] theorem State.reg_modPar (s : State) (f : ParSt → ParSt) (r : Reg) : (s.modPar f).reg r = s.reg r := rfl
@[simp] theorem State.reg_modFlt (s : State) (f : FltSt → FltSt) (r : Reg) : (s.modFlt f).reg r = s.reg r := rfl
@[simp] theorem State.reg_modBoot (s : State) (f : BootSt → BootSt) (r : Reg) : (s.modBoot f).reg r = s.reg r := rfl
@[simp] theorem State.reg_modCore (s : State) (d : Nat) (f : CoreDie → CoreDie) (r : Reg) : (s.modCore d f).reg r = s.reg r := rfl
@[simp] theorem State.reg_modHart (s : State) (d h : Nat) (f : Hart → Hart) (r : Reg) : (s.modHart d h f).reg r = s.reg r := rfl
@[simp] theorem State.reg_modRec (s : State) (d : Nat) (f : RecDie → RecDie) (r : Reg) : (s.modRec d f).reg r = s.reg r := rfl
@[simp] theorem State.reg_modSeg (s : State) (d i : Nat) (f : SegSt → SegSt) (r : Reg) : (s.modSeg d i f).reg r = s.reg r := rfl
@[simp] theorem State.reg_modSlot (s : State) (n : Nat) (f : SlotSt → SlotSt) (r : Reg) : (s.modSlot n f).reg r = s.reg r := rfl
@[simp] theorem State.reg_modDom (s : State) (x : DomId) (f : DomSt → DomSt) (r : Reg) : (s.modDom x f).reg r = s.reg r := rfl

/-! ### Frames -/

theorem Keeps.refl (ns : List RegName) (s : State) : Keeps ns s s := ⟨rfl, rfl, rfl, rfl, fun _ _ => rfl⟩

/-- Frames compose: what neither step writes stays. -/
theorem Keeps.trans {ns ms : List RegName} {s t u : State} (h : Keeps ns s t) (k : Keeps ms t u) : Keeps (ns ++ ms) s u := by
  obtain ⟨h1, h2, h3, h4, h5⟩ := h
  obtain ⟨k1, k2, k3, k4, k5⟩ := k
  refine ⟨k1.trans h1, k2.trans h2, k3.trans h3, k4.trans h4, fun r hr => ?_⟩
  rw [List.mem_append, not_or] at hr
  rw [k5 r hr.2, h5 r hr.1]

/-- A frame may name more registers. -/
theorem Keeps.mono {ns ms : List RegName} {s t : State} (hs : ∀ n, n ∈ ns → n ∈ ms) (h : Keeps ns s t) : Keeps ms s t :=
  ⟨h.1, h.2.1, h.2.2.1, h.2.2.2.1, fun r hr => h.2.2.2.2 r fun hn => hr (hs _ hn)⟩

/-- A register whose name a frame does not name keeps its fields. -/
theorem Keeps.fld {ns : List RegName} {s t : State} (h : Keeps ns s t) (r : Reg) (f : Field) (hr : r.name ∉ ns) : t.fld r f = s.fld r f := by
  unfold State.fld; rw [h.2.2.2.2 r hr]

theorem keeps_setReg (s : State) (r : Reg) (v : Word) : Keeps [r.name] s (s.setReg r v) :=
  ⟨rfl, rfl, rfl, rfl, fun q hq => State.reg_setReg_ne s v fun e => hq (by simp [e])⟩

theorem keeps_setFld (s : State) (r : Reg) (f : Field) (v : Nat) : Keeps [r.name] s (s.setFld r f v) := keeps_setReg s r _
theorem keeps_count (s : State) (r : Reg) (f : Field) (n : Nat) : Keeps [r.name] s (s.count r f n) := keeps_setReg s r _

/-- A change that leaves the registers, the memories, the harts, the fuses and the queue is in every frame. -/
theorem Keeps.of_eq {s t : State} (h1 : t.mem = s.mem) (h2 : t.core = s.core) (h3 : t.fuses = s.fuses) (h4 : t.pending = s.pending)
    (h5 : t.regs = s.regs) : Keeps [] s t := ⟨h1, h2, h3, h4, fun r _ => State.reg_congr r h5 h3⟩

theorem keeps_modFlt (s : State) (f : FltSt → FltSt) : Keeps [] s (s.modFlt f) := Keeps.of_eq rfl rfl rfl rfl rfl
theorem keeps_modPar (s : State) (f : ParSt → ParSt) : Keeps [] s (s.modPar f) := Keeps.of_eq rfl rfl rfl rfl rfl
theorem keeps_modSch (s : State) (f : SchSt → SchSt) : Keeps [] s (s.modSch f) := Keeps.of_eq rfl rfl rfl rfl rfl
theorem keeps_modTab (s : State) (f : TabSt → TabSt) : Keeps [] s (s.modTab f) := Keeps.of_eq rfl rfl rfl rfl rfl
theorem keeps_modFret (s : State) (f : FretSt → FretSt) : Keeps [] s (s.modFret f) := Keeps.of_eq rfl rfl rfl rfl rfl
theorem keeps_modLane (s : State) (f : LaneSt → LaneSt) : Keeps [] s (s.modLane f) := Keeps.of_eq rfl rfl rfl rfl rfl

/-- A frame of every turn of a loop is a frame of the loop. -/
theorem keeps_forAll {α : Type} {ns : List RegName} (f : α → State → State) (h : ∀ a s, Keeps ns s (f a s)) (s : State) (l : List α) :
    Keeps ns s (s.forAll l f) := by
  unfold State.forAll
  induction l generalizing s with
  | nil => exact Keeps.refl ns s
  | cons a l ih => exact Keeps.mono (by simp) (Keeps.trans (h a s) (ih (f a s)))

/-- A loop keeps what each of its turns keeps. -/
theorem State.forAll_keeps {α β : Type} (g : State → β) (f : α → State → State) (h : ∀ a s, g (f a s) = g s) (s : State) (l : List α) :
    g (s.forAll l f) = g s := by
  unfold State.forAll
  induction l generalizing s with
  | nil => rfl
  | cons a l ih => exact (ih (f a s)).trans (h a s)

/-! ### Fault sources -/

/-- What setting a fault source does: nothing on a die out of service, and otherwise its sticky bit and one fault at the crossing of the die
that takes it. -/
theorem raiseFault_cases (fr : FaultRec) (s : State) :
    (raiseFault fr s = s ∧ s.active (faultDie s fr.reg) = false ∧ fr.reg.name ≠ .hildErr) ∨
    ((s.active (faultDie s fr.reg) = true ∨ fr.reg.name = .hildErr) ∧
      raiseFault fr s = (s.setReg fr.reg (setBits (s.reg fr.reg) fr.bit fr.bit 1)).modFlt fun x =>
        let one := { fr with rose := !(bitOf (s.reg fr.reg) fr.bit) }
        { x with inbox := x.inbox.set (faultDie s fr.reg) (x.inbox.get [] (faultDie s fr.reg) ++ [one]) }) := by
  unfold raiseFault
  by_cases h : s.active (faultDie s fr.reg) = true ∨ fr.reg.name = .hildErr
  · right; exact ⟨h, by simp only [if_pos h]⟩
  · left
    rw [not_or] at h
    exact ⟨by simp [h.1, h.2], by simpa using h.1, h.2⟩

/-- Setting a fault source writes its register alone. -/
theorem keeps_raiseFault (fr : FaultRec) (s : State) : Keeps [fr.reg.name] s (raiseFault fr s) := by
  rcases raiseFault_cases fr s with ⟨h, _⟩ | ⟨_, h⟩
  · rw [h]; exact Keeps.refl _ _
  · rw [h]; exact Keeps.mono (by simp) (Keeps.trans (keeps_setReg s _ _) (keeps_modFlt _ _))

theorem keeps_raise (r : Reg) (f : Field) (s : State) : Keeps [r.name] s (raise r f s) := keeps_raiseFault _ _

/-- A source of a die in service reads 1 once set. -/
theorem bit_raise (r : Reg) (f : Field) (s : State) (h : s.active (faultDie s r) = true ∨ r.name = .hildErr) (h64 : f.lo < 64) :
    (raise r f s).bit r f.lo = true := by
  rcases raiseFault_cases { reg := r, bit := f.lo } s with ⟨_, h1, h2⟩ | ⟨_, he⟩
  · rcases h with h | h
    · rw [h] at h1; cases h1
    · exact absurd h h2
  · unfold raise State.bit
    rw [he, State.reg_modFlt, State.reg_setReg_same, bitOf_setBits _ _ _ _ _ (le_refl _) h64]
    simp

/-! ### Events and verdicts -/

theorem keeps_setBmc (q : List BmcMsg) (s : State) : Keeps [.partEvtq] s (setBmc q s) :=
  Keeps.mono (by simp) (Keeps.trans (keeps_modFlt s _) (keeps_setFld _ _ _ _))

theorem keeps_toBmc (m : BmcMsg) (s : State) : Keeps [.partEvtq] s (toBmc m s) := by
  unfold toBmc
  split
  · exact keeps_count _ _ _ _
  · exact keeps_setBmc _ _

theorem keeps_sendPme (d n : Nat) (s : State) : Keeps [] s (sendPme d n s) := keeps_forAll _ (fun _ _ => keeps_modFlt _ _) _ _

theorem keeps_toEndpoint (n d e : Nat) (s : State) : Keeps [] s (toEndpoint n d e s) := by
  unfold toEndpoint
  simp only
  split
  · exact Keeps.mono (by simp) (Keeps.trans (keeps_modPar s _) (keeps_sendPme d n _))
  · split
    · exact Keeps.of_eq rfl rfl rfl rfl rfl
    · exact keeps_modFlt _ _

/-- Delivering an event writes no register but the depth and drops of the queue toward the BMC. -/
theorem keeps_deliverRouted (d e part : Nat) (m : BmcMsg) (s : State) : Keeps [.partEvtq] s (deliverRouted d e part m s) := by
  unfold deliverRouted
  simp only
  have h1 : ∀ (c : Prop) [Decidable c] (n : Nat) (u : State), Keeps [] u (if c then toEndpoint n d e u else u) := by
    intro c _ n u; split
    · exact keeps_toEndpoint _ _ _ _
    · exact Keeps.refl _ _
  have h2 : ∀ (c : Prop) [Decidable c] (u : State), Keeps [.partEvtq] u (if c then toBmc m u else u) := by
    intro c _ u; split
    · exact keeps_toBmc _ _
    · exact Keeps.refl _ _
  have h3 : ∀ (c : Prop) [Decidable c] (u : State), Keeps [] u (if c then recNote m u else u) := by
    intro c _ u; split
    · exact keeps_modFlt _ _
    · exact Keeps.refl _ _
  exact Keeps.mono (by simp) (Keeps.trans (Keeps.trans (h1 _ _ s) (h2 _ _)) (h3 _ _))

theorem keeps_deliverVerdict (d e mode part : Nat) (s : State) : Keeps [.partEvtq] s (deliverVerdict d e mode part s) := by
  unfold deliverVerdict
  simp only
  split
  · exact Keeps.mono (by simp) (keeps_toEndpoint _ _ _ _)
  · split
    · exact keeps_toBmc _ _
    · exact keeps_deliverRouted _ _ _ _ _

/-- A refused verdict sets VREF and delivers its event. -/
theorem keeps_refuseVerdict (d : Nat) (s : State) : Keeps [.evtPulse, .partEvtq] s (refuseVerdict d s) :=
  Keeps.mono (by simp [dreg]) (Keeps.trans (keeps_setFld s (dreg .evtPulse d) EvtPulse.VREF 1) (keeps_deliverRouted d 1000 0x3F _ _))

theorem refuseVerdict_vref (d : Nat) (s : State) : (refuseVerdict d s).fld (dreg .evtPulse d) EvtPulse.VREF = 1 := by
  unfold refuseVerdict
  rw [Keeps.fld (keeps_deliverRouted d 1000 0x3F _ _) _ _ (by simp [dreg]), State.fld_setFld_same _ _ _ _ (by decide) (by decide)]
  rfl

/-- A late verdict is counted and does nothing else. -/
theorem lateVerdict_eq (s : State) : lateVerdict s = s.count partAlate PartAlate.COUNT 1 := rfl

/-! ### Gates -/

theorem keeps_captureFrec (d mid t acc addr lo : Nat) (s : State) : Keeps [.gateFrec0, .gateFrec1] s (captureFrec d mid t acc addr lo s) := by
  unfold captureFrec
  split
  · exact Keeps.refl _ _
  · exact Keeps.trans (keeps_setReg s _ _) (keeps_setReg _ _ _)

/-- A refused access writes GATE.ERR and GATE.FREC of its die and nothing else. -/
theorem keeps_gateRefuse (d mid t acc addr lo : Nat) (s : State) :
    Keeps [.gateErr, .gateFrec0, .gateFrec1] s (gateRefuse d mid t acc addr lo s) := by
  unfold gateRefuse
  simp only
  have h := Keeps.trans (keeps_captureFrec d mid t acc addr lo s)
    (keeps_raise (gateErr d) (if mid = 0x81 then GateErr.DBGREF else GateErr.REFUSED) (captureFrec d mid t acc addr lo s))
  split
  · exact Keeps.mono (by simp [gateErr, dreg]) (Keeps.trans h (keeps_raise _ _ _))
  · exact Keeps.mono (by simp [gateErr, dreg]) h

/-- An access passes and changes nothing, or it is refused. -/
theorem gateAccess_cases (x : Dest) (mid acc addr n : Nat) (s : State) :
    (gateAccess x mid acc addr n s = (true, s) ∧
      s.refusedPage x.die x.target mid x.off n (if acc = 3 then 0 else if acc = 4 then 1 else acc) = none) ∨
    ∃ p, s.refusedPage x.die x.target mid x.off n (if acc = 3 then 0 else if acc = 4 then 1 else acc) = some p ∧
      gateAccess x mid acc addr n s =
        (false, gateRefuse x.die mid x.target acc addr ((max (p * 4096) x.off - x.off / 64 * 64) / 64) s) := by
  unfold gateAccess
  simp only
  split
  · left; exact ⟨rfl, by assumption⟩
  · right; exact ⟨_, by assumption, rfl⟩

end Sys2Proof.Machine
end

