-- ==== Sys2Proof/Laws/Harts.lean ====
section
/-! SUPPORT. Laws of harts: reading a hart after a change of one, and what taking and retiring an instruction does when the hart is free. -/

namespace Sys2Proof.Machine

@[simp] theorem State.hart_modHart_same (s : State) (d h : Nat) (f : Hart → Hart) : (s.modHart d h f).hart d h = f (s.hart d h) := by
  simp [State.hart, State.modHart, State.modCore, FMap.upd]

theorem State.hart_modHart_ne (s : State) {d h e k : Nat} (f : Hart → Hart) (hn : e ≠ d ∨ k ≠ h) : (s.modHart d h f).hart e k = s.hart e k := by
  unfold State.hart State.modHart State.modCore FMap.upd
  by_cases hd : e = d
  · subst hd
    have hk : k ≠ h := hn.resolve_left (by simp)
    simp [FMap.get_set_ne _ _ _ hk]
  · simp [FMap.get_set_ne _ _ _ hd]

/-- g0 reads as zero. -/
@[simp] theorem rget_zero (regs : FMap Nat Word) : rget regs 0 = 0 := rfl

/-- A general register after a write: g0 discards it. -/
theorem rget_rset (regs : FMap Nat Word) (i j : Nat) (v : Word) :
    rget (rset regs i v) j = if j % 32 = i % 32 ∧ j % 32 ≠ 0 then v else rget regs j := by
  unfold rget rset
  by_cases hj : j % 32 = 0
  · simp [hj]
  · by_cases hi : i % 32 = 0
    · have h : ¬ (j % 32 = i % 32 ∧ j % 32 ≠ 0) := by omega
      rw [if_neg hj, if_pos hi, if_neg h, if_neg hj]
    · by_cases h : j % 32 = i % 32
      · rw [if_neg hj, if_neg hi, if_pos ⟨h, hj⟩, h, FMap.get_set_same]
      · rw [if_neg hj, if_neg hi, if_neg (by simp [h]), if_neg hj, FMap.get_set_ne _ _ _ h]

/-- A free hart takes an instruction at once. -/
theorem hartDo_free {s : State} {d h : Nat} (hf : HartFree s d h) (act : State → State) : hartDo d h false act s = act s := by
  obtain ⟨h1, h2, h3, -⟩ := hf
  unfold hartDo
  rw [if_pos ⟨h1, by simp [h2], Or.inl rfl⟩]
  unfold State.fetchClean at h3
  unfold fetchThen
  cases hx : s.fetchDest d (s.hart d h).pc with
  | none => simp [hx] at h3
  | some x =>
    simp only [hx, Bool.and_eq_true] at h3
    dsimp only
    rw [if_pos h3.1]
    have hc : ¬(x.target = 18 ∧ s.domCur (dom d (memDomain 18 x.off)) = 1) := by
      have h := h3.2
      simp at h
      omega
    rw [if_neg hc]

/-- A barrier of a free hart waits for nothing but its store buffer. -/
theorem hartDo_barrier {s : State} {d h : Nat} (hf : HartFree s d h) (hs : (s.hart d h).sbuf = []) (act : State → State) :
    hartDo d h true act s = act s := by
  have h0 := hartDo_free hf act
  unfold hartDo at h0 ⊢
  rw [if_pos ⟨hf.1, by simp [hf.2.1], Or.inl rfl⟩] at h0
  rw [if_pos ⟨hf.1, by simp [hf.2.1], Or.inr (by simp [hs])⟩, h0]

/-- Outside REPLAY nothing is pumped from a feed. -/
theorem pumpFeed_off {s : State} (d : Nat) (hm : s.mode ≠ 7) : pumpFeed d s = s := by
  unfold pumpFeed replayPump
  rw [if_neg (by simp [State.replays, hm])]

/-- An instruction of a free hart retires: the hart changes as it says, and one more instruction is counted. -/
theorem retire_free {s : State} {d h : Nat} (f : Hart → Hart) (hm : s.mode ≠ 7) (hi : (f (s.hart d h)).inJ.length < 4096)
    (ho : (f (s.hart d h)).outJ.length < 4096) : retire d h f s = s.retired d h f := by
  unfold retire
  have hc : ckptIfFull d h (s.modHart d h fun x => let y := f x; { y with icount := y.icount + 1 })
      = s.modHart d h fun x => let y := f x; { y with icount := y.icount + 1 } := by
    unfold ckptIfFull
    rw [State.hart_modHart_same, if_neg (by simp; omega)]
  rw [hc]
  exact pumpFeed_off d hm

end Sys2Proof.Machine
end

