-- ==== Sys2Proof/WellFormed.lean ====
section
/-! DEFINITION. Well-formed commands: every operand that names a unit, a register or a field lies in the range that the spec gives it. The
meanings do not rest on it: a command on a unit that the part does not have changes nothing. -/

namespace Sys2Proof

open Machine

/-- A number below a bound. -/
def below (n b : Nat) : Bool := decide (n < b)

/-- The sizes of a single access: 1, 2, 4 or 8 bytes (11 R425). -/
def widthOk (w : Nat) : Bool := w == 1 || w == 2 || w == 4 || w == 8

/-- One of the eight outstanding loads of a hart (11 R411). -/
def loadOk (l : Option Nat) : Bool :=
  match l with
  | none => true
  | some i => below i 8

/-- A fret engine has a die and a port, a hart a die and a number (04 R112, 10 R370). -/
def Machine.Exec.wf : Exec → Bool
  | .course d pp => below d 8 && below pp 16
  | .hart d h => below d 8 && below h 2

/-- A master of 11 R422. -/
def Machine.Master.wf : Master → Bool
  | .hart d h => below d 8 && below h 2
  | .bmc => true
  | .endpoint n => below n 32
  | .debug => true
  | .dma d c => below d 8 && below c 32

/-- A domain of a die, 72 of them, or of the Hild die (14 R528, R542). -/
def Machine.DomId.wf (x : DomId) : Bool := below x.d 8 && below x.i 72

/-- A well-formed command. -/
def Instr.wf (i : Instr) : Bool :=
  match i with
  | .powerUp _ _ => true
  | .prstRelease _ => true
  | .startTimerExpire _ => true
  | .failedStartRestart _ => true
  | .service d => below d 8
  | .fail d => below d 8
  | .clratt d => below d 8
  | .preset d _ => below d 8
  | .mreset d _ => below d 8
  | .hready d => below d 8
  | .resume d => below d 8
  | .handoverTimeout _ => true
  | .stage d src => below d 8 && below src 16
  | .stageComplete _ => true
  | .activate who d => who.wf && below d 8
  | .discard d => below d 8
  | .actvActivate who d tag => who.wf && below d 8 && below tag 256
  | .actvRefuse who d tag => who.wf && below d 8 && below tag 256
  | .settingsMigration d _ _ _ => below d 8
  | .migvMigrate who d tag => who.wf && below d 8 && below tag 256
  | .migvDefaults who d tag => who.wf && below d 8 && below tag 256
  | .flashRead d _ => below d 8
  | .flashProgram d _ => below d 8
  | .flashErase4k d _ => below d 8
  | .flashErase64k d _ => below d 8
  | .flashCommandEnd d _ _ => below d 8
  | .flashTimeout d _ => below d 8
  | .svnBurn d _ => below d 8
  | .queryDeviceIdentifiers => true
  | .getFirmwareParameters => true
  | .getStatus => true
  | .requestUpdate => true
  | .passComponentTable => true
  | .updateComponent flash => below flash 2
  | .firmwareDataReceive _ _ => true
  | .transferComplete _ => true
  | .activateFirmware _ _ => true
  | .cancelUpdateComponent => true
  | .cancelUpdate => true
  | .modeReqMinimal => true
  | .modeReqHeld => true
  | .modeReqTransparent => true
  | .modeReqPartitioned => true
  | .modeReqShared => true
  | .modeReqFederated => true
  | .modeReqDiagnostic => true
  | .modeReqReplay dies imgver => decide (dies < 16) && decide (imgver < 2 ^ 32)
  | .diagnosticEntryEnd => true
  | .diagnosticExitEnd => true
  | .replayEntryEnd => true
  | .partitionDrainEnd => true
  | .partitionDrainTimeout => true
  | .assistTimerExpire _ => true
  | .registerWrite who addr width _ _ => who.wf && below addr (2 ^ 40) && widthOk width
  | .meridianOffsetMeasure d _ => below d 8
  | .meridianResyncEnd d => below d 8
  | .meridianWrap => true
  | .refclkLoss d => below d 8
  | .apply d => below d 8
  | .laneTxeqWrite d ll _ => below d 8 && below ll 64
  | .peggo who d _ => who.wf && below d 8
  | .nerovFastExit d pp lane _ => below d 8 && below pp 16 && below lane 16
  | .laneTestWrite d ll _ _ => below d 8 && below ll 64
  | .inject d ll => below d 8 && below ll 64
  | .clr d ll => below d 8 && below ll 64
  | .laneTestEnd d ll => below d 8 && below ll 64
  | .pcieReplayTimerExpire d pp => below d 8 && below pp 16
  | .pcieLinkTrain d pp _ => below d 8 && below pp 16
  | .flitReceive d _ _ => below d 8
  | .ackTimerExpire d _ => below d 8
  | .rttMeasure d _ _ => below d 8
  | .laneMarkedBad d _ lane _ => below d 8 && below lane 16
  | .keep who d pp tag => who.wf && below d 8 && below pp 16 && below tag 256
  | .stepdown who d pp tag => who.wf && below d 8 && below pp 16 && below tag 256
  | .down who d pp tag => who.wf && below d 8 && below pp 16 && below tag 256
  | .nerovTrain d pp _ => below d 8 && below pp 16
  | .nerovTrainTimeout d pp => below d 8 && below pp 16
  | .linkUp d pp => below d 8 && below pp 24
  | .linkDown d pp => below d 8 && below pp 16
  | .graceTimerExpire d pp => below d 8 && below pp 16
  | .spanLinkDown d e => below d 8 && below e 8
  | .linkCfgWrite d _ _ => below d 8
  | .tlpAdmit d pp _ _ _ => below d 8 && below pp 16
  | .headerEnterCourse d pp _ _ => below d 8 && below pp 16
  | .tableWordFetched d pp => below d 8 && below pp 16
  | .tlpForwardingEntry d pp _ => below d 8 && below pp 16
  | .tlpTag d pp => below d 8 && below pp 16
  | .spanRecordReceive d e _ _ _ => below d 8 && below e 8
  | .spanReleaseReport d iport _ _ _ _ => below d 8 && below iport 1280
  | .fretLoad d _ => below d 8
  | .trapvFwd d _ => below d 8
  | .trapvFwdm d _ => below d 8
  | .trapvHold d _ => below d 8
  | .trapvRefuse d _ => below d 8
  | .trapTimerExpire d pp slot => below d 8 && below pp 16 && below slot 16
  | .add x rd ra rb => x.wf && below rd 32 && below ra 32 && below rb 32
  | .sub x rd ra rb => x.wf && below rd 32 && below ra 32 && below rb 32
  | .and x rd ra rb => x.wf && below rd 32 && below ra 32 && below rb 32
  | .or x rd ra rb => x.wf && below rd 32 && below ra 32 && below rb 32
  | .xor x rd ra rb => x.wf && below rd 32 && below ra 32 && below rb 32
  | .sll x rd ra rb => x.wf && below rd 32 && below ra 32 && below rb 32
  | .srl x rd ra rb => x.wf && below rd 32 && below ra 32 && below rb 32
  | .sra x rd ra rb => x.wf && below rd 32 && below ra 32 && below rb 32
  | .slt x rd ra rb => x.wf && below rd 32 && below ra 32 && below rb 32
  | .sltu x rd ra rb => x.wf && below rd 32 && below ra 32 && below rb 32
  | .min x rd ra rb => x.wf && below rd 32 && below ra 32 && below rb 32
  | .minu x rd ra rb => x.wf && below rd 32 && below ra 32 && below rb 32
  | .max x rd ra rb => x.wf && below rd 32 && below ra 32 && below rb 32
  | .maxu x rd ra rb => x.wf && below rd 32 && below ra 32 && below rb 32
  | .cmovz x rd ra rb => x.wf && below rd 32 && below ra 32 && below rb 32
  | .cmovn x rd ra rb => x.wf && below rd 32 && below ra 32 && below rb 32
  | .clz x rd ra => x.wf && below rd 32 && below ra 32
  | .ctz x rd ra => x.wf && below rd 32 && below ra 32
  | .popc x rd ra => x.wf && below rd 32 && below ra 32
  | .addi x rd ra imm => x.wf && below rd 32 && below ra 32 && below imm 65536
  | .andi x rd ra imm => x.wf && below rd 32 && below ra 32 && below imm 65536
  | .ori x rd ra imm => x.wf && below rd 32 && below ra 32 && below imm 65536
  | .xori x rd ra imm => x.wf && below rd 32 && below ra 32 && below imm 65536
  | .slli x rd ra imm => x.wf && below rd 32 && below ra 32 && below imm 65536
  | .srli x rd ra imm => x.wf && below rd 32 && below ra 32 && below imm 65536
  | .srai x rd ra imm => x.wf && below rd 32 && below ra 32 && below imm 65536
  | .slti x rd ra imm => x.wf && below rd 32 && below ra 32 && below imm 65536
  | .sltui x rd ra imm => x.wf && below rd 32 && below ra 32 && below imm 65536
  | .lui x rd imm => x.wf && below rd 32 && below imm 65536
  | .extu x rd ra imm => x.wf && below rd 32 && below ra 32 && below imm 65536
  | .insu x rd ra imm => x.wf && below rd 32 && below ra 32 && below imm 65536
  | .beq x ra rb off => x.wf && below ra 32 && below rb 32 && below off 65536
  | .bne x ra rb off => x.wf && below ra 32 && below rb 32 && below off 65536
  | .blt x ra rb off => x.wf && below ra 32 && below rb 32 && below off 65536
  | .bge x ra rb off => x.wf && below ra 32 && below rb 32 && below off 65536
  | .bltu x ra rb off => x.wf && below ra 32 && below rb 32 && below off 65536
  | .bgeu x ra rb off => x.wf && below ra 32 && below rb 32 && below off 65536
  | .jmp x off => x.wf && below off 65536
  | .btst x ra bit off => x.wf && below ra 32 && below bit 64 && below off 32768
  | .btcl x ra bit off => x.wf && below ra 32 && below bit 64 && below off 32768
  | .hxf x rd imm => x.wf && below rd 32 && below imm 65536
  | .hxb x rd imm => x.wf && below rd 32 && below imm 65536
  | .lk x rd ra rb handle _ => x.wf && below rd 32 && below ra 32 && below rb 32 && below handle 16
  | .lkf x rd ra _ => x.wf && below rd 32 && below ra 32
  | .mset x field ra => x.wf && below field 6 && below ra 32
  | .mseti x field imm => x.wf && below field 6 && below imm 65536
  | .vFwd x imm => x.wf && below imm 65536
  | .vFwdm x imm => x.wf && below imm 65536
  | .vHold x imm => x.wf && below imm 65536
  | .vRefuse x imm => x.wf && below imm 65536
  | .vTrap x imm => x.wf && below imm 65536
  | .mul d h rd ra rb => below d 8 && below h 2 && below rd 32 && below ra 32 && below rb 32
  | .mulh d h rd ra rb => below d 8 && below h 2 && below rd 32 && below ra 32 && below rb 32
  | .mulhu d h rd ra rb => below d 8 && below h 2 && below rd 32 && below ra 32 && below rb 32
  | .mulhsu d h rd ra rb => below d 8 && below h 2 && below rd 32 && below ra 32 && below rb 32
  | .div d h rd ra rb => below d 8 && below h 2 && below rd 32 && below ra 32 && below rb 32
  | .divu d h rd ra rb => below d 8 && below h 2 && below rd 32 && below ra 32 && below rb 32
  | .rem d h rd ra rb => below d 8 && below h 2 && below rd 32 && below ra 32 && below rb 32
  | .remu d h rd ra rb => below d 8 && below h 2 && below rd 32 && below ra 32 && below rb 32
  | .jal d h rd off => below d 8 && below h 2 && below rd 32 && below off (2 ^ 21)
  | .jalr d h rd ra imm => below d 8 && below h 2 && below rd 32 && below ra 32 && below imm 65536
  | .auipc d h rd imm => below d 8 && below h 2 && below rd 32 && below imm 65536
  | .lb d h rd ra imm => below d 8 && below h 2 && below rd 32 && below ra 32 && below imm 65536
  | .lh d h rd ra imm => below d 8 && below h 2 && below rd 32 && below ra 32 && below imm 65536
  | .lw d h rd ra imm => below d 8 && below h 2 && below rd 32 && below ra 32 && below imm 65536
  | .ld d h rd ra imm => below d 8 && below h 2 && below rd 32 && below ra 32 && below imm 65536
  | .lbu d h rd ra imm => below d 8 && below h 2 && below rd 32 && below ra 32 && below imm 65536
  | .lhu d h rd ra imm => below d 8 && below h 2 && below rd 32 && below ra 32 && below imm 65536
  | .lwu d h rd ra imm => below d 8 && below h 2 && below rd 32 && below ra 32 && below imm 65536
  | .sb d h rs ra imm => below d 8 && below h 2 && below rs 32 && below ra 32 && below imm 65536
  | .sh d h rs ra imm => below d 8 && below h 2 && below rs 32 && below ra 32 && below imm 65536
  | .sw d h rs ra imm => below d 8 && below h 2 && below rs 32 && below ra 32 && below imm 65536
  | .sd d h rs ra imm => below d 8 && below h 2 && below rs 32 && below ra 32 && below imm 65536
  | .ldx d h rd ra => below d 8 && below h 2 && below rd 32 && below ra 32
  | .stx d h rd ra rb => below d 8 && below h 2 && below rd 32 && below ra 32 && below rb 32
  | .fenceS d h => below d 8 && below h 2
  | .fenceF d h => below d 8 && below h 2
  | .fenceI d h => below d 8 && below h 2
  | .wait d h => below d 8 && below h 2
  | .sysreq d h => below d 8 && below h 2
  | .brkpt d h => below d 8 && below h 2
  | .tret d h => below d 8 && below h 2
  | .crd d h rd n => below d 8 && below h 2 && below rd 32 && below n 1024
  | .cwr d h ra n => below d 8 && below h 2 && below ra 32 && below n 1024
  | .cmod d h rd ra n _ => below d 8 && below h 2 && below rd 32 && below ra 32 && below n 1024
  | .eventTaken d h => below d 8 && below h 2
  | .hartWake d h => below d 8 && below h 2
  | .cyccmpMatch d h => below d 8 && below h 2
  | .checkpoint d h => below d 8 && below h 2
  | .lockstepDivergence d h => below d 8 && below h 2
  | .accessResponse d h load _ => below d 8 && below h 2 && loadOk load
  | .targetTimeout d h load => below d 8 && below h 2 && loadOk load
  | .withdrawalAnswer d h _ _ => below d 8 && below h 2
  | .debugAccessTimeout d addr _ => below d 8 && below addr (2 ^ 40)
  | .install who => who.wf
  | .revoke who => who.wf
  | .coreClkSelect d _ => below d 8
  | .stagingWrite who off _ width _ => who.wf && below off (2 ^ 24) && widthOk width
  | .go who _ => who.wf
  | .capoFlitReceive d => below d 8
  | .pageReloadEnd d => below d 8
  | .epochDrained d => below d 8
  | .epochRetire => true
  | .bankSyncEnd d => below d 8
  | .restamp d pp => below d 8 && below pp 16
  | .translationSlow d pp => below d 8 && below pp 16
  | .fenceTimerExpire d pp _ => below d 8 && below pp 16
  | .scrubPass d _ _ => below d 8
  | .cellDraw d _ _ => below d 8
  | .zeroEngineStep d _ => below d 8
  | .auditRound d => below d 8
  | .reclaim who d tag => who.wf && below d 8 && below tag 256
  | .leakvKeep who d tag => who.wf && below d 8 && below tag 256
  | .bufReservationWrite d _ _ _ => below d 8
  | .holdQueueRelease flow => below flow (2 ^ 19)
  | .holdAgeExpire flow => below flow (2 ^ 19)
  | .pxvRed who d tag => who.wf && below d 8 && below tag 256
  | .pxvHold who d tag => who.wf && below d 8 && below tag 256
  | .pxvDemote who d tag => who.wf && below d 8 && below tag 256
  | .pxvRefuse who d tag => who.wf && below d 8 && below tag 256
  | .pxQuietExpire flow => below flow (2 ^ 19)
  | .schedulerSelect d pp _ => below d 8 && below pp 16
  | .qshapeWrite d pp q _ => below d 8 && below pp 16 && below q 16
  | .histTick d pp => below d 8 && below pp 16
  | .snap d pp => below d 8 && below pp 16
  | .faceConfigRequest n face fn _ _ => below n 32 && below face 2 && below fn 256
  | .followTimeout n => below n 32
  | .almlockWrite who _ => who.wf
  | .almpatchWrite who _ _ _ => who.wf
  | .proxyCompletion d _ => below d 8
  | .proxyTimeout d tag => below d 8 && below tag 1024
  | .secondaryBusReset n k => below n 32 && below k 64
  | .faceLinkRetrain n k => below n 32 && below k 64
  | .powerControllerControl n k _ => below n 32 && below k 64
  | .initiateFlr n => below n 32
  | .pmeTurnOff n face => below n 32 && below face 2
  | .pmeToTimeout n face => below n 32 && below face 2
  | .walkReadCompletion d _ _ _ _ => below d 8
  | .walkReadTimeout d _ => below d 8
  | .ptabWrite who off _ => who.wf && below off (2 ^ 22)
  | .ptownWrite who f _ => who.wf && below f 1024
  | .xltinvAll who => who.wf
  | .xltinvContext who ctx => who.wf && below ctx 4096
  | .xltinvRange who ctx pages => who.wf && below ctx 4096 && below pages (2 ^ 18)
  | .xltinvEnd => true
  | .prgResponse n face tag code _ => below n 32 && below face 2 && below tag 512 && below code 16
  | .prvSuccess who d tag _ => who.wf && below d 8 && below tag 512
  | .prvInvalidRequest who d tag => who.wf && below d 8 && below tag 512
  | .prvResponseFailure who d tag => who.wf && below d 8 && below tag 512
  | .dmaOwnerWrite d c _ => below d 8 && below c 32
  | .dmaEnable d c _ => below d 8 && below c 32
  | .dmaDisable d c _ => below d 8 && below c 32
  | .dmaTailWrite d c _ => below d 8 && below c 32
  | .dmaDescriptorFetch d c => below d 8 && below c 32
  | .copy d c => below d 8 && below c 32
  | .fill d c => below d 8 && below c 32
  | .dmaChunkIssue d _ _ => below d 8
  | .dmaReadCompletion d c tag _ _ => below d 8 && below c 32 && below tag (2 ^ 14)
  | .dmaReadTimeout d c tag => below d 8 && below c 32 && below tag (2 ^ 14)
  | .dmaCompletionRecord d c _ => below d 8 && below c 32
  | .dmaFvComplete who d c tag => who.wf && below d 8 && below c 32 && below tag 256
  | .retry who d c tag => who.wf && below d 8 && below c 32 && below tag 256
  | .stop who d c tag => who.wf && below d 8 && below c 32 && below tag 256
  | .faultTaken d _ => below d 8
  | .escalationTimerExpire d _ => below d 8
  | .quietExpire d _ _ _ _ => below d 8
  | .handled who d tag _ => who.wf && below d 8 && below tag 256
  | .escalate who d tag => who.wf && below d 8 && below tag 256
  | .release who d tag _ _ _ => who.wf && below d 8 && below tag 256
  | .dpcTrigger n k => below n 32 && below k 64
  | .dpcRelease n k => below n 32 && below k 64
  | .spanIsolationTimeout d => below d 8
  | .watchdogExpire d => below d 8
  | .kick d => below d 8
  | .pollForPlatformEventMessage _ => true
  | .platformEventMessageResponse _ => true
  | .evtRouteWrite d e _ => below d 8 && below e 1024
  | .domainRequest x _ => x.wf
  | .domainWake x => x.wf
  | .domainTransitionEnd x => x.wf
  | .domainFail x => x.wf
  | .bufbCloseEnd d k => below d 8 && below k 64
  | .retainedAccessWake d _ => below d 8
  | .padRelease d _ => below d 8
  | .tempSample d _ => below d 8
  | .tempSensorTimeout d => below d 8
  | .avsAck d _ _ => below d 8
  | .avsTimeout d => below d 8
  | .avsRetry d => below d 8
  | .railOutOfRange _ => true
  | .vhildLoss => true
  | .vhildReturn => true
  | .prsntChange n _ _ => below n 32
  | .slotSeated n => below n 32
  | .feedRangeChange n _ _ => below n 32
  | .reverseTurnoff n _ => below n 32
  | .oringReenhance n _ => below n 32
  | .faultTimerStart n => below n 32
  | .faultTimerStop n => below n 32
  | .timeout n => below n 32
  | .rampto n => below n 32
  | .fetfault n => below n 32
  | .short n => below n 32
  | .gateokChange n _ => below n 32
  | .pgoodQualify n => below n 32
  | .perstRelease n => below n 32
  | .pwrenSet n _ => below n 32
  | .pwrenClear n _ => below n 32
  | .dischargeEnd n => below n 32
  | .proceed who n tag => who.wf && below n 32 && below tag 256
  | .abort who n tag => who.wf && below n 32 && below tag 256
  | .sendByte _ _ => true
  | .recvByte _ _ => true
  | .writeByte _ _ => true
  | .readByte _ _ => true
  | .writeWord _ _ => true
  | .readWord _ _ => true
  | .blockWrite _ _ => true
  | .blockRead _ _ => true
  | .i2cWrite _ _ => true
  | .i2cRead _ _ => true
  | .lock _ => true
  | .unlock _ => true
  | .smbusTransactionEnd d _ _ _ => below d 8
  | .smbusClockTimeout d _ => below d 8
  | .windowReadHoldExpire n k _ => below n 32 && below k 64
  | .talloc d => below d 8
  | .free d t => below d 8 && below t 32
  | .ticketDiscard d t => below d 8 && below t 32
  | .lockIdleTimeout d _ => below d 8
  | .sidebandPoll d _ _ => below d 8
  | .hildSignalRead d => below d 8
  | .clkreqRequest d pp _ => below d 8 && below pp 16
  | .segmentSeal d ch _ => below d 8 && below ch 4
  | .triggerFire d ix => below d 8 && below ix 8
  | .freeze d => below d 8
  | .rectrigEdge => true
  | .remoteTrigger d src => below d 8 && below src 8
  | .arm d _ => below d 8
  | .anchorStart => true
  | .anchorEnd d => below d 8
  | .startReplay d _ _ => below d 8
  | .replayDone d => below d 8
  | .recGetStat => true
  | .recGetSegment d seg => below d 8 && below seg 2048
  | .recMctpFreeze => true
  | .recMctpArm => true
  | .dllpReceive d pp _ => below d 8 && below pp 16
  | .linkLowPowerEntry d pp k _ => below d 8 && below pp 16 && below k 64
  | .linkLowPowerExit d pp => below d 8 && below pp 16
  | .dischargeStart n => below n 32
  | .rampVdsBelow200mv n => below n 32
  | .rejoinCopyEnd d => below d 8
  | .illegalInstruction d h w _ => below d 8 && below h 2 && below w (2 ^ 32)

end Sys2Proof
end

