-- ==== Sys2Proof/Tests/Slice0.lean ====
section
/-! SUPPORT. Tests of the model: states that meet the hypotheses of the statements, worked cases of the spec, and ill-formed commands that the
well-formedness check refuses. -/

namespace Sys2Proof.Tests

open Machine

set_option maxRecDepth 100000


/-! ### The machine -/

/-- A part in service. -/
def served : State := ((({ boot := { held := false } } : State).setReg partDieState 0x33333333).setFld partMode PartMode.CUR 2).setFld partLead PartLead.HILDPATH 0
theorem witness_locked : served.reachOf .bmc (dieBase 1 + 0x3B80008) = .at ⟨1, 24, 8, 0x3B80008⟩ ∧ served.lockedCover 1 24 0 = some 0
    ∧ served.active 1 = true := by decide
theorem test_locked : (match exec (.registerWrite .bmc (dieBase 1 + 0x3B80008) 8 5 {}) served with
    | .next t => t.fld (gateErr 1) GateErr.REFUSED == 1 && t.reg (dreg .gateFrec0 1) == 0x8080C10203B80008 | _ => false) = true := by decide
theorem test_step_order : (match step { served with pending := [.kick 0, .mreset 9 {}] } with
    | .next t => t.pending == [.mreset 9 {}] && t.flt.wdog.get 0 0 == t.fld { name := .partFltcfg } PartFltcfg.WDOG | _ => false) = true := by decide
theorem witness_memory_form : MemOk { served with mem := [(4, 1), (5, 2)] } ∧ ¬ MemOk { served with mem := [(5, 2), (4, 1)] }
    ∧ ¬ MemOk { served with mem := [(5, 0)] } := by unfold MemOk; decide

/-! ### Well-formedness: an ill-formed command for every check -/

theorem test_wf_accepts : (Instr.add (.hart 7 1) 31 0 5).wf = true ∧ (Instr.registerWrite .bmc 0x100000000 8 0 {}).wf = true
    ∧ (Instr.domainRequest { hild := true, d := 0, i := 4 } 2).wf = true ∧ (Instr.targetTimeout 0 1 (some 7)).wf = true := by decide
/-- Numbers out of range: a die, a hart, a port, a register, an immediate, a slot. -/
theorem test_wf_below : (Instr.mreset 8 {}).wf = false ∧ (Instr.jal 0 2 1 0).wf = false ∧ (Instr.linkLowPowerExit 0 16).wf = false
    ∧ (Instr.add (.hart 0 0) 32 0 0).wf = false ∧ (Instr.addi (.hart 0 0) 1 1 65536).wf = false ∧ (Instr.short 32).wf = false := by decide
/-- An access of three bytes; an address of more than 40 bits. -/
theorem test_wf_width : (Instr.registerWrite .bmc 0 3 0 {}).wf = false ∧ (Instr.registerWrite .bmc (2 ^ 40) 4 0 {}).wf = false := by decide
/-- A ninth outstanding load. -/
theorem test_wf_load : (Instr.targetTimeout 0 0 (some 8)).wf = false := by decide
/-- A fret engine of a seventeenth port, a third hart of a die. -/
theorem test_wf_exec : (Instr.add (.course 0 16) 1 1 1).wf = false ∧ (Instr.add (.hart 0 2) 1 1 1).wf = false := by decide
/-- A thirty-third partition's endpoint, a thirty-third channel, a ninth die's hart. -/
theorem test_wf_master : (Instr.handled (.endpoint 32) 0 1 []).wf = false ∧ (Instr.handled (.dma 0 32) 0 1 []).wf = false
    ∧ (Instr.handled (.hart 8 0) 0 1 []).wf = false := by decide
/-- A seventy-third domain. -/
theorem test_wf_domain : (Instr.domainRequest { hild := false, d := 0, i := 72 } 2).wf = false ∧ (Instr.domainWake { hild := false, d := 8, i := 0 }).wf = false := by decide


/-! ### Modes, register access, the meridian -/

/-- A KF-2128 in service in a mode, with a Hild path and the patch table locked. -/
def inMode (m : Nat) : State :=
  ((((({ fuses := { member := .kf2128 }, boot := { held := false } } : State).setReg partDieState 0x33).setFld partMode PartMode.CUR m).setFld
    partMode PartMode.BASE m).setFld partLead PartLead.HILDPATH 0).setFld { name := .partAlmlock } PartAlmlock.LOCK 1

/-- The same with an older epoch live on die 1. -/
def twoLive (m : Nat) : State := { inMode m with tab := { dies := [(1, { older := some [], newE := 1 })] } }

theorem witness_mode_requests : (inMode 0).mode = 0 ∧ (inMode 7).mode = 7 ∧ (inMode 7).fld partMode PartMode.BUSY = 0
    ∧ ((inMode 3).setFld partMode PartMode.BUSY 1).fld partMode PartMode.BUSY = 1 ∧ byCapo 4 3 = true ∧ byCapo 1 5 = true
    ∧ (twoLive 1).capoTaken = false ∧ (twoLive 1).twoEpochs = true ∧ (twoLive 1).modeReady 1 5 = true := by decide

theorem test_mode_waits : (match exec .modeReqFederated (twoLive 1) with
    | .next t => t.tab.waiting && t.fld partCapo PartCapo.STATUS == 2 && t.mode == 1 && t.fld partMode PartMode.BUSY == 1 | _ => false) = true := by decide

theorem witness_mode_waits : ({ inMode 2 with tab := { queue := [(8, 5)] } } : State).tab.queue ≠ [] ∧ byCapo 2 3 = true
    ∧ ({ inMode 2 with tab := { queue := [(8, 5)] } } : State).capoTaken = false ∧ ({ inMode 2 with tab := { waiting := true } } : State).capoTaken = true
    ∧ byCapo 4 5 = true ∧ (inMode 4).modeReady 4 5 = false ∧ (inMode 4).tab.queue = [] ∧ (inMode 4).tab.heldWrites = [] := by decide

theorem witness_diag_replay : (inMode 2).mode ∈ [2, 3, 4, 5] ∧ (inMode 1).mode = 1 ∧ (inMode 1).recordingFits (2, 0) = true
    ∧ ({ inMode 1 with gate := { token := some { grants := 1, entries := [] } } } : State).granted 0 = true
    ∧ ({ inMode 2 with tab := { request := some 6 } } : State).tab.request = some 6
    ∧ ({ twoLive 4 with tab := { (twoLive 4).tab with drain := some 4 } } : State).twoEpochs = true := by decide
set_option maxHeartbeats 2000000 in
theorem test_replay_map : (match exec (.modeReqReplay 2 0) { inMode 1 with gate := { token := some { grants := 1, entries := [] } } } with
    | .next t => t.quad 0 3 == 4 && t.quad 0 4 == 0 | _ => false) = true := by decide

theorem witness_register_write : (inMode 2).hasPath = true ∧ (inMode 2).refusedPage 1 0 0x80 (0x10040 + 0x100 * 63) 8 1 = none
    ∧ ((inMode 2).setFld { name := .gateCtl, die := 1, i := 0 } GateCtl.ARM 1).refusedPage 1 0 0x80 0x10040 8 1 ≠ none := by decide
theorem test_register_write : (match exec (.registerWrite .bmc (dieBase 1 + 0x10040 + 0x100 * 63) 8 0xABCD {}) (inMode 2) with
    | .next t => t.reg { name := .laneUserpat, die := 1, i := 63 } == 0xABCD | _ => false) = true := by decide

theorem witness_meridian : ((inMode 2).offsetToLead 1).natAbs ≤ 2 * 65536 ∧ (1 : Nat) ≠ (inMode 2).lead ∧ (inMode 2).active (inMode 2).lead = true
    ∧ (1 : Nat) ∈ ({ inMode 2 with clock := { slewing := [1] } } : State).clock.slewing ∧ (inMode 2).clock.clock.get 0 1 < 2 := by decide

/-- Lane 0 of die 0 carries port 0 and its peg waits with tag 5. -/
def pegged : State := ({ inMode 2 with lane := { live := [((0, 0), 1)] } } : State).setFld (lanePeg 0 0) LanePeg.TAG 5
theorem witness_peg : pegged.pegWaiting 0 0 ≠ 0 ∧ (0 : Nat) ∈ pegged.lanesOf 0 0 := by decide


/-! ### Lanes -/

theorem witness_apply : applyStatus 0 ((inMode 2).setReg { name := .laneQmap, die := 0, i := 0 } 7) = 2
    ∧ applyStatus 0 (inMode 2) = 1 := by decide
set_option maxHeartbeats 2000000 in
theorem test_apply_port : (match exec (.apply 0) (((inMode 2).setReg { name := .laneQmap, die := 0, i := 0 } 0x302).setFld (dom 0 0).reg PwrDom.LATCHED 0) with
    | .next t => t.fld (dreg .laneMapctl 0) LaneMapctl.STATUS == 1 && t.lanesOf 0 3 == [0, 1, 2, 3] && t.linkState 0 3 == 1 | _ => false) = true := by decide

theorem witness_txeq : LaneTxeq.OVR.of 0x80000000 = 1 ∧ LaneTxeq.CM2.of 0x80000000 + LaneTxeq.CM1.of 0x80000000 + LaneTxeq.C0.of 0x80000000
      + LaneTxeq.CP1.of 0x80000000 ≠ 63 ∧ LaneTxeq.OVR.of 0 = 0
    ∧ (let v := (BitVec.ofNat 64 (LaneTxeq.OVR.place 1 + LaneTxeq.C0.place 50 + LaneTxeq.CM1.place 5 + LaneTxeq.CP1.place 8) : Word)
       LaneTxeq.OVR.of v = 1 ∧ LaneTxeq.CM2.of v + LaneTxeq.CM1.of v + LaneTxeq.C0.of v + LaneTxeq.CP1.of v = 63 ∧ LaneTxeq.CM2.of v = 0
         ∧ LaneTxeq.CM1.of v + LaneTxeq.CP1.of v + 21 ≤ LaneTxeq.C0.of v) := by decide

theorem witness_peggo : LanePeggo.GO.of 0x50001 = 1 ∧ LanePeggo.TAG.of 0x50001 = 5 ∧ pegged.pegWaiting 0 0 = 5
    ∧ (pegged.lanesOf 0 0).all (pegged.pegFieldOk 0 0) = true := by decide

theorem witness_tests : (inMode 2).testAllowed 0 9 = true ∧ pegged.testAllowed 0 0 = false ∧ patternOk 1 ((inMode 2).laneRate 0 9) = true
    ∧ ((inMode 2).setReg { name := .laneTest, die := 0, i := 9 } 7).fld { name := .laneTest, die := 0, i := 9 } LaneTest.SYNC = 1
    ∧ ((inMode 2).setReg { name := .laneTest, die := 0, i := 9 } 7).laneTests 0 9 = true := by decide

/-- Port 0 of die 0 has lanes 0 and 1 and its link is in a state; as a Nerov link or not. -/
def linkIn (st : Nat) (nerov : Bool) : State :=
  ((pegged.setFld (lreg .linkStat 0 0) LinkStat.STATE st).setFld (lreg .linkCfg 0 0) LinkCfg.KIND (if nerov then 1 else 0)).modLink 0 0
    fun l => { l with nerov := nerov }

theorem witness_low_power : (linkIn 3 false).linkState 0 0 = 3 ∧ (linkIn 3 false).isNerov (gport 0 0) = false
    ∧ (linkIn 3 false).fld (lreg .linkStat 0 0) LinkStat.FLIT = 0 ∧ (linkIn 5 false).linkState 0 0 = 5 := by decide
theorem witness_fast_exit : (linkIn 5 true).isNerov (gport 0 0) = true ∧ ((linkIn 5 true).lanesOf 0 0)[1]? = some 1
    ∧ (((linkIn 5 true).modLink 0 0 fun l => { l with lowPower := 4 }).link 0 0).lowPower = 4
    ∧ 2 ≤ ({ linkIn 5 true with lane := { fastFail := [((0, 1), 2)] } } : State).lane.fastFail.get 0 (0, 1) := by decide


/-! ### Links -/

/-- The data flit with sequence number 0, its CRC computed. -/
def flit0 : Flit := { ({ seq := 0, typ := 1 } : Flit) with crc := ({ seq := 0, typ := 1 } : Flit).crcOf }

theorem witness_flit : (linkIn 3 true).linkLive 0 0 = true ∧ ({ seq := 0, typ := 4 } : Flit).good = false
    ∧ flit0.seq = (((linkIn 3 true).link 0 0).rxAck + 1) % 65536 ∧ ((linkIn 3 true).link 0 0).newQ = []
    ∧ ((linkIn 3 true).link 0 0).neverSent 0xFFFF = false ∧ 512 ≤ (600 + 65536 + 65536 - 65535 - 1) % 65536 := by decide
set_option maxHeartbeats 4000000 in
theorem witness_flit_crc : flit0.good = true := by decide

/-- R80: the CRC-64 of the check string of the family, "123456789" as bytes, with initial value and final XOR all ones. -/
theorem test_crc64 : crc64 0xFFFFFFFFFFFFFFFF [0x31, 0x32, 0x33, 0x34, 0x35, 0x36, 0x37, 0x38, 0x39] ^^^ 0xFFFFFFFFFFFFFFFF = 0x62EC59E3F1A4F00A := by decide

theorem witness_replay : ((linkIn 3 true).modLink 0 0 fun l => { l with held := [{ flit := flit0, replays := 3 }] }).fld
      (lreg .linkCfg 0 0) LinkCfg.KIND = 1
    ∧ (linkIn 3 false).replayN 0 0 = 4 ∧ 2048 ≤ (4095 + 4096 - ((linkIn 3 false).link 0 0).pcieNext) % 4096 := by decide
theorem witness_rtt : ((100 * (linkIn 3 true).rawRate 0 0 + 2559) / 2560 + 20 + 15) / 16 * 16 < 65536 ∧ (linkIn 3 true).isNerov (gport 0 0) = true := by decide
theorem witness_bad_lane : (linkIn 3 true).fld (dreg .linkHealth 0) LinkHealth.THRESH ≠ 0
    ∧ 3 ≤ ((List.range 16).filter (((linkIn 3 true).setFld (lreg .linkLanes 0 0) LinkLanes.ACTIVE 15).fld (lreg .linkLanes 0 0)
        LinkLanes.ACTIVE).testBit).length
    ∧ (((inMode 2).setFld (lreg .linkStat 0 17) LinkStat.STATE 3).setFld (lreg .linkSpstat 0 17) LinkSpstat.SPARES 2).linkLive 0 17 = true := by decide
theorem test_repair : (match exec (.laneMarkedBad 0 17 3 2) (((inMode 2).setFld (lreg .linkStat 0 17) LinkStat.STATE 3).setFld
      (lreg .linkSpstat 0 17) LinkSpstat.SPARES 2) with
    | .next t => t.linkState 0 17 == 8 && (match exec (.linkUp 0 17) t with
      | .next u => u.linkState 0 17 == 3 && u.fld (lreg .linkSpstat 0 17) LinkSpstat.SPARES == 1 | _ => false) | _ => false) = true := by decide

theorem witness_train : (linkIn 1 false).mayTrain 0 0 = true ∧ (linkIn 1 false).linkState 0 0 = 1
    ∧ ({ inMode 2 with lane := { live := [((0, 0), 1)] } } : State).pegWaiting 0 0 = 0 ∧ (linkIn 1 true).isNerov (gport 0 0) = true
    ∧ ((linkIn 7 false).modLink 0 0 fun l => { l with grace := true }).link 0 0 = { grace := true }
    ∧ ((linkIn 3 false).setFld (lreg .linkRtv 0 0) LinkRtv.TAG 3).fld (lreg .linkRtv 0 0) LinkRtv.TAG = 3
    ∧ ((linkIn 3 false).setFld (lreg .linkStat 0 0) LinkStat.RATE 5).canStep 0 0 = true
    ∧ (linkIn 3 false).fld (lreg .linkCfg 0 0) LinkCfg.ENABLE = 1 := by decide
theorem test_train : (match exec (.pcieLinkTrain 0 0 { rate := 5, width := 2 }) ({ linkIn 1 false with lane := { live := [((0, 0), 1)] } } : State) with
    | .next t => t.linkState 0 0 == 3 && t.fld (lreg .linkStat 0 0) LinkStat.RATE == 5 | _ => false) = true := by decide
theorem test_grace_clamp : (match exec (.linkCfgWrite 0 0 0x837003E8) (linkIn 3 false) with
    | .next t => t.fld (lreg .linkCfg 0 0) LinkCfg.GRACE == 500 && t.linkState 0 0 == 3 | _ => false) = true := by decide


/-! ### Fret engines -/

/-- A part in TRANSPARENT whose port 0 of die 0 runs a course with a non-posted read. -/
def coursed : State :=
  let c : Course := { pkt := { tlp := { kind := 1, addr := 0x1000, rid := 0x100, tag := 7, raw := [0x20, 1, 2, 3] } }, live := true, prog := 2 }
  { inMode 2 with fret := { course := [(0, c)] }, buf := { dies := [(0, { ready := true }), (1, { ready := true })] } }

theorem witness_fret_course : CourseFree coursed 0 0 (coursed.fret.course.get {} 0) ∧ coursed.recState 0 = 0 ∧ coursed.active 0 = true
    ∧ (coursed.fret.course.get {} 0).pkt.tlp.cls = 1 ∧ bitOf (coursed.bankAt 0 0 0x7000) 63 = false := by unfold CourseFree; decide
theorem test_v_trap : (match exec (.vTrap (.course 0 0) 9) coursed with
    | .next t => t.fld (traprec .fretTraprec0 0 0) FretTraprec0.CODE == 9 && (t.fret.parked.find (0, 0)).isSome | _ => false) = true := by decide
theorem test_v_refuse : (match exec (.vRefuse (.course 0 0) 0x8000) coursed with
    | .next t => t.fld (tlerr 0) FltTlerr.CASENT == 1 && (t.queue 0 0).map (fun p => p.tlp.cst) == [4] | _ => false) = true := by decide
theorem test_hxb : (match exec (.hxb (.course 0 0) 3 (128 * 1 + 0)) coursed with
    | .next t => rget (t.fret.course.get {} 0).regs 3 == 0x2001 | _ => false) = true := by decide

/-- Port 0 of die 0 is up as a PCIe port, in PARTITIONED under a program of slot 2. -/
def admitting : State :=
  { linkIn 3 false with buf := { dies := [(0, { ready := true })] }, tab := { dies := [(0, { newest := [(0, 3), (0x600, BitVec.ofNat 64 (2 * 2 ^ 40))] })] } }
/-- A posted write of 4 bytes. -/
def write4 : Tlp := { kind := 0, addr := 0x2000, raw := List.replicate 16 1, payload := [1, 2, 3, 4] }
theorem witness_admit : admitting.portUp 0 = true ∧ admitting.flt.partCase = false ∧ admitting.isNerov 0 = false
    ∧ (admitting.link 0 0).pcieRx = 0 ∧ admitting.takenEarly 0 write4 = false ∧ admitting.hasPartial 0 = false
    ∧ (storeRecord 0 (.pcie 0 0) 5 write4 admitting).isSome = true ∧ admitting.active 0 = true ∧ admitting.recState 0 = 0 := by decide
theorem witness_enter : ({ admitting with fret := { hq := [(0, [{ tlp := write4 }])] } } : State).modeOf { tlp := write4 } = 3 ∧ write4.crcBad = false ∧ coursed.pageOk 1 19 0x59 2 1 = true
    ∧ admitting.progOf 0 0 = 2 ∧ admitting.resolve { tlp := write4, mdata := { egress := 0xFFFF } } = none := by decide
theorem witness_tag : pdie 1 = 0 ∧ ((admitting.setFld (lreg .linkStat 0 1) LinkStat.STATE 3)).linkState 0 (pnum 1) = 3
    ∧ (inMode 2).dieState 0 = 3 ∧ (inMode 2).hasTag { iport := 16, egress := 0, seq := 1 } = false
    ∧ (inMode 2).hasTag { iport := 16, egress := 0, seq := 0 } = true
    ∧ (storeRecord 0 (.span 0 1 0 0) 5 write4 coursed).isSome = true ∧ coursed.tagGone { iport := 16, seq := 0 } = true := by decide
theorem test_tag : (match exec (.tlpTag 0 0) { (admitting.setFld (lreg .linkStat 0 1) LinkStat.STATE 3) with
      fret := { toTag := [(0, [{ tlp := write4, dests := [1] }])] } } with
    | .next t => (t.queue 1 0).map (fun p => (p.seq, p.pfence)) == [(1, 1)] | _ => false) = true := by decide

/-- A program of one V_FWD staged on die 0. -/
def loading : State := (inMode 2).setReg (fretStage 0 0) 0x3E
theorem witness_program_load : FretLoad.GO.of 1 = 1 ∧ loading.stageClosed = false
    ∧ (loadCheck ((List.range 24).map fun i => (loading.reg (fretStage 0 i)).toNat % 2 ^ 32) 0 0).1 = 2
    ∧ (loadCheck ((List.range 24).map fun i => (loading.reg (fretStage 0 i)).toNat % 2 ^ 32) 1 0).1 = 1 := by decide
theorem witness_trapv : ({ inMode 2 with fret := { parked := [((0, 0), { pkt := {}, tag := 1 })] } } : State).fret.parked.find
      (gport 0 (FretTrapv.PORT.of 0), FretTrapv.SLOT.of 0) ≠ none := by decide


/-! ### Tables -/

/-- Both dies of a KF-2128 serve epoch 5; die 1 has not flipped to epoch 6 yet and its CAPO flit is on the way. -/
def flipping : State :=
  { (inMode 2).setFld partCapo PartCapo.BUSY 1 with
    tab := { dies := [(0, { newE := 6, oldE := 5, older := some [] }), (1, { newE := 5, shadow := [(0x2000, 7)] })],
             toFlip := [1, 0], flits := [1], capoE := 6, queue := [(3, 1)] } }

theorem witness_staging : (inMode 2).stageClosed = false ∧ flipping.stageClosed = true ∧ (inMode 2).flt.noLead = false
    ∧ (inMode 2).active ((inMode 2).viaDie (.hart 1 0)) = true ∧ (0x3000 : Nat) % 8 = 0 ∧ (0x3000 : Nat) < 8 * bankWords := by decide
theorem test_stage_all : (match exec (.stagingWrite (.hart 1 0) 0x8000 9 8 []) (inMode 2) with
    | .next t => bankWord (t.tabDie 0).shadow 0x1000 == 9 && bankWord (t.tabDie 1).shadow 0x1000 == 9 && t.newE 0 == 0 | _ => false) = true := by decide
theorem witness_go : (inMode 2).tab.mode = none ∧ (∀ x, x ∈ (inMode 2).activeDies → (inMode 2).sameVersion x = true) ∧ (inMode 2).capoTaken = false ∧ (inMode 2).twoEpochs = false ∧ (inMode 2).mode = 2 ∧ flipping.capoTaken = true
    ∧ (inMode 2).activeDies.erase (inMode 2).lead ≠ [] ∧ (flipping.setFld partCapo PartCapo.BUSY 0).capoTaken = false
    ∧ (flipping.setFld partCapo PartCapo.BUSY 0).twoEpochs = true ∧ (inMode 7).mode = 7 := by decide
theorem test_go : (match exec (.go .bmc false) (inMode 2) with
    | .next t => t.newE 0 == 0 && (capoTick t).newE 0 == 1 && (capoTick t).newE 1 == 0 && (capoTick t).tab.flits == [1]
        && t.fld partCapo PartCapo.BUSY == 1 && t.fld partCapo PartCapo.FENCE == 0 | _ => false) = true := by decide
theorem witness_flip : flipping.tab.toFlip.erase 1 ≠ [] ∧ (flipping.bufDie 1).spanWait = [] ∧ 1 ∈ flipping.tab.flits := by decide
theorem test_flip : (match exec (.capoFlitReceive 1) flipping with
    | .next t => t.newE 1 == 6 && bankWord (t.tabDie 1).newest 0x2000 == 7 && getBits (bankWord (t.tabDie 1).newest 0) 47 32 == 6 | _ => false) = true := by decide

/-- Both dies of a KF-2128 have flipped to epoch 6; die 0 reported the older epoch drained. -/
def draining : State :=
  { (inMode 2) with
    tab := { dies := [(0, { newE := 6, oldE := 5, older := some [], written := [1] }),
                      (1, { newE := 6, oldE := 5, older := some [], reload := [3], badPages := [3] })], drained := [0, 1], fenced := [6] },
    fret := { hq := [(0, [{ tlp := write4, epoch := 5 }])] } }

theorem witness_reload : (draining.tabDie 1).newE = draining.newE (draining.reloadFrom 1) ∧ draining.reloadFrom 1 ≠ 0xF
    ∧ (draining.setDieState 1 4).dieState 1 = 4 ∧ (draining.setDieState 1 4).active 1 = true := by decide
theorem witness_drained : ({ draining with tab := { draining.tab with drained := [0] }, fret := {} } : State).unsettled 1 5 = 0
    ∧ draining.unsettled 0 5 = 1 := by decide
theorem witness_retire : (draining.tabDie 0).older.isSome = true ∧ draining.tab.toFlip = [] ∧ draining.newE draining.lead < 65536
    ∧ (∀ e, e ∈ draining.activeDies → e ∈ draining.tab.drained) := by decide
theorem test_retire : (match exec .epochRetire draining with
    | .next t => (t.tabDie 0).older.isNone && (t.tabDie 0).syncing && (t.tabDie 0).syncPages == [1]
        && (t.reg { name := .partEpoch }).toNat % 65536 == 6 | _ => false) = true := by decide
theorem witness_sync : (match exec .epochRetire draining with
    | .next t => (t.tabDie 1).syncing && (t.tabDie 0).syncing && (t.tabDie 1).older.isNone && !t.tab.waiting | _ => false) = true := by decide
theorem witness_restamp : olderEpoch 5 6 = true ∧ olderEpoch 6 5 = false ∧ olderEpoch 0xFFFF 0 = true := by decide
/-- Port 0 of die 0 in PARTITIONED, two epochs live: its packet of epoch 5 to port 1 waits for a tag, 4,096 being given. -/
def tagsFull : State :=
  let e : FMap Nat Word := [(0x600, BitVec.ofNat 64 (2 ^ 63 + 2 * 2 ^ 40)), (0x608, BitVec.ofNat 64 (2 ^ 63 + 2 * 2 ^ 40)), (0xA01, 3),
    (0xA00, BitVec.ofNat 64 (2 ^ 63))]
  { inMode 3 with
    lane := { live := [((0, 0), 1 + 4096)] },
    tab := { dies := [(0, { newE := 6, oldE := 5, older := some e, newest := e })] },
    fret := { decided := [(0, [{ tlp := write4, epoch := 5, mdata := { egress := 1 } }])], streams := [((0, 1, 0), { outst := [(0, 4096)] })] } }
theorem witness_tag_full : tagsFull.tagFull { tlp := write4, epoch := 5, mdata := { egress := 1 } } = true
    ∧ (tagsFull.tabDie 0).older.isSome = true := by decide
theorem test_restamp : (match exec (.restamp 0 0) tagsFull with
    | .next t => (t.fret.hq.get [] 0).map (fun p => p.epoch) == [6] && t.fld (dreg .tabCnt 0) TabCnt.RESTAMPS == 1 | _ => false) = true := by decide
theorem witness_fence : draining.fenceActive 0 0 (draining.newE 0) = true ∧ draining.fenceActive 0 1 (draining.newE 0) = false := by decide
theorem witness_slow : ({ inMode 2 with xlt := { dies := [(0, { walks := [{ id := 4, who := .tlp 3, ctx := 2, pkt := { iport := 3 }, w0 := 0, w1 := 0, va := 0, wr := true, rd := false, lvl := 0 }] })] } } : State).xltDie 0
    |>.walks.find? (fun w => w.who == .tlp (gport 0 3) && !w.queued) |>.isSome := by decide


/-! ### The packet buffer -/

/-- A die with a leaked cell 8, a free cell 9 that a packet still names, and a cell 7 to verify. -/
def leaky (susp : Option (Nat × Nat × Nat)) : State :=
  { inMode 2 with
    buf := { dies := [(0, { cells := [(8, { state := 3, refs := 2, owner := 4, suspect := susp }), (9, { state := 1, owner := 4 }),
                                      (7, { state := 4, owner := 5, susp := true })],
                            recycle := [(4, [9])], verify := [7], ready := true })] },
    fret := { hq := [(0, [{ tlp := write4, cells := [8, 9] }])] } }

theorem witness_draw : ((leaky none).drawLedger 0 (.control 0)).isSome = true ∧ (leaky none).drawLedger 0 (.pcie 3 0) = none ∧ (leaky none).writerOwner (.pcie 0 0) = 0 ∧ (match ((leaky none).bufDie 0).drawFrom 4 0 with | .recycle 4 9 => true | _ => false) = true
    ∧ (match ((leaky none).bufDie 0).drawFrom 5 7 with | .zero 0 => true | _ => false) = true := by decide
theorem test_draw : (match exec (.cellDraw 0 (.control 0) 3) (leaky none) with
    | .next t => (t.bufDie 0).openCell.find (.control 0) == some 9 && (t.cell 0 9).owner == 0x3E && (t.bufDie 0).rawPool 4 == [] | _ => false) = true := by decide
theorem witness_verify : takeFirst (fun c => !(((leaky none).bufDie 0).away c)) ((leaky none).bufDie 0).verify = some (7, [])
    ∧ ((leaky none).bufDie 0).zeroPool = cellCount - 3 ∧ (leaky none).fld { name := .bufZcfg } BufZcfg.ZTARGET ≤ cellCount - 3
    ∧ ((leaky none).setFld { name := .bufZcfg } BufZcfg.ZTARGET 0x3FFFF).fld { name := .bufZcfg } BufZcfg.ZTARGET = 0x3FFFF := by decide
theorem witness_audit : (((leaky none).bufDie 0).cells.map Prod.fst).Nodup ∧ ((leaky none).holderCells 0).count 8 = 1
    ∧ ((leaky none).holderCells 0).count 9 = 1 ∧ (leaky none).assist PartAssist.LEAK = 0 := by decide
theorem test_audit_twice : (match exec (.auditRound 0) (leaky none) with
    | .next t => (t.cell 0 8).suspect == some (2, 1, 1) && (t.cell 0 9).state == 3 && t.fld (dreg .bufErr 0) BufErr.LEAK == 1 | _ => false) = true := by decide
theorem test_audit_reclaims : (match exec (.auditRound 0) (leaky (some (2, 1, 0))) with
    | .next t => (t.cell 0 8).refs == 1 && t.fld (dreg .bufErr 0) BufErr.RECLAIM == 1 | _ => false) = true := by decide
theorem witness_leakv : (((leaky none).setFld (dreg .bufLeakv 0) BufLeakv.TAG 9).fld (dreg .bufLeakv 0) BufLeakv.TAG) = 9
    ∧ 8 ∉ ((leaky none).bufDie 0).leakExpired
    ∧ ((leaky none).setReg (leakRec 0 0) 0x8080200000000008).fld (leakRec 0 0) BufLeakrec.CELL = 8 := by decide
theorem witness_reservation : 16384 ≤ ((leaky none).setFld { name := .bufPart } BufPart.MINRES 0x100).sharedSize 0 ∧ (leaky none).partCount = 8
    ∧ ((leaky none).setFld { name := .bufPart } BufPart.MINRES 0x3FFFF).sharedSize 0 < 16384 := by decide


/-! ### Policing and scheduling -/

/-- Flow 3 of die 0 holds a write to port 0, its context valid where asked for, its peak bucket at `tp`. -/
def holding (valid : Bool) (tp : Nat) : State :=
  { linkIn 3 false with
    tab := { dies := [(0, { newest := if valid then [(0xC000C, BitVec.ofNat 64 (2 ^ 63)), (0xC000D, 0x100000001), (0xC000E, 0x4000000040)] else [] })] },
    sch := { flows := [(3, { hold := [{ tlp := write4, egress := 0, hold := true, colour := 2 }], tp := tp, tc := 2 ^ 31 })] } }

theorem witness_hold : ((holding true 0).flowCtx 0 0 3).valid = true ∧ ((holding true 0).flowCtx 0 0 3).bad = false
    ∧ ((holding true 0).flowCtx 0 0 3).chain = false ∧ ((holding false 0).flowCtx 0 0 3).valid = false
    ∧ ((holding true 0).linkState 0 0) = 3 ∧ write4.wire = 20
    ∧ 20 * fix ≤ (((holding true (20 * fix)).flow 3).refill ((holding true 0).flowCtx 0 0 3) 0).tp
    ∧ (((holding true 0).flow 3).refill ((holding true 0).flowCtx 0 0 3) 0).tp < 20 * fix := by decide
theorem test_hold_release : (match exec (.holdQueueRelease 3) (holding true (64 * fix)) with
    | .next t => (t.queue 0 0).length == 1 && (t.flow 3).tp == 44 * fix && (t.flow 3).tc == 2 ^ 30 - 20 * fix | _ => false) = true := by decide
theorem witness_px : ((holding true 0).setReg (pxrec 0 2) 0x8009000000000003).fld (pxrec 0 2) SchPxrec.TAG = 9
    ∧ ((holding true 0).setReg (pxrec 0 2) 0x8009000000000003).pxFlow 0 2 = 3
    ∧ ((holding true 0).setReg (pxrec 0 2) 0x8009000000000003).fld (pxrec 0 1) SchPxrec.TAG ≠ 9
    ∧ (((holding true 0).modFlow 3 fun f => { f with xstate := 2, xent := 2 }).flow 3).xstate = 2
    ∧ (((holding true 0).modFlow 3 fun f => { f with xstate := 1, xent := 2 }).flow 3).xent = 2 := by decide
theorem test_px_demote : (match exec (.pxvDemote (.hart 0 0) 0 9)
    (((holding true 0).setReg (pxrec 0 2) 0x8009000000000003).modFlow 3 fun f => { f with xstate := 1, xent := 2 }) with
    | .next t => (t.flow 3).xact == 2 && (t.flow 3).xstate == 2 && t.fld (pxrec 0 2) SchPxrec.ACTING == 1 | _ => false) = true := by decide

/-- Port 0 is up with a write in queue 1 that is the next of its stream. -/
def sending : State :=
  { linkIn 3 false with
    sch := { queues := [((0, 1), [{ tlp := write4, iport := 1, egress := 0, queue := 1, seq := 1 }])] },
    fret := { streams := [((1, 0, 0), { next := [(0, 1)] })] } }

theorem witness_select : sending.releasable { tlp := write4, iport := 1, egress := 0, queue := 1, seq := 1 } = true ∧ sending.canTake 0 write4 = true
    ∧ sending.eligible 0 0 = false ∧ sending.fld (qcfg 0 15) SchQcfg.SP = 1 ∧ sending.fld (qshape 0 15) SchQshape.RATE = 0 := by decide
theorem test_select : (match exec (.schedulerSelect 0 0 .clean) sending with
    | .next t => (t.queue 0 1).isEmpty && (t.link 0 0).replay.length == 1 && (t.streamOf (1, 0, 0)).nextOf 0 == 2 | _ => false) = true := by decide

/-- R265: with quantum 16 (1,024 bytes) a group queue with two packets of 20 bytes sends the first and keeps a deficit of 1,004. -/
theorem test_group : (match exec (.schedulerSelect 0 0 .clean)
      (({ sending with sch := { sending.sch with queues := [((0, 1), [{ tlp := write4, iport := 1, seq := 1 }, { tlp := write4, iport := 1, seq := 2 }])],
                                                 sched := [(0, { rr := 1 })] } } : State).setFld (qcfg 0 1) SchQcfg.SP 0) with
    | .next t => (t.queue 0 1).length == 1 && (t.schedOf 0).deficit.get 0 1 == 1004 && (t.schedOf 0).rr == 1 | _ => false) = true := by decide +kernel

theorem witness_hist : (sending.setFld (preg .schHcfg 0) SchHcfg.EN 1).fld (preg .schHcfg 0) SchHcfg.EN ≠ 0 ∧ sending.fld (preg .schHcfg 0) SchHcfg.EN = 0 := by decide
theorem test_snap : (match exec (.snap 0 0) ({ sending with sch := { hist := [((0, 1, 1, 3), 7)] } } : State) with
    | .next t => t.sch.hist == [] | _ => false) = true := by decide


/-! ### Partitions -/

/-- A configuration request of a host: type 0, word 1, with a value to write. -/
def cfgReq (kind : Nat) : Tlp := { kind := kind, addr := 4, rid := 0x100, tag := 5, be := 0xF, payload := if kind = 7 then [6, 0, 0, 0] else [] }

/-- Partition 0 of a KF-2128 with its upstream port 0, port 1 bound to virtual port 2 with slot 4; a configuration request waits, a completion is
held for partition 1, a proxied request is out, and lanes of both ports are mapped. -/
def hosted : State :=
  let b : FMap Nat Word := [(0xA00, BitVec.ofNat 64 (2 ^ 63)), (0xA04, BitVec.ofNat 64 (2 ^ 32 * (2 ^ 14 + 64 + 32 + 4))), (0x600, BitVec.ofNat 64 (2 ^ 56)),
    (0x608, 0), (0xA20, BitVec.ofNat 64 (2 ^ 63 + 2 ^ 56))]
  { (((inMode 3).setFld (lreg .linkStat 0 1) LinkStat.STATE 3).setFld (lreg .linkCfg 0 1) LinkCfg.ENABLE 1).setFld partLead PartLead.HILDPATH 0 with
    lane := { live := [((0, 0), 1 + 4096)] },
    tab := { dies := [(0, { newest := b }), (1, { newest := b })] },
    buf := { dies := [(0, { ready := true })] },
    sch := { queues := [((0x8002, 0), [{ tlp := cfgReq 6, iport := 0, egress := 0x8002, seq := 1 }, { tlp := cfgReq 7, iport := 0, egress := 0x8002, seq := 2 }])] },
    par := { held := [(1, [(3, 0, { kind := 12 }, 0)])], proxy := [{ die := 0, tag := 5, port := 0, lent := 1, req := some (cfgReq 6) }],
             proxyLate := [(1, 5)], face := [((0, 0), { turnOff := some [1] })] } }

/-- The same once the first request has been taken. -/
def hosted7 : State := { hosted with fret := { streams := [((0, 0x8002, 0), { next := [(1, 2)] })] } }

theorem witness_margin : (((((hosted.setFld (lreg .linkStat 0 0) LinkStat.STATE 3).setFld (lreg .linkStat 0 0) LinkStat.RATE 5).setFld
    (lreg .linkStat 0 0) LinkStat.WIDTH 2).setFld (lreg .linkLanes 0 0) LinkLanes.ACTIVE 3).modLink 0 0 fun l => { l with trained := 2 }).marginOk 0 0
    = true := by decide
theorem witness_config : hosted.facePort 0 0 = some 0 ∧ (hosted.par.held.get [] 0).any (fun x => x.2.1 == 0) = false
    ∧ (takeFirst (fun p => p.tlp == cfgReq 7 && p.iport == 0 && hosted7.releasable p) (hosted7.queue (0x8000 + 2) 0)).isSome = true
    ∧ (takeFirst (fun p => p.tlp == cfgReq 6 && p.iport == 0 && hosted.releasable p) (hosted.queue (0x8000 + 2) 0)).isSome = true
    ∧ 0 ∉ hosted.par.flr ∧ hosted.marginLane 0 0 0 0 = some (0, 0) ∧ hosted.active (pdie 0) = true
    ∧ hosted.mode ≠ 0 := by decide
theorem witness_follow : hosted.facePort 1 0 = some 1 ∧ hosted.par.held.get [] 1 ≠ [] := by decide
theorem test_config_read : (match exec (.faceConfigRequest 0 0 2 (cfgReq 6) .read) hosted with
    | .next t => (t.queue 0x8002 0).length == 1 && (t.queue 0 0).map (fun p => (p.tlp.rid, p.tlp.tag, p.tlp.cst)) == [(0x100, 5, 0)] | _ => false) = true := by decide
theorem test_followed : (match exec (.faceConfigRequest 0 0 2 (cfgReq 7) (.followed none)) hosted7 with
    | .next t => (t.par.held.get [] 0).map (fun x => x.1) == [1] && (t.queue 0 0).isEmpty && t.fld (followReg 0) PartFollow.HELD == 1 | _ => false) = true := by decide
theorem witness_patch : hosted.fld { name := .partAlmlock } PartAlmlock.LOCK = 1 ∧ ({} : State).fld { name := .partAlmlock } PartAlmlock.LOCK = 0
    ∧ PartAlmlock.LOCK.of 1 = 1 := by decide
theorem witness_proxy : (takeFirst (fun (x : Proxy) => x.die == 0 && x.tag == (cfgReq 6).tag) hosted.par.proxy).isSome = true
    ∧ (takeFirst (fun (x : Proxy) => x.die == 1 && x.tag == (cfgReq 6).tag) hosted.par.proxy) = none ∧ (1, (cfgReq 6).tag) ∈ hosted.par.proxyLate := by decide
theorem witness_bound : hosted.bindKind 0 0 0 2 = 1 ∧ hosted.bindPort 0 0 0 2 = 1 ∧ hosted.linkLive 0 1 = true ∧ hosted.bindSlot 0 0 0 2 = some 4
    ∧ hosted.bindKind 0 0 0 3 = 0 ∧ hosted.bindSlot 0 0 0 3 = none ∧ hosted.hasPath = true ∧ hosted.linkState 0 0 ≠ 3 := by decide
theorem test_bus_reset : (match exec (.secondaryBusReset 0 2) hosted with | .next t => t.linkState 0 1 == 1 | _ => false) = true := by decide
theorem test_turn_off : (match exec (.pmeTurnOff 0 0) hosted with | .next t => (t.face 0 0).turnOff == some [1] | _ => false) = true := by decide
theorem witness_turn_off : (hosted.setFld (lreg .linkStat 0 1) LinkStat.STATE 1).portUp 1 = false ∧ (hosted.face 0 0).turnOff = some [1] := by decide


/-! ### Translation and DMA -/

/-- A walk of channel 5 at level 3. -/
def walk5 : Walk := { id := 6, who := .chunk 5, ctx := 2, w0 := BitVec.ofNat 64 (2 ^ 63 + 2 * 2 ^ 53), w1 := 0, va := 0x5000, wr := true, rd := false,
                      lvl := 3 }

/-- Partition 0 with upstream port 0; a walk runs; channel 5 of die 0 is parked with a page request of tag 7; a frame is owned. -/
def translating (mode : Nat) : State :=
  { ((hosted.setFld { name := .partPtown, i := 3 } PartPtown.OWNER 4).setReg (prec0 0 1) (BitVec.ofNat 64
      (XltPrec0.VALID.place 1 + XltPrec0.SRC.place 1 + XltPrec0.TAG.place 7 + XltPrec0.CTX.place 2 + XltPrec0.CHAN.place 5))).setFld xltinvReg
      PartXltinv.BUSY 1 with
    xlt := { dies := [(0, { walks := [walk5], precMode := [(1, mode)], late := [9], cache := [{ ctx := 2, gen := 0, page := 8, size := 4096, out := 0, r := true, w := true }] })] },
    dma := { ch := [((0, 5), { run := some { words := [] }, fault := some (1, 3), parked := true })] } }

theorem witness_ptab : (translating 2).frameOwner 3 = 4 ∧ (translating 2).frameOwner 4 = 0x3F ∧ (0x3008 : Nat) % 8 = 0 ∧ (translating 2).flt.noLead = false
    ∧ (∀ e ∈ (translating 2).activeDies, (translating 2).pageOk e 19 (0x58 + e) ((ptabOff + 0x3008) / 4096) 1 = true) ∧ (translating 2).lead = 0
    ∧ 0 ∈ (translating 2).activeDies ∧ (hosted.setFld xltinvReg PartXltinv.BUSY 0).frameOwner 3 ≠ 4 := by decide
theorem witness_inv : (translating 2).fld xltinvReg PartXltinv.BUSY = 1 ∧ hosted.fld xltinvReg PartXltinv.BUSY = 0
    ∧ (∀ e ∈ (translating 2).activeDies, ∀ w ∈ ((translating 2).xltDie e).walks, w.cacheIt = true) := by decide
theorem test_range : (match exec (.xltinvRange .bmc 2 1) ((translating 2).setReg { name := .partXltinva } 0x7000 |>.setFld xltinvReg PartXltinv.BUSY 0) with
    | .next t => (t.xltDie 0).cache == [] && (t.xltDie 0).walks.all fun w => !w.cacheIt | _ => false) = true := by decide
theorem witness_walk : ptStep 3 0x7001 false true = .next 7 ∧ ptStep 3 0x4000000D false true = .page (2 ^ 30) (2 ^ 30) false true
    ∧ (translating 2).upOf 0 ((translating 2).newE 0) (getBits walk5.w0 62 57) (getBits walk5.w0 52 52) = some 0
    ∧ (((translating 2).xltDie 0).walks.find? fun w => w.id == 6) = some walk5 ∧ (hosted.chan 0 5).run = none
    ∧ (((translating 2).xltDie 0).walks.find? fun w => w.id == 9) = none ∧ 9 ∈ ((translating 2).xltDie 0).late := by decide
theorem test_walk_page : (match exec (.walkReadCompletion 0 6 true 0x4000000D false) (translating 2) with
    | .next t => (t.xltDie 0).walks == [] && (t.xltDie 0).cache.map (fun c => (c.ctx, c.page, c.out, c.w)) == [(2, 0, 2 ^ 30, true), (2, 8, 0, true)]
    | _ => false) = true := by decide
theorem test_ptab : (match exec (.ptabWrite (.hart 0 0) 0x3008 9) (translating 2) with | .next t => t.ptabWord 0x601 == 9 | _ => false) = true := by decide
theorem test_ptab_endpoint : (match exec (.ptabWrite (.endpoint 3) 0x3008 9) (translating 2) with | .next t => t.ptabWord 0x601 == 0 | _ => false) = true := by decide
theorem test_ptown : (match exec (.ptownWrite .bmc 3 5) (translating 2) with | .next t => t.frameOwner 3 == 5 | _ => false) = true := by decide
theorem test_walk_goes_on : (match exec (.walkReadCompletion 0 6 true 0x7001 false) (translating 2) with
    | .next t => (t.queue 0 0).map (fun p => p.tlp.addr) == [0x7000 + 8 * 0] && (t.xltDie 0).walks.map (fun w => w.lvl) == [2] | _ => false) = true := by decide
theorem witness_prec : (translating 2).precEntry 0 7 = some 1 ∧ ((translating 2).xltDie 0).precMode.get 0 1 = 2 ∧ (translating 2).precEntry 0 8 = none
    ∧ (translating 2).fld (prec0 0 1) XltPrec0.CHAN = 5 ∧ ((translating 1).chan 0 5).fault = some (1, 3) := by decide
theorem test_prg : (match exec (.prgResponse 0 0 7 0 false) (translating 1) with
    | .next t => (t.chan 0 5).fault.isNone && (t.chan 0 5).next == 3 && t.fld (prec0 0 1) XltPrec0.VALID == 0 | _ => false) = true := by decide

/-- Channel 5 of die 0 belongs to PART, is enabled, and its ring of 16 descriptors at 0x1000 holds one. -/
def channel (st : ChanSt) : State :=
  { ((inMode 2).setReg (chReg .dmaChCfg 0 5) 0xFB800000).setReg (chReg .dmaChCtl 0 5) 0x80000000 |>.setReg (chReg .dmaChRing 0 5) 0x100000000
      |>.setReg (chReg .dmaChRbase 0 5) 0x1000 with dma := { ch := [((0, 5), st)] } }
/-- A FILL of 512 bytes. -/
def fillDesc : Desc := { words := [BitVec.ofNat 64 (2 * 2 ^ 60 + 512), 0xABAB, 0x4000, 0x300000000] }

theorem witness_channel : (channel {}).chOn 0 5 = true ∧ (channel {}).chMayRun 0 5 = true ∧ (channel {}).chOwner 0 5 = 0x3E
    ∧ (channel {}).ringHead 0 5 = 0 ∧ (channel {}).ringTail 0 5 = 1 ∧ (channel {}).ringAddr 0 5 0 = 0x1000 ∧ (channel {}).chDrain = false
    ∧ (channel {}).refusedPage 0 18 0x40 0x1000 64 0 = none ∧ (channel {}).refusedPage 0 18 0x40 0x1030 16 1 = none ∧ (channel {}).chHolds 0 5 = false
    ∧ (channel {}).recState 0 = 0 ∧ ((channel {}).recDie 0).staged = [] ∧ ((channel {}).recDie 0).waiting = [] ∧ ((channel {}).setFld (chReg .dmaChCtl 0 5) DmaChCtl.ENABLE 0).chOn 0 5 = false := by decide
theorem witness_channel_mem : MemOk (channel {}) := by unfold MemOk; decide
theorem witness_desc : fillDesc.bad = false ∧ fillDesc.op = 2 ∧ ({ words := [] } : Desc).bad = true ∧ fillDesc.fence = false ∧ fillDesc.wantsBack = false
    ∧ 256 < fillDesc.len ∧ ({ words := [BitVec.ofNat 64 (2 ^ 60)] } : Desc).op = 1 ∧ ({ words := [BitVec.ofNat 64 (2 ^ 60)] } : Desc).bad = true := by decide
theorem witness_ring_down : (hosted.setReg (chReg .dmaChCfg 0 5) 0).chOwner 0 5 = 0 ∧ (hosted.setReg (chReg .dmaChCfg 0 5) 0).ringPort 0 5 = none := by decide
theorem test_record : (match exec (.dmaCompletionRecord 0 5 true) (channel { endings := [{ desc := fillDesc, status := 3, bytes := 0x100 }] }) with
    | .next t => t.mem.bytes (sramBase 0 + 0x1030) 16 == [0, 1, 0, 0, 0, 0, 3, 0x80, 0, 0, 0, 0, 0, 0, 0, 0] && (t.chan 0 5).endings == [] | _ => false) = true := by decide
theorem test_abort : (match exec (.dmaDisable 0 5 0) (channel { run := some fillDesc, next := 1, committed := 1 }) with
    | .next t => (t.chan 0 5).endings.map (fun e => (e.status, e.bytes)) == [(5, 256)] && !(t.chOn 0 5) | _ => false) = true := by decide

/-- The channel's context 3: PART 0, KIND DMA, one window over 0x4000 toward port 0 of die 0, which no partition owns. -/
def filling : State :=
  let b : FMap Nat Word := [(0x14006, BitVec.ofNat 64 (2 ^ 63 + 2 * 2 ^ 55)), (0x14007, BitVec.ofNat 64 (2 ^ 18)), (0x16000, 0x4001), (0x16001, 0x5000),
    (0x16002, 0x9000), (0x16003, BitVec.ofNat 64 (2 ^ 46)), (0xA00, BitVec.ofNat 64 (2 ^ 63)), (0xA01, 1),
    (0x600, BitVec.ofNat 64 (2 ^ 63))]
  { channel { run := some fillDesc } with tab := { dies := [(0, { newest := b }), (1, { newest := b })] }, lane := { live := [((0, 0), 1 + 4096)] } }
/-- The same channel with one read of chunk 0 out, or a fault that waits for a verdict. -/
def reading : State := channel { run := some fillDesc, chunks := [{ k := 0, len := 256, epoch := 0, reads := [{ tag := 9, off := 0, len := 256 }] }] }
def faulted : State :=
  (channel { run := some fillDesc, mode := 2, fault := some (2, 1), parked := true }).setFld (chReg .dmaChStat 0 5) DmaChStat.FTAG 4

theorem witness_chunk : filling.ctxDenied 0 5 0 fillDesc.dctx = false ∧ (filling.window 0 0 (filling.ctxWord 0 0 3 1) fillDesc.dst).isSome = true
    ∧ (filling.chDests 0 0 3 0).isSome = true ∧ (channel {}).ctxDenied 0 5 0 fillDesc.dctx = true ∧ fillDesc.dst % 4096 + 256 ≤ 4096 := by decide
theorem test_srcerr : (match exec (.dmaReadTimeout 0 5 9) reading with
    | .next t => (t.chan 0 5).endings.map (fun (e : Ending) => (e.status, e.bytes)) == [(2, 0)] && (t.chan 0 5).late == [(9, 0)] | _ => false) = true := by decide
theorem witness_verdict : faulted.fld (chReg .dmaChStat 0 5) DmaChStat.FTAG = 4 ∧ (faulted.chan 0 5).mode = 2 ∧ (faulted.chan 0 5).expired = [] := by decide
theorem test_stop : (match exec (.stop .bmc 0 5 4) faulted with
    | .next t => (t.chan 0 5).endings.map (fun (e : Ending) => (e.status, e.bytes)) == [(2, 256)] && !(t.chOn 0 5) | _ => false) = true := by decide


/-! ### Harts -/

/-- A part whose eight dies are in service. -/
def live : State := { regs := [(partDieState, 0x33333333)] }

/-- A part with hart 0 of die 0 as given. -/
def withHart (x : Hart) : State := { live with core := { dies := [(0, { hart := [(0, x)] })] } }

/-- A hart whose g1 to g3 hold an address of the control SRAM, a number and a misaligned address. -/
def hart1 : Hart := { pc := 0xE010000100, regs := [(1, 0xE010002000), (2, 0x1122334455667788), (3, 0xE010002001), (4, 0x0000700000)] }

theorem witness_hart_free : HartFree (withHart hart1) 0 0 := by unfold HartFree; decide

theorem witness_hart_m : (withHart hart1 |>.hart 0 0).inM = true ∧ bitOf ((withHart hart1).hart 0 0).mstate 3 = false
    ∧ ((withHart hart1).hart 0 0).sbuf = [] := by decide

theorem witness_jalr : (rget hart1.regs 1 + (BitVec.ofNat 16 8).signExtend 64).toNat % 4 = 0
    ∧ (rget hart1.regs 3 + (BitVec.ofNat 16 8).signExtend 64).toNat % 4 ≠ 0 := by decide

theorem witness_load : (withHart hart1).decodeAddr 0 0xE010002000 = some ⟨0, 18, 0x2000, 0x10002000⟩
    ∧ (withHart hart1).fenced 0 ⟨0, 18, 0x2000, 0x10002000⟩ = false ∧ (withHart hart1).domCur (dom 0 (memDomain 18 0x2000)) = 0
    ∧ (withHart hart1).refusedPage 0 18 ((withHart hart1).midOf (.hart 0 0)) 0x2000 8 0 = none
    ∧ (withHart hart1).refusedPage 0 18 ((withHart hart1).midOf (.hart 0 0)) 0x2000 8 1 = none ∧ MemOk (withHart hart1) := by
  unfold MemOk; decide

theorem witness_load_faults : (0xE010002001 % 2 ≠ 0) ∧ (withHart hart1).decodeAddr 0 0xD000000000 = none
    ∧ (withHart hart1).decodeAddr 0 0x700000 = some ⟨0, 25, 0x700000, 0x700000⟩ := by decide

theorem witness_stx : ((withHart { hart1 with res := some 0xE010002000 }).hart 0 0).res = some 0xE010002000 := by decide

theorem witness_store_buffer : HartFree (withHart { hart1 with sbuf := [⟨0xE010002000, 8, 1, 1⟩] }) 0 0 := by unfold HartFree; decide

theorem witness_wait_pending : (withHart { hart1 with csr := [(0x102, 0x80)], cycHit := true }).anyEnabled 0 0 = true := by decide
theorem witness_wait_sleep : (withHart hart1).anyEnabled 0 0 = false ∧ (withHart hart1).sleepMode 0 0 = 0 := by decide

/-- A hart in S. -/
def hartS : Hart := { hart1 with csr := [(0x40, 0x10000), (0x47, 0x100)] }

theorem witness_supervisor : HartFree (withHart hartS) 0 0 ∧ ((withHart hartS).hart 0 0).inM = false
    ∧ bitOf ((withHart hartS).csrValue 0 0 0x47) 8 = true := by unfold HartFree; decide
theorem witness_supervisor_to_m : ((withHart { hartS with csr := [(0x40, 0x10000)] }).hart 0 0).inM = false
    ∧ bitOf ((withHart { hartS with csr := [(0x40, 0x10000)] }).csrValue 0 0 0x47) 8 = false
    ∧ HartFree (withHart { hartS with csr := [(0x40, 0x10000)] }) 0 0 := by unfold HartFree; decide
theorem witness_double_trap : HartFree (withHart { hart1 with csr := [(0x40, 0x10009)] }) 0 0
    ∧ bitOf ((withHart { hart1 with csr := [(0x40, 0x10009)] }).hart 0 0).mstate 3 = true := by unfold HartFree; decide

theorem witness_csr : csrMayRead true 0x40 = true ∧ csrMayRead false 0x40 = false ∧ csrMayWrite false 0x45 = false ∧ csrMayRead true 0x08 = false := by decide

theorem witness_event : (withHart { hart1 with csr := [(0x102, 0x80), (0x40, 0x10003)], cycHit := true }).nextInput 0 0 = some 2
    ∧ (withHart { hart1 with csr := [(0x102, 0x80), (0x40, 0x10003)], cycHit := true }).hartRuns 0 0 = true
    ∧ (withHart hart1).recState 0 = 0 ∧ ((withHart hart1).recDie 0).staged = [] ∧ (withHart hart1).fetchFaults 0 0 = false := by decide
theorem witness_event_delegated : (withHart { hart1 with csr := [(0x102, 0xC0), (0x40, 0x10004)], cycHit := true }).nextInput 0 0 = some 2 := by decide
theorem witness_asleep : (withHart { hart1 with csr := [(0x102, 0x80)], cycHit := true, asleep := some 0 }).anyEnabled 0 0 = true := by decide

theorem witness_divergence : ((withHart hart1).core.dies.get {} 0).diverged.find 0 = none
    ∧ (let s : State := { live with core := { dies := [(0, { diverged := [(0, 0)] })] } }
       s.hartRuns 0 0 = true ∧ (s.core.dies.get {} 0).diverged.find (s.pairOf 0 0) = some (s.meridian 0)) := by decide

theorem witness_timeout :
    let s := withHart { hart1 with sbuf := [⟨0x0603C00100, 8, 1, 1⟩] }
    s.decodeAddr 0 0x0603C00100 = some ⟨5, 15, 0x100, 0x3C00100⟩ ∧ s.fenced 0 ⟨5, 15, 0x100, 0x3C00100⟩ = false
      ∧ bitOf (s.csrValue 0 0 0x48) 63 = false ∧ s.active 5 = true := by decide

/-- A port whose course stands at slot 3. -/
def course1 : Course := { live := true, slot := 3, regs := [(1, 5), (2, 7)] }

theorem witness_course : CourseFree { live with fret := { course := [(17, course1)] } } 1 1 course1 := by unfold CourseFree; decide

/-- 10 R381's worked case: the store-conditional succeeds with the reservation and gives 0. -/
theorem test_stx_succeeds : (match exec (.stx 0 0 12 1 2) (withHart { hart1 with res := some 0xE010002000 }) with
    | .next t => (rget (t.hart 0 0).regs 12 == 0 && t.mem.get 0x110002000 == 0x88 && t.mem.get 0x110002007 == 0x11)
    | _ => false) = true := by decide

/-- R376: -7 divided by 2 is -3 with remainder -1. -/
theorem test_div_toward_zero : MdOp.eval .div (-7) 2 = -3 ∧ MdOp.eval .rem (-7) 2 = -1 ∧ MdOp.eval .mulhsu (-1) 2 = -1 := by decide

/-- R385: a trap from M and the return from it. -/
theorem test_trap_round : mstateRetM (mstateEnterM 0x10007) = 0x70007 := by decide

/-- 10 R381: the instruction words of the worked case. -/
theorem test_words : wordI 0x2C 11 10 0 = 0x52EC ∧ wordI 0x04 11 11 1 = 0x15AC4 ∧ wordR 0x2D 12 10 11 0 = 0xB532D := by decide


/-! ### Tokens and the control-island clock -/

/-- A part whose DBG.TOK holds a token of a wrong length of entries: MAGIC and VERSION right, NREG 17. -/
theorem witness_token_format : ({ inMode 2 with regs := ({ name := .partDbgTok, i := 0 }, 0x001100017B1ED7A0) :: (inMode 2).regs } : State).tokenStatus
    ({ inMode 2 with regs := ({ name := .partDbgTok, i := 0 }, 0x001100017B1ED7A0) :: (inMode 2).regs } : State).tokenBytes = 2 := by decide
theorem test_token_uid : ({ (inMode 2).setReg { name := .partDbgTok, i := 0 } 0x000000017B1ED7A0 with fuses := {} }.setReg
    { name := .partDbgTok, i := 1 } 5 : State).tokenStatus (((inMode 2).setReg { name := .partDbgTok, i := 0 } 0x000000017B1ED7A0).setReg
    { name := .partDbgTok, i := 1 } 5 : State).tokenBytes = 3 := by decide
/-- The words of a token from offset 0x128: a public key, and the signature that OpenSSL made with its private key over the bytes before it. -/
def tokenWords : List Word :=
  [0x084fd1cc21db7404, 0xb0402eaa49adc726, 0x13b4fbad30e11f3a, 0x814a10cf6b37ba31, 0xdf466ff59099f763,
   0x707343fa7415caf4, 0xb456fa6af79f7cfd, 0x9e28fd51d2724ebc, 0x68e3df68ab00ce52, 0xa2d964992f6ee081,
   0xcc90f4b98f076899, 0x824ec0bedae5fae7, 0x0000000000000025, 0xb2469af2a5209cfa, 0xfa9a318a7953e0ca,
   0xb8298a5e01176a01, 0x7461ad3a437bcbce, 0x1672d642ab543941, 0x58d083d166e4f278, 0x7a633d68fb744ff8,
   0x1c30676bdc29f7a9, 0x3ea52679ba6e366e, 0x89b4b4e57489ff57, 0x37f027e3a8131455, 0x604c20d5b11c9dce]
/-- A part whose DBG.TOK holds a token with no entry, of the part's UID and NONCE. -/
def tokenHeld : State :=
  ((tokenWords.zip (List.range 25)).foldl (fun s x => s.setReg { name := .partDbgTok, i := x.2 + 37 } x.1) (inMode 2)).setReg
    { name := .partDbgTok, i := 0 } 0x000000017B1ED7A0
/-- FIPS 180-4: the digest of `abc`. -/
theorem test_sha384_abc : sha384 [0x61, 0x62, 0x63]
    = 0xcb00753f45a35e8bb5a03d699ac65007272c32ab0eded1631a8b605a43ff5bed8086072ba1e7cc2358baeca134c825a7 := by decide +kernel
theorem test_token_signature : ecdsaVerify ((tokenHeld.tokenBytes.drop 0x128).take 97) (sha384 (tokenHeld.tokenBytes.take 0x190))
    ((tokenHeld.tokenBytes.drop 0x190).take 96) = true := by decide +kernel

/-- With its key in the vault, the token passes. -/
theorem witness_token_passes (h1 : sha384 ((tokenHeld.tokenBytes.drop 0x128).take 97) = Config.vaultDigest 0) :
    tokenHeld.tokenStatus tokenHeld.tokenBytes = 1 := by
  have h0 : leAt tokenHeld.tokenBytes 0x120 1 = 0 := by decide +kernel
  unfold State.tokenStatus
  simp only [h0]
  rw [if_neg (by decide +kernel), if_neg (by decide +kernel), if_neg (by decide +kernel), if_neg (by simp [h1]),
    if_neg (by simp [test_token_signature]), if_neg (by decide +kernel)]
theorem test_token_fails : (match exec (.install .bmc) (inMode 2) with
    | .next t => t.fld partDbgCtl PartDbgCtl.STATUS == 2 && t.fld (gateErr 0) GateErr.TOKEN == 1 && t.gate.token.isNone | _ => false) = true := by decide
theorem test_debug_timeout : (match exec (.debugAccessTimeout 1 0x210000000 true) (inMode 2) with
    | .next t => t.reg (dreg .gateFrec0 1) == 0x8081910210000000 && t.fld (gateErr 1) GateErr.DBGREF == 1 | _ => false) = true := by decide
theorem test_clk_select : (match exec (.coreClkSelect 1 1) (inMode 2), exec (.coreClkSelect 1 1) ((inMode 2).setReg (dreg .coreClk 1) 0x80000000) with
    | .next t, .next u => t.fld (dreg .coreClk 1) CoreClk.SEL == 0 && u.reg (dreg .coreClk 1) == 0x80000001 | _, _ => false) = true := by decide


/-! ### Fault cases -/

/-- A part with one fault of a die's watchdog waiting at die 1. -/
def faulty (f : FaultRec) : State := (inMode 2).modFlt fun x => { x with inbox := [(1, [f])] }

/-- A fault of the transaction layer of port 3 of die 1. -/
def portFault : FaultRec := { reg := { name := .fltTlerr, die := 1, i := 3 }, bit := 2, rose := true }

theorem witness_fault_opens : (faulty portFault).findCase 1 (classOf portFault.reg 2) ((faulty portFault).unitOf 1 portFault) = none
    ∧ (faulty portFault).freeCase 1 (classOf portFault.reg 2) ((faulty portFault).sev 10) = some 0 ∧ (faulty portFault).sev 10 ≤ 1
    ∧ (faulty portFault).takes 1 portFault = true := by decide

/-- The state after the case is open: level, class, unit kind 1 (port 19). -/
def afterFault : State := match execFaultTaken 1 {} (faulty portFault) with | .next t => t | _ => State.reset
theorem test_fault_opens : afterFault.caseFld 1 0 FltCase0.CLASS = 10 ∧ afterFault.caseFld 1 0 FltCase0.UNIT = 19 ∧ afterFault.caseFld 1 0 FltCase0.PORT = 19
    ∧ afterFault.caseFld 1 0 FltCase0.TAG = 1 ∧ afterFault.caseOfTag 1 1 = some 0 ∧ afterFault.caseOfTag 1 2 = none
    ∧ mayAnswer (.hart 0 0) 0 0 true = true := by decide

/-- An acknowledged case, and one whose timer runs. -/
def caseAt (w : Word) (f : FaultRec) : State :=
  ((faulty f).setReg (case0 1 0) w).modFlt fun x => { x with cases := [((1, 0), { bits := [(f.reg, f.bit)] })] }
theorem witness_case_states : (caseAt (afterFault.reg (case0 1 0)) portFault).findCase 1 10 ((faulty portFault).unitOf 1 portFault) = some 0
    ∧ (caseAt (setBits (afterFault.reg (case0 1 0)) 61 61 1) portFault).caseFld 1 0 FltCase0.ESCRUN = 1
    ∧ (caseAt (setBits (afterFault.reg (case0 1 0)) 62 62 1) portFault).caseFld 1 0 FltCase0.ACKED = 1 := by decide
theorem test_handled : (match exec (.handled (.hart 0 0) 1 1 []) (afterFault.setReg portFault.reg 4) with
    | .next t => t.caseFld 1 0 FltCase0.ACKED == 1 && t.reg portFault.reg == 0 | _ => false) = true := by decide
theorem test_handled_coincident : (match exec (.handled (.hart 0 0) 1 1 [portFault]) (afterFault.setReg portFault.reg 4) with
    | .next t => t.caseFld 1 0 FltCase0.ACKED == 0 && t.reg portFault.reg == 4 | _ => false) = true := by decide
theorem witness_coincident : portFault.isSource = true ∧ (portFault.reg, portFault.bit) ∈ (afterFault.caseHid 1 0).bits
    ∧ afterFault.active (faultDie afterFault portFault.reg) = true := by decide
theorem test_quiet : (match exec (.quietExpire 1 0 true true {}) afterFault with
    | .next t => !t.caseOn 1 0 && t.fld { name := .fltRcnt, die := 1, i := 10 } FltRcnt.COUNT == 1 | _ => false) = true := by decide
theorem witness_next_level : ((afterFault.setReg (classReg 10) 0x0000002000000000).setReg (case0 1 0) (setBits (afterFault.reg (case0 1 0)) 59 57 0)).nextLevel 1 0 = some 1
    ∧ (afterFault.setReg (classReg 10) 0).nextLevel 1 0 = none := by decide

/-! ### DPC, isolation, the BMC queue -/

/-- Partition 2's virtual port 0 is bound to port 5 of die 0 with DPC on. -/
def contained (kind : Nat) : State :=
  let t := { inMode 3 with tab := { dies := [(0, { newest := [(0x5220 / 8, BitVec.ofNat 64 (kind * 0x4000 + 5 * 64)), (0x3140 / 8, 0x0400000000000000), ((0xA0000 + 16 * 160) / 8, 0x0400000000000000)] })] } }
  { t with lane := { live := [((0, 0), 0x0500 + 2)] }, par := { vp := [((2, 0), { dpcEn := true })] } }
theorem witness_dpc : (contained 1).bindKind 0 0 2 0 = 1 ∧ (contained 1).bindPort 0 0 2 0 = 5 ∧ (contained 1).upFace 5 = none ∧ (contained 2).bindKind 0 0 2 0 = 2 := by decide
theorem test_dpc : (match exec (.dpcTrigger 2 0) (contained 1) with
    | .next t => (t.vport 2 0).dpcTrig && t.fld (tlerr 5) FltTlerr.DPCTRIG == 1 && !t.linkLive 0 5 | _ => false) = true := by decide

/-- Three dies of a KF-4256 in service, of which die 2 is out of reach of the others. -/
def parted : State :=
  ((((({ fuses := { member := .kf4256 }, boot := { held := false } } : State).setReg partDieState 0x333).setFld partMode PartMode.CUR 2).setFld
    partLead PartLead.HILDPATH 0).setReg (lreg .linkStat 0 17) 0).setFld (lreg .linkStat 0 17) LinkStat.STATE 3
theorem witness_isolation : parted.reachable 8 [0] ≠ [0] ∧ (2 : Nat) ∉ parted.reachable 8 [0] ∧ parted.active 2 = true ∧ parted.lead = 0 := by decide
theorem test_isolation : (match exec (.spanIsolationTimeout 2) parted with
    | .next t => t.dieState 2 == 6 && t.fld (dreg .fltErr 0) FltErr.DIELOST == 1 | _ => false) = true := by decide

theorem witness_watchdog : ((inMode 2).modFlt fun x => { x with wdog := [(1, 20)] }).flt.wdog.get 0 1 ≠ 0 ∧ (inMode 2).hasPath = true := by decide
theorem witness_bmc : ((inMode 2).modFlt fun x => { x with bmc := [noCaseMsg (inMode 2) 0 5 1] }).flt.bmc = [noCaseMsg (inMode 2) 0 5 1] := by decide
theorem test_route_input : (match exec (.evtRouteWrite 1 1023 0x0003000000000000) (inMode 2) with
    | .next t => t.reg { name := .evtRoute, die := 1, i := 1023 } == 0x0008000000000000 | _ => false) = true := by decide
theorem witness_rejoin : (((parted.setDieState 2 1).modFlt fun x => { x with rejoining := [2] }).modTab fun t => { t with waiting := true }).capoRuns = false
    ∧ (parted.setDieState 2 1).dieState 2 = 1 ∧ parted.tab.drain = none := by decide


/-! ### Starts, staging, flash, PLDM -/

/-- A part in service in HELD whose start timer runs. -/
def starting : State := ({ regs := [(partDieState, 0x33333333)], boot := { timer := true, held := false } } : State).setFld partMode PartMode.CUR 1

theorem witness_starting : starting.active 3 = true ∧ starting.trial = false ∧ starting.boot.failed = false ∧ starting.activeDies ≠ []
    ∧ starting.boot.held = false ∧ State.reset.boot.held = true ∧ ({ starting with boot := { failed := true } } : State).boot.failed = true := by decide

/-- A part in service with an image staged, on a member with a given number of dies. -/
def stagedOn (m : Member) : State :=
  (({ regs := [(partDieState, if m = .kf8512 then 0x33333333 else 0x33)], fuses := { member := m }, boot := { staged := true, held := false } } : State).setFld
    partMode PartMode.CUR 2).setFld partLead PartLead.HILDPATH 0

theorem witness_activate : (stagedOn .kf8512).act BootAct.BUSY = 0 ∧ (stagedOn .kf8512).dieCount = 8 ∧ (stagedOn .kf8512).mayActivate = true
    ∧ (stagedOn .kf2128).mayActivate = true ∧ (stagedOn .kf2128).dieCount = 2 ∧ (stagedOn .kf8512).fld partCapo PartCapo.BUSY = 0
    ∧ (stagedOn .kf8512).hasPath = true := by decide

theorem test_arm : (match exec (.activate .bmc 0) (stagedOn .kf8512) with | .next t => t.act BootAct.STATE == 5 | _ => false) = true := by decide
theorem test_pause : (match exec (.activate .bmc 0) (stagedOn .kf2128) with
    | .next t => t.act BootAct.STATE == 4 && t.boot.needReady == [0, 1] && t.fld (dreg .bootStat 1) BootStat.PHASE == 6 | _ => false) = true := by decide

theorem witness_stage : (stagedOn .kf8512).running = some 0 ∧ ({ stagedOn .kf8512 with boot := { staging := some 1 } } : State).imageCheck 1 [] ≠ 0 := by decide
theorem test_stage_fails : (match exec (.stageComplete []) { stagedOn .kf8512 with boot := { staging := some 1 } } with
    | .next t => t.act BootAct.STATUS == 8 && t.act BootAct.CODE == 8 && t.act BootAct.BUSY == 0 | _ => false) = true := by decide

theorem witness_handover : ({ stagedOn .kf2128 with boot := { needReady := [0, 1], needResume := [0, 1] } } : State).boot.needReady.erase 0 ≠ [] := by decide
theorem witness_trial : ({ (stagedOn .kf2128).setReg (bootStat 0) 0x08000000 with boot := { timer := true } } : State).trial = true := by decide
theorem test_service_trial : (match exec (.service 1) { (stagedOn .kf2128).setReg (bootStat 0) 0x08000000 with boot := { timer := true } } with
    | .next t => !t.trial && t.act BootAct.STATUS == 2 && !t.boot.timer | _ => false) = true := by decide

theorem witness_verdicts : ((stagedOn .kf8512).setReg (dreg .bootActv 0) 0x07000000).fld
      (dreg .bootActv 0) BootActv.TAG = 7
    ∧ ((stagedOn .kf8512).setReg (dreg .bootMigv 0) 0x09000000).fld (dreg .bootMigv 0) BootMigv.TAG = 9 := by decide

theorem witness_flash : (stagedOn .kf8512).fld (dreg .bootFlctl 0) BootFlctl.BUSY = 0 ∧ (stagedOn .kf8512).flashThere 1 = true
    ∧ (stagedOn .kf8512).running ≠ some 1 ∧ (stagedOn .kf8512).running = some (BootFlctl.PORT.of 0)
    ∧ ((stagedOn .kf8512).setReg (dreg .bootFlctl 0) 0x8102000000001000).fld (dreg .bootFlctl 0) BootFlctl.BUSY = 1 := by decide
theorem test_erase : (match exec (.flashCommandEnd 0 true [])
      { (stagedOn .kf8512).setReg (dreg .bootFlctl 0) 0x8102000000001000 with boot := { flash := [(1, [(0x1004, 0), (0x2000, 7)])], flcmd := [(0, { port := 1, op := 2, addr := 0x1000 })] } } with
    | .next t => t.flashByte 1 0x1004 == 0xFF && t.flashByte 1 0x2000 == 7 && t.fld (dreg .bootFlctl 0) BootFlctl.STATUS == 1 | _ => false) = true := by decide

theorem witness_svn : (0 : Nat) ≤ BootSvn.FLOOR.of 0x0201 ∧ BootSvn.FLOOR.of 0x0201 ≤
    ((stagedOn .kf8512).setReg (dreg .bootVer 0) 0x0500).fld (dreg .bootVer 0) BootVer.SVN := by decide

/-- R502's worked case: three failed starts leave ATTEMPTS 3 and the codes 0x0E, 0x12, 0x11. -/
theorem test_cause_word : (((recordCause [0] 0x0E ({ (recordCause [0] 0x12 (recordCause [0] 0x11 ({ regs := [] } : State))) with boot := { resA := 0x0E, resB := 0x0F } } : State)).reg
    (bootCause 0)).toNat = 0x030E12110E0F0000) := by decide


/-! ### Power domains, the core rail, temperature -/

/-- A transition of a domain of die 1. -/
def moving (i target : Nat) : State :=
  ((inMode 2).setFld (dom 1 i).reg PwrDom.BUSY 1).modDom (dom 1 i) fun m => { m with target := target }

theorem witness_domains : domAllows (dom 1 0) 1 = true ∧ domAllows (dom 1 33) 2 = false ∧ (inMode 2).hasDom (dom 1 33) = true
    ∧ (inMode 2).domCur (dom 1 58) = 0 ∧ (inMode 2).mayLeave (dom 1 58) 2 = true ∧ (inMode 2).childOn (dom 1 58) = false
    ∧ (inMode 2).mayLeave (dom 1 71) 2 = true ∧ (inMode 2).mayLeave { hild := true, d := 0, i := 5 } 2 = false
    ∧ ((inMode 2).setFld (dom 1 46).reg PwrDom.CUR 0).childOn (dom 1 47) = true
    ∧ (moving 58 2).domBusy (dom 1 58) = true ∧ ((moving 58 2).domSt (dom 1 58)).closing = none := by decide
theorem witness_banks : (closeBank 1 0 ((inMode 2).modBufDie 1 fun b => { b with ready := true })).sharedSize 1 ≥ 16384 ∧ (inMode 2).childOn (dom 1 34) = false ∧ domAllows (dom 1 34) 2 = true
    ∧ (closeBank 1 0 ((inMode 2).modBufDie 1 fun b => { b with closed := [1, 2, 3, 4, 5, 6, 7, 8, 9, 10, 11] })).sharedSize 1 < 16384 := by decide
theorem test_domain_off : (match exec (.domainTransitionEnd (dom 1 58)) { moving 58 2 with mem := [(0x210000000, 5), (0x210100000, 7)] } with
    | .next t => t.domCur (dom 1 58) == 2 && t.mem == [(0x210000000, 5)] | _ => false) = true := by decide
theorem test_domain_fail : (match exec (.domainFail (dom 1 58)) (moving 58 2) with
    | .next t => t.domCur (dom 1 58) == 0 && t.fld (dreg .pwrErr 1) PwrErr.DOMFAIL == 1 | _ => false) = true := by decide
theorem test_domain_refused : (match exec (.domainRequest (dom 1 33) 2) (inMode 2) with
    | .next t => t.fld (dom 1 33).reg PwrDom.STATUS == 2 | _ => false) = true := by decide
theorem witness_wake : ((inMode 2).setFld (dom 1 58).reg PwrDom.CUR 1).domCur (dom 1 58) = 1 ∧ domPads 3 = true ∧ domPads 20 = false
    ∧ ((inMode 2).setReg (dom 1 3).reg 0x00C20002).domCur (dom 1 3) = 2 := by decide
/-- A bank of die 1 that closes, with a cell in use or none. -/
def closing (n : Nat) : State :=
  (((inMode 2).setFld (dom 1 34).reg PwrDom.BUSY 1).modDom (dom 1 34) fun m => { m with closing := some 2 }).modBufDie 1 fun b =>
    { b with closed := [0], cells := [(3, { state := n })] }
theorem witness_closing : ((closing 2).bufDie 1).bankFree 0 = false ∧ ((closing 1).bufDie 1).bankFree 0 = true
    ∧ ((closing 2).domSt (dom 1 34)).closing = some (PwrDom.REQ.of 2) := by decide

/-- A request of 800 mV that waits on die 1. -/
def volted : State := (inMode 2).setReg (dreg .pwrAvs 1) 0x4000032003200320
theorem witness_avs : volted.fld (dreg .pwrAvs 1) PwrAvs.STATE = 1 ∧ volted.fld (dreg .pwrAvs 1) PwrAvs.REQ = 800
    ∧ ({ volted with fuses := { member := .kf2128, vbase := [(1, 760)] } } : State).avsTarget 1 = 800 := by decide
theorem witness_temperature : (inMode 2).warnLimit = 1680 ∧ (inMode 2).tripLimit = 1840 ∧ (1 : Nat) ∉ (inMode 2).pwr.warned := by decide
theorem test_temp : (match exec (.tempSample 1 1700) (inMode 2) with
    | .next t => t.fld (dreg .pwrTemp 1) PwrTemp.TJ == 1700 && t.fld (dreg .fltErr 1) FltErr.THERMWARN == 1 && t.fld (dreg .fltErr 1) FltErr.THERMTRIP == 0
    | _ => false) = true := by decide
theorem witness_rails : (inMode 2).boot.held = false ∧ (inMode 2).activeDies = [0, 1] ∧ ((inMode 2).setReg partDieState 0x3).activeDies = [0] := by decide
theorem test_rail : (match exec (.railOutOfRange .vio18) (inMode 2) with | .next t => t.boot.held && !t.active 0 | _ => false) = true := by decide
theorem test_vcore : (match exec (.railOutOfRange (.vcore 1 [])) (inMode 2) with | .next t => t.dieState 1 == 6 && t.active 0 | _ => false) = true := by decide


/-! ### Hot-swap slots -/

/-- A part whose slot 9 has a status and a control word; its domain is ON. -/
def slotted (stat ctl : Word) : State :=
  (((inMode 2).setReg (hreg .hildStat 9) stat).setReg (hreg .hildCtl 9) ctl).setReg ({ hild := true, d := 0, i := 2 } : DomId).reg 0

/-- The status of slot 9 seated with both feeds in range, in a state. -/
def seatedIn (st : Nat) : State := ((((slotted 0 0).setFld (hreg .hildStat 9) HildStat.SEATED 1).setFld (hreg .hildStat 9) HildStat.FEEDA 1).setFld
  (hreg .hildStat 9) HildStat.STATE st).setFld (hreg .hildStat 9) HildStat.ONA 1

theorem witness_slots : (seatedIn 0).slotLive 9 = true ∧ (seatedIn 0).slotBit 9 HildStat.SEATED = true ∧ (seatedIn 4).slotDriven 9 = true
    ∧ (seatedIn 0).hasPath = true ∧ (seatedIn 0).assist PartAssist.HOTPLUG = 0 ∧ (seatedIn 0).hild.down = false ∧ (seatedIn 6).slotState 9 = 6
    ∧ ((seatedIn 0).setFld partLead PartLead.HILDPATH 0xF).hasPath = false ∧ (seatedIn 0).slotBit 9 HildStat.ONA = true
    ∧ ((seatedIn 0).setFld partAssist PartAssist.HOTPLUG 2).assist PartAssist.HOTPLUG = 2 := by decide
theorem test_pwren : (match exec (.pwrenSet 9 1) (seatedIn 0) with | .next t => t.slotState 9 == 2 && t.slotState 8 == 0 | _ => false) = true := by decide
theorem test_pwren_waits : (match exec (.pwrenSet 9 1) ((seatedIn 0).setFld partAssist PartAssist.HOTPLUG 2) with
    | .next t => t.slotState 9 == 1 && t.fld { name := .hildHpv } HildHpv.TAG == 1 | _ => false) = true := by decide
theorem witness_hotplug_verdict : ((seatedIn 1).setFld (hreg .hildStat 9) HildStat.HPTAG 3).fld (hreg .hildStat 9) HildStat.HPTAG = 3
    ∧ mayAnswer .bmc (((seatedIn 1).modSlot 9 fun x => { x with mode := 2 }).slot 9).mode 0x3F true = true
    ∧ ((seatedIn 1).modSlot 9 fun x => { x with expired := [4], toggle := true, off := true }).slot 9
      = { ((seatedIn 1).slot 9) with expired := [4], toggle := true, off := true } := by decide
theorem test_short : (match exec (.short 9) (seatedIn 4) with
    | .next t => t.slotState 9 == 5 && t.reg { name := .hildSum } == 0x200 && t.fld (hreg .hildErr 9) HildErr.SHORT == 1 | _ => false) = true := by decide
theorem witness_good : ((seatedIn 3).setFld (hreg .hildStat 9) HildStat.GATEOK 1).slotBit 9 HildStat.GATEOK = true
    ∧ ((seatedIn 4).setFld (hreg .hildStat 9) HildStat.PGOOD 1).slotBit 9 HildStat.PGOOD = true
    ∧ ((seatedIn 2).setFld (hreg .hildStat 9) HildStat.TIMER 1).slotBit 9 HildStat.TIMER = true
    ∧ (((slotted 0 0).setFld (hreg .hildStat 9) HildStat.PRSNTA 1).setFld (hreg .hildStat 9) HildStat.PRSNTB 1).slotBit 9 HildStat.PRSNTB = true := by decide
theorem test_feed_low : (match exec (.feedRangeChange 9 false 0) (seatedIn 4) with
    | .next t => t.slotState 9 == 5 && t.fld (hreg .hildErr 9) HildErr.UVA == 1 && t.fld (hreg .hildErr 9) HildErr.NOFEED == 1 | _ => false) = true := by decide


/-! ### Sideband bridges -/

/-- A part with ticket 5 of die 1 allocated and the bridge's domain ON. -/
def ticketed (st : Nat) : State := ((inMode 2).setFld (dom 1 69).reg PwrDom.CUR 0).setFld (tktRes 1 5) SbbTktRes.STATE st

/-- A descriptor for slot 20 (die 1, channel 4) with an address and a length of one. -/
def slotXfer : Word := BitVec.ofNat 64 (20 * 2 ^ 48 + 0x50 * 2 ^ 41 + 1)

theorem witness_sideband : (ticketed 1).slotDie (xferSlot slotXfer) = 1 ∧ (ticketed 1).slotChan 20 = 4 ∧ (ticketed 1).sbbUp 1 = true
    ∧ badXfer (withProt 8 slotXfer) = false ∧ badXfer (withProt 8 (slotXfer ||| 0x3F)) = true ∧ ((ticketed 1).seg 1 4).running = none := by decide
theorem test_ticket_runs : (match exec (.readByte (.ticket 1 5) slotXfer) (ticketed 1) with
    | .next u => (u.seg 1 4).running == some { who := some (.ticket 1 5), xfer := withProt 4 slotXfer } && u.fld (tktRes 1 5) SbbTktRes.SEQ == 1
    | _ => false) = true := by decide
/-- A transaction of ticket 5 on the wire of segment 4, another behind it. -/
def onWire : State := ((ticketed 3).setReg { name := .sbbTktXfer, die := 1, i := 5 } slotXfer).modSeg 1 4 fun g =>
  { g with running := some { who := some (.ticket 1 5), xfer := withProt 4 slotXfer }, queue := [{ who := some (.ticket 1 6), xfer := withProt 1 slotXfer }] }
theorem test_wire_end : (match exec (.smbusTransactionEnd 1 4 5 [0xAB]) onWire with
    | .next u => u.reg { name := .sbbTktDbuf, die := 1, i := 5 } == 0xAB && u.fld (dreg .sbbErr 1) SbbErr.PEC == 1
      && ((u.seg 1 4).running.map fun x => x.who) == some (some (.ticket 1 6)) && u.fld (tktRes 1 6) SbbTktRes.STATE == 3 | _ => false) = true := by decide
theorem test_lock : (match exec (.lock (.ticket 1 5)) ((ticketed 4).setReg { name := .sbbTktXfer, die := 1, i := 5 } slotXfer) with
    | .next u => (u.seg 1 4).holder == some (.ticket 1 5) && u.fld { name := .sbbSegStat, die := 1, i := 4 } SbbSegStat.OKIND == 2
    | _ => false) = true := by decide
/-- Partition 2's virtual port 0 is bound to port 5 with slot 20, seen from die 0. -/
def windowed : State :=
  { (inMode 3).setFld (dom 1 69).reg PwrDom.CUR 0 with tab := { dies := [(0, { newest := [(0x5200 / 8, 0x8500000000000000), (0x5220 / 8, BitVec.ofNat 64 (0x4000 + 5 * 64 + 32 + 20)), (0x3140 / 8, 0x0400000000000000)] })] }, lane := { live := [((0, 0), 0x0502), ((0, 1), 0x0602)] } }
theorem witness_window : windowed.winSlot 2 0 = some 20 ∧ windowed.win 2 0 = {} := by decide
theorem test_window : (match exec (.writeByte (.window 2 0) slotXfer) windowed with
    | .next u => (u.win 2 0).state == 3 && (u.seg 1 4).running.isSome | _ => false) = true := by decide
theorem witness_full : 8 ≤ ((windowed.modWin 2 0 fun w => { w with queue := List.replicate 8 (.lock true) }).win 2 0).queue.length := by decide
theorem test_pending : (match exec (.windowReadHoldExpire 2 0 0x10) (windowed.modWin 2 0 fun w => { w with queue := [.lock true], state := 3 }) with
    | .next u => u.sbb.replies == [(2, 0, 0x10, 0x3F00000000000000)] | _ => false) = true := by decide

theorem witness_tickets : (inMode 2).fld (tktRes 1 0) SbbTktRes.STATE = 0 ∧ 4 < (ticketed 1).slotsPerDie
    ∧ (onWire.modSeg 1 4 fun g => { g with holder := some (.ticket 1 5), running := none, queue := [] }).seg 1 4
      = { holder := some (.ticket 1 5) } := by decide
theorem test_talloc : (match exec (.talloc 1) ((inMode 2).setFld (tktRes 1 0) SbbTktRes.STATE 1) with
    | .next u => u.fld (dreg .sbbTalloc 1) SbbTalloc.TICKET == 1 | _ => false) = true := by decide
theorem test_free : (match exec (.free 1 5) onWire with
    | .next u => u.fld (tktRes 1 5) SbbTktRes.STATE == 0 && ((u.seg 1 4).running.map fun x => x.who) == some none && (u.seg 1 4).queue.length == 1
    | _ => false) = true := by decide
theorem test_discard : (match exec (.ticketDiscard 1 5) ((ticketed 4).modSeg 1 4 fun g => { g with holder := some (.ticket 1 5) }) with
    | .next u => (u.seg 1 4).holder.isNone && u.fld (dreg .sbbErr 1) SbbErr.TKTDISC == 1 && u.fld (tktRes 1 5) SbbTktRes.STATE == 0 | _ => false) = true := by decide
theorem test_poll : (match exec (.sidebandPoll 1 0 0x10) (ticketed 0) with
    | .next u => (u.seg 1 4).clkreq && u.fld { name := .sbbSegSig, die := 1, i := 4 } SbbSegSig.CLKCHG == 1 | _ => false) = true := by decide
theorem witness_clkreq : (({ windowed with par := {} } : State).vpOfPort 0 0 2 5) = some 0 ∧ windowed.bindSlot 0 0 2 0 = some 20
    ∧ windowed.sbbUp 1 = true ∧ windowed.portOwner 0 0 5 = 2 := by decide


/-! ### Recorder and replay -/

/-- Die 1 records, with matcher 2 enabled on the falling edge of RECTRIG#. -/
def recording (state post : Nat) : State :=
  ((((inMode 2).setFld (dreg .recStat 1) RecStat.STATE state).setFld (dreg .recCfg 1) RecCfg.POST post).setFld
    { name := .recTrig, die := 1, i := 2 } RecTrig.EN 1).setFld { name := .recTrig, die := 1, i := 2 } RecTrig.KIND 2
theorem witness_recording : (recording 1 4).recState 1 = 1 ∧ (recording 1 4).softMatcher 1 = 2 ∧ (recording 3 4).recState 1 = 3
    ∧ RecCtl.ARM.of 0x80000000 = 1 := by decide
theorem test_trigger : (match exec (.triggerFire 1 2) (recording 1 4) with
    | .next t => t.recState 1 == 2 && t.fld (dreg .recStat 1) RecStat.TDIE == 1 && t.fld (dreg .recStat 1) RecStat.TMATCH == 2
      && (t.recDie 1).post == some 32 | _ => false) = true := by decide
theorem test_recorder_arm : (match exec (.arm 1 0x80000000) ((recording 3 4).modRec 1 fun r => { r with sealed := [4], frozen := [4] }) with
    | .next t => t.recState 1 == 1 && (t.recDie 1).frozen == [] && (t.recDie 1).sealed == [4] | _ => false) = true := by decide
theorem test_remote : (match exec (.remoteTrigger 1 0) (recording 1 0) with
    | .next t => t.recState 1 == 3 && t.fld (dreg .recStat 1) RecStat.TMATCH == 0xF | _ => false) = true := by decide

/-- Die 1 with an open control segment; `post` counts the segments still to seal. -/
def segmented (post : Option Nat) : State := (recording (if post.isSome then 2 else 1) 4).modRec 1 fun r => { r with openSeg := [((0, 0x3E), { seg := 3 })], fresh := 4, post := post }
theorem witness_segment : ((segmented none).recDie 1).openSeg.find (0, 0x3E) = some { seg := 3 } ∧ MemOk (segmented none)
    ∧ ((segmented (some 1)).recDie 1).post = some 1 ∧ (segmented (some 1)).recState 1 = 2 := by unfold MemOk; decide
theorem witness_anchor : (((recording 1 4).setFld (dreg .recCtl 1) RecCtl.STREAM 1).setFld (dreg .recCfg 0) RecCfg.ANCHOR 5).fld (dreg .recCfg 0) RecCfg.ANCHOR ≠ 0
    ∧ ((recording 1 4).modRec 1 fun r => { r with anchor := some { sram := [], newest := [], shadow := [], ptab := [] } }).recDie 1
      = { ((recording 1 4).recDie 1) with anchor := some { sram := [], newest := [], shadow := [], ptab := [] } } := by decide
/-- A part in REPLAY; die 1 replays. -/
def replaying : State := (inMode 7).setFld (recRpt 1) RecRpt.RSTATE 2
theorem witness_replaying : replaying.replays 1 = true ∧ (inMode 7).fld (recRpt 1) RecRpt.RSTATE ≠ 2 ∧ (inMode 7).mode = 7
    ∧ ({ rcd := { typ := 0x10, src := 0, aux := 0, body := [] } } : FeedRec).ofHart = true := by decide
theorem test_replay_start : (match exec (.startReplay 1 { lines := [(sramBase 1, [1, 2])], harts := [{ pc := 0x40, regs := [(1, 7)] }] } []) (inMode 7) with
    | .next t => t.mem == [(sramBase 1, 1), (sramBase 1 + 1, 2)] && (t.hart 1 0).pc == 0x40 && t.recState 1 == 4 | _ => false) = true := by decide
theorem test_replay_done : (match exec (.replayDone 1) replaying with
    | .next t => t.fld (recRpt 1) RecRpt.RSTATE == 3 && (t.hart 1 1).paused | _ => false) = true := by decide

end Sys2Proof.Tests
end

section
/-! SUPPORT. Register writes of the BMC, fault sources, the meridian with its clocks, and the expiry of a peg's assist timer: what each
operation leaves, and the statement that they meet (00 R7, R8; 01 R24, R34, R39 to R42; 11 R427; 20 R667). -/

namespace Sys2Proof.Machine

/-! ### Words, frames and loops -/

/-- Replacing all 64 bits of a word gives the new bits. -/
theorem setBits_full (w v : Word) : setBits w 63 0 v.toNat = v := by
  apply BitVec.eq_of_toNat_eq
  rw [setBits_toNat w 63 0 v.toNat (by omega) (by omega)]
  have hw := w.isLt
  have hv := v.isLt
  omega

/-- The field of all 64 bits is the word. -/
theorem getBits_full (v : Word) : getBits v 63 0 = v.toNat := by
  have hv := v.isLt
  simp only [getBits, Nat.shiftRight_zero]
  omega

/-- A command that does not write PART.LEAD keeps the lead die. -/
theorem Keeps.lead {ns : List RegName} {s t : State} (h : Keeps ns s t) (hn : .partLead ∉ ns) : t.lead = s.lead :=
  h.fld partLead PartLead.LEAD hn

/-- A command that does not write PART.DIESTATE keeps the dies in service. -/
theorem Keeps.active {ns : List RegName} {s t : State} (h : Keeps ns s t) (hn : .partDieState ∉ ns) (d : Nat) :
    t.active d = s.active d := by
  unfold State.active State.dieState
  rw [h.2.2.2.2 partDieState hn]

theorem keeps_modClock (s : State) (f : ClockSt → ClockSt) : Keeps [] s (s.modClock f) := Keeps.of_eq rfl rfl rfl rfl rfl

/-- A field set in the registers that a list names reads as set in each of them, and where it already read so. -/
theorem State.fld_forAll_setFld {α : Type} (r : α → Reg) (f : Field) (v : Nat) (hf : f.lo ≤ f.hi) (h64 : f.hi < 64) (q : Reg) (l : List α)
    (s : State) (h : (∃ a ∈ l, r a = q) ∨ s.fld q f = v % 2 ^ (f.hi + 1 - f.lo)) :
    (s.forAll l fun a t => t.setFld (r a) f v).fld q f = v % 2 ^ (f.hi + 1 - f.lo) := by
  unfold State.forAll
  induction l generalizing s with
  | nil => simpa using h
  | cons a l ih =>
    apply ih
    by_cases ha : r a = q
    · exact .inr (ha ▸ State.fld_setFld_same s (r a) f v hf h64)
    · have hq : (s.setFld (r a) f v).fld q f = s.fld q f := State.fld_setFld_ne s f f v (Ne.symm ha)
      simpa [ha, hq] using h

/-- A field set in many registers leaves the fields beside it. -/
theorem State.fld_forAll_setFld_other {α : Type} (r : α → Reg) (f g : Field) (v : Nat) (hf : f.lo ≤ f.hi) (h64 : f.hi < 64)
    (hd : g.hi < f.lo ∨ f.hi < g.lo) (q : Reg) (l : List α) (s : State) :
    (s.forAll l fun a t => t.setFld (r a) f v).fld q g = s.fld q g := by
  refine State.forAll_keeps (fun t => t.fld q g) _ (fun a t => ?_) s l
  by_cases ha : q = r a
  · rw [ha]; exact State.fld_setFld_other t (r a) f g v hf h64 hd
  · exact State.fld_setFld_ne t f g v ha

/-! ### Fault sources -/

/-- Setting a fault source leaves the clocks. -/
@[simp] theorem raiseFault_clock (fr : FaultRec) (s : State) : (raiseFault fr s).clock = s.clock := by
  rcases raiseFault_cases fr s with ⟨h, -⟩ | ⟨-, h⟩ <;> simp [h]

@[simp] theorem raise_clock (r : Reg) (f : Field) (s : State) : (raise r f s).clock = s.clock := raiseFault_clock _ s

/-- The sticky bit of a source that is set reads 1 while its die is in service. -/
theorem getBits_raiseFault (fr : FaultRec) (s : State) (h : s.active (faultDie s fr.reg) = true) (h64 : fr.bit < 64) :
    getBits ((raiseFault fr s).reg fr.reg) fr.bit fr.bit = 1 := by
  rcases raiseFault_cases fr s with ⟨-, hoff, -⟩ | ⟨-, he⟩
  · rw [h] at hoff; cases hoff
  · rw [he, State.reg_modFlt, State.reg_setReg_same, getBits_setBits_same _ _ _ _ (le_refl _) h64]
    simp

/-- A source of one bit reads 1 once set. -/
theorem fld_raise (r : Reg) (f : Field) (s : State) (h : s.active (faultDie s r) = true) (hf : f.hi = f.lo) (h64 : f.lo < 64) :
    (raise r f s).fld r f = 1 := by
  unfold State.fld raise
  rw [hf]
  exact getBits_raiseFault { reg := r, bit := f.lo } s h h64

/-! ### The gate of a write -/

/-- A write that a gate refuses sets REFUSED of its die (11 R427). -/
theorem gateRefuse_refused (d mid t addr lo : Nat) (s : State) (ha : s.active d = true) (hm : mid ≠ 0x81) :
    (gateRefuse d mid t 1 addr lo s).fld (gateErr d) GateErr.REFUSED = 1 := by
  unfold gateRefuse
  rw [if_neg (by decide), if_neg hm]
  refine fld_raise (gateErr d) GateErr.REFUSED _ ?_ rfl (by decide)
  rw [(keeps_captureFrec d mid t 1 addr lo s).active (by decide)]
  exact ha

/-- No member has more than 8 dies (00 R1). -/
theorem State.dieCount_le (s : State) : s.dieCount ≤ 8 := by
  unfold State.dieCount
  cases s.fuses.member <;> decide

/-- Where the BMC's address of an offset in a register block of a die in service leads (11 R405, R423). -/
theorem State.reachOf_bmc_block (s : State) {d w : Nat} (hp : s.hasPath = true) (hd : d < s.dieCount) (ha : s.active d = true)
    (hw : w < 0x03A00000) : s.reachOf .bmc (dieBase d + w) = .at ⟨d, w / 0x400000, w % 0x400000, w⟩ := by
  have hd8 : d < 8 := lt_of_lt_of_le hd s.dieCount_le
  have hmod : (dieBase d + w) % 2 ^ 32 = w := by unfold dieBase; omega
  have hdiv : (dieBase d + w) / 2 ^ 32 - 1 = d := by unfold dieBase; omega
  have hlo : 2 ^ 32 ≤ dieBase d + w := by unfold dieBase; omega
  have hhi : dieBase d + w < 9 * 2 ^ 32 := by unfold dieBase; omega
  have hwin : windowTarget w = some (w / 0x400000, w % 0x400000) := by
    unfold windowTarget
    rw [if_neg (by omega), if_neg (by omega), if_neg (by omega), if_pos (by omega)]
  have hdest : s.destOf .bmc (dieBase d + w) = some ⟨d, w / 0x400000, w % 0x400000, w⟩ := by
    unfold State.destOf State.decodeAddr
    dsimp only
    rw [if_neg (by omega), if_neg (by omega), if_pos ⟨hlo, hhi⟩, hmod, hdiv, hwin]
    rfl
  have hno : w / 0x400000 ≠ noTarget := by unfold noTarget; omega
  unfold State.reachOf
  rw [if_neg (by simp [hp]), hdest]
  dsimp only
  rw [if_neg hno, if_pos (by omega)]
  simp [State.hasDie, hd, ha]

/-- A write of the BMC that its gate passes acts at its target (11 R424). -/
theorem busWrite_bmc_passes (env : BusEnv) {a n : Nat} (v : Word) {s : State} {x : Dest} (hx : s.reachOf .bmc a = .at x)
    (hok : s.refusedPage x.die x.target 0x80 x.off n 1 = none) : busWrite .bmc env 0x80 a n v s = writeAt .bmc env 0x80 x n v s := by
  have hwake : debugWake 0x80 s = s := rfl
  rcases gateAccess_cases x 0x80 1 a n s with ⟨hg, -⟩ | ⟨p, hpage, -⟩
  · simp [busWrite, hwake, hx, hg]
  · rw [if_neg (by decide), if_neg (by decide), hok] at hpage
    cases hpage

/-- A write of the BMC that its gate refuses is recorded and does nothing else (11 R427). -/
theorem busWrite_bmc_refused (env : BusEnv) {a n : Nat} (v : Word) {s : State} {x : Dest} (hx : s.reachOf .bmc a = .at x)
    (hno : s.refusedPage x.die x.target 0x80 x.off n 1 ≠ none) :
    ∃ lo, (busWrite .bmc env 0x80 a n v s).2 = gateRefuse x.die 0x80 x.target 1 a lo s := by
  have hwake : debugWake 0x80 s = s := rfl
  rcases gateAccess_cases x 0x80 1 a n s with ⟨-, hpass⟩ | ⟨p, -, hg⟩
  · exact absurd hpass hno
  · exact ⟨(max (p * 4096) x.off - x.off / 64 * 64) / 64, by simp only [busWrite, hwake, hx, hg, Bool.false_eq_true, if_false]⟩

/-- REGISTER_WRITE of the BMC is a write on the bus under its MID (11 R422). -/
theorem execRegisterWrite_bmc (addr width : Nat) (v : Word) (env : BusEnv) (s : State) :
    exec (.registerWrite .bmc addr width v env) s = .next (busWrite .bmc env 0x80 addr width v s).2 := rfl

/-! ### LANE.USERPAT -/

/-- A byte of a register in the window of a lane, of which each has 256 bytes (19 R646). -/
theorem Layout.at_lane (c w : Nat) {ll m : Nat} (hll : ll < 64) (hm : m < 0x100) :
    Layout.at ⟨.die, 0x10000 + c, w, [(0x100, 64)]⟩ (0x10000 + c + 0x100 * ll + m) = if m < w / 8 then some ([ll], m) else none := by
  have hoff : 0x10000 + c + 0x100 * ll + m - (0x10000 + c) = 0x100 * ll + m := by omega
  have hdiv : (0x100 * ll + m) / 0x100 = ll := by omega
  have hmod : (0x100 * ll + m) % 0x100 = m := by omega
  unfold Layout.at
  dsimp only
  rw [if_neg (by omega), hoff]
  simp [locate, hdiv, hmod, hll]

/-- The names of the registers of a die that stand before LANE.USERPAT in the list of all names. -/
def dieNamesBefore : List RegName :=
  [.laneMapctl, .laneDiagsel, .lanePeggo, .laneQmap, .laneStat, .laneTxeq, .laneRxeq, .laneDfe, .lanePeg, .laneTest, .laneErrcnt, .laneBitcnt]

/-- None of them holds a byte of LANE.USERPAT. -/
theorem layout_at_userpat_none {n : RegName} (hn : n ∈ dieNamesBefore) {ll k : Nat} (hll : ll < 64) (hk : k < 8) :
    n.layout.at (0x10040 + 0x100 * ll + k) = none := by
  have hlane : ∀ c w, c + w / 8 ≤ 0x40 → Layout.at ⟨.die, 0x10000 + c, w, [(0x100, 64)]⟩ (0x10040 + 0x100 * ll + k) = none := by
    intro c w hc
    rw [show 0x10040 + 0x100 * ll + k = 0x10000 + c + 0x100 * ll + (0x40 - c + k) by omega, Layout.at_lane c w hll (by omega),
      if_neg (by omega)]
  have hone : ∀ o, o < 0x100 → Layout.at ⟨.die, o, 32, []⟩ (0x10040 + 0x100 * ll + k) = none := by
    intro o ho
    unfold Layout.at
    dsimp only [locate]
    rw [if_neg (by omega), if_neg (by omega)]
  have hqmap : Layout.at ⟨.die, 0x100, 32, [(4, 16)]⟩ (0x10040 + 0x100 * ll + k) = none := by
    unfold Layout.at
    dsimp only [locate]
    rw [if_neg (by omega), if_neg (by omega)]
  simp only [dieNamesBefore, List.mem_cons, List.not_mem_nil, or_false] at hn
  rcases hn with rfl | rfl | rfl | rfl | rfl | rfl | rfl | rfl | rfl | rfl | rfl | rfl
  · exact hone 0 (by omega)
  · exact hone 8 (by omega)
  · exact hone 0x10 (by omega)
  · exact hqmap
  · exact hlane 0 32 (by omega)
  · exact hlane 8 32 (by omega)
  · exact hlane 0x10 32 (by omega)
  · exact hlane 0x18 64 (by omega)
  · exact hlane 0x20 64 (by omega)
  · exact hlane 0x28 32 (by omega)
  · exact hlane 0x30 64 (by omega)
  · exact hlane 0x38 64 (by omega)

/-- The bytes of LANE.USERPAT of a lane (02 R72; 19 R646). -/
theorem regHolding_laneUserpat (d : Nat) {ll k : Nat} (hll : ll < 64) (hk : k < 8) :
    regHolding .die d (0x10040 + 0x100 * ll + k) = some ({ name := .laneUserpat, die := d, i := ll }, k) := by
  obtain ⟨after, hall⟩ : ∃ after, RegName.all = (regNames0 ++ regNames1 ++ regNames2 ++ [.laneBitcnt]) ++ .laneUserpat :: after := ⟨_, rfl⟩
  have hdie : ∀ n ∈ regNames0 ++ regNames1 ++ regNames2 ++ [.laneBitcnt], n.layout.region = .die → n ∈ dieNamesBefore := by decide
  have hhere : RegName.layout .laneUserpat = ⟨.die, 0x10000 + 0x40, 64, [(0x100, 64)]⟩ := rfl
  unfold regHolding
  rw [hall, List.findSome?_append, List.findSome?_eq_none_iff.mpr, Option.none_or, List.findSome?_cons, hhere,
    if_pos rfl, Layout.at_lane 0x40 64 hll (by omega), if_pos (by omega)]
  · rfl
  · intro n hn
    split
    · rw [layout_at_userpat_none (hdie n hn (by assumption)) hll hk]; rfl
    · rfl

theorem State.place_laneUserpat (s : State) (d : Nat) {ll : Nat} (hll : ll < 64) :
    s.place .die d (0x10040 + 0x100 * ll) 8 = .reg { name := .laneUserpat, die := d, i := ll } := by
  have h0 := regHolding_laneUserpat d hll (k := 0) (by omega)
  rw [Nat.add_zero] at h0
  unfold State.place
  rw [if_neg (by omega), h0]
  rfl

/-- A write in the LANE block at the offset of LANE.USERPAT of a lane is a write of that register. -/
theorem writeAt_laneUserpat (who : Master) (env : BusEnv) (mid d off : Nat) {ll : Nat} (v : Word) (s : State) (hll : ll < 64) :
    writeAt who env mid ⟨d, 0, off, 0x10040 + 0x100 * ll⟩ 8 v s =
      (true, regWrite who env { name := .laneUserpat, die := d, i := ll } v s) := by
  unfold writeAt placeWrite
  simp [s.place_laneUserpat d hll]

/-- LANE.USERPAT has no sticky bit. -/
theorem isSource_laneUserpat {fr : FaultRec} (h : fr.reg.name = .laneUserpat) : fr.isSource = false := by
  unfold FaultRec.isSource
  rw [h]
  rfl

/-- A write by the access codes stores all bits of LANE.USERPAT (00 R7). -/
theorem storeReg_laneUserpat (d ll : Nat) (v : Word) (s : State) :
    let r : Reg := { name := .laneUserpat, die := d, i := ll }
    storeReg r v s = if v = s.reg r then s else s.setReg r v := by
  have hput : LaneUserpat.PAT.put (LaneUserpat.PAT.of v) (s.reg { name := .laneUserpat, die := d, i := ll }) = v := by
    show setBits _ 63 0 (getBits v 63 0) = v
    rw [getBits_full, setBits_full]
  intro r
  have hfields : r.name.fields = [LaneUserpat.PAT] := rfl
  have hrw : LaneUserpat.PAT.acc = .rw := rfl
  simp only [storeReg, hfields, hrw, List.foldl_cons, List.foldl_nil, true_or, if_true, reduceCtorEq, if_false, hput, r]

/-- A write of LANE.USERPAT by any master that its gate has passed. -/
theorem regWrite_laneUserpat (who : Master) (env : BusEnv) (d ll : Nat) (v : Word) (s : State) :
    let r : Reg := { name := .laneUserpat, die := d, i := ll }
    regWrite who env r v s = if v = s.reg r then s else s.setReg r v := by
  intro r
  have hown : (env.sets.filter fun f => f.reg == r && f.isSource) = [] := by
    rw [List.filter_eq_nil_iff]
    intro fr _
    by_cases h : fr.reg = r
    · simp [isSource_laneUserpat (show fr.reg.name = .laneUserpat by rw [h])]
    · simp [h]
  have hall : v &&& ~~~(sourceBits r []) = v := by
    show v &&& ~~~(0#64) = v
    rw [BitVec.not_zero, BitVec.and_allOnes]
  unfold regWrite
  rw [hown]
  dsimp only
  rw [hall]
  have hblock : blockWrite who env r v s = storeReg r v s := by simp [blockWrite, laneWrite, RegName.layout, r]
  exact hblock.trans (storeReg_laneUserpat d ll v s)

/-- After it LANE.USERPAT reads as written, and every other register and the memories are as they were. -/
theorem regWrite_laneUserpat_reads (who : Master) (env : BusEnv) (d ll : Nat) (v : Word) (s : State) :
    let r : Reg := { name := .laneUserpat, die := d, i := ll }
    let t := regWrite who env r v s
    t.reg r = v ∧ t.mem = s.mem ∧ ∀ x, x ≠ r → t.reg x = s.reg x := by
  intro r t
  have ht : t = if v = s.reg r then s else s.setReg r v := regWrite_laneUserpat who env d ll v s
  by_cases h : v = s.reg r
  · rw [ht, if_pos h]
    exact ⟨h.symm, rfl, fun _ _ => rfl⟩
  · rw [ht, if_neg h]
    exact ⟨State.reg_setReg_same s r v, rfl, fun x hx => State.reg_setReg_ne s v hx⟩

/-! ### The meridian (01 R24, R39 to R41) -/

/-- Resynchronisation writes PART.MERSTAT alone. -/
theorem keeps_beginResync (d : Nat) (s : State) : Keeps [.partMerstat] s (beginResync d s) := by
  unfold beginResync
  split
  · exact Keeps.refl _ _
  · exact (keeps_modClock s _).trans (keeps_raiseFault _ _)

/-- Of the clocks, resynchronisation changes the list of the dies that slew. -/
theorem beginResync_clock (d : Nat) (s : State) :
    (beginResync d s).clock = if d ∈ s.clock.slewing then s.clock else { s.clock with slewing := d :: s.clock.slewing } := by
  unfold beginResync
  split <;> simp

theorem beginResync_slews (d : Nat) (s : State) : d ∈ (beginResync d s).clock.slewing := by
  rw [beginResync_clock]
  split
  · assumption
  · exact List.mem_cons_self

/-- A die that begins to slew sets its RESYNC bit. -/
theorem beginResync_bit {d : Nat} (s : State) (hs : d ∉ s.clock.slewing) (hl : s.active s.lead = true) (hd : d < 48) :
    getBits ((beginResync d s).reg partMerstat) (PartMerstat.RESYNC.lo + d) (PartMerstat.RESYNC.lo + d) = 1 := by
  unfold beginResync
  rw [if_neg hs]
  exact getBits_raiseFault _ _ hl (by simp only [PartMerstat.RESYNC]; omega)

section Measured
variable {s : State} {d : Nat} (ha : s.active d = true) (hd : d ≠ s.lead)
include ha hd

/-- An offset of at most 8 ns is kept, counted from the lead. -/
theorem measureOffset_small {offset : Int} (h : offset.natAbs ≤ 8 * 65536) :
    measureOffset d offset s = s.modClock fun x => { x with offset := x.offset.set d (s.clock.offset.get 0 s.lead + offset) } := by
  unfold measureOffset
  rw [if_neg (by simp [ha, hd])]
  dsimp only
  rw [if_neg (by omega), if_neg (by omega)]

/-- An offset above 8 ns is kept and starts a slew. -/
theorem measureOffset_slew {offset : Int} (h : 8 * 65536 < offset.natAbs) (h' : offset.natAbs ≤ 1000 * 65536) :
    measureOffset d offset s =
      beginResync d (s.modClock fun x => { x with offset := x.offset.set d (s.clock.offset.get 0 s.lead + offset) }) := by
  unfold measureOffset
  rw [if_neg (by simp [ha, hd])]
  dsimp only
  rw [if_neg (by omega), if_pos h]

/-- Above 1 µs the die is stepped to the lead's count and time-faulted. -/
theorem measureOffset_step {offset : Int} (h : 1000 * 65536 < offset.natAbs) :
    let lead := s.clock.offset.get 0 s.lead
    measureOffset d offset s = raiseFault { reg := partMerstat, bit := PartMerstat.TFAULT.lo + d } (s.modClock fun x =>
      { x with offset := (x.offset.set d (lead + offset)).set d lead, timeFault := d :: x.timeFault.erase d }) := by
  unfold measureOffset
  rw [if_neg (by simp [ha, hd])]
  dsimp only
  rw [if_pos h]
  rfl

end Measured

/-- A measurement writes PART.MERSTAT alone. -/
theorem keeps_measureOffset (d : Nat) (offset : Int) (s : State) : Keeps [.partMerstat] s (measureOffset d offset s) := by
  unfold measureOffset
  split
  · exact Keeps.refl _ _
  · dsimp only
    split
    · exact ((keeps_modClock s _).trans (keeps_modClock _ _)).trans (keeps_raiseFault _ _)
    · split
      · exact (keeps_modClock s _).trans (keeps_beginResync _ _)
      · exact (keeps_modClock s _).mono (by simp)

/-- How far a die whose offset was set is ahead of the lead die. -/
theorem offsetToLead_of_set {t : State} {m : FMap Nat Int} {d : Nat} {v : Int} (hm : t.clock.offset = m.set d v) (hd : d ≠ t.lead) :
    t.offsetToLead d = v - m.get 0 t.lead := by
  unfold State.offsetToLead
  rw [hm, FMap.get_set_same, FMap.get_set_ne m 0 v (Ne.symm hd)]

/-- A measured offset above 8 ns and up to 1 µs: the die slews by that offset, and begins with its RESYNC bit set (01 R41). -/
theorem measureOffset_slew_reads {s : State} {d : Nat} (ha : s.active d = true) (hd : d ≠ s.lead) (h8 : d < 8) {offset : Int}
    (h : 8 * 65536 < offset.natAbs) (h' : offset.natAbs ≤ 1000 * 65536) :
    let t := measureOffset d offset s
    d ∈ t.clock.slewing ∧ t.offsetToLead d = offset ∧ (d ∉ s.clock.slewing → s.active s.lead = true →
      getBits (t.reg partMerstat) (PartMerstat.RESYNC.lo + d) (PartMerstat.RESYNC.lo + d) = 1) := by
  intro t
  have hlead : t.lead = s.lead := (keeps_measureOffset d offset s).lead (by decide)
  have ht : t = _ := measureOffset_slew ha hd h h'
  have hoff : t.clock.offset = s.clock.offset.set d (s.clock.offset.get 0 s.lead + offset) := by
    rw [ht, beginResync_clock]
    split <;> rfl
  refine ⟨?_, ?_, fun hs hl => ?_⟩
  · rw [ht]; exact beginResync_slews d _
  · rw [offsetToLead_of_set hoff (by rw [hlead]; exact hd), hlead]; omega
  · rw [ht]; exact beginResync_bit _ hs hl (by omega)

/-- A measured offset above 1 µs: the die is time-faulted with its TFAULT bit set, and its offset is removed (01 R41). -/
theorem measureOffset_step_reads {s : State} {d : Nat} (ha : s.active d = true) (hd : d ≠ s.lead) (h8 : d < 8) {offset : Int}
    (h : 1000 * 65536 < offset.natAbs) :
    let t := measureOffset d offset s
    d ∈ t.clock.timeFault ∧ t.offsetToLead d = 0 ∧ (s.active s.lead = true →
      getBits (t.reg partMerstat) (PartMerstat.TFAULT.lo + d) (PartMerstat.TFAULT.lo + d) = 1) := by
  intro t
  have hlead : t.lead = s.lead := (keeps_measureOffset d offset s).lead (by decide)
  have ht : t = _ := measureOffset_step ha hd h
  have hclock := congrArg State.clock ht
  rw [raiseFault_clock, State.modClock_clock] at hclock
  refine ⟨?_, ?_, fun hl => ?_⟩
  · rw [hclock]; exact List.mem_cons_self
  · rw [offsetToLead_of_set (congrArg ClockSt.offset hclock) (by rw [hlead]; exact hd), hlead,
      FMap.get_set_ne _ _ _ (Ne.symm hd), sub_self]
  · rw [ht]; exact getBits_raiseFault _ _ hl (by simp only [PartMerstat.TFAULT]; omega)

/-- At the wrap the lead die's count reads zero again (01 R40). -/
theorem meridianWrap_meridian (s : State) : (meridianWrap s).meridian s.lead = 0 := by
  simp only [meridianWrap, State.meridian, State.count_clock]
  omega

/-- The wrap takes time: the count before it is below 2^64. -/
theorem meridianWrap_now (s : State) : s.now < (meridianWrap s).now := by
  simp only [meridianWrap, State.meridian]
  omega

/-! ### Reference clocks (01 R42, 20 R667) -/

/-- The loss of a reference clock writes PART.MERSTAT and FLT.ERR alone. -/
theorem keeps_refclkLoss (d : Nat) (s : State) : Keeps [.partMerstat, .fltErr] s (refclkLoss d s) := by
  have hswitch : ∀ (f : Field) (g : ClockSt → ClockSt) (t : State), Keeps [.fltErr] t (raise (dreg .fltErr d) f (t.modClock g)) :=
    fun f g t => (keeps_modClock t g).trans (keeps_raise _ f _)
  unfold refclkLoss
  split
  · exact Keeps.refl _ _
  · dsimp only
    split
    · exact Keeps.refl _ _
    · have hlost := fun g f h => (keeps_modClock s g).trans (hswitch f h (s.modClock g))
      split
      · exact (hlost _ _ _).mono (by simp)
      · split
        · exact (hlost _ _ _).mono (by simp)
        · exact ((hlost _ _ _).trans (keeps_beginResync d _)).mono (by simp)

/-- The clocks after the one in use of a die was lost and clock `c` (2: the holdover) has followed. -/
def ClockSt.switched (x : ClockSt) (d c : Nat) : ClockSt :=
  { x with lost := (d, x.clock.get 0 d) :: x.lost.erase (d, x.clock.get 0 d), clock := x.clock.set d c }

/-- The loss of one clock does not touch the record of the other. -/
theorem mem_lost_iff {l : List (Nat × Nat)} {d c o : Nat} (h : o ≠ c) : (d, o) ∈ (d, c) :: l.erase (d, c) ↔ (d, o) ∈ l := by
  have hne : (d, o) ≠ (d, c) := by simp [h]
  rw [List.mem_cons, or_iff_right hne, List.mem_erase_of_ne hne]

section Lost
variable {s : State} {d : Nat} (ha : s.active d = true) (hc : s.clock.clock.get 0 d < 2)
include ha hc

/-- With the other clock lost too the die holds over. -/
theorem refclkLoss_both (ho : (d, 1 - s.clock.clock.get 0 d) ∈ s.clock.lost) :
    refclkLoss d s = raise (dreg .fltErr d) FltErr.REFBOTH (s.modClock fun x => x.switched d 2) := by
  unfold refclkLoss
  rw [if_neg (by simp [ha])]
  dsimp only
  rw [State.modClock_clock, if_neg (by omega), if_pos ((mem_lost_iff (by omega)).mpr ho)]
  rfl

/-- Otherwise it goes on with the other clock, and a die that does not lead resynchronises. -/
theorem refclkLoss_one (ho : (d, 1 - s.clock.clock.get 0 d) ∉ s.clock.lost) :
    let u := raise (dreg .fltErr d) FltErr.REFCLK (s.modClock fun x => x.switched d (1 - s.clock.clock.get 0 d))
    refclkLoss d s = if d = s.lead then u else beginResync d u := by
  unfold refclkLoss
  rw [if_neg (by simp [ha])]
  dsimp only
  rw [State.modClock_clock, if_neg (by omega), if_neg (mt (mem_lost_iff (by omega)).mp ho)]
  rfl

/-- The holdover with both clocks lost is reported (20 R667). -/
theorem refclkLoss_both_reads (ho : (d, 1 - s.clock.clock.get 0 d) ∈ s.clock.lost) :
    let t := refclkLoss d s
    (d, s.clock.clock.get 0 d) ∈ t.clock.lost ∧ t.clock.clock.get 0 d = 2 ∧ t.fld (dreg .fltErr d) FltErr.REFBOTH = 1 := by
  intro t
  have ht : t = _ := refclkLoss_both ha hc ho
  rw [ht, raise_clock]
  exact ⟨List.mem_cons_self, FMap.get_set_same _ _ _ _, fld_raise (dreg .fltErr d) FltErr.REFBOTH _ ha rfl (by decide)⟩

/-- The switch to the other clock is reported, and a die that does not lead slews (01 R42). -/
theorem refclkLoss_one_reads (ho : (d, 1 - s.clock.clock.get 0 d) ∉ s.clock.lost) :
    let t := refclkLoss d s
    (d, s.clock.clock.get 0 d) ∈ t.clock.lost ∧ t.clock.clock.get 0 d = 1 - s.clock.clock.get 0 d ∧
      t.fld (dreg .fltErr d) FltErr.REFCLK = 1 ∧ (d ≠ s.lead → d ∈ t.clock.slewing) := by
  intro t
  have ht : t = _ := refclkLoss_one ha hc ho
  generalize hu : raise (dreg .fltErr d) FltErr.REFCLK (s.modClock fun x => x.switched d (1 - s.clock.clock.get 0 d)) = u at ht
  have hclock : u.clock = s.clock.switched d (1 - s.clock.clock.get 0 d) := by rw [← hu, raise_clock]; rfl
  have hlost : (d, s.clock.clock.get 0 d) ∈ u.clock.lost := by rw [hclock]; exact List.mem_cons_self
  have huse : u.clock.clock.get 0 d = 1 - s.clock.clock.get 0 d := by rw [hclock]; exact FMap.get_set_same _ _ _ _
  have hfld : u.fld (dreg .fltErr d) FltErr.REFCLK = 1 := by
    rw [← hu]; exact fld_raise (dreg .fltErr d) FltErr.REFCLK _ ha rfl (by decide)
  by_cases hd : d = s.lead
  · rw [ht, if_pos hd]
    exact ⟨hlost, huse, hfld, fun h => absurd hd h⟩
  · rw [ht, if_neg hd, (keeps_beginResync d u).fld _ _ (by simp [dreg])]
    refine ⟨?_, ?_, hfld, fun _ => beginResync_slews d u⟩ <;> rw [beginResync_clock] <;> split <;> assumption

end Lost

/-! ### The peg (01 R34; 02 R63) -/

/-- A peg that goes on writes LANE.PEG alone. -/
theorem keeps_pegGoOn (d pp st : Nat) (s : State) : Keeps [.lanePeg] s (pegGoOn d pp st s) :=
  (keeps_forAll (ns := [.lanePeg]) _ (fun _ _ => keeps_setFld _ _ _ _) s _).trans
    (keeps_forAll (ns := [.lanePeg]) _ (fun _ _ => keeps_setFld _ _ _ _) _ _) |>.mono (by simp)

@[simp] theorem pegGoOn_lane (d pp st : Nat) (s : State) : (pegGoOn d pp st s).lane = s.lane := by
  have hset : ∀ (f : Field) (v : Nat) (t : State), (t.forAll (s.lanesOf d pp) fun ll u => u.setFld (lanePeg d ll) f v).lane = t.lane :=
    fun f v t => State.forAll_keeps State.lane _ (fun ll u => u.setFld_lane (lanePeg d ll) f v) t _
  exact (hset _ _ _).trans (hset _ _ _)

/-- On every lane of its port the peg waits no more. -/
theorem pegGoOn_tag (d pp st : Nat) (s : State) {ll : Nat} (hll : ll ∈ s.lanesOf d pp) :
    (pegGoOn d pp st s).fld (lanePeg d ll) LanePeg.TAG = 0 :=
  State.fld_forAll_setFld (lanePeg d) LanePeg.TAG 0 (by decide) (by decide) _ _ _ (.inl ⟨ll, hll, rfl⟩)

/-- On every lane of its port the peg is in the step in which it goes on. -/
theorem pegGoOn_state (d pp st : Nat) (s : State) (hst : st < 16) {ll : Nat} (hll : ll ∈ s.lanesOf d pp) :
    (pegGoOn d pp st s).fld (lanePeg d ll) LanePeg.STATE = st := by
  unfold pegGoOn setPegState
  rw [State.fld_forAll_setFld_other (lanePeg d) LanePeg.TAG LanePeg.STATE 0 (by decide) (by decide) (by decide),
    State.fld_forAll_setFld (lanePeg d) LanePeg.STATE st (by decide) (by decide) _ _ _ (.inl ⟨ll, hll, rfl⟩)]
  exact Nat.mod_eq_of_lt hst

/-- The expiry of a waiting peg: its tag is kept, and it goes on to the refinement. -/
theorem pegExpire_waiting {d pp : Nat} {s : State} (h : s.pegWaiting d pp ≠ 0) :
    pegExpire d pp s = pegGoOn d pp 2 (s.modLane fun l => { l with pegExpired := (gport d pp, s.pegWaiting d pp) :: l.pegExpired }) := by
  unfold pegExpire
  exact if_neg h

/-! ### The statement -/

/-- Settles O9: each clause follows from what the operation that the command runs leaves. -/
theorem registerAccessAndMeridian : Obligations.RegisterAccessAndMeridian := by
  unfold Obligations.RegisterAccessAndMeridian
  intro s d hd ha
  have h8 : d < 8 := lt_of_lt_of_le hd s.dieCount_le
  refine ⟨fun ll v env hll hp => ?_, fun offset hne => ⟨_, rfl, keeps_measureOffset d offset s, fun h => ?_, fun h h' => ?_, fun h => ?_⟩,
    fun hs ho => ⟨_, rfl, ?_⟩, ⟨_, rfl, rfl, meridianWrap_meridian s, meridianWrap_now s⟩, fun hc => ?_, fun pp hw => ?_⟩
  · have hreach := s.reachOf_bmc_block (w := 0x10040 + 0x100 * ll) hp hd ha (by omega)
    rw [show (0x10040 + 0x100 * ll) / 0x400000 = 0 by omega, show (0x10040 + 0x100 * ll) % 0x400000 = 0x10040 + 0x100 * ll by omega,
      ← Nat.add_assoc] at hreach
    refine ⟨fun hok => ⟨_, execRegisterWrite_bmc .., ?_⟩, fun hno => ⟨_, execRegisterWrite_bmc .., ?_⟩⟩
    · rw [busWrite_bmc_passes env v hreach hok, writeAt_laneUserpat .bmc env 0x80 d _ v s hll]
      exact regWrite_laneUserpat_reads .bmc env d ll v s
    · obtain ⟨lo, hrefuse⟩ := busWrite_bmc_refused env v hreach hno
      rw [hrefuse]
      exact ⟨gateRefuse_refused d 0x80 0 _ lo s ha (by decide), keeps_gateRefuse d 0x80 0 1 _ lo s⟩
  · rw [measureOffset_small ha hne h]; exact ⟨rfl, rfl⟩
  · exact measureOffset_slew_reads ha hne h8 h h'
  · exact measureOffset_step_reads ha hne h8 h
  · exact if_pos ⟨hs, ho⟩
  · refine ⟨refclkLoss d s, rfl, keeps_refclkLoss d s, ?_⟩
    by_cases ho : (d, 1 - s.clock.clock.get 0 d) ∈ s.clock.lost
    · obtain ⟨hlost, huse, hfld⟩ := refclkLoss_both_reads ha hc ho
      exact ⟨hlost, fun _ => ⟨huse, hfld⟩, fun h => absurd ho h⟩
    · obtain ⟨hlost, hread⟩ := refclkLoss_one_reads ha hc ho
      exact ⟨hlost, fun h => absurd h ho, fun _ => hread⟩
  · refine ⟨pegExpire d pp s, rfl, ?_⟩
    rw [pegExpire_waiting hw]
    refine ⟨(keeps_modLane s _).trans (keeps_pegGoOn d pp 2 _), ?_, fun ll hll => ⟨?_, ?_⟩⟩
    · rw [pegGoOn_lane]; exact List.mem_cons_self
    · exact pegGoOn_tag d pp 2 _ hll
    · exact pegGoOn_state d pp 2 _ (by omega) hll

end Sys2Proof.Machine
end

section
/-! SUPPORT. What the operations of a port leave: taking a link down, training, flushing and dropping packets, settling and freeing cells write
the registers of ports, lanes and power domains and the parts of State for links, fret engines, buffers, flows, faces, translation, channels,
faults and domains. Everything else of a state is its outer part, and each operation keeps it (02, 03, 04, 06). -/

namespace Sys2Proof.Machine

/-! ### The outer part -/

/-- The registers that the operations of a port write. -/
def portRegs : List RegName :=
  [.laneMapctl, .laneStat, .laneRxeq, .laneDfe, .lanePeg, .linkStat, .linkErr, .linkRtv, .linkLanes, .fretErr, .fretTraprec0, .fretTraprec1,
    .fretTraprec2, .fretTrapHdr, .fltPcnt, .pwrDom, .hildDom]

/-- A state without what the operations of a port change. -/
def State.outer (s : State) : State :=
  { s with regs := s.regs.filter fun x => decide (x.1.name ∉ portRegs), lane := { live := s.lane.live, selected := s.lane.selected },
           links := [], fret := {}, buf := {}, sch := {}, par := {}, xlt := {}, dma := {}, flt := {}, pwr := {} }

@[simp] theorem mem_portRegs : RegName.laneMapctl ∈ portRegs ∧ RegName.laneStat ∈ portRegs ∧ RegName.laneRxeq ∈ portRegs ∧
    RegName.laneDfe ∈ portRegs ∧ RegName.lanePeg ∈ portRegs ∧ RegName.linkStat ∈ portRegs ∧ RegName.linkErr ∈ portRegs ∧
    RegName.linkRtv ∈ portRegs ∧ RegName.linkLanes ∈ portRegs ∧ RegName.fretErr ∈ portRegs ∧ RegName.fretTraprec0 ∈ portRegs ∧
    RegName.fretTraprec1 ∈ portRegs ∧ RegName.fretTraprec2 ∈ portRegs ∧ RegName.fretTrapHdr ∈ portRegs ∧ RegName.fltPcnt ∈ portRegs ∧
    RegName.pwrDom ∈ portRegs ∧ RegName.hildDom ∈ portRegs := by decide

@[simp] theorem lreg_name (n : RegName) (d i : Nat) : (lreg n d i).name = n := by simp only [lreg]
@[simp] theorem preg_name (n : RegName) (g : Nat) : (preg n g).name = n := by simp only [preg]
@[simp] theorem dreg_name (n : RegName) (d : Nat) : (dreg n d).name = n := by simp only [dreg]
@[simp] theorem traprec_name (n : RegName) (g k : Nat) : (traprec n g k).name = n := by simp only [traprec]
@[simp] theorem laneStat_name (d ll : Nat) : (laneStat d ll).name = .laneStat := by simp only [laneStat]

@[simp] theorem DomId.reg_name_mem (x : DomId) : x.reg.name ∈ portRegs := by
  unfold DomId.reg
  split <;> simp

/-- Erasing a key whose entries are dropped anyway does not show in what is kept. -/
theorem FMap.filter_erase {κ α : Type} [DecidableEq κ] (m : FMap κ α) (p : κ × α → Bool) {k : κ} (h : ∀ v, p (k, v) = false) :
    (m.erase k).filter p = m.filter p := by
  induction m with
  | nil => rfl
  | cons x m ih =>
    obtain ⟨l, v⟩ := x
    by_cases hl : l = k
    · subst hl; simp [FMap.erase, h, ih]
    · simp [FMap.erase, hl, List.filter_cons, ih]

/-- Nor does setting it. -/
theorem FMap.filter_set {κ α : Type} [DecidableEq κ] (m : FMap κ α) (p : κ × α → Bool) {k : κ} (v : α) (h : ∀ v, p (k, v) = false) :
    (m.set k v).filter p = m.filter p := by
  rw [FMap.set, List.filter_cons_of_neg (by simp [h]), FMap.filter_erase m p h]

/-! ### The outer part after one update -/

section Updates
variable (s : State)

@[simp] theorem State.outer_setReg {r : Reg} (v : Word) (h : r.name ∈ portRegs) : (s.setReg r v).outer = s.outer := by
  unfold State.outer
  rw [State.setReg_regs, FMap.filter_set _ _ _ fun _ => by simp [h]]
  rfl

@[simp] theorem State.outer_setFld {r : Reg} (f : Field) (v : Nat) (h : r.name ∈ portRegs) : (s.setFld r f v).outer = s.outer :=
  s.outer_setReg _ h

@[simp] theorem State.outer_count {r : Reg} (f : Field) (n : Nat) (h : r.name ∈ portRegs) : (s.count r f n).outer = s.outer :=
  s.outer_setReg _ h

@[simp] theorem State.outer_modLane (f : LaneSt → LaneSt) (hlive : (f s.lane).live = s.lane.live)
    (hsel : (f s.lane).selected = s.lane.selected) : (s.modLane f).outer = s.outer := by
  unfold State.outer State.modLane
  rw [hlive, hsel]

@[simp] theorem State.outer_modLink (d i : Nat) (f : LinkSt → LinkSt) : (s.modLink d i f).outer = s.outer := by
  unfold State.modLink; rfl

@[simp] theorem State.outer_modFlt (f : FltSt → FltSt) : (s.modFlt f).outer = s.outer := by unfold State.modFlt; rfl

@[simp] theorem State.outer_modXltDie (d : Nat) (f : XltDie → XltDie) : (s.modXltDie d f).outer = s.outer := by
  unfold State.modXltDie; rfl

@[simp] theorem State.outer_modSch (f : SchSt → SchSt) : (s.modSch f).outer = s.outer := by unfold State.modSch; rfl

@[simp] theorem State.outer_modFlow (n : Nat) (f : FlowSt → FlowSt) : (s.modFlow n f).outer = s.outer := s.outer_modSch _

@[simp] theorem State.outer_modQueue (g q : Nat) (f : List Pkt → List Pkt) : (s.modQueue g q f).outer = s.outer := s.outer_modSch _

@[simp] theorem State.outer_modBufDie (d : Nat) (f : BufDie → BufDie) : (s.modBufDie d f).outer = s.outer := by
  unfold State.modBufDie; rfl

@[simp] theorem State.outer_modCell (d c : Nat) (f : CellRec → CellRec) : (s.modCell d c f).outer = s.outer := s.outer_modBufDie d _

@[simp] theorem State.outer_modPar (f : ParSt → ParSt) : (s.modPar f).outer = s.outer := by unfold State.modPar; rfl

@[simp] theorem State.outer_modVport (n k : Nat) (f : VpSt → VpSt) : (s.modVport n k f).outer = s.outer := s.outer_modPar _

@[simp] theorem State.outer_modFace (n f : Nat) (g : FaceSt → FaceSt) : (s.modFace n f g).outer = s.outer := s.outer_modPar _

@[simp] theorem State.outer_modChan (d c : Nat) (f : ChanSt → ChanSt) : (s.modChan d c f).outer = s.outer := by
  unfold State.modChan; rfl

@[simp] theorem State.outer_modFret (f : FretSt → FretSt) : (s.modFret f).outer = s.outer := by unfold State.modFret; rfl

@[simp] theorem State.outer_modStream (k : StreamKey) (f : Stream → Stream) : (s.modStream k f).outer = s.outer := s.outer_modFret _

@[simp] theorem State.outer_modDom (x : DomId) (f : DomSt → DomSt) : (s.modDom x f).outer = s.outer := by unfold State.modDom; rfl

end Updates

/-! ### The outer part after a choice or a loop -/

@[simp] theorem outer_ite (c : Prop) [Decidable c] (s t : State) : (if c then s else t).outer = if c then s.outer else t.outer :=
  apply_ite ..

@[simp] theorem outer_foldl {α : Type} {f : State → α → State} (h : ∀ t a, (f t a).outer = t.outer) (l : List α) (s : State) :
    (l.foldl f s).outer = s.outer := by
  induction l generalizing s with
  | nil => rfl
  | cons a l ih => exact (ih _).trans (h s a)

@[simp] theorem State.outer_forAll {α : Type} {f : α → State → State} (h : ∀ a t, (f a t).outer = t.outer) (l : List α) (s : State) :
    (s.forAll l f).outer = s.outer := s.forAll_keeps State.outer f h l

/-! ### Lanes -/

@[simp] theorem holdEq_outer (d ll : Nat) (s : State) : (holdEq d ll s).outer = s.outer := by unfold holdEq; simp

/-! ### Fault sources and events -/

theorem raiseFault_outer (fr : FaultRec) (s : State) (h : fr.reg.name ∈ portRegs) : (raiseFault fr s).outer = s.outer := by
  rcases raiseFault_cases fr s with ⟨he, -⟩ | ⟨-, he⟩ <;> simp [he, h]

@[simp] theorem raise_outer (r : Reg) (f : Field) (s : State) (h : r.name ∈ portRegs) : (raise r f s).outer = s.outer :=
  raiseFault_outer _ s h

/-! ### The packet buffer -/

@[simp] theorem returnCredits_outer (g : Nat) (left : List Nat) (s : State) : (returnCredits g left s).outer = s.outer := by
  unfold returnCredits; simp

@[simp] theorem leaveLedger_outer (d c : Nat) (s : State) : (leaveLedger d c s).outer = s.outer := by unfold leaveLedger; split <;> simp

@[simp] theorem freeCell_outer (d c : Nat) (s0 : State) : (freeCell d c s0).outer = s0.outer := by unfold freeCell; simp

@[simp] theorem sealCell_outer (d : Nat) (w : Writer) (s : State) : (sealCell d w s).outer = s.outer := by unfold sealCell; split <;> simp

theorem drawCell_outer {d : Nat} {w : Writer} {hint : Nat} {s : State} {x : Nat × State} (h : drawCell d w hint s = some x) :
    x.2.outer = s.outer := by
  unfold drawCell at h
  extract_lets o take at h
  have htake : ∀ c u, (take c u).2.outer = u.outer := by
    intro c u
    simp only [take]
    split <;> simp
  split at h
  · cases h
  · split at h <;> cases h <;> simp [htake]

theorem writeRecord_outer {d : Nat} {w : Writer} {hint fuel : Nat} {bs : List Byte} {s : State} {x : List Nat × State}
    (h : writeRecord d w hint fuel bs s = some x) : x.2.outer = s.outer := by
  induction fuel generalizing bs s x with
  | zero => cases h; rfl
  | succ fuel ih =>
    unfold writeRecord at h
    split at h
    · cases h; rfl
    · extract_lets fit at h
      have hfit : ∀ c u y, fit c u = some y → y.2.outer = u.outer := by
        intro c u y hy
        simp only [fit] at hy
        split at hy
        · cases hy
        · rename_i hrest; cases hy; simpa using ih hrest
      have hdrawn : ∀ y, (match drawCell d w hint s with | none => none | some (c', s') => fit c' s') = some y → y.2.outer = s.outer := by
        intro y hy
        split at hy
        · cases hy
        · rename_i hdraw; rw [hfit _ _ _ hy]; exact drawCell_outer hdraw
      split at h
      · split at h
        · split at h
          · exact hfit _ _ _ h
          · cases h
        · exact hdrawn _ h
      · exact hdrawn _ h

theorem storeRecord_outer {d : Nat} {w : Writer} {hint : Nat} {t : Tlp} {s : State} {x : List Nat × State}
    (h : storeRecord d w hint t s = some x) : x.2.outer = s.outer := writeRecord_outer h

@[simp] theorem dropRef_outer (d c : Nat) (s : State) : (dropRef d c s).outer = s.outer := by unfold dropRef; simp

@[simp] theorem dropCells_outer (d : Nat) (cs : List Nat) (s : State) : (dropCells d cs s).outer = s.outer := by unfold dropCells; simp

@[simp] theorem moveCell_outer (d c : Nat) (s : State) : (moveCell d c s).outer = s.outer := by
  unfold moveCell
  dsimp only
  split
  · rfl
  · cases s.shareLedger d (s.cell d c).owner with
    | none => split <;> rfl
    | some l => split <;> simp

@[simp] theorem settleCell_outer (d c : Nat) (s : State) : (settleCell d c s).outer = s.outer := by unfold settleCell; simp

@[simp] theorem settleCells_outer (d : Nat) (cs : List Nat) (s : State) : (settleCells d cs s).outer = s.outer := by unfold settleCells; simp

/-! ### The path of a packet -/

theorem placeControl_outer {g : Nat} {t : Tlp} {s u : State} (h : placeControl g t s = some u) : u.outer = s.outer := by
  unfold placeControl at h
  obtain ⟨x, hx, rfl⟩ := Option.map_eq_some_iff.mp h
  simpa using storeRecord_outer hx

@[simp] theorem originate_outer (g : Nat) (t : Tlp) (s : State) : (originate g t s).outer = s.outer := by
  unfold originate
  cases h : placeControl g t s with
  | none => simp
  | some u => simp [placeControl_outer h]

@[simp] theorem cfgResetFns_outer (n f : Nat) (fns : List Nat) (s : State) : (cfgResetFns n f fns s).outer = s.outer := by
  unfold cfgResetFns; simp

@[simp] theorem faceReset_outer (n f : Nat) (s : State) : (faceReset n f s).outer = s.outer := by unfold faceReset; simp

@[simp] theorem vpMsi_outer (n k : Nat) (s : State) : (vpMsi n k s).outer = s.outer := by
  unfold vpMsi
  dsimp only
  split
  · simp
  · rfl

@[simp] theorem vpEvent_outer (n k : Nat) (bits : List Nat) (s : State) : (vpEvent n k bits s).outer = s.outer := by unfold vpEvent; simp

@[simp] theorem slotStatus_outer (g bit : Nat) (s : State) : (slotStatus g bit s).outer = s.outer := by
  unfold slotStatus
  extract_lets d e n s1
  have h1 : s1.outer = s.outer := by simp only [s1]; split <;> simp
  simp [h1]

@[simp] theorem clearTraprec_outer (g k : Nat) (s : State) : (clearTraprec g k s).outer = s.outer := by unfold clearTraprec; simp

@[simp] theorem trapFreed_outer (g k : Nat) (s : State) : (trapFreed g k s).outer = s.outer := by unfold trapFreed; simp

@[simp] theorem releaseIngress_outer (p : Pkt) (s : State) : (releaseIngress p s).outer = s.outer := by unfold releaseIngress; split <;> simp

@[simp] theorem dmaReleased_outer (p : Pkt) (s : State) : (dmaReleased p s).outer = s.outer := by unfold dmaReleased; split <;> simp

@[simp] theorem reportTag_outer (p : Pkt) (s : State) : (reportTag p s).outer = s.outer := by unfold reportTag; simp

@[simp] theorem advance_outer (p : Pkt) (s : State) : (advance p s).outer = s.outer := by unfold advance; simp

@[simp] theorem retireTag_outer (p : Pkt) (s : State) : (retireTag p s).outer = s.outer := by unfold retireTag; simp

@[simp] theorem releaseHeld_outer (d : Nat) (p : Pkt) (s : State) : (releaseHeld d p s).outer = s.outer := by unfold releaseHeld; split <;> simp

@[simp] theorem answerLost_outer (p : Pkt) (status : Nat) (s : State) : (answerLost p status s).outer = s.outer := by
  unfold answerLost
  split
  · rfl
  · split <;> simp

@[simp] theorem flushPkt_outer (p : Pkt) (s : State) : (flushPkt p s).outer = s.outer := by unfold flushPkt; simp

@[simp] theorem flushPort_outer (g : Nat) (s : State) : (flushPort g s).outer = s.outer := by unfold flushPort; simp

/-! ### Link engines -/

@[simp] theorem setLinkState_outer (d i v : Nat) (s : State) : (setLinkState d i v s).outer = s.outer := by unfold setLinkState; simp

@[simp] theorem holdLanes_outer (d pp : Nat) (s : State) : (holdLanes d pp s).outer = s.outer := by unfold holdLanes; simp

@[simp] theorem startGrace_outer (d pp : Nat) (s : State) : (startGrace d pp s).outer = s.outer := by unfold startGrace; simp

@[simp] theorem enterDetect_outer (d pp : Nat) (fresh : Bool) (s : State) : (enterDetect d pp fresh s).outer = s.outer := by
  unfold enterDetect; simp

@[simp] theorem endRetrainInstance_outer (d i : Nat) (s : State) : (endRetrainInstance d i s).outer = s.outer := by
  unfold endRetrainInstance; simp

@[simp] theorem endPeg_outer (d pp st : Nat) (s : State) : (endPeg d pp st s).outer = s.outer := by unfold endPeg; simp

@[simp] theorem abortPartial_outer (g : Nat) (s : State) : (abortPartial g s).outer = s.outer := by
  unfold abortPartial
  extract_lets d c parts early gone slots s1 s2 s3 s4 s5
  have h3 : s3.outer = s.outer := by simp [s3, s2, s1]
  have h4 : s4.outer = s3.outer := rfl
  have h5 : s5.outer = s4.outer := by simp [s5]
  split <;> simp [h5, h4, h3]

@[simp] theorem linkDown_outer (d pp : Nat) (own : Bool) (s0 : State) : (linkDown d pp own s0).outer = s0.outer := by
  unfold linkDown
  extract_lets g s back s1 s2 s3 r s4 s5 s6
  have h2 : s2.outer = s0.outer := by rw [outer_foldl (fun _ _ => by simp)]; simp [s1, s]
  have h5 : s5.outer = s2.outer := by simp [s5, s4, r, s3]
  have h6 : s6.outer = s5.outer := by simp only [s6]; split <;> simp
  split <;> simp [h6, h5, h2]

@[simp] theorem stopTraining_outer (d pp : Nat) (s : State) : (stopTraining d pp s).outer = s.outer := by unfold stopTraining; simp

@[simp] theorem takeDown_outer (d pp : Nat) (s : State) : (takeDown d pp s).outer = s.outer := by unfold takeDown; simp

/-! ### Power domains -/

@[simp] theorem startDomain_outer (x : DomId) (target : Nat) (thenRet : Bool) (s : State) :
    (startDomain x target thenRet s).outer = s.outer := by
  unfold startDomain; simp

@[simp] theorem autoQuadOff_outer (d q : Nat) (s : State) : (autoQuadOff d q s).outer = s.outer := by unfold autoQuadOff; simp

/-! ### Lane maps and lane tests -/

@[simp] theorem clearLane_outer (d ll : Nat) (s : State) : (clearLane d ll s).outer = s.outer := by unfold clearLane; simp

end Sys2Proof.Machine
end

section
/-! SUPPORT. Mode requests and the transitions without a capo: what a request answers, what the lane map of REPLAY and the selection of ports for
DIAGNOSTIC leave, and the two statements that they meet (01 R27 to R31; 02 R54, R71; 05 R182, R194; 17 R619). -/

namespace Sys2Proof.Machine

/-! ### Reading a state whose outer part is known -/

theorem State.outer_live (s : State) : s.outer.lane.live = s.lane.live := rfl
theorem State.outer_selected (s : State) : s.outer.lane.selected = s.lane.selected := rfl

/-- The outer part without the lane map and the selection of ports. -/
def State.aside (s : State) : State := { s.outer with lane := {} }

/-- Operations that keep it write the registers of ports alone. -/
theorem keeps_of_aside {s t : State} (h : t.aside = s.aside) : Keeps portRegs s t := by
  have hfuses : t.fuses = s.fuses := (congrArg State.fuses h :)
  refine ⟨(congrArg State.mem h :), (congrArg State.core h :), hfuses, (congrArg State.pending h :), fun r hr => ?_⟩
  have hkept : ∀ u : State, FMap.get u.aside.regs (r.resetValue u.fuses) r = u.reg r :=
    fun u => FMap.get_filter u.regs _ _ r (by simp [hr])
  rw [← hkept t, ← hkept s, h, hfuses]

theorem tab_of_aside {s t : State} (h : t.aside = s.aside) : t.tab = s.tab := (congrArg State.tab h :)

/-- A loop reaches what the turn of one of its elements gives, when every turn keeps `P` and then what was given. -/
theorem State.forAll_reaches {α : Type} {P Q : State → Prop} {f : α → State → State} {a : α} (hP : ∀ b t, P t → P (f b t))
    (hQ : ∀ t, P t → Q (f a t)) (hkeep : ∀ b t, Q t → Q (f b t)) {l : List α} (ha : a ∈ l) {s : State} (hs : P s) :
    Q (s.forAll l f) := by
  have hstay : ∀ (l : List α) t, Q t → Q (t.forAll l f) := by
    intro l
    induction l with
    | nil => exact fun _ h => h
    | cons b l ih => exact fun t h => ih _ (hkeep b t h)
  induction l generalizing s with
  | nil => cases ha
  | cons b l ih =>
    rcases List.mem_cons.mp ha with rfl | ha
    · exact hstay l _ (hQ s hs)
    · exact ih ha (hP b s hs)

theorem State.fld_lt (s : State) (r : Reg) (f : Field) : s.fld r f < 2 ^ (f.hi + 1 - f.lo) := getBits_lt _ _ _

theorem State.mem_activeDies {s : State} {d : Nat} (hd : d < s.dieCount) (ha : s.active d = true) : d ∈ s.activeDies := by
  simp [State.activeDies, hd, ha]

/-- A command that does not write PART.DIESTATE keeps the list of the dies in service. -/
theorem Keeps.activeDies {ns : List RegName} {s t : State} (h : Keeps ns s t) (hn : .partDieState ∉ ns) : t.activeDies = s.activeDies := by
  obtain ⟨-, -, hfuses, -⟩ := id h
  unfold State.activeDies State.dieCount
  rw [hfuses]
  exact List.filter_congr fun d _ => h.active hn d

/-- A command that does not write PART.MODE keeps the mode. -/
theorem Keeps.mode {ns : List RegName} {s t : State} (h : Keeps ns s t) (hn : .partMode ∉ ns) : t.mode = s.mode :=
  h.fld partMode PartMode.CUR hn

theorem State.mode_setFld_busy (s : State) (v : Nat) : (s.setFld partMode PartMode.BUSY v).mode = s.mode :=
  s.fld_setFld_other partMode PartMode.BUSY PartMode.CUR v (by decide) (by decide) (by decide)

theorem State.twoEpochs_congr {s t : State} (h : t.activeDies = s.activeDies) (ht : t.tab.dies = s.tab.dies) :
    t.twoEpochs = s.twoEpochs := by
  unfold State.twoEpochs State.tabDie
  rw [h, ht]

/-! ### A lane map that becomes live (02 R54) -/

/-- The live words of all quads after the map `m` of a die became live. -/
def liveAfter (d : Nat) (m : List Nat) (live : FMap (Nat × Nat) Nat) : FMap (Nat × Nat) Nat :=
  m.zipIdx.foldl (fun f x => f.set (d, x.2) x.1) live

/-- The words of a map that stand from quad `k` on are set, and no other. -/
theorem get_setWordsFrom (d : Nat) (m : List Nat) (k : Nat) (live : FMap (Nat × Nat) Nat) (e q : Nat) :
    ((m.zipIdx k).foldl (fun f x => f.set (d, x.2) x.1) live).get 0 (e, q) =
      if e = d ∧ k ≤ q ∧ q < k + m.length then m.getD (q - k) 0 else live.get 0 (e, q) := by
  induction m generalizing k live with
  | nil => rw [if_neg (by simp)]; rfl
  | cons w m ih =>
    rw [List.zipIdx_cons, List.foldl_cons, ih, FMap.get_set, List.length_cons]
    by_cases he : e = d
    · subst he
      rcases Nat.lt_trichotomy q k with hq | rfl | hq
      · rw [if_neg (by omega), if_neg (by simp; omega), if_neg (by omega)]
      · rw [if_neg (by omega), if_pos rfl, if_pos (by omega), Nat.sub_self]; rfl
      · have hstep : q - k = q - (k + 1) + 1 := by omega
        by_cases hlen : q < k + 1 + m.length
        · rw [if_pos (by omega), if_pos (by omega), hstep, List.getD_cons_succ]
        · rw [if_neg (by omega), if_neg (by simp; omega), if_neg (by omega)]
    · rw [if_neg (by simp [he]), if_neg (by simp [he]), if_neg (by simp [he])]

theorem get_liveAfter (d : Nat) (m : List Nat) (live : FMap (Nat × Nat) Nat) (e q : Nat) :
    (liveAfter d m live).get 0 (e, q) = if e = d ∧ q < m.length then m.getD q 0 else live.get 0 (e, q) := by
  simpa [liveAfter] using get_setWordsFrom d m 0 live e q

/-- Beside the operations of its ports, a map that becomes live changes the live words alone. -/
theorem makeLive_outer (d : Nat) (m : List Nat) (s : State) :
    (makeLive d m s).outer = { s.outer with lane := { live := liveAfter d m s.lane.live, selected := s.lane.selected } } := by
  unfold makeLive
  extract_lets old differs downs s1 s2 moved s3 s4 r s5
  have h1 : s1.outer = s.outer := by simp [s1]
  have h2 : s2.outer = { s1.outer with lane := { live := liveAfter d m s1.outer.lane.live, selected := s1.outer.lane.selected } } := rfl
  have h5 : s5.outer = s2.outer := by simp [s5, r, s4, s3]
  rw [State.outer_forAll (fun q t => by simp), h5, h2, h1]
  rfl

theorem makeLive_aside (d : Nat) (m : List Nat) (s : State) : (makeLive d m s).aside = s.aside := by
  unfold State.aside
  rw [makeLive_outer]

theorem makeLive_quad (d : Nat) (m : List Nat) (s : State) (e q : Nat) :
    (makeLive d m s).quad e q = if e = d ∧ q < m.length then m.getD q 0 else s.quad e q := by
  have hlive : (makeLive d m s).lane.live = liveAfter d m s.lane.live := by rw [← State.outer_live, makeLive_outer]
  unfold State.quad
  rw [hlive, get_liveAfter]

/-! ### The lane map of REPLAY (17 R619) -/

/-- The map of a die in REPLAY: lanes 0 to 15 of die 0 alone are mapped. -/
def replayQuads (d : Nat) : List Nat := List.replicate 4 (if d = 0 then 4 else 0) ++ List.replicate 12 0

theorem replayQuads_getD (d : Nat) {q : Nat} (hq : q < 16) : (replayQuads d).getD q 0 = if d = 0 ∧ q < 4 then 4 else 0 := by
  by_cases hd : d = 0
  · simp only [replayQuads, hd, if_true, true_and]
    revert q; decide
  · simp only [replayQuads, hd, if_false, false_and]
    revert q; decide

theorem replayMap_eq (s : State) : replayMap s = s.forAll s.activeDies fun d => makeLive d (replayQuads d) := rfl

theorem replayMap_aside (s : State) : (replayMap s).aside = s.aside := by
  rw [replayMap_eq]
  exact State.forAll_keeps State.aside _ (fun d t => makeLive_aside d (replayQuads d) t) s _

theorem replayMap_quad {s : State} {d q : Nat} (hd : d ∈ s.activeDies) (hq : q < 16) :
    (replayMap s).quad d q = if d = 0 ∧ q < 4 then 4 else 0 := by
  have hlen : ∀ e, q < (replayQuads e).length := fun e => hq
  rw [replayMap_eq]
  refine State.forAll_reaches (P := fun _ => True) (Q := fun t => t.quad d q = if d = 0 ∧ q < 4 then 4 else 0) (fun _ _ _ => trivial)
    (fun t _ => ?_) (fun e t ht => ?_) hd trivial
  · rw [makeLive_quad, if_pos ⟨rfl, hlen d⟩, replayQuads_getD d hq]
  · rw [makeLive_quad]
    split
    · rename_i h; obtain ⟨rfl, -⟩ := h; exact replayQuads_getD d hq
    · exact ht

/-! ### The ports selected for DIAGNOSTIC (02 R71) -/

/-- The turn of one die when DIAGNOSTIC takes its selected ports down. -/
def diagTakeDownDie (d : Nat) (t : State) : State :=
  let sel := t.fld (dreg .laneDiagsel d) LaneDiagsel.PORTS
  let t1 := t.modLane fun l => { l with selected := l.selected.set d sel }
  t1.forAll ((List.range 16).filter fun pp => sel.testBit pp) fun pp => fun u =>
    setLinkState d pp 0 ((takeDown d pp u).modLink d pp fun l => { l with diagHold := true })

theorem diagTakeDown_eq (s : State) : diagTakeDown s = s.forAll s.activeDies diagTakeDownDie := rfl

theorem diagTakeDownDie_outer (d : Nat) (s : State) :
    (diagTakeDownDie d s).outer = { s.outer with lane :=
      { live := s.lane.live, selected := s.lane.selected.set d (s.fld (dreg .laneDiagsel d) LaneDiagsel.PORTS) } } := by
  unfold diagTakeDownDie
  extract_lets sel t1
  rw [State.outer_forAll (fun pp u => by simp)]
  rfl

theorem diagTakeDownDie_aside (d : Nat) (s : State) : (diagTakeDownDie d s).aside = s.aside := by
  unfold State.aside
  rw [diagTakeDownDie_outer]

theorem diagTakeDownDie_selected (d : Nat) (s : State) :
    (diagTakeDownDie d s).lane.selected = s.lane.selected.set d (s.fld (dreg .laneDiagsel d) LaneDiagsel.PORTS) := by
  rw [← State.outer_selected, diagTakeDownDie_outer]

theorem diagTakeDown_aside (s : State) : (diagTakeDown s).aside = s.aside := by
  rw [diagTakeDown_eq]
  exact State.forAll_keeps State.aside _ diagTakeDownDie_aside s _

theorem diagTakeDown_selected {s : State} {d : Nat} (hd : d ∈ s.activeDies) :
    (diagTakeDown s).lane.selected.get 0 d = s.fld (dreg .laneDiagsel d) LaneDiagsel.PORTS := by
  have hsel : ∀ t : State, t.aside = s.aside → t.fld (dreg .laneDiagsel d) LaneDiagsel.PORTS = s.fld (dreg .laneDiagsel d) LaneDiagsel.PORTS :=
    fun t ht => (keeps_of_aside ht).fld _ _ (by simp [portRegs])
  rw [diagTakeDown_eq]
  refine (State.forAll_reaches (P := fun t => t.aside = s.aside)
    (Q := fun t => t.aside = s.aside ∧ t.lane.selected.get 0 d = s.fld (dreg .laneDiagsel d) LaneDiagsel.PORTS)
    (fun e t ht => (diagTakeDownDie_aside e t).trans ht) (fun t ht => ⟨(diagTakeDownDie_aside d t).trans ht, ?_⟩)
    (fun e t ⟨ht, hget⟩ => ⟨(diagTakeDownDie_aside e t).trans ht, ?_⟩) hd rfl).2
  · rw [diagTakeDownDie_selected, FMap.get_set_same, hsel t ht]
  · rw [diagTakeDownDie_selected, FMap.get_set]
    split
    · rename_i h; rw [← h]; exact hsel t ht
    · exact hget

/-! ### The first accepted transition out of HELD (08 R289) -/

theorem keeps_patchAuto (s : State) : Keeps [.partAlmlock, .gateReg0, .gateReg1, .parErr] s (patchAuto s) := by
  have hgate : ∀ t, Keeps [.gateReg0, .gateReg1] t (lockPatchGate t) :=
    fun t => keeps_forAll _ (fun d u => (keeps_setReg u (gateReg0 d 27 0) _).trans (keeps_setReg _ (gateReg1 d 27 0) _)) t _
  unfold patchAuto
  split
  · exact (((keeps_setFld s _ _ _).trans (hgate _)).trans (keeps_raise _ _ _)).mono (by simp)
  · exact Keeps.refl _ _

theorem raise_tab (r : Reg) (f : Field) (s : State) : (raise r f s).tab = s.tab := by
  unfold raise
  rcases raiseFault_cases { reg := r, bit := f.lo } s with ⟨he, -⟩ | ⟨-, he⟩ <;> simp [he]

theorem lockPatchGate_tab (s : State) : (lockPatchGate s).tab = s.tab :=
  s.forAll_keeps State.tab (fun d => lockWhole d 27 0x249249249249) (fun _ _ => rfl) _

theorem patchAuto_tab (s : State) : (patchAuto s).tab = s.tab := by
  unfold patchAuto
  split
  · rw [raise_tab, lockPatchGate_tab]; rfl
  · rfl

theorem patchAuto_locked {s : State} (h : s.mode = 1 → s.fld { name := .partAlmlock } PartAlmlock.LOCK = 1) : patchAuto s = s := by
  unfold patchAuto
  rw [if_neg fun ⟨hm, hl⟩ => by rw [h hm] at hl; cases hl]

/-! ### What a mode request answers (01 R29 to R31) -/

/-- Every command that requests a mode writes its code to PART.MODE.REQ. -/
theorem exec_modeRequest {m dies ver : Nat} {c : Instr} (h : (c, m) ∈ [(.modeReqMinimal, 0), (.modeReqHeld, 1), (.modeReqTransparent, 2),
      (.modeReqPartitioned, 3), (.modeReqShared, 4), (.modeReqFederated, 5), (.modeReqDiagnostic, 6), (.modeReqReplay dies ver, (7 : Nat))])
    (s : State) : ∃ rcd, exec c s = .next (modeReq rcd m s) := by
  simp only [List.mem_cons, List.not_mem_nil, or_false, Prod.mk.injEq] at h
  rcases h with ⟨rfl, rfl⟩ | ⟨rfl, rfl⟩ | ⟨rfl, rfl⟩ | ⟨rfl, rfl⟩ | ⟨rfl, rfl⟩ | ⟨rfl, rfl⟩ | ⟨rfl, rfl⟩ | ⟨rfl, rfl⟩ <;> exact ⟨_, rfl⟩

/-- A capo carries transitions among HELD and the forwarding modes alone. -/
theorem byCapo_range {cur m : Nat} (h : byCapo cur m = true) : (1 ≤ cur ∧ cur ≤ 5) ∧ 1 ≤ m ∧ m ≤ 5 := by
  simp [byCapo, forwarding] at h
  omega

/-- The state with BUSY shown for a request that is carried out in two steps. -/
def State.requested (s : State) (n : Nat) : State := (s.setFld partMode PartMode.BUSY 1).modTab fun t => { t with request := some n }

section Requests
variable {s : State} {m : Nat} (rcd : Nat × Nat)

theorem modeReq_minimal (h : s.mode = 0) : modeReq rcd m s = modeRefuse 4 s := if_pos h

theorem modeReq_busy (h : s.mode ≠ 0) (hb : s.fld partMode PartMode.BUSY = 1) : modeReq rcd m s = modeRefuse 3 s := by
  unfold modeReq
  exact (if_neg h).trans (if_pos hb)

variable (hb : s.fld partMode PartMode.BUSY = 0)
include hb

theorem modeReq_inReplay (h : s.mode = 7) : modeReq rcd m s = modeRefuse 2 s := by simp [modeReq, hb, h]

theorem modeReq_toMinimal (h : s.mode ∈ [1, 2, 3, 4, 5]) : modeReq rcd 0 s = modeRefuse 2 s := by
  have hcapo : byCapo s.mode 0 = false := by
    by_contra hc
    obtain ⟨-, hm, -⟩ := byCapo_range (by simpa using hc)
    omega
  simp only [List.mem_cons, List.not_mem_nil, or_false] at h
  unfold modeReq
  simp only
  rw [if_neg (by omega), if_neg (by omega), if_neg (by omega), if_neg (by omega), if_neg (by omega), if_neg (by omega), hcapo,
    if_neg (by simp)]

/-- The answer to a request that a capo carries. -/
theorem modeReq_byCapo (h : byCapo s.mode m = true) : modeReq rcd m s =
    if s.capoTaken then modeRefuse 3 (s.setFld partCapo PartCapo.STATUS 3)
    else if ¬ (s.tab.queue.isEmpty = true ∧ s.tab.heldWrites.isEmpty = true) then
      (s.setFld partMode PartMode.BUSY 1).modTab fun t => { t with check := some (m, s.modeReady s.mode m) }
    else if !(s.modeReady s.mode m) then modeRefuse 5 s
    else modeAccept s.mode m s := by
  obtain ⟨hcur, hm⟩ := byCapo_range h
  unfold modeReq
  simp only
  rw [if_neg (by omega), if_neg (by omega), if_neg (by omega), if_neg (by omega), if_neg (by omega), if_neg (by omega), if_pos h]

theorem modeReq_diagnostic (h : forwarding s.mode = true) : modeReq rcd 6 s = diagTakeDown (s.requested 6) := by
  simp [forwarding] at h
  unfold modeReq
  simp only
  rw [if_neg (by omega), if_neg (by omega), if_neg (by omega), if_pos ⟨trivial, by omega⟩, if_neg (by omega)]
  rfl

theorem modeReq_replay (h : s.mode = 1) (hg : s.granted 0 = true) (hr : s.recordingFits rcd = true) :
    modeReq rcd 7 s = replayMap (patchAuto (s.requested 7)) := by
  unfold State.granted at hg
  unfold modeReq
  cases ht : s.gate.token with
  | none => simp [ht] at hg
  | some k =>
    have hgrant : k.grants % 2 ≠ 0 := by simpa [ht, Nat.testBit_zero] using hg
    simp [h, hb, hgrant, hr, State.requested]

end Requests

/-- An accepted request that finds the patch table locked, or does not leave HELD: it drains first, or its capo is issued (05 R194). -/
theorem modeAccept_locked {s : State} (m : Nat) (h : s.mode = 1 → s.fld { name := .partAlmlock } PartAlmlock.LOCK = 1) :
    modeAccept s.mode m s =
      if (s.mode, m) = (4, 3) ∨ (s.mode, m) = (5, 4) then { s.setFld partMode PartMode.BUSY 1 with tab := { s.tab with drain := some m } }
      else modeCapo m (s.setFld partMode PartMode.BUSY 1) := by
  unfold modeAccept
  rw [patchAuto_locked h]
  rfl

/-- While an older epoch is live the capo of a request waits (05 R182). -/
theorem modeCapo_waits {s : State} (m : Nat) (h : s.twoEpochs = true) : modeCapo m s =
    { s.setFld partCapo PartCapo.STATUS 2 with tab := { s.tab with mode := some (m, s.mode), drain := none, waiting := true } } := by
  unfold modeCapo issueCapo
  exact if_pos h

/-- Settles O7: each clause is one case of what a request answers. -/
theorem modeRequests : Obligations.ModeRequests := by
  unfold Obligations.ModeRequests
  intro s m dies ver c hc
  obtain ⟨rcd, hexec⟩ := exec_modeRequest hc s
  have hdoes : ∀ {t : State}, modeReq rcd m s = t → Does c s fun u => u = t := fun h => ⟨_, hexec, h⟩
  refine ⟨fun h => hdoes (modeReq_minimal rcd h), fun h hb => hdoes (modeReq_busy rcd h hb), fun h hb => hdoes (modeReq_inReplay rcd hb h),
    fun h hb hm => hdoes (hm ▸ modeReq_toMinimal rcd hb h), fun h hb ht => hdoes ?_, fun h hb ht hw => hdoes ?_,
    fun h hb ht hq hh hr => hdoes ?_, fun h hb ht hq hh hr hl => ?_⟩
  · rw [modeReq_byCapo rcd hb h, if_pos ht]; rfl
  · rw [modeReq_byCapo rcd hb h, if_neg (by simp [ht]), if_pos (by simpa [-not_and, not_and_or] using hw)]; rfl
  · rw [modeReq_byCapo rcd hb h, if_neg (by simp [ht]), if_neg (by simp [hq, hh]), if_pos (by simp [hr])]; rfl
  · have haccept : modeReq rcd m s = modeAccept s.mode m s := by
      rw [modeReq_byCapo rcd hb h, if_neg (by simp [ht]), if_neg (by simp [hq, hh]), if_neg (by simp [hr])]
    rw [modeAccept_locked m hl] at haccept
    simp only [List.mem_cons, List.not_mem_nil, or_false]
    refine ⟨fun hp => hdoes ?_, fun hp he => hdoes ?_⟩
    · rw [haccept, if_pos hp]
    · have hepochs : (s.setFld partMode PartMode.BUSY 1).twoEpochs = true :=
        (State.twoEpochs_congr ((keeps_setFld s _ _ _).activeDies (by decide)) rfl).trans he
      rw [haccept, if_neg hp, modeCapo_waits m hepochs, State.mode_setFld_busy]
      rfl

/-! ### The first step into DIAGNOSTIC and REPLAY -/

theorem keeps_requested (s : State) (n : Nat) : Keeps [.partMode] s (s.requested n) :=
  ((keeps_setFld s partMode _ _).trans (keeps_modTab _ _)).mono (by simp [partMode])

theorem requested_busy (s : State) (n : Nat) : (s.requested n).fld partMode PartMode.BUSY = 1 :=
  s.fld_setFld_same partMode PartMode.BUSY 1 (by decide) (by decide)

theorem requested_mode (s : State) (n : Nat) : (s.requested n).mode = s.mode := s.mode_setFld_busy 1

/-- An accepted request for DIAGNOSTIC (01 R29; 02 R71). -/
theorem diagRequest_reads (s : State) : let t := diagTakeDown (s.requested 6)
    t.fld partMode PartMode.BUSY = 1 ∧ t.mode = s.mode ∧ t.tab.request = some 6 ∧ t.mem = s.mem ∧
      ∀ d, s.active d = true → d < s.dieCount → t.lane.selected.get 0 d = s.fld (dreg .laneDiagsel d) LaneDiagsel.PORTS := by
  intro t
  have haside : t.aside = (s.requested 6).aside := diagTakeDown_aside _
  have hk : Keeps portRegs (s.requested 6) t := keeps_of_aside haside
  have hu := keeps_requested s 6
  refine ⟨?_, ?_, ?_, (congrArg State.mem haside :), fun d ha hd => ?_⟩
  · rw [hk.fld _ _ (by decide), requested_busy]
  · rw [hk.mode (by decide), requested_mode]
  · rw [tab_of_aside haside]; rfl
  · have hmem : d ∈ (s.requested 6).activeDies := by rw [hu.activeDies (by decide)]; exact State.mem_activeDies hd ha
    exact (diagTakeDown_selected hmem).trans (hu.fld _ _ (by simp))

/-- An accepted request for REPLAY (01 R29; 17 R619). -/
theorem replayRequest_reads (s : State) : let t := replayMap (patchAuto (s.requested 7))
    t.fld partMode PartMode.BUSY = 1 ∧ t.mode = s.mode ∧ t.tab.request = some 7 ∧ t.mem = s.mem ∧
      ∀ d q, s.active d = true → d < s.dieCount → q < 16 → t.quad d q = if d = 0 ∧ q < 4 then 4 else 0 := by
  intro t
  have haside : t.aside = (patchAuto (s.requested 7)).aside := replayMap_aside _
  have hp := keeps_patchAuto (s.requested 7)
  have hk := hp.trans (keeps_of_aside haside)
  obtain ⟨hmem, -⟩ := id hk
  refine ⟨?_, ?_, ?_, hmem, fun d q ha hd hq => replayMap_quad ?_ hq⟩
  · rw [hk.fld _ _ (by decide), requested_busy]
  · rw [hk.mode (by decide), requested_mode]
  · rw [tab_of_aside haside, patchAuto_tab]; rfl
  · rw [hp.activeDies (by decide), (keeps_requested s 7).activeDies (by decide)]
    exact State.mem_activeDies hd ha

/-! ### The end of a transition (01 R29, R31) -/

theorem keeps_setMode (m : Nat) (s : State) : Keeps [.partMode] s (setMode m s) :=
  (((keeps_setFld s partMode _ _).trans (keeps_setFld _ partMode _ _)).trans
    ((keeps_setFld _ partMode _ _).trans (keeps_setFld _ partMode _ _))).mono (by simp [partMode])

/-- The fields of PART.MODE once a transition has ended. -/
theorem setMode_reads {m : Nat} (hm : m < 16) (s : State) : let t := setMode m s
    t.mode = m ∧ t.baseMode = m ∧ t.fld partMode PartMode.BUSY = 0 ∧ t.fld partMode PartMode.STATUS = 1 := by
  intro t
  let s1 := s.setFld partMode PartMode.CUR m
  let s2 := s1.setFld partMode PartMode.BASE m
  let s3 := s2.setFld partMode PartMode.BUSY 0
  have h1 : s1.fld partMode PartMode.CUR = m % 16 := s.fld_setFld_same _ _ _ (by decide) (by decide)
  have h2 : s2.fld partMode PartMode.BASE = m % 16 := s1.fld_setFld_same _ _ _ (by decide) (by decide)
  have h3 : s3.fld partMode PartMode.BUSY = 0 := s2.fld_setFld_same _ _ _ (by decide) (by decide)
  have h12 : s2.fld partMode PartMode.CUR = s1.fld partMode PartMode.CUR := s1.fld_setFld_other _ _ _ _ (by decide) (by decide) (by decide)
  have h23 : ∀ f, f = PartMode.CUR ∨ f = PartMode.BASE → s3.fld partMode f = s2.fld partMode f := by
    rintro f (rfl | rfl) <;> exact s2.fld_setFld_other _ _ _ _ (by decide) (by decide) (by decide)
  have h34 : ∀ f, f = PartMode.CUR ∨ f = PartMode.BASE ∨ f = PartMode.BUSY → t.fld partMode f = s3.fld partMode f := by
    rintro f (rfl | rfl | rfl) <;> exact s3.fld_setFld_other _ _ _ _ (by decide) (by decide) (by decide)
  rw [Nat.mod_eq_of_lt hm] at h1 h2
  refine ⟨?_, ?_, ?_, s3.fld_setFld_same _ _ _ (by decide) (by decide)⟩
  · exact (h34 _ (by simp)).trans ((h23 _ (by simp)).trans (h12.trans h1))
  · exact (h34 _ (by simp)).trans ((h23 _ (by simp)).trans h2)
  · exact (h34 _ (by simp)).trans h3

/-- A transition in two steps has ended: the mode asked for is in force and no request is left. -/
theorem transitionEnd_reads {m : Nat} (hm : m < 16) (s : State) : let t := setMode m (s.modTab fun x => { x with request := none })
    t.mode = m ∧ t.baseMode = m ∧ t.fld partMode PartMode.BUSY = 0 ∧ t.fld partMode PartMode.STATUS = 1 ∧
      t.tab = { s.tab with request := none } ∧ Keeps [.partMode] s t := by
  intro t
  obtain ⟨hcur, hbase, hbusy, hstatus⟩ := setMode_reads hm (s.modTab fun x => { x with request := none })
  exact ⟨hcur, hbase, hbusy, hstatus, rfl, (keeps_modTab s _).trans (keeps_setMode m _)⟩

/-- DIAGNOSTIC is entered, and BASE keeps the mode before. -/
theorem diagnosticEntryEnd_reads {s : State} (h : s.tab.request = some 6) : let t := diagnosticEntryEnd s
    t.mode = 6 ∧ t.baseMode = s.mode ∧ t.fld partMode PartMode.BUSY = 0 ∧ t.fld partMode PartMode.STATUS = 1 ∧
      t.tab = { s.tab with request := none } ∧ Keeps [.partMode] s t := by
  intro t
  have hother := fun u g => State.fld_setFld_other u partMode PartMode.BASE g s.mode (by decide) (by decide)
  have hbase := fun u => State.fld_setFld_same u partMode PartMode.BASE s.mode (by decide) (by decide)
  have ht : t = (setMode 6 (s.modTab fun x => { x with request := none })).setFld partMode PartMode.BASE s.mode := if_pos h
  obtain ⟨hcur, -, hbusy, hstatus, htab, hk⟩ := transitionEnd_reads (m := 6) (by decide) s
  rw [ht]
  refine ⟨(hother _ PartMode.CUR (by decide)).trans hcur, ?_, (hother _ PartMode.BUSY (by decide)).trans hbusy,
    (hother _ PartMode.STATUS (by decide)).trans hstatus, (State.setFld_tab _ _ _ _).trans htab,
    (hk.trans (keeps_setFld _ partMode _ _)).mono (by simp [partMode])⟩
  exact (hbase _).trans (Nat.mod_eq_of_lt (s.fld_lt partMode PartMode.CUR))

theorem diagnosticExitEnd_eq {s : State} {m : Nat} (h : s.mode = 6) (hr : s.tab.request = some m) :
    diagnosticExitEnd s = setMode m (s.modTab fun x => { x with request := none }) := by
  unfold diagnosticExitEnd
  rw [if_pos h, hr]

theorem replayEntryEnd_eq {s : State} (h : s.tab.request = some 7) :
    replayEntryEnd s = setMode 7 (s.modTab fun x => { x with request := none }) := if_pos h

/-- Settles O8: the two steps into each mode, the step out of DIAGNOSTIC, and the two ends of a drain. -/
theorem modeTransitionsWithoutCapo : Obligations.ModeTransitionsWithoutCapo := by
  unfold Obligations.ModeTransitionsWithoutCapo
  intro s m hm
  refine ⟨fun h hb => ⟨_, rfl, ?_⟩, fun dies ver h hb hg hr => ⟨_, rfl, ?_⟩, fun h => ⟨_, rfl, diagnosticEntryEnd_reads h⟩,
    fun h hr => ⟨_, rfl, ?_⟩, fun h => ⟨_, rfl, ?_⟩, fun h ho he => ⟨_, rfl, ?_⟩, fun h => ⟨_, rfl, ?_⟩⟩
  · rw [modeReq_diagnostic _ hb (by simpa [forwarding, or_assoc] using h)]
    exact diagRequest_reads s
  · rw [modeReq_replay _ hb h hg hr]
    obtain ⟨hbusy, hmode, hread⟩ := replayRequest_reads s
    exact ⟨hbusy, hmode.trans h, hread⟩
  · rw [diagnosticExitEnd_eq h hr]
    exact transitionEnd_reads hm s
  · rw [replayEntryEnd_eq h]
    obtain ⟨hcur, -, hread⟩ := transitionEnd_reads (m := 7) (by decide) s
    exact ⟨hcur, hread⟩
  · simp only [h, ho, if_true]
    exact modeCapo_waits m he
  · simp only [h]
    rfl

end Sys2Proof.Machine
end

section
/-! SUPPORT. True time and the queue of commands: every operation that runs while no command waits leaves both, but for the tick itself; and the
statement that a step runs the command at the front of the queue (01 R39; 95). Both belong to the outer part of a state, so that the operations
of a port leave them too. -/

namespace Sys2Proof.Machine

/-- True time and the commands that wait. -/
def State.agenda (s : State) : Nat × List Instr := (s.now, s.pending)

theorem State.outer_agenda (s : State) : s.outer.agenda = (s.now, s.pending) := rfl

/-! ### Time and queue after one update -/

theorem State.agenda_congr {s t : State} (hnow : t.now = s.now) (hqueue : t.pending = s.pending) : t.outer.agenda = s.outer.agenda := by
  rw [State.outer_agenda, State.outer_agenda, hnow, hqueue]

section Updates
variable (s : State)

@[simp] theorem State.agenda_setReg (r : Reg) (v : Word) : (s.setReg r v).outer.agenda = s.outer.agenda := State.agenda_congr rfl rfl
@[simp] theorem State.agenda_setFld (r : Reg) (f : Field) (v : Nat) : (s.setFld r f v).outer.agenda = s.outer.agenda :=
  State.agenda_congr rfl rfl
@[simp] theorem State.agenda_count (r : Reg) (f : Field) (n : Nat) : (s.count r f n).outer.agenda = s.outer.agenda :=
  State.agenda_congr rfl rfl
@[simp] theorem State.agenda_setDieState (d v : Nat) : (s.setDieState d v).outer.agenda = s.outer.agenda := State.agenda_congr rfl rfl
@[simp] theorem State.agenda_modTab (f : TabSt → TabSt) : (s.modTab f).outer.agenda = s.outer.agenda := State.agenda_congr rfl rfl
@[simp] theorem State.agenda_modTabDie (d : Nat) (f : TabDie → TabDie) : (s.modTabDie d f).outer.agenda = s.outer.agenda :=
  State.agenda_congr rfl rfl
@[simp] theorem State.agenda_modBoot (f : BootSt → BootSt) : (s.modBoot f).outer.agenda = s.outer.agenda := State.agenda_congr rfl rfl
@[simp] theorem State.agenda_modRec (d : Nat) (f : RecDie → RecDie) : (s.modRec d f).outer.agenda = s.outer.agenda :=
  State.agenda_congr rfl rfl
@[simp] theorem State.agenda_modLane (f : LaneSt → LaneSt) : (s.modLane f).outer.agenda = s.outer.agenda := State.agenda_congr rfl rfl
@[simp] theorem State.agenda_modClock (f : ClockSt → ClockSt) : (s.modClock f).outer.agenda = s.outer.agenda := State.agenda_congr rfl rfl
@[simp] theorem State.agenda_modHart (d h : Nat) (f : Hart → Hart) : (s.modHart d h f).outer.agenda = s.outer.agenda :=
  State.agenda_congr rfl rfl
@[simp] theorem State.agenda_modSeg (d i : Nat) (f : SegSt → SegSt) : (s.modSeg d i f).outer.agenda = s.outer.agenda :=
  State.agenda_congr rfl rfl
@[simp] theorem State.agenda_modWin (n k : Nat) (f : WinSt → WinSt) : (s.modWin n k f).outer.agenda = s.outer.agenda :=
  State.agenda_congr rfl rfl

end Updates

/-! ### Time and queue after a choice or a loop -/

@[simp] theorem agenda_ite (c : Prop) [Decidable c] (s t : State) : (if c then s else t).agenda = if c then s.agenda else t.agenda :=
  apply_ite ..

@[simp] theorem agenda_foldl {α : Type} {f : State → α → State} (h : ∀ t a, (f t a).outer.agenda = t.outer.agenda) (l : List α)
    (s : State) : (l.foldl f s).outer.agenda = s.outer.agenda := by
  induction l generalizing s with
  | nil => rfl
  | cons a l ih => exact (ih _).trans (h s a)

@[simp] theorem State.agenda_forAll {α : Type} {f : α → State → State} (h : ∀ a t, (f a t).outer.agenda = t.outer.agenda) (l : List α)
    (s : State) : (s.forAll l f).outer.agenda = s.outer.agenda := s.forAll_keeps (fun t => t.outer.agenda) f h l

/-! ### Fault sources -/

@[simp] theorem raiseFault_agenda (fr : FaultRec) (s : State) : (raiseFault fr s).outer.agenda = s.outer.agenda := by
  rcases raiseFault_cases fr s with ⟨he, -⟩ | ⟨-, he⟩ <;> simp [he]

@[simp] theorem raise_agenda (r : Reg) (f : Field) (s : State) : (raise r f s).outer.agenda = s.outer.agenda := raiseFault_agenda _ s

/-! ### Fault sources and events -/

@[simp] theorem raiseChan_agenda (d c : Nat) (f : Field) (s : State) : (raiseChan d c f s).outer.agenda = s.outer.agenda := by
  unfold raiseChan; simp

@[simp] theorem setBmc_agenda (q : List BmcMsg) (s : State) : (setBmc q s).outer.agenda = s.outer.agenda := by unfold setBmc; simp

@[simp] theorem toBmc_agenda (m : BmcMsg) (s : State) : (toBmc m s).outer.agenda = s.outer.agenda := by unfold toBmc; simp

@[simp] theorem sendPme_agenda (d n : Nat) (s : State) : (sendPme d n s).outer.agenda = s.outer.agenda := by unfold sendPme; simp

@[simp] theorem toEndpoint_agenda (n d e : Nat) (s : State) : (toEndpoint n d e s).outer.agenda = s.outer.agenda := by
  unfold toEndpoint; split <;> simp

@[simp] theorem recNote_agenda (m : BmcMsg) (s : State) : (recNote m s).outer.agenda = s.outer.agenda := by unfold recNote; simp

@[simp] theorem deliverRouted_agenda (d e part : Nat) (m : BmcMsg) (s : State) :
    (deliverRouted d e part m s).outer.agenda = s.outer.agenda := by
  unfold deliverRouted; simp

@[simp] theorem deliverVerdict_agenda (d e mode part : Nat) (s : State) :
    (deliverVerdict d e mode part s).outer.agenda = s.outer.agenda := by
  unfold deliverVerdict; simp

/-! ### Access gates -/

@[simp] theorem captureFrec_agenda (d mid t acc addr lineoff : Nat) (s : State) :
    (captureFrec d mid t acc addr lineoff s).outer.agenda = s.outer.agenda := by
  unfold captureFrec; simp

@[simp] theorem gateRefuse_agenda (d mid t acc addr lineoff : Nat) (s : State) :
    (gateRefuse d mid t acc addr lineoff s).outer.agenda = s.outer.agenda := by
  unfold gateRefuse; simp

@[simp] theorem replicate_agenda (d off : Nat) {act : State → State} (h : ∀ t, (act t).outer.agenda = t.outer.agenda) (s : State) :
    (replicate d off act s).outer.agenda = s.outer.agenda := by
  unfold replicate; split <;> simp [h]

@[simp] theorem lockWhole_agenda (d t perm : Nat) (s : State) : (lockWhole d t perm s).outer.agenda = s.outer.agenda := by unfold lockWhole; simp

@[simp] theorem lockPatchGate_agenda (s : State) : (lockPatchGate s).outer.agenda = s.outer.agenda := by unfold lockPatchGate; simp

/-! ### The packet buffer -/

@[simp] theorem touchCells_agenda (d : Nat) (cs : List Nat) (s : State) : (touchCells d cs s).outer.agenda = s.outer.agenda := by
  unfold touchCells; simp

@[simp] theorem settleAll_agenda (d : Nat) (s : State) : (settleAll d s).outer.agenda = s.outer.agenda := by unfold settleAll; simp

/-! ### The path of a packet -/

@[simp] theorem serveControl_agenda (d n : Nat) (s : State) : (serveControl d n s).outer.agenda = s.outer.agenda := by
  induction n generalizing s with
  | zero => rfl
  | succ n ih =>
    unfold serveControl
    split
    · rfl
    · split
      · rename_i hput; simp [ih, placeControl_outer hput]
      · rfl

@[simp] theorem portAer_agenda (g : Nat) (f : Aer → Aer) (s : State) : (portAer g f s).outer.agenda = s.outer.agenda := by
  unfold portAer
  split
  · simp
  · dsimp only
    split <;> simp

@[simp] theorem surpriseDown_agenda (g : Nat) (s : State) : (surpriseDown g s).outer.agenda = s.outer.agenda := by unfold surpriseDown; simp

@[simp] theorem flushHome_agenda (p : Pkt) (s : State) : (flushHome p s).outer.agenda = s.outer.agenda := by unfold flushHome; simp

@[simp] theorem arrive_agenda (p : Pkt) (s : State) : (arrive p s).outer.agenda = s.outer.agenda := by unfold arrive; simp

@[simp] theorem dropMirror_agenda (d a : Nat) (m : Mirror) (s : State) : (dropMirror d a m s).outer.agenda = s.outer.agenda := by
  unfold dropMirror; simp

@[simp] theorem shedMirrors_agenda (d n : Nat) (s : State) : (shedMirrors d n s).outer.agenda = s.outer.agenda := by
  induction n generalizing s with
  | zero => rfl
  | succ n ih =>
    unfold shedMirrors
    split
    · rfl
    · split <;> simp [ih]

@[simp] theorem tidyCopied_agenda (d : Nat) (s : State) : (tidyCopied d s).outer.agenda = s.outer.agenda := by unfold tidyCopied; simp

/-! ### Link engines -/

@[simp] theorem updateXoff_agenda (d i : Nat) (s : State) : (updateXoff d i s).outer.agenda = s.outer.agenda := by unfold updateXoff; simp

@[simp] theorem pumpLink_agenda (d i : Nat) (s : State) : (pumpLink d i s).outer.agenda = s.outer.agenda := by unfold pumpLink; simp

@[simp] theorem consumeFlits_agenda (d i vl cls wire : Nat) (s : State) :
    (consumeFlits d i vl cls wire s).outer.agenda = s.outer.agenda := by
  unfold consumeFlits; simp

@[simp] theorem queueFlits_agenda (d i : Nat) (fs : List HeldFlit) (s : State) : (queueFlits d i fs s).outer.agenda = s.outer.agenda := by
  unfold queueFlits; simp

@[simp] theorem sendFlits_agenda (d i : Nat) (p : Pkt) (s : State) : (sendFlits d i p s).outer.agenda = s.outer.agenda := by
  unfold sendFlits; simp

@[simp] theorem setSpanState_agenda (d e v : Nat) (s : State) : (setSpanState d e v s).outer.agenda = s.outer.agenda := by
  unfold setSpanState; simp

@[simp] theorem noteVia_agenda (d x : Nat) (p : Pkt) (s : State) : (noteVia d x p s).outer.agenda = s.outer.agenda := by unfold noteVia; simp

@[simp] theorem sendCross_agenda (d : Nat) (p : Pkt) (s : State) : (sendCross d p s).outer.agenda = s.outer.agenda := by unfold sendCross; simp

@[simp] theorem spanEndDown_agenda (a b : Nat) (s : State) : (spanEndDown a b s).outer.agenda = s.outer.agenda := by unfold spanEndDown; simp

@[simp] theorem spanDown_agenda (d e : Nat) (s : State) : (spanDown d e s).outer.agenda = s.outer.agenda := by unfold spanDown; simp

@[simp] theorem lowPowerEntry_agenda (d pp k width : Nat) (s : State) : (lowPowerEntry d pp k width s).outer.agenda = s.outer.agenda := by
  unfold lowPowerEntry; simp

/-! ### Power domains -/

@[simp] theorem autoOff_agenda (x : DomId) (s : State) : (autoOff x s).outer.agenda = s.outer.agenda := by unfold autoOff; simp

/-! ### Sideband -/

@[simp] theorem segSync_agenda (d i : Nat) (s : State) : (segSync d i s).outer.agenda = s.outer.agenda := by
  unfold segSync; dsimp only; split <;> simp

@[simp] theorem sbbDone_agenda (d : Nat) (x : SbbTxn) (status : Nat) (data : List Byte) (s : State) :
    (sbbDone d x status data s).outer.agenda = s.outer.agenda := by
  unfold sbbDone; dsimp only; split <;> simp

@[simp] theorem sbbState_agenda (d : Nat) (who : Option SbbReq) (v : Nat) (s : State) :
    (sbbState d who v s).outer.agenda = s.outer.agenda := by
  unfold sbbState; split <;> simp

@[simp] theorem sbbQueue_agenda (d i : Nat) (who : SbbReq) (v : Word) (s : State) :
    (sbbQueue d i who v s).outer.agenda = s.outer.agenda := by
  unfold sbbQueue; simp

@[simp] theorem winPump_agenda (n k f : Nat) (s : State) : (winPump n k f s).outer.agenda = s.outer.agenda := by
  induction f generalizing s with
  | zero => rfl
  | succ f ih =>
    unfold winPump
    extract_lets w
    split
    · rfl
    · split
      · rfl
      · simp [ih]
      · extract_lets v s1 fail
        have h1 : s1.outer.agenda = s.outer.agenda := by simp [s1]
        have hfail : ∀ st, (fail st).outer.agenda = s.outer.agenda := fun st => by simp [fail, ih, h1]
        split
        · exact hfail 8
        · split
          · exact hfail 6
          · simp [h1]

@[simp] theorem segPump_agenda (d i f : Nat) (s : State) : (segPump d i f s).outer.agenda = s.outer.agenda := by
  induction f generalizing s with
  | zero => simp [segPump]
  | succ f ih =>
    unfold segPump
    extract_lets g
    split
    · simp
    · split
      · simp
      · extract_lets s1 fin bound
        have h1 : s1.outer.agenda = s.outer.agenda := by simp [s1]
        have hfin : ∀ st u, (fin st u).outer.agenda = u.outer.agenda := by
          intro st u
          simp only [fin, ih]
          split <;> simp
        simp only [outer_ite, agenda_ite, hfin]
        simp [h1]

@[simp] theorem txnEnd_agenda (d i status : Nat) (data : List Byte) (s : State) :
    (txnEnd d i status data s).outer.agenda = s.outer.agenda := by
  unfold txnEnd
  split
  · rfl
  · extract_lets s1 s2
    have h1 : s1.outer.agenda = s.outer.agenda := by simp [s1]
    have h2 : s2.outer.agenda = s1.outer.agenda := by simp only [s2]; split <;> simp
    simp [h2, h1]

@[simp] theorem sbbFlr_agenda (n : Nat) (s : State) : (sbbFlr n s).outer.agenda = s.outer.agenda := by
  unfold sbbFlr
  extract_lets t
  have ht : t.outer.agenda = s.outer.agenda := by
    refine State.agenda_forAll (fun k u => ?_) _ s
    extract_lets me u1
    have h1 : u1.outer.agenda = u.outer.agenda := by simp [u1]
    exact (State.agenda_congr rfl rfl).trans h1
  simp [ht]

@[simp] theorem sbbDieLost_agenda (d : Nat) (s : State) : (sbbDieLost d s).outer.agenda = s.outer.agenda := by unfold sbbDieLost; simp

/-! ### The recorder -/

@[simp] theorem putSeg_agenda (d seg off : Nat) (bs : List Byte) (s : State) : (putSeg d seg off bs s).outer.agenda = s.outer.agenda :=
  State.agenda_congr rfl rfl

theorem takeSeg_agenda {d ch owner : Nat} {s : State} {x : OpenSeg × State} (h : takeSeg d ch owner s = some x) :
    x.2.outer.agenda = s.outer.agenda := by
  unfold takeSeg at h
  split at h
  · cases h
  · split at h
    · cases h
    · extract_lets seq s1 head s2 at h
      have h1 : s1.outer.agenda = s.outer.agenda := State.agenda_congr rfl rfl
      cases h
      simp [s2, h1]

@[simp] theorem streamSeg_agenda (d seg owner : Nat) (s : State) : (streamSeg d seg owner s).outer.agenda = s.outer.agenda := by
  unfold streamSeg; split <;> simp

@[simp] theorem freezeAll_agenda (d : Nat) (s : State) : (freezeAll d s).outer.agenda = s.outer.agenda := by unfold freezeAll; simp

@[simp] theorem closeSeg_agenda (d : Nat) (o : OpenSeg) (s : State) : (closeSeg d o s).outer.agenda = s.outer.agenda := by unfold closeSeg; simp

@[simp] theorem freeze_agenda (d : Nat) (s : State) : (freeze d s).outer.agenda = s.outer.agenda := by unfold freeze; simp

@[simp] theorem sealSeg_agenda (d ch owner : Nat) (s : State) : (sealSeg d ch owner s).outer.agenda = s.outer.agenda := by
  unfold sealSeg; split <;> simp

@[simp] theorem writeRec_agenda (d ch owner : Nat) (o : OpenSeg) (r : RecBody) (s : State) :
    (writeRec d ch owner o r s).outer.agenda = s.outer.agenda := by
  unfold writeRec; simp

theorem placeRec_agenda {d ch owner : Nat} {r : RecBody} {s t : State} (h : placeRec d ch owner r s = some t) :
    t.outer.agenda = s.outer.agenda := by
  unfold placeRec at h
  extract_lets need go at h
  have hgo : ∀ u, go u = some t → t.outer.agenda = u.outer.agenda := by
    intro u hu
    simp only [go] at hu
    split at hu
    · cases hu
    · rename_i hseg; cases hu; simpa using takeSeg_agenda hseg
  split at h
  · split at h
    · simpa using hgo _ h
    · split at h
      · cases h; simp
      · simpa using hgo _ h
  · exact hgo _ h

@[simp] theorem dropRec_agenda (d ch : Nat) (s : State) : (dropRec d ch s).outer.agenda = s.outer.agenda := by unfold dropRec; simp

@[simp] theorem recData_agenda (d ch owner : Nat) (r : RecBody) (s : State) : (recData d ch owner r s).outer.agenda = s.outer.agenda := by
  have hgo : ∀ u : State, ((placeRec d ch owner r u).getD (dropRec d ch u)).outer.agenda = u.outer.agenda := by
    intro u
    cases h : placeRec d ch owner r u with
    | none => simp
    | some t => exact placeRec_agenda h
  unfold recData
  dsimp only
  split
  · exact hgo s
  · split
    · simp
    · rename_i hgap; simpa [hgo] using placeRec_agenda hgap

@[simp] theorem drainStaged_agenda (d n : Nat) (s : State) : (drainStaged d n s).outer.agenda = s.outer.agenda := by
  induction n generalizing s with
  | zero => rfl
  | succ n ih =>
    unfold drainStaged
    split
    · rfl
    · split
      · rfl
      · rename_i hrec; simpa [ih] using placeRec_agenda hrec

@[simp] theorem recCtrl_agenda (d : Nat) (r : RecBody) (s : State) : (recCtrl d r s).outer.agenda = s.outer.agenda := by
  unfold recCtrl; split <;> simp

@[simp] theorem recDrain_agenda (s : State) : (recDrain s).outer.agenda = s.outer.agenda := by unfold recDrain; simp

@[simp] theorem sampled_agenda (d : Nat) (k : Nat × Nat) (sample : Nat) (s : State) : (sampled d k sample s).2.outer.agenda = s.outer.agenda :=
  State.agenda_modRec s d _

@[simp] theorem recHdr_agenda (d point unit owner : Nat) (tag : List Byte) (info mword : Nat) (raw payload : List Byte) (s : State) :
    (recHdr d point unit owner tag info mword raw payload s).outer.agenda = s.outer.agenda := by
  unfold recHdr; simp

/-! ### Lane maps and lane tests -/

@[simp] theorem addCount_agenda (r : Reg) (n : Nat) (s : State) : (addCount r n s).outer.agenda = s.outer.agenda := by unfold addCount; simp

@[simp] theorem checkStretch_agenda (d ll k : Nat) (s : State) : (checkStretch d ll k s).outer.agenda = s.outer.agenda := by
  unfold checkStretch; simp

@[simp] theorem checkTick_agenda (s : State) : (checkTick s).outer.agenda = s.outer.agenda := by unfold checkTick; simp

@[simp] theorem marginTick_agenda (s : State) : (marginTick s).outer.agenda = s.outer.agenda := by unfold marginTick; simp

/-! ### Policing, hold queues and local targets -/

@[simp] theorem endPx_agenda (n : Nat) (s : State) : (endPx n s).outer.agenda = s.outer.agenda := by unfold endPx; simp

@[simp] theorem recPkt_agenda (d point unit : Nat) (tagged : Bool) (p : Pkt) (s : State) :
    (recPkt d point unit tagged p s).outer.agenda = s.outer.agenda := by
  unfold recPkt; simp

@[simp] theorem turnOffDone_agenda (n f g : Nat) (s : State) : (turnOffDone n f g s).outer.agenda = s.outer.agenda := by unfold turnOffDone; simp

@[simp] theorem gatherAck_agenda (g : Nat) (s : State) : (gatherAck g s).outer.agenda = s.outer.agenda := by
  unfold gatherAck
  dsimp only
  split
  · rfl
  · split <;> simp

@[simp] theorem takeLocal_agenda (p : Pkt) (s : State) : (takeLocal p s).outer.agenda = s.outer.agenda := by unfold takeLocal; simp

@[simp] theorem ptmRespond_agenda (p : Pkt) (s : State) : (ptmRespond p s).outer.agenda = s.outer.agenda := by unfold ptmRespond; simp

@[simp] theorem localMsg_agenda (p : Pkt) (s : State) : (localMsg p s).outer.agenda = s.outer.agenda := by unfold localMsg; simp

@[simp] theorem drainLocal_agenda (x n : Nat) (s : State) : (drainLocal x n s).outer.agenda = s.outer.agenda := by
  induction n generalizing s with
  | zero => rfl
  | succ n ih =>
    unfold drainLocal
    split
    · rfl
    · simp [ih]

@[simp] theorem serveLocal_agenda (x : Nat) (s : State) : (serveLocal x s).outer.agenda = s.outer.agenda := by unfold serveLocal; simp

@[simp] theorem placeLocal_agenda (p : Pkt) (s : State) : (placeLocal p s).outer.agenda = s.outer.agenda := by unfold placeLocal; simp

@[simp] theorem toEgress_agenda (p : Pkt) (s0 : State) : (toEgress p s0).outer.agenda = s0.outer.agenda := by unfold toEgress; simp

@[simp] theorem giveTag_agenda (p : Pkt) (s : State) : (giveTag p s).2.outer.agenda = s.outer.agenda :=
  State.agenda_congr rfl rfl

@[simp] theorem flowFlip_agenda (n : Nat) (was now : FlowCtx) (e : Nat) (s : State) :
    (flowFlip n was now e s).outer.agenda = s.outer.agenda := by
  unfold flowFlip; simp

/-! ### Egress and span links -/

@[simp] theorem takeRecord_agenda (d e : Nat) (p : Pkt) (hint : Nat) (s : State) :
    (takeRecord d e p hint s).outer.agenda = s.outer.agenda := by
  unfold takeRecord
  split
  · rfl
  · rename_i hstore; simp [storeRecord_outer hstore]

/-! ### Activation -/

@[simp] theorem State.agenda_onActive {f : Nat → State → State} (h : ∀ d t, (f d t).outer.agenda = t.outer.agenda) (s : State) :
    (s.onActive f).outer.agenda = s.outer.agenda := State.agenda_forAll h _ s

@[simp] theorem setPhase_agenda (v : Nat) (s : State) : (setPhase v s).outer.agenda = s.outer.agenda := by unfold setPhase; simp

@[simp] theorem setAct_agenda (f : Field) (v : Nat) (s : State) : (setAct f v s).outer.agenda = s.outer.agenda := by unfold setAct; simp

@[simp] theorem activationBegin_agenda (s : State) : (activationBegin s).outer.agenda = s.outer.agenda := by unfold activationBegin; simp

@[simp] theorem activationPoll_agenda (s : State) : (activationPoll s).outer.agenda = s.outer.agenda := by unfold activationPoll; simp

/-! ### Banks, capos and mode transitions -/

@[simp] theorem applyStaged_agenda (k : Nat) (v : Word) (s : State) : (applyStaged k v s).outer.agenda = s.outer.agenda := by
  unfold applyStaged; simp

@[simp] theorem endLoads_agenda (s : State) : (endLoads s).outer.agenda = s.outer.agenda := by unfold endLoads; simp

@[simp] theorem drainQueue_agenda (s : State) : (drainQueue s).outer.agenda = s.outer.agenda := by unfold drainQueue; simp

@[simp] theorem flipGens_agenda (d : Nat) (old now : FMap Nat Word) (oldE newE : Nat) (s : State) :
    (flipGens d old now oldE newE s).outer.agenda = s.outer.agenda := by
  unfold flipGens; simp

@[simp] theorem sealPort_agenda (g : Nat) (s : State) : (sealPort g s).outer.agenda = s.outer.agenda := by unfold sealPort; simp

@[simp] theorem unbindPorts_agenda (d oldE newE : Nat) (s : State) : (unbindPorts d oldE newE s).outer.agenda = s.outer.agenda := by
  unfold unbindPorts; simp

@[simp] theorem recFlip_agenda (d e : Nat) (s : State) : (recFlip d e s).outer.agenda = s.outer.agenda := by unfold recFlip; simp

@[simp] theorem flipDie_agenda (d : Nat) (s : State) : (flipDie d s).outer.agenda = s.outer.agenda := by unfold flipDie; simp

@[simp] theorem setMode_agenda (m : Nat) (s : State) : (setMode m s).outer.agenda = s.outer.agenda := by unfold setMode; simp

@[simp] theorem setHeld_agenda (n : Nat) (l : List (Nat × Nat × Tlp × Nat)) (s : State) :
    (setHeld n l s).outer.agenda = s.outer.agenda := by
  unfold setHeld; simp

@[simp] theorem returnHeld_agenda (n : Nat) (x : Nat × Nat × Tlp × Nat) (s : State) : (returnHeld n x s).outer.agenda = s.outer.agenda := by
  unfold returnHeld; split <;> simp

@[simp] theorem followRelease_agenda (s : State) : (followRelease s).outer.agenda = s.outer.agenda := by
  refine State.agenda_forAll (fun n t => ?_) _ s
  split <;> simp

@[simp] theorem capoDone_agenda (s : State) : (capoDone s).outer.agenda = s.outer.agenda := by unfold capoDone; dsimp only; split <;> simp

@[simp] theorem capoFlip_agenda (d : Nat) (s : State) : (capoFlip d s).outer.agenda = s.outer.agenda := by unfold capoFlip; simp

@[simp] theorem sendCapoFlit_agenda (d : Nat) (s : State) : (sendCapoFlit d s).outer.agenda = s.outer.agenda := by unfold sendCapoFlit; simp

@[simp] theorem capoCompare_agenda (s0 : State) : (capoCompare s0).outer.agenda = s0.outer.agenda := by unfold capoCompare; simp

@[simp] theorem shadowMode_agenda (m : Nat) (s : State) : (shadowMode m s).outer.agenda = s.outer.agenda := by unfold shadowMode; simp

@[simp] theorem capoAbandon_agenda (s : State) : (capoAbandon s).outer.agenda = s.outer.agenda := by
  unfold capoAbandon; dsimp only; split <;> simp

@[simp] theorem capoStart_agenda (s : State) : (capoStart s).outer.agenda = s.outer.agenda := by unfold capoStart; dsimp only; split <;> simp

@[simp] theorem capoTick_agenda (s : State) : (capoTick s).outer.agenda = s.outer.agenda := by unfold capoTick; simp

@[simp] theorem issueCapo_agenda (s : State) : (issueCapo s).outer.agenda = s.outer.agenda := by unfold issueCapo; simp

@[simp] theorem modeRefuse_agenda (v : Nat) (s : State) : (modeRefuse v s).outer.agenda = s.outer.agenda := by unfold modeRefuse; simp

@[simp] theorem patchAuto_agenda (s : State) : (patchAuto s).outer.agenda = s.outer.agenda := by unfold patchAuto; simp

@[simp] theorem modeCapo_agenda (m : Nat) (s : State) : (modeCapo m s).outer.agenda = s.outer.agenda := by unfold modeCapo; simp

@[simp] theorem modeAccept_agenda (cur m : Nat) (s : State) : (modeAccept cur m s).outer.agenda = s.outer.agenda := by unfold modeAccept; simp

@[simp] theorem checkEnd_agenda (s : State) : (checkEnd s).outer.agenda = s.outer.agenda := by unfold checkEnd; split <;> simp

@[simp] theorem syncsOver_agenda (s : State) : (syncsOver s).outer.agenda = s.outer.agenda := by unfold syncsOver; simp

/-! ### Forwarding -/

theorem raisePrec_agenda {d x va : Nat} {w0 : Word} {rd wr : Bool} {cause : Nat} {chan : Option Nat} {s : State} {y : Nat × State}
    (h : raisePrec d x va w0 rd wr cause chan s = some y) : y.2.outer.agenda = s.outer.agenda := by
  unfold raisePrec at h
  extract_lets n f mode0 mode fc ready tag v at h
  split at h
  · cases h
  · split at h
    · extract_lets s1 s2 s3 at h
      have h2 : s2.outer.agenda = s.outer.agenda := by simp [s2, s1]
      have h3 : s3.outer.agenda = s2.outer.agenda := by simp only [s3]; split <;> simp
      obtain rfl := Option.some.inj h
      simp [h3, h2]
    · cases h

@[simp] theorem endPrec_agenda (d i : Nat) (s : State) : (endPrec d i s).outer.agenda = s.outer.agenda := by unfold endPrec; simp

/-! ### Translation and DMA -/

theorem sendDma_agenda {d c k epoch dest hint : Nat} {mdata : Meta} {t : Tlp} {s u : State}
    (h : sendDma d c k epoch dest hint mdata t s = some u) : u.outer.agenda = s.outer.agenda := by
  unfold sendDma at h
  split at h
  · cases h
  · rename_i hstore
    dsimp only at h
    split at h
    · cases h
    · cases h; simp [storeRecord_outer hstore]

/-- A fold over states that may stop has kept the time and the queue of `s`. -/
def AgendaKept (s : State) (acc : Option (Nat × State)) : Prop := ∀ r, acc = some r → r.2.outer.agenda = s.outer.agenda

theorem writePiece_agenda {d c k epoch ctx hint : Nat} {x : Piece} {data : List Byte} {s : State} {y : Nat × State}
    (h : writePiece d c k epoch ctx hint x data s = some y) : y.2.outer.agenda = s.outer.agenda := by
  unfold writePiece at h
  split at h
  · cases h
  · refine List.foldlRecOn (motive := AgendaKept s) _ _ (fun r hr => by cases hr; rfl) (fun acc hacc g _ => ?_) y h
    refine List.foldlRecOn (motive := AgendaKept s) _ _ hacc fun acc hacc z _ r hr => ?_
    dsimp only at hr
    split at hr
    · cases hr
    · split at hr
      · cases hr
      · rename_i hsend; cases hr; rw [sendDma_agenda hsend]; exact hacc _ rfl

@[simp] theorem endDesc_agenda (d c st bytes : Nat) (s : State) : (endDesc d c st bytes s).outer.agenda = s.outer.agenda := by
  unfold endDesc
  split
  · rfl
  · extract_lets s1 s2 s3 s4
    have h2 : s2.outer.agenda = s.outer.agenda := by simp [s2, s1]
    have h3 : s3.outer.agenda = s2.outer.agenda := by simp only [s3]; split <;> simp
    simp [s4, h3, h2]

@[simp] theorem dmaHardware_agenda (d c : Nat) (s : State) : (dmaHardware d c s).outer.agenda = s.outer.agenda := by
  unfold dmaHardware; split <;> simp

@[simp] theorem faultPoint_agenda (d c : Nat) (s : State) : (faultPoint d c s).outer.agenda = s.outer.agenda := by
  unfold faultPoint
  extract_lets x mode tag
  split
  · rfl
  · split
    · rfl
    · extract_lets s0 s1 dma s2
      have h1 : s1.outer.agenda = s.outer.agenda := by simp [s1, s0]
      split
      · simp [h1]
      · split
        · split
          · simp [h1]
          · split
            · simp [h1]
            · split
              · rename_i hprec; simp [raisePrec_agenda hprec, h1]
              · simp [h1]
        · have h2 : s2.outer.agenda = s1.outer.agenda := State.agenda_congr rfl rfl
          simp [h2, h1]

@[simp] theorem chunkFault_agenda (d c st k : Nat) (what : Option (Nat × Nat × Bool × Nat)) (s : State) :
    (chunkFault d c st k what s).outer.agenda = s.outer.agenda := by
  unfold chunkFault; dsimp only; split <;> simp

theorem commitChunk_agenda {d c hint : Nat} {x : Desc} {y : Chunk} {data : List Byte} {s t : State}
    (h : commitChunk d c hint x y data s = some t) : t.outer.agenda = s.outer.agenda := by
  unfold commitChunk at h
  obtain ⟨r, hr, rfl⟩ := Option.map_eq_some_iff.mp h
  simp only [State.agenda_count, State.outer_modChan]
  refine List.foldlRecOn (motive := AgendaKept s) _ _ (fun r hr => by cases hr; rfl) (fun acc hacc p _ r hr => ?_) r hr
  split at hr
  · cases hr
  · split at hr
    · cases hr
    · rename_i hpiece; cases hr; rw [writePiece_agenda hpiece]; exact hacc _ rfl

@[simp] theorem commitAll_agenda (d c hint fuel : Nat) (s : State) : (commitAll d c hint fuel s).outer.agenda = s.outer.agenda := by
  induction fuel generalizing s with
  | zero => rfl
  | succ fuel ih =>
    unfold commitAll
    dsimp only
    split
    · rfl
    · split
      · simp
      · split
        · simp
        · split
          · rfl
          · split
            · rfl
            · split
              · rfl
              · rename_i hcommit; rw [ih, commitChunk_agenda hcommit]

@[simp] theorem withdraw_agenda (d c : Nat) (s : State) : (withdraw d c s).outer.agenda = s.outer.agenda := by
  unfold withdraw; dsimp only; split <;> simp

@[simp] theorem dmaStop_agenda (d c : Nat) (s : State) : (dmaStop d c s).outer.agenda = s.outer.agenda := by unfold dmaStop; simp

@[simp] theorem ringError_agenda (d c : Nat) (s : State) : (ringError d c s).outer.agenda = s.outer.agenda := by unfold ringError; simp

@[simp] theorem clearRes_agenda (d off n : Nat) (s : State) : (clearRes d off n s).outer.agenda = s.outer.agenda :=
  State.agenda_congr rfl rfl

@[simp] theorem sramStore_agenda (d off : Nat) (bs : List Byte) (s : State) : (sramStore d off bs s).outer.agenda = s.outer.agenda :=
  State.agenda_congr rfl rfl

@[simp] theorem recXwrite_agenda (d mid off : Nat) (bs : List Byte) (s : State) :
    (recXwrite d mid off bs s).outer.agenda = s.outer.agenda := by
  unfold recXwrite; simp

@[simp] theorem foreignCross_agenda (d mid off : Nat) (bs : List Byte) (s : State) :
    (foreignCross d mid off bs s).outer.agenda = s.outer.agenda := by
  unfold foreignCross; simp

@[simp] theorem serveForeign_agenda (d n : Nat) (s : State) : (serveForeign d n s).outer.agenda = s.outer.agenda := by
  induction n generalizing s with
  | zero => rfl
  | succ n ih =>
    unfold serveForeign
    dsimp only
    split
    · simp
    · split <;> simp [ih]

@[simp] theorem readCompletion_agenda (d c tag : Nat) (ok : Bool) (data : List Byte) (s : State) :
    (readCompletion d c tag ok data s).outer.agenda = s.outer.agenda := by
  unfold readCompletion
  dsimp only
  split
  · simp
  · split
    · simp
    · split <;> simp

@[simp] theorem lostReads_agenda (d c : Nat) (s : State) : (lostReads d c s).outer.agenda = s.outer.agenda := by unfold lostReads; simp

@[simp] theorem flushDma_agenda (n : Nat) (s : State) : (flushDma n s).outer.agenda = s.outer.agenda := by unfold flushDma; simp

@[simp] theorem stopDma_agenda (n : Nat) (s : State) : (stopDma n s).outer.agenda = s.outer.agenda := by unfold stopDma; simp

@[simp] theorem resetRings_agenda (n : Nat) (s : State) : (resetRings n s).outer.agenda = s.outer.agenda := by unfold resetRings; simp

/-! ### Partitions and function level resets -/

@[simp] theorem flrEnd_agenda (n : Nat) (s : State) : (flrEnd n s).outer.agenda = s.outer.agenda := by
  unfold flrEnd
  extract_lets s2 s3
  have h3 : s3.outer.agenda = s2.outer.agenda := by
    refine State.agenda_forAll (fun f t => ?_) _ s2
    split <;> simp
  simp [h3, s2]

/-! ### Start and control SRAM -/

@[simp] theorem copyStaged_agenda (d : Nat) (s : State) : (copyStaged d s).outer.agenda = s.outer.agenda := by unfold copyStaged; simp

@[simp] theorem wdogStart_agenda (d : Nat) (s : State) : (wdogStart d s).outer.agenda = s.outer.agenda := by unfold wdogStart; simp

@[simp] theorem domainsOff_agenda (d : Nat) (s : State) : (domainsOff d s).outer.agenda = s.outer.agenda := by unfold domainsOff; simp

@[simp] theorem recordCause_agenda (ds : List Nat) (code : Nat) (s : State) : (recordCause ds code s).outer.agenda = s.outer.agenda := by
  unfold recordCause; simp

@[simp] theorem failedStart_agenda (code : Nat) (s : State) : (failedStart code s).outer.agenda = s.outer.agenda := by unfold failedStart; simp

@[simp] theorem setRunning_agenda (f : Nat) (h : List Byte) (digest : Nat) (s : State) :
    (setRunning f h digest s).outer.agenda = s.outer.agenda := by
  unfold setRunning; simp

/-! ### Handover -/

@[simp] theorem handoverDie_agenda (d : Nat) (s : State) : (handoverDie d s).outer.agenda = s.outer.agenda := by unfold handoverDie; simp

@[simp] theorem adoptStaged_agenda (s : State) : (adoptStaged s).outer.agenda = s.outer.agenda := by unfold adoptStaged; simp

@[simp] theorem trialBegin_agenda (s : State) : (trialBegin s).outer.agenda = s.outer.agenda := by unfold trialBegin; simp

@[simp] theorem handoverEnter_agenda (s : State) : (handoverEnter s).outer.agenda = s.outer.agenda := by unfold handoverEnter; simp

/-! ### Dies lost and the part case -/

@[simp] theorem portHalt_agenda (g : Nat) (s : State) : (portHalt g s).outer.agenda = s.outer.agenda := by unfold portHalt; simp

@[simp] theorem partStop_agenda (k : Nat) (s : State) : (partStop k s).outer.agenda = s.outer.agenda := by unfold partStop; simp

@[simp] theorem eraseDie_agenda (x : Nat) (s : State) : (eraseDie x s).outer.agenda = s.outer.agenda :=
  State.agenda_congr rfl rfl

@[simp] theorem cutStreams_agenda (x : Nat) (s : State) : (cutStreams x s).outer.agenda = s.outer.agenda := by unfold cutStreams; simp

@[simp] theorem resendAround_agenda (x : Nat) (s : State) : (resendAround x s).outer.agenda = s.outer.agenda := by unfold resendAround; simp

@[simp] theorem flushToward_agenda (x : Nat) (s : State) : (flushToward x s).outer.agenda = s.outer.agenda := by unfold flushToward; simp

@[simp] theorem facesLost_agenda (x : Nat) (s : State) : (facesLost x s).outer.agenda = s.outer.agenda := by
  refine State.agenda_forAll (fun g t => ?_) _ s
  dsimp only
  split <;> simp

@[simp] theorem wakeHlink_agenda (k : Nat) (s : State) : (wakeHlink k s).outer.agenda = s.outer.agenda := by unfold wakeHlink; simp

@[simp] theorem hildPath_agenda (s : State) : (hildPath s).outer.agenda = s.outer.agenda := by unfold hildPath; simp

@[simp] theorem capoLoss_agenda (wasLead leadWaited : Bool) (s : State) :
    (capoLoss wasLead leadWaited s).outer.agenda = s.outer.agenda := by
  unfold capoLoss; simp

@[simp] theorem dieGone_agenda (x : Nat) (s : State) : (dieGone x s).outer.agenda = s.outer.agenda := by unfold dieGone; simp

@[simp] theorem dieLost_agenda (x code : Nat) (s : State) : (dieLost x code s).outer.agenda = s.outer.agenda := by unfold dieLost; simp

@[simp] theorem handoverAfter_agenda (s t : State) : (handoverAfter s t).outer.agenda = t.outer.agenda := by unfold handoverAfter; simp

@[simp] theorem loseDie_agenda (x code : Nat) (s : State) : (loseDie x code s).outer.agenda = s.outer.agenda := by unfold loseDie; simp

/-! ### What runs while no command waits -/

@[simp] theorem slew_agenda (d : Nat) (s : State) : (slew d s).outer.agenda = s.outer.agenda := by unfold slew; simp

theorem passTime_agenda (s : State) : (passTime s).outer.agenda = (s.now + 65536, s.pending) := by
  unfold passTime
  extract_lets t u
  have hu : u.outer.agenda = t.outer.agenda := by simp only [u]; split <;> simp
  simp only [State.agenda_forAll (fun d v => slew_agenda d v), hu]
  rfl

@[simp] theorem dropDeadMirrors_agenda (d a : Nat) (s : State) : (dropDeadMirrors d a s).outer.agenda = s.outer.agenda := by
  unfold dropDeadMirrors; simp

@[simp] theorem tidyMirrors_agenda (d : Nat) (s : State) : (tidyMirrors d s).outer.agenda = s.outer.agenda := by unfold tidyMirrors; simp

@[simp] theorem linkTick_agenda (x : Nat × Nat) (s : State) : (linkTick x s).outer.agenda = s.outer.agenda := by unfold linkTick; simp

@[simp] theorem applyTick_agenda (d : Nat) (s : State) : (applyTick d s).outer.agenda = s.outer.agenda := by unfold applyTick; simp

@[simp] theorem engines_agenda (s : State) : (engines s).outer.agenda = s.outer.agenda := by unfold engines; simp

@[simp] theorem bufferTick_agenda (d : Nat) (s : State) : (bufferTick d s).outer.agenda = s.outer.agenda := by unfold bufferTick; simp

/-- A tick advances true time by one nanosecond, 65,536 units (01 R39), and leaves the queue. -/
theorem idle_agenda (s : State) : (idle s).outer.agenda = (s.now + 65536, s.pending) := by
  unfold idle
  extract_lets c s0 s1 s2
  have hc : c.outer.agenda = (s.now + 65536, s.pending) := by simp only [c, capoTick_agenda, engines_agenda, passTime_agenda]
  have h0 : s0.outer.agenda = c.outer.agenda := by simp [s0]
  have h1 : s1.outer.agenda = s0.outer.agenda := by simp [s1]
  have h2 : s2.outer.agenda = s1.outer.agenda := by simp [s2]
  simp [h2, h1, h0, hc]

/-! ### The statement -/

/-- Settles O1: the front command runs by definition, and a tick advances true time by one nanosecond and leaves the queue empty. -/
theorem stepRunsTheFrontCommand : Obligations.StepRunsTheFrontCommand := by
  unfold Obligations.StepRunsTheFrontCommand
  intro s c rest
  have htick := idle_agenda { s with pending := [] }
  rw [State.outer_agenda, Prod.mk.injEq] at htick
  exact ⟨rfl, idle { s with pending := [] }, rfl, htick⟩

end Sys2Proof.Machine
end

section
/-! SUPPORT. What the operations on packets and cells leave: the link engines but for the credits of their packets, the lanes, what stands of the
faults, and every register but the counts of flushed packets and the records of parked ones (03, 04, 06, 12 R458). -/

namespace Sys2Proof.Machine

/-! ### What packets do not touch -/

/-- The registers that the operations on packets write. -/
def packetRegs : List RegName := [.fltPcnt, .fretTraprec0, .fretTraprec1, .fretTraprec2, .fretTrapHdr]

@[simp] theorem mem_packetRegs : RegName.fltPcnt ∈ packetRegs ∧ RegName.fretTraprec0 ∈ packetRegs ∧ RegName.fretTraprec1 ∈ packetRegs ∧
    RegName.fretTraprec2 ∈ packetRegs ∧ RegName.fretTrapHdr ∈ packetRegs := by decide

/-- A link engine without the credits of its packets. -/
def LinkSt.engine (l : LinkSt) : LinkSt := { l with advH := [], advD := [], owed := [], owedH := [] }

/-- The part of the faults that decides which ports may train. -/
def FltSt.standing (x : FltSt) : FltSt := { cases := x.cases, dpcPorts := x.dpcPorts, partCase := x.partCase, rejoining := x.rejoining }

/-- The link engines, and a state without what the operations on packets change. -/
def State.wires (s : State) : (Nat → Nat → LinkSt) × State :=
  (fun d i => (s.link d i).engine,
    { s with regs := s.regs.filter fun x => decide (x.1.name ∉ packetRegs), links := [], flt := s.flt.standing, fret := {}, buf := {}, sch := {},
             par := {}, xlt := {}, dma := {} })

/-! ### One update -/

section Updates
variable (s : State)

@[simp] theorem State.wires_setReg {r : Reg} (v : Word) (h : r.name ∈ packetRegs) : (s.setReg r v).wires = s.wires := by
  unfold State.wires State.link
  rw [State.setReg_regs, FMap.filter_set _ _ _ fun _ => by simp [h]]
  rfl

@[simp] theorem State.wires_count {r : Reg} (f : Field) (n : Nat) (h : r.name ∈ packetRegs) : (s.count r f n).wires = s.wires :=
  s.wires_setReg _ h

theorem State.link_modLink (d i e k : Nat) (f : LinkSt → LinkSt) :
    (s.modLink d i f).link e k = if e = d ∧ k = i then f (s.link d i) else s.link e k := by
  unfold State.modLink State.link
  rw [FMap.get_set]
  simp only [Prod.mk.injEq]

@[simp] theorem State.link_modLink_same (d i : Nat) (f : LinkSt → LinkSt) : (s.modLink d i f).link d i = f (s.link d i) := by
  rw [State.link_modLink, if_pos ⟨rfl, rfl⟩]

theorem State.wires_modLink (d i : Nat) {f : LinkSt → LinkSt} (h : (f (s.link d i)).engine = (s.link d i).engine) :
    (s.modLink d i f).wires = s.wires := by
  unfold State.wires
  refine Prod.ext (funext fun e => funext fun k => ?_) rfl
  dsimp only
  rw [State.link_modLink]
  split
  · rename_i he; obtain ⟨rfl, rfl⟩ := he; exact h
  · rfl

theorem State.wires_modFlt {f : FltSt → FltSt} (h : (f s.flt).standing = s.flt.standing) : (s.modFlt f).wires = s.wires := by
  unfold State.wires
  rw [State.modFlt_flt, h]
  rfl

@[simp] theorem State.wires_modXltDie (d : Nat) (f : XltDie → XltDie) : (s.modXltDie d f).wires = s.wires := by
  unfold State.modXltDie; rfl

@[simp] theorem State.wires_modSch (f : SchSt → SchSt) : (s.modSch f).wires = s.wires := by unfold State.modSch; rfl

@[simp] theorem State.wires_modQueue (g q : Nat) (f : List Pkt → List Pkt) : (s.modQueue g q f).wires = s.wires := s.wires_modSch _

@[simp] theorem State.wires_modBufDie (d : Nat) (f : BufDie → BufDie) : (s.modBufDie d f).wires = s.wires := by
  unfold State.modBufDie; rfl

@[simp] theorem State.wires_modCell (d c : Nat) (f : CellRec → CellRec) : (s.modCell d c f).wires = s.wires := s.wires_modBufDie d _

@[simp] theorem State.wires_modPar (f : ParSt → ParSt) : (s.modPar f).wires = s.wires := by unfold State.modPar; rfl

@[simp] theorem State.wires_modVport (n k : Nat) (f : VpSt → VpSt) : (s.modVport n k f).wires = s.wires := s.wires_modPar _

@[simp] theorem State.wires_modFace (n f : Nat) (g : FaceSt → FaceSt) : (s.modFace n f g).wires = s.wires := s.wires_modPar _

@[simp] theorem State.wires_modChan (d c : Nat) (f : ChanSt → ChanSt) : (s.modChan d c f).wires = s.wires := by
  unfold State.modChan; rfl

@[simp] theorem State.wires_modFret (f : FretSt → FretSt) : (s.modFret f).wires = s.wires := by unfold State.modFret; rfl

@[simp] theorem State.wires_modStream (k : StreamKey) (f : Stream → Stream) : (s.modStream k f).wires = s.wires := s.wires_modFret _

end Updates

/-! ### A choice or a loop -/

@[simp] theorem wires_ite (c : Prop) [Decidable c] (s t : State) : (if c then s else t).wires = if c then s.wires else t.wires :=
  apply_ite ..

@[simp] theorem wires_foldl {α : Type} {f : State → α → State} (h : ∀ t a, (f t a).wires = t.wires) (l : List α) (s : State) :
    (l.foldl f s).wires = s.wires := by
  induction l generalizing s with
  | nil => rfl
  | cons a l ih => exact (ih _).trans (h s a)

@[simp] theorem State.wires_forAll {α : Type} {f : α → State → State} (h : ∀ a t, (f a t).wires = t.wires) (l : List α) (s : State) :
    (s.forAll l f).wires = s.wires := s.forAll_keeps State.wires f h l

/-! ### Cells and their credits -/

theorem LinkSt.giveBack_engine (l : LinkSt) (throttled : Bool) (c units : Nat) : (l.giveBack throttled c units).engine = l.engine := by
  unfold LinkSt.giveBack
  cases throttled <;> rfl

@[simp] theorem returnCredits_wires (g : Nat) (left : List Nat) (s : State) : (returnCredits g left s).wires = s.wires := by
  have hback : ∀ (th : Bool) (xs : List (Nat × Nat × List Nat)) (l : LinkSt),
      (xs.foldl (fun m x => m.giveBack th x.1 x.2.1) l).engine = l.engine := by
    intro th xs
    induction xs with
    | nil => exact fun _ => rfl
    | cons x xs ih => exact fun l => (ih _).trans (l.giveBack_engine th x.1 x.2.1)
  exact s.wires_modLink _ _ (hback _ _ _)

@[simp] theorem leaveLedger_wires (d c : Nat) (s : State) : (leaveLedger d c s).wires = s.wires := by unfold leaveLedger; split <;> simp

@[simp] theorem freeCell_wires (d c : Nat) (s : State) : (freeCell d c s).wires = s.wires := by unfold freeCell; simp

@[simp] theorem sealCell_wires (d : Nat) (w : Writer) (s : State) : (sealCell d w s).wires = s.wires := by unfold sealCell; split <;> simp

theorem drawCell_wires {d : Nat} {w : Writer} {hint : Nat} {s : State} {x : Nat × State} (h : drawCell d w hint s = some x) :
    x.2.wires = s.wires := by
  unfold drawCell at h
  extract_lets o take at h
  have htake : ∀ c u, (take c u).2.wires = u.wires := by
    intro c u
    cases hopen : (u.bufDie d).openCell.find w <;> simp [take, hopen]
  split at h
  · cases h
  · cases hfrom : (s.bufDie d).drawFrom o hint <;> simp only [hfrom, reduceCtorEq, Option.some.injEq] at h <;> simp [← h, htake]

/-- Storing a record leaves them, whichever cells it takes. -/
theorem writeRecord_wires {d : Nat} {w : Writer} {hint fuel : Nat} {bs : List Byte} {s : State} {x : List Nat × State}
    (h : writeRecord d w hint fuel bs s = some x) : x.2.wires = s.wires := by
  induction fuel generalizing bs s x with
  | zero => cases h; rfl
  | succ fuel ih =>
    unfold writeRecord at h
    by_cases hbs : bs.isEmpty = true
    · rw [if_pos hbs] at h; cases h; rfl
    rw [if_neg hbs] at h
    extract_lets fit at h
    have hfit : ∀ c u, fit c u = some x → x.2.wires = u.wires := by
      intro c u hx
      simp only [fit] at hx
      split at hx
      · cases hx
      · rename_i hrest; cases hx; simpa using ih hrest
    have hdrawn : (match drawCell d w hint s with | none => none | some (c', s') => fit c' s') = some x → x.2.wires = s.wires := by
      cases hdraw : drawCell d w hint s with
      | none => simp
      | some y => exact fun hx => (hfit _ _ hx).trans (drawCell_wires hdraw)
    cases hopen : (s.bufDie d).openCell.find w with
    | none => simp only [hopen] at h; exact hdrawn h
    | some c =>
      simp only [hopen] at h
      split at h
      · split at h
        · exact hfit _ _ h
        · cases h
      · exact hdrawn h

@[simp] theorem dropRef_wires (d c : Nat) (s : State) : (dropRef d c s).wires = s.wires := by unfold dropRef; simp

@[simp] theorem dropCells_wires (d : Nat) (cs : List Nat) (s : State) : (dropCells d cs s).wires = s.wires := by unfold dropCells; simp

@[simp] theorem moveCell_wires (d c : Nat) (s : State) : (moveCell d c s).wires = s.wires := by
  unfold moveCell
  dsimp only
  split
  · rfl
  · split
    · split <;> simp
    · split <;> simp
    · split <;> simp
    · rfl

@[simp] theorem settleCells_wires (d : Nat) (cs : List Nat) (s : State) : (settleCells d cs s).wires = s.wires := by
  unfold settleCells settleCell; simp

/-! ### Packets, faces and virtual ports -/

@[simp] theorem originate_wires (g : Nat) (t : Tlp) (s : State) : (originate g t s).wires = s.wires := by
  have hplace : ∀ u, placeControl g t s = some u → u.wires = s.wires := by
    intro u hu
    unfold placeControl at hu
    obtain ⟨x, hx, rfl⟩ := Option.map_eq_some_iff.mp hu
    simpa using writeRecord_wires hx
  unfold originate
  cases h : placeControl g t s with
  | none => simp
  | some u => simp [hplace u h]

@[simp] theorem faceReset_wires (n f : Nat) (s : State) : (faceReset n f s).wires = s.wires := by unfold faceReset cfgResetFns; simp

@[simp] theorem vpMsi_wires (n k : Nat) (s : State) : (vpMsi n k s).wires = s.wires := by
  unfold vpMsi
  dsimp only
  split
  · simp
  · rfl

@[simp] theorem vpEvent_wires (n k : Nat) (bits : List Nat) (s : State) : (vpEvent n k bits s).wires = s.wires := by unfold vpEvent; simp

@[simp] theorem slotStatus_wires (g bit : Nat) (s : State) : (slotStatus g bit s).wires = s.wires := by
  unfold slotStatus
  extract_lets d e n s1
  have h1 : s1.wires = s.wires := by
    cases hk : s.vpOfPort d e n g <;> simp [s1, hk]
  simp [h1]

@[simp] theorem trapFreed_wires (g k : Nat) (s : State) : (trapFreed g k s).wires = s.wires := by unfold trapFreed clearTraprec; simp

@[simp] theorem releaseIngress_wires (p : Pkt) (s : State) : (releaseIngress p s).wires = s.wires := by
  unfold releaseIngress; split <;> simp

@[simp] theorem dmaReleased_wires (p : Pkt) (s : State) : (dmaReleased p s).wires = s.wires := by unfold dmaReleased; split <;> simp

@[simp] theorem reportTag_wires (p : Pkt) (s : State) : (reportTag p s).wires = s.wires := by unfold reportTag; simp

@[simp] theorem advance_wires (p : Pkt) (s : State) : (advance p s).wires = s.wires := by unfold advance; simp

@[simp] theorem retireTag_wires (p : Pkt) (s : State) : (retireTag p s).wires = s.wires := by unfold retireTag; simp

@[simp] theorem releaseHeld_wires (d : Nat) (p : Pkt) (s : State) : (releaseHeld d p s).wires = s.wires := by
  unfold releaseHeld; split <;> simp

@[simp] theorem answerLost_wires (p : Pkt) (status : Nat) (s : State) : (answerLost p status s).wires = s.wires := by
  unfold answerLost
  split
  · rfl
  · split <;> simp

@[simp] theorem flushPkt_wires (p : Pkt) (s : State) : (flushPkt p s).wires = s.wires := by unfold flushPkt; simp

@[simp] theorem flushPort_wires (g : Nat) (s : State) : (flushPort g s).wires = s.wires := by unfold flushPort; simp

/-! ### What waits for a link -/

@[simp] theorem resetStreams_wires (g : Nat) (s : State) : (resetStreams g s).wires = s.wires := by unfold resetStreams; simp

@[simp] theorem sendPme_wires (d n : Nat) (s : State) : (sendPme d n s).wires = s.wires := by
  unfold sendPme
  exact State.wires_forAll (fun _ t => t.wires_modFlt rfl) _ _

@[simp] theorem toEndpoint_wires (n d e : Nat) (s : State) : (toEndpoint n d e s).wires = s.wires := by
  unfold toEndpoint
  dsimp only
  split
  · simp
  · split
    · simp
    · exact s.wires_modFlt rfl

@[simp] theorem sendPending_wires (d n : Nat) (s : State) : (sendPending d n s).wires = s.wires := by unfold sendPending; simp

end Sys2Proof.Machine
end

section
/-! SUPPORT. Frames, and what a link engine shows while its link falls: the state code of a link, whether its port may train, and the transport
that a fall empties (03 R98, R100, R104). -/

namespace Sys2Proof.Machine

/-! ### Frames -/

/-- What lies beyond the fabric, and every register but those of some names. -/
def State.beyond (ns : List RegName) (s : State) : (Memory × CoreSt × Fuses × BootSt × List Instr) × (Reg → Word) :=
  ((s.mem, s.core, s.fuses, s.boot, s.pending), fun r => if r.name ∈ ns then 0 else s.reg r)

theorem State.beyond_congr {ns : List RegName} {s t : State} (h : Still s t) (hr : ∀ r : Reg, r.name ∉ ns → t.reg r = s.reg r) :
    t.beyond ns = s.beyond ns := by
  obtain ⟨hmem, hcore, hfuses, hboot, hqueue⟩ := h
  unfold State.beyond
  rw [hmem, hcore, hfuses, hboot, hqueue]
  refine Prod.ext rfl (funext fun r => ?_)
  by_cases hn : r.name ∈ ns
  · simp [hn]
  · simp [hn, hr r hn]

theorem Still.trans {s t u : State} (h : Still s t) (g : Still t u) : Still s u := by
  obtain ⟨hmem, hcore, hfuses, hboot, hqueue⟩ := h
  obtain ⟨gmem, gcore, gfuses, gboot, gqueue⟩ := g
  exact ⟨gmem.trans hmem, gcore.trans hcore, gfuses.trans hfuses, gboot.trans hboot, gqueue.trans hqueue⟩

theorem still_of_beyond {ns : List RegName} {s t : State} (h : t.beyond ns = s.beyond ns) : Still s t := by
  have h1 := congrArg Prod.fst h
  simp only [State.beyond, Prod.mk.injEq] at h1
  exact h1

theorem keeps_of_beyond {ns : List RegName} {s t : State} (h : t.beyond ns = s.beyond ns) : Keeps ns s t := by
  obtain ⟨hmem, hcore, hfuses, -, hqueue⟩ := still_of_beyond h
  refine ⟨hmem, hcore, hfuses, hqueue, fun r hr => ?_⟩
  simpa [State.beyond, hr] using congrFun (congrArg Prod.snd h) r

theorem beyond_of_wires {ns : List RegName} {s t : State} (h : t.wires = s.wires) (hn : ∀ n ∈ packetRegs, n ∈ ns) :
    t.beyond ns = s.beyond ns := by
  have hs : t.wires.2 = s.wires.2 := congrArg Prod.snd h
  have hfuses : t.fuses = s.fuses := (congrArg State.fuses hs :)
  refine State.beyond_congr ⟨(congrArg State.mem hs :), (congrArg State.core hs :), hfuses, (congrArg State.boot hs :),
    (congrArg State.pending hs :)⟩ fun r hr => ?_
  have hkept : ∀ u : State, FMap.get u.wires.2.regs (r.resetValue u.fuses) r = u.reg r :=
    fun u => FMap.get_filter u.regs _ _ r (by simp [mt (hn r.name) hr])
  rw [← hkept t, ← hkept s, hs, hfuses]

theorem keeps_of_wires {s t : State} (h : t.wires = s.wires) : Keeps packetRegs s t := keeps_of_beyond (beyond_of_wires h fun _ hn => hn)

theorem engine_of_wires {s t : State} (h : t.wires = s.wires) (d i : Nat) : (t.link d i).engine = (s.link d i).engine :=
  congrFun (congrFun (congrArg Prod.fst h) d) i

section Beyond
variable (s : State) {ns : List RegName}

@[simp] theorem State.beyond_setReg {r : Reg} (v : Word) (h : r.name ∈ ns) : (s.setReg r v).beyond ns = s.beyond ns :=
  State.beyond_congr ⟨rfl, rfl, rfl, rfl, rfl⟩ fun _ hq => s.reg_setReg_ne v fun e => hq (e ▸ h)

@[simp] theorem State.beyond_setFld {r : Reg} (f : Field) (v : Nat) (h : r.name ∈ ns) : (s.setFld r f v).beyond ns = s.beyond ns :=
  s.beyond_setReg _ h

@[simp] theorem State.beyond_count {r : Reg} (f : Field) (n : Nat) (h : r.name ∈ ns) : (s.count r f n).beyond ns = s.beyond ns :=
  s.beyond_setReg _ h

@[simp] theorem State.beyond_setSat {r : Reg} (f : Field) (v : Nat) (h : r.name ∈ ns) : (s.setSat r f v).beyond ns = s.beyond ns :=
  s.beyond_setReg _ h

@[simp] theorem State.beyond_modLink (d i : Nat) (f : LinkSt → LinkSt) : (s.modLink d i f).beyond ns = s.beyond ns := rfl
@[simp] theorem State.beyond_modLane (f : LaneSt → LaneSt) : (s.modLane f).beyond ns = s.beyond ns := rfl
@[simp] theorem State.beyond_modFlt (f : FltSt → FltSt) : (s.modFlt f).beyond ns = s.beyond ns := rfl
@[simp] theorem State.beyond_modBufDie (d : Nat) (f : BufDie → BufDie) : (s.modBufDie d f).beyond ns = s.beyond ns := rfl
@[simp] theorem State.beyond_modDom (x : DomId) (f : DomSt → DomSt) : (s.modDom x f).beyond ns = s.beyond ns := rfl

@[simp] theorem beyond_ite (c : Prop) [Decidable c] (t : State) : (if c then s else t).beyond ns = if c then s.beyond ns else t.beyond ns :=
  apply_ite (State.beyond ns) ..

@[simp] theorem State.beyond_forAll {α : Type} {f : α → State → State} (h : ∀ a t, (f a t).beyond ns = t.beyond ns) (l : List α) :
    (s.forAll l f).beyond ns = s.beyond ns := s.forAll_keeps (State.beyond ns) f h l

@[simp] theorem beyond_foldl {α : Type} {f : State → α → State} (h : ∀ t a, (f t a).beyond ns = t.beyond ns) (l : List α) :
    (l.foldl f s).beyond ns = s.beyond ns := s.beyond_forAll (f := fun a t => f t a) (fun a t => h t a) l

@[simp] theorem raise_beyond (r : Reg) (f : Field) (h : r.name ∈ ns) : (raise r f s).beyond ns = s.beyond ns := by
  unfold raise
  rcases raiseFault_cases { reg := r, bit := f.lo } s with ⟨he, -⟩ | ⟨-, he⟩ <;> simp [he, h]

@[simp] theorem holdEq_beyond (d ll : Nat) (hr : .laneRxeq ∈ ns) (hd : .laneDfe ∈ ns) : (holdEq d ll s).beyond ns = s.beyond ns := by
  unfold holdEq; simp [hr, hd]

@[simp] theorem holdLanes_beyond (d pp : Nat) (hr : .laneRxeq ∈ ns) (hd : .laneDfe ∈ ns) :
    (holdLanes d pp s).beyond ns = s.beyond ns := by
  unfold holdLanes; simp [hr, hd]

@[simp] theorem setLinkState_beyond (d i v : Nat) (h : .linkStat ∈ ns) : (setLinkState d i v s).beyond ns = s.beyond ns := by
  unfold setLinkState; simp [h]

end Beyond

/-! ### The state code of a link (03 R104) -/

section LinkState
variable (s : State) (d i : Nat)

theorem State.linkState_setReg {r : Reg} (v : Word) (h : r.name ≠ .linkStat) : (s.setReg r v).linkState d i = s.linkState d i :=
  s.fld_setReg_ne _ v fun e => h (by rw [← e, lreg_name])

/-- A field below the state code leaves it. -/
theorem State.linkState_setFld (r : Reg) {f : Field} (v : Nat) (h : f.lo ≤ f.hi) (hf : f.hi < 28) :
    (s.setFld r f v).linkState d i = s.linkState d i := by
  unfold State.linkState
  by_cases hr : lreg .linkStat d i = r
  · rw [hr]
    exact s.fld_setFld_other r f LinkStat.STATE v h (by omega) (.inr hf)
  · exact s.fld_setFld_ne f LinkStat.STATE v hr

theorem setLinkState_linkState (e k v : Nat) (hv : v < 16) :
    (setLinkState e k v s).linkState d i = if d = e ∧ i = k then v else s.linkState d i := by
  unfold setLinkState State.linkState
  split
  · rename_i h
    obtain ⟨rfl, rfl⟩ := h
    rw [s.fld_setFld_same _ LinkStat.STATE v (by decide) (by decide)]
    exact Nat.mod_eq_of_lt hv
  · rename_i h
    exact s.fld_setFld_ne _ _ _ (by simpa [lreg] using h)

theorem setLinkState_linkState_same (v : Nat) (hv : v < 16) : (setLinkState d i v s).linkState d i = v := by
  rw [setLinkState_linkState s d i d i v hv, if_pos ⟨rfl, rfl⟩]

theorem linkState_of_keeps {ns : List RegName} {s t : State} (h : Keeps ns s t) (hn : .linkStat ∉ ns) : t.linkState d i = s.linkState d i :=
  h.fld _ _ (by simpa using hn)

theorem linkState_of_wires {s t : State} (h : t.wires = s.wires) : t.linkState d i = s.linkState d i :=
  linkState_of_keeps d i (keeps_of_wires h) (by decide)

end LinkState

/-! ### Which ports may train (03 R101) -/

/-- Whether a port may train depends on three registers, the lane map, what stands of the faults, and its own hold. -/
theorem State.mayTrain_congr {s t : State} {d pp : Nat} {ns : List RegName} (hk : Keeps ns s t)
    (hn : .linkCfg ∉ ns ∧ .fltCase0 ∉ ns ∧ .partDieState ∉ ns) (hlive : t.lane.live = s.lane.live) (hflt : t.flt.standing = s.flt.standing)
    (hhold : (t.link d pp).diagHold = (s.link d pp).diagHold) : t.mayTrain d pp = s.mayTrain d pp := by
  obtain ⟨hcfg, hcase, hdie⟩ := hn
  have hlanes : t.hasLanes = s.hasLanes := by
    funext g
    unfold State.hasLanes State.lanesOf State.lanePorts State.quad
    rw [hlive]
  simp only [FltSt.standing, FltSt.mk.injEq] at hflt
  obtain ⟨-, hcases, -, hdpc, -, hpart, -, -, -, -, -, -, hrejoin, -⟩ := hflt
  have hcont : t.portContained (gport d pp) = s.portContained (gport d pp) := by
    have hfld : ∀ (k : Nat × Nat) f, t.fld { name := .fltCase0, die := k.1, i := k.2 } f = s.fld { name := .fltCase0, die := k.1, i := k.2 } f :=
      fun k f => hk.fld _ f hcase
    unfold State.portContained
    simp only [hcases, hdpc, hfld]
  unfold State.mayTrain
  rw [hk.fld _ _ (by simpa using hcfg), hlanes, hhold, hcont, hpart, hrejoin, hk.active hdie]

section MayTrain
variable (s : State) (d pp : Nat)

/-- The registers on which it rests. -/
def trainTerms : List RegName := [.linkCfg, .fltCase0, .partDieState]

theorem State.mayTrain_setReg {r : Reg} (v : Word) (h : r.name ∉ trainTerms) : (s.setReg r v).mayTrain d pp = s.mayTrain d pp := by
  refine State.mayTrain_congr (keeps_setReg s r v) ?_ rfl rfl rfl
  simpa [trainTerms, eq_comm, not_or] using h

theorem State.mayTrain_setFld {r : Reg} (f : Field) (v : Nat) (h : r.name ∉ trainTerms) : (s.setFld r f v).mayTrain d pp = s.mayTrain d pp :=
  s.mayTrain_setReg d pp _ h

theorem State.mayTrain_modLink (e k : Nat) {f : LinkSt → LinkSt} (h : (f (s.link e k)).diagHold = (s.link e k).diagHold) :
    (s.modLink e k f).mayTrain d pp = s.mayTrain d pp := by
  refine State.mayTrain_congr (Keeps.of_eq (s := s) rfl rfl rfl rfl rfl) ⟨by simp, by simp, by simp⟩ rfl rfl ?_
  rw [State.link_modLink]
  split
  · rename_i he; obtain ⟨rfl, rfl⟩ := he; exact h
  · rfl

theorem State.mayTrain_modLane {f : LaneSt → LaneSt} (h : (f s.lane).live = s.lane.live) : (s.modLane f).mayTrain d pp = s.mayTrain d pp :=
  State.mayTrain_congr (keeps_modLane s f) ⟨by simp, by simp, by simp⟩ h rfl rfl

theorem raise_mayTrain {r : Reg} (f : Field) (h : r.name ∉ trainTerms) : (raise r f s).mayTrain d pp = s.mayTrain d pp := by
  have hn : RegName.linkCfg ∉ [r.name] ∧ RegName.fltCase0 ∉ [r.name] ∧ RegName.partDieState ∉ [r.name] := by
    simpa [trainTerms, eq_comm, not_or] using h
  refine State.mayTrain_congr (keeps_raise r f s) hn ?_ ?_ ?_ <;> unfold raise <;>
    rcases raiseFault_cases { reg := r, bit := f.lo } s with ⟨he, -⟩ | ⟨-, he⟩ <;> rw [he] <;> rfl

theorem State.mayTrain_forAll {α : Type} {f : α → State → State} (h : ∀ a t, (f a t).mayTrain d pp = t.mayTrain d pp) (l : List α) :
    (s.forAll l f).mayTrain d pp = s.mayTrain d pp := s.forAll_keeps (fun t => t.mayTrain d pp) f h l

theorem mayTrain_of_wires {s t : State} (h : t.wires = s.wires) : t.mayTrain d pp = s.mayTrain d pp := by
  have hs : t.wires.2 = s.wires.2 := congrArg Prod.snd h
  exact State.mayTrain_congr (keeps_of_wires h) (by decide) (congrArg (fun u => u.lane.live) hs :) (congrArg State.flt hs :)
    (congrArg LinkSt.diagHold (engine_of_wires h d pp) :)

/-- A port that may train is on a die in service, has lanes, and is enabled. -/
theorem State.mayTrain_active {s : State} {d pp : Nat} (h : s.mayTrain d pp = true) : s.active d = true := by
  simp only [State.mayTrain, Bool.and_eq_true] at h
  exact h.1.2

theorem State.mayTrain_lanes {s : State} {d pp : Nat} (hpp : pp < 16) (h : s.mayTrain d pp = true) : s.lanesOf d pp ≠ [] := by
  have hd : pdie (gport d pp) = d := by unfold pdie gport; omega
  have hn : pnum (gport d pp) = pp := by unfold pnum gport; omega
  simp only [State.mayTrain, Bool.and_eq_true] at h
  obtain ⟨⟨⟨⟨⟨⟨-, hl⟩, -⟩, -⟩, -⟩, -⟩, -⟩ := h
  simpa [State.hasLanes, hd, hn] using hl

end MayTrain

end Sys2Proof.Machine
end

section
/-! SUPPORT. The ends of a retrain verdict and of a peg, packets cut short, and links that go down: their registers, their buffers, and the
DETECT that follows (03 R97, R98). -/

namespace Sys2Proof.Machine

/-! ### A loop over lanes, the end of a verdict -/

section Steps
variable (s : State) (d pp e k : Nat)

theorem holdEq_links (ll : Nat) : (holdEq d ll s).links = s.links := by unfold holdEq; split <;> rfl

theorem holdLanes_links : (holdLanes d pp s).links = s.links := s.forAll_keeps State.links _ (fun ll t => holdEq_links t d ll) _

theorem holdLanes_mayTrain : (holdLanes d pp s).mayTrain e k = s.mayTrain e k := by
  refine s.mayTrain_forAll e k (fun ll t => ?_) _
  unfold holdEq
  split
  · rw [State.mayTrain_setReg _ _ _ _ (by simp [trainTerms]), State.mayTrain_setReg _ _ _ _ (by simp [trainTerms])]
  · rfl

theorem endRetrainInstance_mayTrain : (endRetrainInstance d pp s).mayTrain e k = s.mayTrain e k := by
  unfold endRetrainInstance
  rw [State.mayTrain_modLink _ _ _ _ _ rfl, State.mayTrain_setFld _ _ _ _ _ (by simp [trainTerms])]

/-- The turn of a lane when the peg of its port is abandoned. -/
def endPegLane (d st ll : Nat) (t : State) : State :=
  let r : Reg := { name := .lanePeg, die := d, i := ll }
  let x := t.fld r LanePeg.STATE
  (if 1 ≤ x ∧ x ≤ 4 then t.setFld r LanePeg.STATE st else t).setFld r LanePeg.TAG 0

theorem endPeg_eq (st : Nat) : endPeg d pp st s =
    ((s.forAll (s.lanesOf d pp) (endPegLane d st)).modLane fun l => { l with pegMode := l.pegMode.erase (gport d pp) }).modLink d pp
      fun l => { l with pegRate := 0 } := rfl

theorem endPeg_beyond {ns : List RegName} (st : Nat) (h : .lanePeg ∈ ns) : (endPeg d pp st s).beyond ns = s.beyond ns := by
  rw [endPeg_eq, State.beyond_modLink, State.beyond_modLane, State.beyond_forAll]
  intro ll t
  unfold endPegLane
  simp [h]

theorem endPeg_link (st : Nat) : (endPeg d pp st s).link d pp = { s.link d pp with pegRate := 0 } := by
  have hlinks : (s.forAll (s.lanesOf d pp) (endPegLane d st)).links = s.links :=
    s.forAll_keeps State.links _ (fun ll t => by unfold endPegLane; dsimp only; split <;> rfl) _
  rw [endPeg_eq, State.link_modLink_same]
  unfold State.link
  rw [State.modLane_links, hlinks]

theorem endPeg_mayTrain (st : Nat) : (endPeg d pp st s).mayTrain e k = s.mayTrain e k := by
  rw [endPeg_eq, State.mayTrain_modLink _ _ _ _ _ rfl, State.mayTrain_modLane _ _ _ rfl, State.mayTrain_forAll]
  intro ll t
  unfold endPegLane
  rw [State.mayTrain_setFld _ _ _ _ _ (by simp [trainTerms])]
  split
  · exact State.mayTrain_setFld _ _ _ _ _ (by simp [trainTerms])
  · rfl

end Steps

/-! ### Partial packets -/

theorem FMap.get_map {κ α β : Type} [DecidableEq κ] (m : FMap κ α) (f : α → β) (x : α) (k : κ) :
    FMap.get (m.map fun y => (y.1, f y.2)) (f x) k = f (m.get x k) := by
  induction m with
  | nil => rfl
  | cons y m ih =>
    by_cases h : y.1 = k <;> simp [FMap.get, h, ih]

/-- An engine that holds no packet of PCIe has none to nullify. -/
theorem LinkSt.nullify_empty {l : LinkSt} (g : Nat) (h : l.replay = []) : l.nullify g = l := by
  cases l
  simp only at h
  subst h
  rfl

theorem State.link_congr {s t : State} (h : t.links = s.links) (d i : Nat) : t.link d i = s.link d i := by unfold State.link; rw [h]

theorem raise_links (r : Reg) (f : Field) (s : State) : (raise r f s).links = s.links := by
  unfold raise
  rcases raiseFault_cases { reg := r, bit := f.lo } s with ⟨he, -⟩ | ⟨-, he⟩ <;> simp [he]

/-- The state with every packet nullified that a link engine has begun and that port `g` no longer receives. -/
def State.nullified (g : Nat) (s : State) : State := { s with links := s.links.map fun x => (x.1, x.2.nullify g) }

theorem State.link_nullified (g d i : Nat) (s : State) : (s.nullified g).link d i = (s.link d i).nullify g :=
  FMap.get_map s.links (fun l => l.nullify g) {} (d, i)

/-- Beside packets and a fault source, an abort nullifies what the link engines have begun. -/
theorem abortPartial_cases (g : Nat) (s : State) : ∃ u v : State, u.wires = s.wires ∧ v.wires = (u.nullified g).wires ∧
    (abortPartial g s = v ∨ abortPartial g s = raise (preg .fretErr g) FretErr.CTABORT v) := by
  unfold abortPartial
  extract_lets d c parts early gone slots s1 s2 s3 s4 s5
  have h4 : s4 = s3.nullified g := rfl
  refine ⟨s3, s5, by simp [s3, s2, s1], by simp [s5, h4], ?_⟩
  split
  · exact .inr rfl
  · exact .inl rfl

section Abort
variable {g d i : Nat} {s : State}

theorem abortPartial_beyond {ns : List RegName} (hn : ∀ n ∈ packetRegs, n ∈ ns) (hf : .fretErr ∈ ns) :
    (abortPartial g s).beyond ns = s.beyond ns := by
  obtain ⟨u, v, hu, hv, habort⟩ := abortPartial_cases g s
  have hvs : v.beyond ns = s.beyond ns := (beyond_of_wires hv hn).trans (beyond_of_wires (s := s) hu hn :)
  rcases habort with he | he <;> simp [he, hf, hvs]

variable (h : (s.link d i).replay = [])
include h

/-- An engine that holds no packet of PCIe keeps its transport. -/
theorem abortPartial_engine : ((abortPartial g s).link d i).engine = (s.link d i).engine := by
  obtain ⟨u, v, hu, hv, habort⟩ := abortPartial_cases g s
  have hue := engine_of_wires hu d i
  have hempty : (u.link d i).replay = [] := (congrArg LinkSt.replay hue :).trans h
  have hve : (v.link d i).engine = (s.link d i).engine := by
    rw [engine_of_wires hv d i, State.link_nullified, LinkSt.nullify_empty g hempty, hue]
  rcases habort with he | he
  · rw [he, hve]
  · rw [he, State.link_congr (raise_links _ _ v) d i, hve]

theorem abortPartial_mayTrain : (abortPartial g s).mayTrain d i = s.mayTrain d i := by
  obtain ⟨u, v, hu, hv, habort⟩ := abortPartial_cases g s
  have hempty : (u.link d i).replay = [] := (congrArg LinkSt.replay (engine_of_wires hu d i) :).trans h
  have hvs : v.mayTrain d i = s.mayTrain d i := by
    rw [mayTrain_of_wires d i hv, ← mayTrain_of_wires d i hu]
    refine State.mayTrain_congr (Keeps.of_eq (s := u) rfl rfl rfl rfl rfl) ⟨by simp, by simp, by simp⟩ rfl rfl ?_
    rw [State.link_nullified, LinkSt.nullify_empty g hempty]
  rcases habort with he | he
  · rw [he, hvs]
  · rw [he, raise_mayTrain v d i _ (by simp [trainTerms]), hvs]

end Abort

/-! ### A link that falls -/

section Fall
variable (s : State) (d pp : Nat)

/-- The registers that a port's link writes as it goes down, up to its fault source. -/
def linkRegs : List RegName :=
  [.laneRxeq, .laneDfe, .lanePeg, .linkStat, .linkErr, .linkRtv, .linkLanes, .fretErr] ++ packetRegs

@[simp] theorem mem_linkRegs : RegName.laneRxeq ∈ linkRegs ∧ RegName.laneDfe ∈ linkRegs ∧ RegName.lanePeg ∈ linkRegs ∧
    RegName.linkStat ∈ linkRegs ∧ RegName.linkErr ∈ linkRegs ∧ RegName.linkRtv ∈ linkRegs ∧ RegName.linkLanes ∈ linkRegs ∧
    RegName.fretErr ∈ linkRegs := by decide

theorem packetRegs_subset_linkRegs : ∀ n ∈ packetRegs, n ∈ linkRegs := fun _ h => List.mem_append_right _ h

/-- Whether an engine holds nothing to send again. -/
def LinkSt.Empty (l : LinkSt) : Prop := l.held = [] ∧ l.replay = []

theorem LinkSt.fresh_empty (l : LinkSt) : l.fresh.Empty := ⟨rfl, rfl⟩

theorem LinkSt.empty_of_engine {l m : LinkSt} (h : l.engine = m.engine) (hm : m.Empty) : l.Empty :=
  ⟨(congrArg LinkSt.held h).trans hm.1, (congrArg LinkSt.replay h).trans hm.2⟩

theorem endPeg_empty (st : Nat) (h : (s.link d pp).Empty) : ((endPeg d pp st s).link d pp).Empty := by
  rw [endPeg_link]
  exact ⟨h.1, h.2⟩

theorem endRetrainInstance_link : (endRetrainInstance d pp s).link d pp = { s.link d pp with rtvMode := 0 } := by
  unfold endRetrainInstance
  rw [State.link_modLink_same]
  rfl

theorem endRetrainInstance_tag : (endRetrainInstance d pp s).fld (lreg .linkRtv d pp) LinkRtv.TAG = 0 := by
  show (s.setFld _ _ 0).fld _ _ = 0
  rw [s.fld_setFld_same _ LinkRtv.TAG 0 (by decide) (by decide)]
  rfl

theorem endRetrainInstance_empty (h : (s.link d pp).Empty) : ((endRetrainInstance d pp s).link d pp).Empty := by
  rw [endRetrainInstance_link]
  exact ⟨h.1, h.2⟩

/-- What a port shows after its link fell, before its grace period. -/
structure Fell (s u : State) : Prop where
  beyond : u.beyond linkRegs = s.beyond linkRegs
  state : u.linkState d pp = 7
  empty : (u.link d pp).Empty
  tag : u.fld (lreg .linkRtv d pp) LinkRtv.TAG = 0
  mayTrain : u.mayTrain d pp = s.mayTrain d pp

theorem foldl_modQueue_wires (g : Nat) (l : List Pkt) :
    (l.foldl (fun t p => t.modQueue g p.queue fun q => p :: q) s).wires = s.wires := wires_foldl (fun t _ => t.wires_modQueue _ _ _) l s

/-- A link that goes down falls, and then its grace period starts; one that went down by itself sets DOWN and enters DETECT where it may. -/
theorem linkDown_falls (own : Bool) : ∃ u, Fell d pp s u ∧ linkDown d pp own s =
    if own then startGrace d pp (slotStatus (gport d pp) slotLinkState u)
    else enterDetect d pp false (startGrace d pp (slotStatus (gport d pp) slotLinkState (raise (lreg .linkErr d pp) LinkErr.DOWN u))) := by
  unfold linkDown
  extract_lets g s0 back s1 s2 s3 r s4 s5 s6
  have hb1 : s1.beyond linkRegs = s.beyond linkRegs := by simp [s1, s0]
  have hm1 : s1.mayTrain d pp = s.mayTrain d pp := by
    simp only [s1]
    rw [State.mayTrain_modLink _ _ _ _ _ (by rfl), holdLanes_mayTrain]
  have h1 : (s1.link d pp).Empty := by
    simp only [s1, State.link_modLink_same]
    exact (s0.link d pp).fresh_empty
  clear_value s1
  have hw2 : s2.wires = s1.wires := foldl_modQueue_wires s1 g back.reverse
  have h2 : (s2.link d pp).Empty := LinkSt.empty_of_engine (engine_of_wires hw2 d pp) h1
  clear_value s2
  have hb3 : s3.beyond linkRegs = s2.beyond linkRegs := by
    simp [s3, endPeg_beyond, endRetrainInstance, abortPartial_beyond packetRegs_subset_linkRegs]
  have hm3 : s3.mayTrain d pp = s2.mayTrain d pp := by
    simp only [s3]
    rw [endPeg_mayTrain, endRetrainInstance_mayTrain, abortPartial_mayTrain h2.2]
  have h3 : (s3.link d pp).Empty :=
    endPeg_empty _ d pp 6 (endRetrainInstance_empty _ d pp (LinkSt.empty_of_engine (abortPartial_engine (g := g) h2.2) h2))
  have ht3 : s3.fld (lreg .linkRtv d pp) LinkRtv.TAG = 0 := by
    simp only [s3]
    rw [(keeps_of_beyond (ns := [.lanePeg]) (endPeg_beyond _ d pp 6 (by simp))).fld _ _ (by simp), endRetrainInstance_tag]
  clear_value s3
  have hb5 : s5.beyond linkRegs = s3.beyond linkRegs := by simp [s5, s4, r]
  have hm5 : s5.mayTrain d pp = s3.mayTrain d pp := by
    simp only [s5, s4, setLinkState, r]
    rw [State.mayTrain_setReg _ _ _ _ (by simp [trainTerms])]
    simp only [State.mayTrain_setFld _ _ _ _ _ (show (lreg .linkStat d pp).name ∉ trainTerms by simp [trainTerms])]
  have hs5 : s5.linkState d pp = 7 := by
    simp only [s5]
    rw [State.linkState_setReg _ _ _ _ (by simp), setLinkState_linkState_same _ _ _ _ (by decide)]
  have h5 : (s5.link d pp).Empty := h3
  have ht5 : s5.fld (lreg .linkRtv d pp) LinkRtv.TAG = 0 := by
    rw [(keeps_of_beyond (ns := [.linkStat, .linkLanes]) (s := s3) (by simp [s5, s4, r])).fld _ _ (by simp), ht3]
  clear_value s5
  have hw6 : s6.wires = s5.wires := by
    cases hface : s5.upFace g with
    | none => simp only [s6, hface]
    | some x => simp only [s6, hface]; exact faceReset_wires _ _ _
  refine ⟨s6, ⟨?_, ?_, LinkSt.empty_of_engine (engine_of_wires hw6 d pp) h5, ?_, ?_⟩, rfl⟩
  · rw [beyond_of_wires hw6 packetRegs_subset_linkRegs, hb5, hb3, beyond_of_wires hw2 packetRegs_subset_linkRegs, hb1]
  · rw [linkState_of_wires d pp hw6, hs5]
  · rw [(keeps_of_wires hw6).fld _ _ (by rw [lreg_name]; decide), ht5]
  · rw [mayTrain_of_wires d pp hw6, hm5, hm3, mayTrain_of_wires d pp hw2, hm1]

end Fall

/-! ### Grace (03 R98) -/

section Grace
variable (s : State) (d pp : Nat)

theorem startGrace_beyond {ns : List RegName} (hn : ∀ n ∈ packetRegs, n ∈ ns) (h : .linkStat ∈ ns) :
    (startGrace d pp s).beyond ns = s.beyond ns := by
  unfold startGrace
  extract_lets s1 held
  rw [beyond_ite, beyond_of_wires (flushPort_wires _ _) hn]
  simp [s1, h]

/-- The start of a grace period leaves the state code, the hold of DIAGNOSTIC, and the transport. -/
theorem startGrace_port : (startGrace d pp s).linkState d pp = s.linkState d pp ∧ (startGrace d pp s).mayTrain d pp = s.mayTrain d pp ∧
    ((s.link d pp).Empty → ((startGrace d pp s).link d pp).Empty) := by
  have hmay : ∀ (t : State) v, (t.setFld (lreg .linkStat d pp) LinkStat.HELD v).mayTrain d pp = t.mayTrain d pp :=
    fun t v => t.mayTrain_setFld d pp _ v (by simp [trainTerms])
  have hstate : ∀ (t : State) v, (t.setFld (lreg .linkStat d pp) LinkStat.HELD v).linkState d pp = t.linkState d pp :=
    fun t v => t.linkState_setFld d pp _ v (by decide) (by decide)
  unfold startGrace
  extract_lets s1 held
  have hs1 : s1.linkState d pp = s.linkState d pp := rfl
  have hm1 : s1.mayTrain d pp = s.mayTrain d pp := s.mayTrain_modLink _ _ _ _ rfl
  have he1 : (s.link d pp).Empty → (s1.link d pp).Empty := fun h => by simp only [s1, State.link_modLink_same]; exact ⟨h.1, h.2⟩
  clear_value s1
  split
  · exact ⟨(hstate _ _).trans hs1, (hmay _ _).trans hm1, he1⟩
  · have hw := flushPort_wires (gport d pp) (s1.setFld (lreg .linkStat d pp) LinkStat.HELD 0)
    rw [linkState_of_wires d pp hw, mayTrain_of_wires d pp hw, hstate, hmay]
    exact ⟨hs1, hm1, fun h => LinkSt.empty_of_engine (engine_of_wires hw d pp) (he1 h)⟩

theorem graceExpire_reads (h : (s.link d pp).grace = true) : let t := graceExpire d pp s
    (t.link d pp).grace = false ∧ t.fld (lreg .linkStat d pp) LinkStat.HELD = 0 ∧ Still s t := by
  intro t
  let u := (s.modLink d pp fun l => { l with grace := false }).setFld (lreg .linkStat d pp) LinkStat.HELD 0
  have ht : t.wires = u.wires := by
    have he : t = flushPort (gport d pp) u := if_pos h
    rw [he]; exact flushPort_wires _ _
  have hu : (u.link d pp).grace = false := by
    have hlink : u.link d pp = (s.modLink d pp fun l => { l with grace := false }).link d pp := State.link_congr rfl d pp
    rw [hlink, State.link_modLink_same]
  refine ⟨(congrArg LinkSt.grace (engine_of_wires ht d pp)).trans hu, ?_, still_of_beyond (ns := linkRegs) ?_⟩
  · rw [(keeps_of_wires ht).fld _ _ (by rw [lreg_name]; decide)]
    exact State.fld_setFld_same _ _ LinkStat.HELD 0 (by decide) (by decide)
  · rw [beyond_of_wires ht packetRegs_subset_linkRegs]
    simp [u]

end Grace

/-! ### A link that goes down (03 R98, R100) -/

section Down
variable (s : State) (d pp : Nat)

theorem slotStatus_beyond {ns : List RegName} (g b : Nat) (hn : ∀ n ∈ packetRegs, n ∈ ns) : (slotStatus g b s).beyond ns = s.beyond ns :=
  beyond_of_wires (slotStatus_wires g b s) hn

theorem enterDetect_retrain_beyond {ns : List RegName} (h : .linkStat ∈ ns) : (enterDetect d pp false s).beyond ns = s.beyond ns := by
  unfold enterDetect
  simp [h]

theorem linkDown_beyond (own : Bool) : (linkDown d pp own s).beyond linkRegs = s.beyond linkRegs := by
  obtain ⟨u, hu, he⟩ := linkDown_falls s d pp own
  have hgrace := fun t : State => startGrace_beyond t d pp packetRegs_subset_linkRegs (by simp)
  have hslot := fun t : State => slotStatus_beyond t (gport d pp) slotLinkState packetRegs_subset_linkRegs
  rw [he]
  cases own <;> simp [enterDetect_retrain_beyond, hgrace, hslot, hu.beyond]

/-- A link that goes down by itself: its buffers are empty, no verdict is awaited, and it is in DETECT where it may train. -/
theorem linkDown_self : let t := linkDown d pp false s
    t.linkState d pp = (if s.mayTrain d pp then 1 else 7) ∧ (t.link d pp).Empty ∧ t.fld (lreg .linkRtv d pp) LinkRtv.TAG = 0 ∧
      (s.active d = true → t.fld (lreg .linkErr d pp) LinkErr.DOWN = 1) := by
  intro t
  obtain ⟨u, hu, he⟩ := linkDown_falls s d pp false
  let u1 := raise (lreg .linkErr d pp) LinkErr.DOWN u
  let u2 := slotStatus (gport d pp) slotLinkState u1
  let u3 := startGrace d pp u2
  have ht : t = if u3.mayTrain d pp then setLinkState d pp 1 u3 else u3 := he
  have hw2 : u2.wires = u1.wires := slotStatus_wires _ _ u1
  obtain ⟨hs3, hm3, he3⟩ := startGrace_port u2 d pp
  have hk : Keeps (.linkStat :: packetRegs) u1 t := by
    refine keeps_of_beyond ?_
    rw [ht, beyond_ite, setLinkState_beyond _ _ _ _ (by simp), ite_self, startGrace_beyond u2 d pp (by simp +contextual) (by simp),
      slotStatus_beyond u1 _ _ (by simp +contextual)]
  have hmay : u3.mayTrain d pp = s.mayTrain d pp := by
    rw [hm3, mayTrain_of_wires d pp hw2, raise_mayTrain _ _ _ _ (by simp [trainTerms]), hu.mayTrain]
  have hstate : u3.linkState d pp = 7 := by
    rw [hs3, linkState_of_wires d pp hw2, linkState_of_keeps d pp (keeps_raise _ _ u) (by simp), hu.state]
  have hempty : (u3.link d pp).Empty := by
    refine he3 (LinkSt.empty_of_engine (engine_of_wires hw2 d pp) ?_)
    rw [State.link_congr (raise_links _ _ u)]
    exact hu.empty
  refine ⟨?_, ?_, ?_, fun ha => ?_⟩
  · rw [ht, hmay]
    split
    · exact setLinkState_linkState_same u3 d pp 1 (by decide)
    · exact hstate
  · rw [ht]
    split
    · exact hempty
    · exact hempty
  · rw [hk.fld _ _ (by rw [lreg_name]; decide), (keeps_raise _ _ u).fld _ _ (by simp), hu.tag]
  · rw [hk.fld _ _ (by rw [lreg_name]; decide)]
    refine fld_raise _ _ u ?_ rfl (by decide)
    rw [(keeps_of_beyond hu.beyond).active (by decide)]
    exact ha

theorem stopTraining_beyond {ns : List RegName} (hs : .linkStat ∈ ns) (hp : .lanePeg ∈ ns) : (stopTraining d pp s).beyond ns = s.beyond ns := by
  unfold stopTraining
  rw [endPeg_beyond _ _ _ _ hp]
  simp [hs]

theorem stopTraining_mayTrain (e k : Nat) : (stopTraining d pp s).mayTrain e k = s.mayTrain e k := by
  unfold stopTraining setLinkState
  rw [endPeg_mayTrain, State.mayTrain_setFld _ _ _ _ _ (by simp [trainTerms]), State.mayTrain_setFld _ _ _ _ _ (by simp [trainTerms])]

theorem takeDown_beyond : (takeDown d pp s).beyond linkRegs = s.beyond linkRegs := by
  unfold takeDown
  simp [linkDown_beyond, stopTraining_beyond]

end Down

end Sys2Proof.Machine
end

section
/-! SUPPORT. Span links that go down, retrain verdicts, and writes of LINK.CFG: what each leaves (03 R96, R98, R100, R103). -/

namespace Sys2Proof.Machine

/-! ### Span links (03 R100) -/

section Span
variable (s : State) {ns : List RegName}

@[simp] theorem pumpLink_beyond (d i : Nat) : (pumpLink d i s).beyond ns = s.beyond ns := by unfold pumpLink; simp

theorem sendCross_beyond (d : Nat) (p : Pkt) : (sendCross d p s).beyond ns = s.beyond ns := by
  unfold sendCross sendFlits queueFlits updateXoff noteVia
  simp

theorem spanEndDown_beyond (a b : Nat) (he : .linkErr ∈ ns) (hs : .linkStat ∈ ns) : (spanEndDown a b s).beyond ns = s.beyond ns := by
  unfold spanEndDown
  simp [sendCross_beyond, he, hs]

theorem spanEndDown_linkState (a b d i : Nat) :
    (spanEndDown a b s).linkState d i = if d = a ∧ i = 16 + b then 7 else s.linkState d i := by
  unfold spanEndDown
  extract_lets l back s1 s2
  have hloop : (s2.forAll (back.filter fun p => s2.active (pdie p.egress)) (sendCross a)).beyond [] = s2.beyond [] :=
    s2.beyond_forAll (fun p t => sendCross_beyond t a p) _
  rw [linkState_of_keeps d i (keeps_of_beyond hloop) (by simp)]
  simp only [s2]
  rw [State.linkState_setFld _ _ _ _ _ (by decide) (by decide), setLinkState_linkState _ _ _ _ _ _ (by decide),
    linkState_of_keeps d i (keeps_raise _ _ s1) (by simp)]
  rfl

/-- A span link goes down at both its ends. -/
theorem spanDown_reads {d e : Nat} : let t := spanDown d e s
    t.linkState d (16 + e) = 7 ∧ t.linkState e (16 + d) = 7 ∧ Still s t := by
  intro t
  refine ⟨?_, ?_, still_of_beyond (ns := linkRegs) ?_⟩
  · simp [t, spanDown, spanEndDown_linkState]
  · simp [t, spanDown, spanEndDown_linkState]
  · simp [t, spanDown, spanEndDown_beyond, setSpanState]

end Span

/-! ### Retrain verdicts (03 R96) -/

section Verdicts
variable (s : State) (d pp : Nat)

@[simp] theorem endRetrainInstance_beyond {ns : List RegName} (h : .linkRtv ∈ ns) :
    (endRetrainInstance d pp s).beyond ns = s.beyond ns := by
  unfold endRetrainInstance; simp [h]

theorem endRetrainInstance_linkState : (endRetrainInstance d pp s).linkState d pp = s.linkState d pp :=
  linkState_of_keeps d pp (keeps_of_beyond (endRetrainInstance_beyond (ns := [.linkRtv]) s d pp (by simp))) (by simp)

/-- A hart that names the waiting tag may answer. -/
theorem retrainVerdict_hart {s : State} {d pp tag : Nat} (h : Nat) {ok : Bool} (apply : State → State) (ht : tag ≠ 0)
    (hw : s.fld (lreg .linkRtv d pp) LinkRtv.TAG = tag) (hok : ok = true) :
    retrainVerdict (.hart d h) d pp tag ok apply s = apply (endRetrainInstance d pp s) := if_pos ⟨ht, hw, rfl, hok⟩

theorem retrain_port {i : Nat} (hi : i < 16) : retrain d i s = retrainEnd d i s := if_pos hi

@[simp] theorem retrainEnd_beyond {ns : List RegName} (hx : .laneRxeq ∈ ns) (hd : .laneDfe ∈ ns) (hs : .linkStat ∈ ns) (he : .linkErr ∈ ns) :
    (retrainEnd d pp s).beyond ns = s.beyond ns := by
  unfold retrainEnd
  simp [hx, hd, hs, he]

theorem retrainEnd_linkState : (retrainEnd d pp s).linkState d pp = 4 := setLinkState_linkState_same _ _ _ _ (by decide)

theorem retrainEnd_link (e k : Nat) : (retrainEnd d pp s).link e k = s.link e k := by
  refine State.link_congr ?_ e k
  unfold retrainEnd setLinkState
  rw [State.setFld_links, raise_links, State.count_links, holdLanes_links]

/-- KEEP: nothing else is written, and the replay counts restart with the end of the retrain, or at once. -/
theorem keep_reads : let u := endRetrainInstance d pp s
    let t := u.modLink d pp fun l => if u.linkState d pp = 4 then { l with restartCounts := true } else l.restarted
    t.beyond [.linkRtv] = s.beyond [.linkRtv] ∧ t.fld (lreg .linkRtv d pp) LinkRtv.TAG = 0 ∧
      (s.linkState d pp = 4 → (t.link d pp).restartCounts = true) ∧ (s.linkState d pp ≠ 4 → ∀ x ∈ (t.link d pp).held, x.replays = 0) := by
  intro u t
  have hstate : u.linkState d pp = s.linkState d pp := endRetrainInstance_linkState s d pp
  refine ⟨by simp [t, u], endRetrainInstance_tag s d pp, fun h => ?_, fun h => ?_⟩
  · simp only [t, State.link_modLink_same, hstate, if_pos h]
  · simp only [t, State.link_modLink_same, hstate, if_neg h, LinkSt.restarted, List.mem_map, forall_exists_index, and_imp]
    rintro x y - rfl
    rfl

/-- STEPDOWN: the link retrains toward the rate code below. -/
theorem stepdown_reads (hpp : pp < 16) : let u := endRetrainInstance d pp s
    let t := (retrain d pp u).modLink d pp fun l =>
      { l with restartCounts := true, stepRate := some (u.fld (lreg .linkStat d pp) LinkStat.RATE - 1) }
    t.fld (lreg .linkRtv d pp) LinkRtv.TAG = 0 ∧ Still s t ∧ t.linkState d pp = 4 ∧
      (t.link d pp).stepRate = some (s.fld (lreg .linkStat d pp) LinkStat.RATE - 1) := by
  intro u t
  have hk := keeps_of_beyond (retrainEnd_beyond (ns := [.laneRxeq, .laneDfe, .linkStat, .linkErr]) u d pp (by simp) (by simp) (by simp) (by simp))
  have hrate : u.fld (lreg .linkStat d pp) LinkStat.RATE = s.fld (lreg .linkStat d pp) LinkStat.RATE :=
    (keeps_of_beyond (endRetrainInstance_beyond (ns := [.linkRtv]) s d pp (by simp))).fld _ _ (by simp)
  have ht : t = (retrainEnd d pp u).modLink d pp fun l =>
      { l with restartCounts := true, stepRate := some (u.fld (lreg .linkStat d pp) LinkStat.RATE - 1) } := by
    simp only [t, retrain_port u d hpp]
  rw [ht]
  refine ⟨?_, still_of_beyond (ns := linkRegs) (by simp [u]), ?_, ?_⟩
  · exact (hk.fld _ _ (by simp)).trans (endRetrainInstance_tag s d pp)
  · exact retrainEnd_linkState u d pp
  · rw [State.link_modLink_same, hrate]

end Verdicts

/-! ### LINK.CFG (03 R103) -/

/-! ### Fields of a written word -/

/-- Two fields of a register that share no bit. -/
abbrev Field.Apart (f g : Field) : Prop := f.hi < g.lo ∨ g.hi < f.lo

/-- A field of a 64-bit register. -/
abbrev Field.Fits (f : Field) : Prop := f.lo ≤ f.hi ∧ f.hi < 64

/-- The state with some fields of a register stored as a written word gives them. -/
def State.storeFlds (s : State) (r : Reg) (v : Word) (fs : List Field) : State := fs.foldl (fun t f => t.setFld r f (f.of v)) s

section Fields
variable (s : State) (r : Reg) (v : Word)

/-- A field set to a value that it holds reads as that value. -/
theorem State.fld_setFld_fits {f : Field} {n : Nat} (hf : f.Fits) (hn : n ≤ f.of v) : (s.setFld r f n).fld r f = n := by
  rw [s.fld_setFld_same r f n hf.1 hf.2]
  exact Nat.mod_eq_of_lt (lt_of_le_of_lt hn (getBits_lt v _ _))

theorem State.fld_setFld_apart {f g : Field} (n : Nat) (hf : f.Fits) (h : f.Apart g) : (s.setFld r f n).fld r g = s.fld r g :=
  s.fld_setFld_other r f g n hf.1 hf.2 h.symm

theorem State.fld_storeFlds_apart {fs : List Field} {g : Field} (hf : ∀ f ∈ fs, f.Fits) (h : ∀ f ∈ fs, f.Apart g) :
    (s.storeFlds r v fs).fld r g = s.fld r g := by
  induction fs generalizing s with
  | nil => rfl
  | cons f fs ih =>
    exact (ih _ (fun x hx => hf x (.tail _ hx)) fun x hx => h x (.tail _ hx)).trans
      (s.fld_setFld_apart r _ (hf f (.head _)) (h f (.head _)))

/-- Fields that share no bit each read as written. -/
theorem State.fld_storeFlds {fs : List Field} (hf : ∀ f ∈ fs, f.Fits) (hd : fs.Pairwise Field.Apart) {g : Field} (hg : g ∈ fs) :
    (s.storeFlds r v fs).fld r g = g.of v := by
  induction fs generalizing s with
  | nil => cases hg
  | cons f fs ih =>
    obtain ⟨hfirst, hrest⟩ := List.pairwise_cons.mp hd
    have hrestFits := fun x hx => hf x (List.mem_cons_of_mem f hx)
    rcases List.mem_cons.mp hg with rfl | hmem
    · refine ((s.setFld r g (g.of v)).fld_storeFlds_apart r v hrestFits fun x hx => (hfirst x hx).symm).trans ?_
      exact s.fld_setFld_fits r v (hf g (.head _)) (le_refl _)
    · exact ih _ hrestFits hrest hmem

@[simp] theorem State.storeFlds_beyond {ns : List RegName} (fs : List Field) (h : r.name ∈ ns) :
    (s.storeFlds r v fs).beyond ns = s.beyond ns := beyond_foldl s (fun t f => t.beyond_setFld f _ h) fs

end Fields

/-! ### LINK.CFG (03 R103) -/

/-- Whether a kind of link allows a code of TRATE. -/
def rateAllowed (nerov : Bool) (t : Nat) : Prop := if nerov = true then t = 6 ∨ t = 7 else 1 ≤ t ∧ t ≤ 7

/-- What a write of LINK.CFG stores beside ENABLE. -/
structure CfgStored (d i : Nat) (v : Word) (s t : State) : Prop where
  kind : t.fld (lreg .linkCfg d i) LinkCfg.KIND = LinkCfg.KIND.of v
  replayn : t.fld (lreg .linkCfg d i) LinkCfg.REPLAYN = LinkCfg.REPLAYN.of v
  grace : t.fld (lreg .linkCfg d i) LinkCfg.GRACE = min 500 (LinkCfg.GRACE.of v)
  rate : rateAllowed (s.isNerov (gport d i)) (LinkCfg.TRATE.of v) → t.fld (lreg .linkCfg d i) LinkCfg.TRATE = LinkCfg.TRATE.of v
  rateKept : ¬ rateAllowed (s.isNerov (gport d i)) (LinkCfg.TRATE.of v) →
    t.fld (lreg .linkCfg d i) LinkCfg.TRATE = s.fld (lreg .linkCfg d i) LinkCfg.TRATE

section Config
variable {s : State} {d i : Nat} {v : Word}

/-- A change that leaves LINK.CFG leaves what was stored. -/
theorem CfgStored.of_keeps {t u : State} {ns : List RegName} (h : CfgStored d i v s t) (hk : Keeps ns t u) (hn : .linkCfg ∉ ns) :
    CfgStored d i v s u := by
  have hfld := fun f => hk.fld (lreg .linkCfg d i) f (by simpa using hn)
  exact ⟨(hfld _).trans h.kind, (hfld _).trans h.replayn, (hfld _).trans h.grace, fun ok => (hfld _).trans (h.rate ok),
    fun no => (hfld _).trans (h.rateKept no)⟩

/-- A write that leaves ENABLE stores the other fields and does nothing else; one that clears it then takes the link down. -/
theorem linkCfgWrite_cases (hi : i < 16) : ∃ u : State, CfgStored d i v s u ∧ u.beyond [.linkCfg] = s.beyond [.linkCfg] ∧
    (s.fld (lreg .linkCfg d i) LinkCfg.ENABLE = LinkCfg.ENABLE.of v → linkCfgWrite d i v s = u) ∧
    (s.fld (lreg .linkCfg d i) LinkCfg.ENABLE = 1 → LinkCfg.ENABLE.of v = 0 → ∃ w : State,
      w.beyond linkRegs = (u.setFld (lreg .linkCfg d i) LinkCfg.ENABLE 0).beyond linkRegs ∧ linkCfgWrite d i v s = setLinkState d i 0 w) := by
  unfold linkCfgWrite
  rw [if_neg (by omega)]
  extract_lets r t ok was s1 s2 s3 s4
  have h1 : s1 = (s.storeFlds r v [LinkCfg.KIND, LinkCfg.REPLAYN]).setFld r LinkCfg.GRACE (min 500 (LinkCfg.GRACE.of v)) := rfl
  have hgrace : s1.fld r LinkCfg.GRACE = min 500 (LinkCfg.GRACE.of v) := by
    rw [h1]; exact State.fld_setFld_fits _ r v (by decide) (min_le_right _ _)
  have hstored : ∀ f ∈ [LinkCfg.KIND, LinkCfg.REPLAYN], s1.fld r f = f.of v := by
    intro f hf
    rw [h1, State.fld_setFld_apart _ r _ (by decide) (by revert f; decide)]
    exact s.fld_storeFlds r v (by decide) (by decide) hf
  have hrate1 : s1.fld r LinkCfg.TRATE = s.fld r LinkCfg.TRATE := by
    rw [h1, State.fld_setFld_apart _ r _ (by decide) (by decide)]
    exact s.fld_storeFlds_apart r v (by decide) (by decide)
  have hkept : ∀ f, LinkCfg.TRATE.Apart f → s2.fld r f = s1.fld r f := by
    intro f hf
    simp only [s2]
    split
    · exact s1.fld_setFld_apart r _ (by decide) hf
    · rfl
  refine ⟨s2, ⟨?_, ?_, ?_, fun hok => ?_, fun hno => ?_⟩, ?_, fun h => ?_, fun h h0 => ?_⟩
  · rw [hkept _ (by decide), hstored _ (by simp)]
  · rw [hkept _ (by decide), hstored _ (by simp)]
  · rw [hkept _ (by decide), hgrace]
  · have h2 : s2 = s1.setFld r LinkCfg.TRATE t := if_pos hok
    rw [h2]; exact s1.fld_setFld_fits r v (by decide) (le_refl _)
  · have h2 : s2 = s1 := if_neg hno
    rw [h2, hrate1]
  · simp [s2, h1, r]
  · have hwas : was = LinkCfg.ENABLE.of v := h
    rw [if_neg (by omega), if_neg (by omega)]
  · rw [if_pos ⟨h, h0⟩]
    refine ⟨s4, ?_, rfl⟩
    have hgrace := fun u : State => startGrace_beyond u d i packetRegs_subset_linkRegs (by simp)
    simp [s4, s3, r, linkDown_beyond, hgrace, takeDown_beyond]

/-- Clearing ENABLE leaves the other fields as written, and the link off. -/
theorem linkCfgWrite_off {u w : State} (hu : CfgStored d i v s u) (hb : u.beyond [.linkCfg] = s.beyond [.linkCfg])
    (hw : w.beyond linkRegs = (u.setFld (lreg .linkCfg d i) LinkCfg.ENABLE 0).beyond linkRegs) : let t := setLinkState d i 0 w
    CfgStored d i v s t ∧ t.fld (lreg .linkCfg d i) LinkCfg.ENABLE = 0 ∧ t.linkState d i = 0 ∧ Still s t := by
  intro t
  have hoff : CfgStored d i v s (u.setFld (lreg .linkCfg d i) LinkCfg.ENABLE 0) := by
    have hf := fun f => u.fld_setFld_apart (lreg .linkCfg d i) (f := LinkCfg.ENABLE) (g := f) 0 (by decide)
    exact ⟨(hf _ (by decide)).trans hu.kind, (hf _ (by decide)).trans hu.replayn, (hf _ (by decide)).trans hu.grace,
      fun ok => (hf _ (by decide)).trans (hu.rate ok), fun no => (hf _ (by decide)).trans (hu.rateKept no)⟩
  have hk : t.beyond linkRegs = (u.setFld (lreg .linkCfg d i) LinkCfg.ENABLE 0).beyond linkRegs := by
    rw [setLinkState_beyond _ _ _ _ (by simp), hw]
  refine ⟨hoff.of_keeps (keeps_of_beyond hk) (by decide), ?_, setLinkState_linkState_same w d i 0 (by decide), ?_⟩
  · rw [(keeps_of_beyond hk).fld _ _ (by rw [lreg_name]; decide)]
    exact u.fld_setFld_same _ LinkCfg.ENABLE 0 (by decide) (by decide)
  · exact Still.trans (still_of_beyond (ns := [.linkCfg]) (by simp [hb])) (still_of_beyond hk)

end Config

end Sys2Proof.Machine
end

section
/-! SUPPORT. Links that come up and trainings that end: the state code, the grace period, the rate, and the registers they write
(03 R97, R98, R103). -/

namespace Sys2Proof.Machine

/-! ### A link that comes up (03 R97, R98) -/

section Up
variable (s : State) (d pp : Nat)

/-- The registers that a port's link writes as it comes up. -/
def upRegs : List RegName := [.linkStat, .linkCnt] ++ packetRegs

theorem mem_upRegs : RegName.linkStat ∈ upRegs ∧ RegName.linkCnt ∈ upRegs := by decide

theorem packetRegs_subset_upRegs : ∀ n ∈ packetRegs, n ∈ upRegs := fun _ h => List.mem_append_right _ h

/-- What a port shows once its link is up. -/
structure CameUp (d pp : Nat) (t : State) : Prop where
  state : t.linkState d pp = 3
  held : t.fld (lreg .linkStat d pp) LinkStat.HELD = 0
  grace : (t.link d pp).grace = false
  ever : (t.link d pp).ever = true

theorem pump_flags (now : Nat) (span : Bool) (n : Nat) (l : LinkSt) :
    (pump now span n l).grace = l.grace ∧ (pump now span n l).ever = l.ever ∧ (pump now span n l).lowPower = l.lowPower := by
  induction n generalizing l with
  | zero => exact ⟨rfl, rfl, rfl⟩
  | succ n ih =>
    unfold pump
    split
    · exact ⟨rfl, rfl, rfl⟩
    · split
      · exact ⟨rfl, rfl, rfl⟩
      · exact ih _

/-- Sending what waited leaves the flags of the link. -/
theorem pumpLink_flags : ((pumpLink d pp s).link d pp).grace = (s.link d pp).grace ∧ ((pumpLink d pp s).link d pp).ever = (s.link d pp).ever ∧
    ((pumpLink d pp s).link d pp).lowPower = (s.link d pp).lowPower := by
  unfold pumpLink
  split
  · rw [State.link_modLink_same]
    exact pump_flags _ _ _ _
  · exact ⟨rfl, rfl, rfl⟩

theorem CameUp.pumpLink {s : State} {d pp : Nat} (h : CameUp d pp s) : CameUp d pp (pumpLink d pp s) := by
  have hk : Keeps [] s (Machine.pumpLink d pp s) := keeps_of_beyond (pumpLink_beyond s d pp)
  obtain ⟨hgrace, hever, -⟩ := pumpLink_flags s d pp
  exact ⟨(linkState_of_keeps d pp hk (by simp)).trans h.state, (hk.fld _ _ (by simp)).trans h.held, hgrace.trans h.grace, hever.trans h.ever⟩

theorem CameUp.of_wires {s t : State} {d pp : Nat} (h : CameUp d pp s) (hw : t.wires = s.wires) : CameUp d pp t := by
  have he := engine_of_wires hw d pp
  exact ⟨(linkState_of_wires d pp hw).trans h.state, ((keeps_of_wires hw).fld _ _ (by rw [lreg_name]; decide)).trans h.held,
    (congrArg LinkSt.grace he).trans h.grace, (congrArg LinkSt.ever he).trans h.ever⟩

/-- A port on its way up from a state `s`: the state code stands, nothing counts as held, and the rate of a training from DOWN stays. -/
structure Rising (d pp : Nat) (s t : State) : Prop where
  state : t.linkState d pp = 3
  held : t.fld (lreg .linkStat d pp) LinkStat.HELD = 0
  beyond : t.beyond upRegs = s.beyond upRegs
  rate : s.linkState d pp ≠ 4 → t.fld (lreg .linkStat d pp) LinkStat.RATE = s.fld (lreg .linkStat d pp) LinkStat.RATE

theorem Rising.of_beyond {s t u : State} {d pp : Nat} {ns : List RegName} (h : Rising d pp s t) (hb : u.beyond ns = t.beyond ns)
    (hu : u.beyond upRegs = t.beyond upRegs) (hn : .linkStat ∉ ns) : Rising d pp s u := by
  have hk := keeps_of_beyond hb
  have hfld := fun f => hk.fld (lreg .linkStat d pp) f (by rwa [lreg_name])
  exact ⟨(linkState_of_keeps d pp hk hn).trans h.state, (hfld _).trans h.held, hu.trans h.beyond, fun h4 => (hfld _).trans (h.rate h4)⟩

theorem Rising.of_wires {s t u : State} {d pp : Nat} (h : Rising d pp s t) (hw : u.wires = t.wires) : Rising d pp s u :=
  h.of_beyond (beyond_of_wires hw fun _ hn => hn) (beyond_of_wires hw packetRegs_subset_upRegs) (by decide)

theorem Rising.modLink {s t : State} {d pp : Nat} (h : Rising d pp s t) (f : LinkSt → LinkSt) : Rising d pp s (t.modLink d pp f) :=
  h.of_beyond (ns := []) rfl rfl (by simp)

/-- The state code 3 is set. -/
theorem rising_start : Rising d pp s ((setLinkState d pp 3 s).setFld (lreg .linkStat d pp) LinkStat.HELD 0) where
  state := by
    rw [State.linkState_setFld _ _ _ _ _ (by decide) (by decide), setLinkState_linkState_same _ _ _ _ (by decide)]
  held := State.fld_setFld_same _ _ LinkStat.HELD 0 (by decide) (by decide)
  beyond := by simp [mem_upRegs]
  rate _ := by
    rw [State.fld_setFld_apart _ _ _ (by decide) (by decide)]
    exact s.fld_setFld_apart _ _ (by decide) (by decide)

/-- The rate that a STEPDOWN asked for. -/
theorem Rising.stepped {s t : State} {d pp : Nat} (h : Rising d pp s t) (h4 : s.linkState d pp = 4) (v : Nat) :
    Rising d pp s (t.setFld (lreg .linkStat d pp) LinkStat.RATE v) where
  state := (t.linkState_setFld d pp _ v (by decide) (by decide)).trans h.state
  held := (t.fld_setFld_apart _ _ (by decide) (by decide)).trans h.held
  beyond := by simp [mem_upRegs, h.beyond]
  rate hn := absurd h4 hn

/-- The counters of a training from DOWN start afresh, and the virtual port above reports the change. -/
theorem Rising.counted {s t : State} {d pp : Nat} (h : Rising d pp s t) :
    Rising d pp s (slotStatus (gport d pp) slotLinkState ((t.setReg (lreg .linkCnt d pp) 0).setFld (lreg .linkStat d pp) LinkStat.RETRAINS 0)) := by
  have hcnt : Rising d pp s (t.setReg (lreg .linkCnt d pp) 0) :=
    h.of_beyond (ns := [.linkCnt]) (by simp) (by simp [mem_upRegs]) (by simp)
  refine Rising.of_wires ⟨?_, ?_, ?_, fun h4 => ?_⟩ (slotStatus_wires _ _ _)
  · exact (State.linkState_setFld _ d pp _ 0 (by decide) (by decide)).trans hcnt.state
  · exact (State.fld_setFld_apart _ _ _ (by decide) (by decide)).trans hcnt.held
  · simp [mem_upRegs, h.beyond]
  · exact (State.fld_setFld_apart _ _ _ (by decide) (by decide)).trans (hcnt.rate h4)

/-- A link that reaches UP. The rate of a training from DOWN stays. -/
theorem linkUp_reads : let t := linkUp d pp s
    CameUp d pp t ∧ t.beyond upRegs = s.beyond upRegs ∧
      (s.linkState d pp ≠ 4 → t.fld (lreg .linkStat d pp) LinkStat.RATE = s.fld (lreg .linkStat d pp) LinkStat.RATE) := by
  unfold linkUp
  extract_lets g l r again s0 s1 s2 s3 s4 n s5 s6 t
  have h0 : Rising d pp s s0 := rising_start s d pp
  clear_value s0
  have h1 : Rising d pp s s1 := by
    cases hstep : l.stepRate with
    | none => simpa only [s1, hstep] using h0
    | some x =>
      simp only [s1, hstep]
      split
      · rename_i h; exact h0.stepped (of_decide_eq_true h) _
      · exact h0
  clear_value s1
  have h2 : Rising d pp s s2 := by
    simp only [s2]
    split <;> exact h1.modLink _
  clear_value s2
  have h3 : Rising d pp s s3 := by
    simp only [s3]
    split
    · exact h2
    · exact h2.counted
  clear_value s3
  have h4 : Rising d pp s s4 ∧ (s4.link d pp).grace = false ∧ (s4.link d pp).ever = true := by
    refine ⟨Rising.modLink ?_ _, ?_, ?_⟩
    · split
      · exact h3.of_wires (resetStreams_wires g s3)
      · exact h3
    · simp only [s4, State.link_modLink_same]
    · simp only [s4, State.link_modLink_same]
  clear_value s4
  obtain ⟨h4, hgrace, hever⟩ := h4
  have hw5 : s5.wires = s4.wires := by
    cases hface : s4.upFace g <;> simp [s5, hface]
  have hw6 : s6.wires = s4.wires := by
    simp only [s6, wires_ite, sendPending_wires, hw5, ite_self]
  clear_value s6
  have h6 : Rising d pp s s6 := h4.of_wires hw6
  have hup : CameUp d pp s6 := CameUp.of_wires ⟨h4.state, h4.held, hgrace, hever⟩ hw6
  simp only [t]
  split
  · exact ⟨hup.pumpLink, (pumpLink_beyond _ _ _).trans h6.beyond, fun hne =>
      ((keeps_of_beyond (pumpLink_beyond (ns := []) s6 d pp)).fld _ _ (by simp)).trans (h6.rate hne)⟩
  · exact ⟨hup, h6.beyond, h6.rate⟩

end Up

/-! ### The end of a training (03 R97) -/

section Done
variable (s : State) (d pp : Nat) (r : TrainResult)

/-- The registers that the end of a training writes. -/
def doneRegs : List RegName := [.linkLanes, .laneStat, .laneRxeq, .laneTxeq, .linkVlhead, .bufErr, .linkRtt] ++ upRegs

theorem mem_doneRegs : RegName.linkLanes ∈ doneRegs ∧ RegName.laneStat ∈ doneRegs ∧ RegName.laneRxeq ∈ doneRegs ∧
    RegName.laneTxeq ∈ doneRegs ∧ RegName.linkVlhead ∈ doneRegs ∧ RegName.bufErr ∈ doneRegs ∧ RegName.linkRtt ∈ doneRegs ∧
    RegName.linkStat ∈ doneRegs := by decide

theorem upRegs_subset_doneRegs : ∀ n ∈ upRegs, n ∈ doneRegs := fun _ h => List.mem_append_right _ h

/-- What stays under a narrow frame stays under a wider one. -/
theorem State.beyond_mono {s t : State} {ns ms : List RegName} (h : t.beyond ns = s.beyond ns) (hs : ∀ n ∈ ns, n ∈ ms) :
    t.beyond ms = s.beyond ms := by
  obtain ⟨-, -, -, -, hreg⟩ := keeps_of_beyond h
  exact State.beyond_congr (still_of_beyond h) fun r hr => hreg r (mt (hs r.name) hr)

theorem trainLane_beyond {ns : List RegName} (ll num rate : Nat) (hs : .laneStat ∈ ns) (hx : .laneRxeq ∈ ns) (ht : .laneTxeq ∈ ns) :
    (trainLane d ll num rate r s).beyond ns = s.beyond ns := by
  unfold trainLane
  extract_lets st s1 x s2 t forced want
  have h1 : s1.beyond ns = s.beyond ns := by simp [s1, st, hs]
  have h2 : s2.beyond ns = s.beyond ns := by simp [s2, x, hx, h1]
  simp [t, ht, h2]

theorem trainLanes_beyond (lanes : List (Nat × Nat)) (rate : Nat) :
    (s.forAll lanes fun x => trainLane d x.1 x.2 rate r).beyond [.laneStat, .laneRxeq, .laneTxeq] =
      s.beyond [.laneStat, .laneRxeq, .laneTxeq] := by
  refine s.beyond_forAll (fun x t => ?_) lanes
  exact trainLane_beyond t d r x.1 x.2 rate (by simp) (by simp) (by simp)

theorem measureRtt_beyond {ns : List RegName} (rtt : Nat) (hh : .linkVlhead ∈ ns) (he : .bufErr ∈ ns) (hr : .linkRtt ∈ ns) :
    (measureRtt d pp rtt s).beyond ns = s.beyond ns := by
  unfold measureRtt
  simp [hh, he, hr]

/-- The rate at which a training ends fits its field. -/
theorem State.trainRate_lt : s.trainRate d pp r < 16 := by
  have ht : s.fld (lreg .linkCfg d pp) LinkCfg.TRATE < 16 := s.fld_lt _ LinkCfg.TRATE
  unfold State.trainRate
  extract_lets t nerov t1 t2
  have h1 : t1 ≤ t := by
    simp only [t1]
    split
    · exact le_refl _
    · split
      · exact min_le_left _ _
      · exact le_refl _
  have h2 : t2 ≤ t1 := by
    cases hstep : (s.link d pp).stepRate <;> simp [t2, hstep]
  split <;> omega

/-- A port whose training has ended, before its link comes up: the state code stands, and from DOWN the rate is that of the training. -/
structure Trained (d pp : Nat) (r : TrainResult) (s t : State) : Prop where
  state : t.linkState d pp = s.linkState d pp
  beyond : t.beyond doneRegs = s.beyond doneRegs
  rate : s.linkState d pp ≠ 4 → t.fld (lreg .linkStat d pp) LinkStat.RATE = s.trainRate d pp r

theorem Trained.of_beyond {s t u : State} {d pp : Nat} {r : TrainResult} {ns : List RegName} (h : Trained d pp r s t)
    (hb : u.beyond ns = t.beyond ns) (hn : ∀ n ∈ ns, n ∈ doneRegs) (hstat : .linkStat ∉ ns) : Trained d pp r s u := by
  have hk := keeps_of_beyond hb
  exact ⟨(linkState_of_keeps d pp hk hstat).trans h.state, (State.beyond_mono hb hn).trans h.beyond,
    fun h4 => (hk.fld _ _ (by rwa [lreg_name])).trans (h.rate h4)⟩

theorem Trained.modLink {s t : State} {d pp : Nat} {r : TrainResult} (h : Trained d pp r s t) (f : LinkSt → LinkSt) :
    Trained d pp r s (t.modLink d pp f) := h.of_beyond (ns := []) (t.beyond_modLink d pp f) (by simp) (by simp)

/-- Another field of LINK.STAT is written. -/
theorem Trained.setFld {s t : State} {d pp : Nat} {r : TrainResult} (h : Trained d pp r s t) {f : Field} (v : Nat) (hf : f.Fits) (h28 : f.hi < 28)
    (hr : f.Apart LinkStat.RATE) : Trained d pp r s (t.setFld (lreg .linkStat d pp) f v) where
  state := (t.linkState_setFld d pp _ v hf.1 h28).trans h.state
  beyond := (t.beyond_setFld f v (by simp [mem_doneRegs])).trans h.beyond
  rate h4 := (t.fld_setFld_apart _ v hf hr).trans (h.rate h4)

theorem trained_start {rate : Nat} (h : s.linkState d pp ≠ 4 → rate = s.trainRate d pp r) :
    Trained d pp r s (s.setFld (lreg .linkStat d pp) LinkStat.RATE rate) where
  state := s.linkState_setFld d pp _ rate (by decide) (by decide)
  beyond := s.beyond_setFld _ _ (by simp [mem_doneRegs])
  rate h4 := by
    rw [s.fld_setFld_same _ LinkStat.RATE rate (by decide) (by decide), h h4]
    exact Nat.mod_eq_of_lt (s.trainRate_lt d pp r)

/-- The end of a training brings the link up, from DOWN at the rate that its lanes, its target and its partner allow. -/
theorem trainDone_reads : let t := trainDone d pp r s
    CameUp d pp t ∧ Still s t ∧ (s.linkState d pp ≠ 4 → t.fld (lreg .linkStat d pp) LinkStat.RATE = s.trainRate d pp r) := by
  unfold trainDone
  extract_lets st nerov again full keep rate width s1 sFresh s2 s3 lanes s4 t
  have hrate : s.linkState d pp ≠ 4 → rate = s.trainRate d pp r := by
    intro h
    have hk : keep = false := by simp [keep, again, h]
    simp [rate, hk]
  have h1 : Trained d pp r s s1 :=
    ((trained_start s d pp r hrate).setFld _ (by decide) (by decide) (by decide)).setFld _ (by decide) (by decide) (by decide)
  clear_value rate width s1
  have h2 : Trained d pp r s s2 := by
    have hfresh : Trained d pp r s sFresh := by
      simp only [sFresh]
      split
      · exact h1
      · exact h1.modLink _
    simp only [s2]
    split
    · exact h1
    · exact hfresh.modLink _
  clear_value s2
  have h3 : Trained d pp r s s3 := by
    simp only [s3]
    split
    · exact h2
    · have hl0p := h2.setFld (f := LinkStat.L0P) 0 (by decide) (by decide) (by decide)
      refine Trained.modLink ?_ _
      exact hl0p.of_beyond (ns := [.linkLanes]) (State.beyond_setReg _ _ (by simp)) (by simp [mem_doneRegs]) (by simp)
  clear_value s3
  have h4 : Trained d pp r s s4 := by
    simp only [s4]
    split
    · exact h3
    · exact h3.of_beyond (trainLanes_beyond s3 d r lanes.zipIdx rate) (by simp [mem_doneRegs]) (by simp)
  clear_value s4
  have h5 : Trained d pp r s (if nerov = true then measureRtt d pp ((r.echoes.take 16).foldl max 0) s4
      else if again = true then s4 else advertise (gport d pp) r.scaled s4) := by
    split
    · exact h4.of_beyond (ns := [.linkVlhead, .bufErr, .linkRtt]) (measureRtt_beyond s4 d pp _ (by simp) (by simp) (by simp))
        (by simp [mem_doneRegs]) (by simp)
    · split
      · exact h4
      · exact h4.of_beyond (ns := []) (s4.beyond_modLink _ _ _) (by simp) (by simp)
  simp only [t]
  generalize (if nerov = true then _ else _ : State) = s5 at h5 ⊢
  obtain ⟨hup, hbeyond, hkept⟩ := linkUp_reads s5 d pp
  refine ⟨hup, still_of_beyond ((State.beyond_mono hbeyond upRegs_subset_doneRegs).trans h5.beyond), fun h => ?_⟩
  exact (hkept (by rwa [h5.state])).trans (h5.rate h)

end Done

end Sys2Proof.Machine
end

section
/-! SUPPORT. The pegs of a training, and how a training begins and goes through (02 R62, R66; 03 R97). -/

namespace Sys2Proof.Machine

/-! ### What the work of a peg leaves -/

/-- A peg works on the lanes: it writes their peg and sweep registers, and leaves the live map and the link engines. -/
structure PegWork (s t : State) : Prop where
  beyond : t.beyond [.lanePeg, .laneSweep] = s.beyond [.lanePeg, .laneSweep]
  live : t.lane.live = s.lane.live
  links : t.links = s.links

theorem PegWork.refl (s : State) : PegWork s s := ⟨rfl, rfl, rfl⟩

theorem PegWork.trans {s t u : State} (h : PegWork s t) (g : PegWork t u) : PegWork s u :=
  ⟨g.beyond.trans h.beyond, g.live.trans h.live, g.links.trans h.links⟩

theorem PegWork.forAll {α : Type} {f : α → State → State} (h : ∀ a t, PegWork t (f a t)) (s : State) (l : List α) :
    PegWork s (s.forAll l f) := by
  induction l generalizing s with
  | nil => exact .refl s
  | cons a l ih => exact (h a s).trans (ih (f a s))

theorem pegWork_setReg (s : State) {r : Reg} (v : Word) (h : r.name = .lanePeg ∨ r.name = .laneSweep) : PegWork s (s.setReg r v) :=
  ⟨s.beyond_setReg v (by simpa using h), rfl, rfl⟩

theorem pegWork_setPeg (s : State) (d ll : Nat) (f : Field) (v : Nat) : PegWork s (s.setFld (lanePeg d ll) f v) :=
  pegWork_setReg s _ (.inl rfl)

theorem pegWork_modLane (s : State) {f : LaneSt → LaneSt} (h : (f s.lane).live = s.lane.live) : PegWork s (s.modLane f) := ⟨rfl, h, rfl⟩

section Work
variable (s : State) (d pp ll : Nat)

theorem setPegState_works (v : Nat) : PegWork s (setPegState d pp v s) :=
  .forAll (fun ll t => pegWork_setPeg t d ll LanePeg.STATE v) s _

theorem pegEnd_works : PegWork s (pegEnd d pp s) := (setPegState_works s d pp 5).trans (pegWork_modLane _ rfl)

theorem storeSweep_works (fom : List Nat) : PegWork s (storeSweep d ll fom s) := by
  unfold storeSweep
  refine .trans (.forAll (fun k t => ?_) s _) (pegWork_setPeg _ d ll LanePeg.BEST _)
  exact pegWork_setReg t _ (.inr rfl)

theorem refineLane_works (rate : Nat) (host : Bool) (o : PegLane) : PegWork s (refineLane d ll rate host o s) := by
  unfold refineLane requestSet
  exact (pegWork_setPeg s d ll LanePeg.FOM _).trans (pegWork_modLane _ rfl)

/-! ### The step of a port's peg -/

theorem State.lanesOf_congr {s t : State} (h : t.lane.live = s.lane.live) : t.lanesOf d pp = s.lanesOf d pp := by
  unfold State.lanesOf State.lanePorts State.quad
  rw [h]

theorem setPegState_pegState (v : Nat) (hv : v < 16) (hl : s.lanesOf d pp ≠ []) : (setPegState d pp v s).pegState d pp = v := by
  unfold State.pegState
  rw [State.lanesOf_congr d pp (setPegState_works s d pp v).live]
  cases hlanes : s.lanesOf d pp with
  | nil => exact absurd hlanes hl
  | cons a l =>
    unfold setPegState
    dsimp only
    rw [State.fld_forAll_setFld (lanePeg d) LanePeg.STATE v (by decide) (by decide) _ _ _ (.inl ⟨a, by simp [hlanes], rfl⟩)]
    exact Nat.mod_eq_of_lt hv

theorem pegEnd_pegState (hl : s.lanesOf d pp ≠ []) : (pegEnd d pp s).pegState d pp = 5 :=
  setPegState_pegState s d pp 5 (by decide) hl

end Work

/-! ### The pegs of a training that waits for no verdict -/

/-- The registers that the pegs of a training write. -/
def pegRegs : List RegName := [.linkStat, .lanePeg, .laneSweep]

/-- Pegs have run on a port: its state code, its kind and the rate that a STEPDOWN asked for stay. -/
structure PegsRan (d pp : Nat) (s t : State) : Prop where
  beyond : t.beyond pegRegs = s.beyond pegRegs
  live : t.lane.live = s.lane.live
  state : t.linkState d pp = s.linkState d pp
  kind : (t.link d pp).nerov = (s.link d pp).nerov
  step : (t.link d pp).stepRate = (s.link d pp).stepRate

theorem PegsRan.refl (d pp : Nat) (s : State) : PegsRan d pp s s := ⟨rfl, rfl, rfl, rfl, rfl⟩

theorem PegsRan.trans {d pp : Nat} {s t u : State} (h : PegsRan d pp s t) (g : PegsRan d pp t u) : PegsRan d pp s u :=
  ⟨g.beyond.trans h.beyond, g.live.trans h.live, g.state.trans h.state, g.kind.trans h.kind, g.step.trans h.step⟩

theorem PegWork.ran {s t : State} (h : PegWork s t) (d pp : Nat) : PegsRan d pp s t where
  beyond := State.beyond_mono h.beyond (by decide)
  live := h.live
  state := linkState_of_keeps d pp (keeps_of_beyond h.beyond) (by decide)
  kind := by rw [State.link_congr h.links]
  step := by rw [State.link_congr h.links]

section Pegs
variable (s : State) (d pp : Nat)

/-- The assist mode of pegs in force is the hardware's. -/
def State.pegAlone (s : State) : Prop := s.assist PartAssist.PEG = 0 ∨ s.mode = 0

/-- A rate is set, and its sweep begins. -/
def pegBegin (d pp rate : Nat) (s : State) : State :=
  setPegState d pp 1 ((s.setFld (lreg .linkStat d pp) LinkStat.RATE rate).modLink d pp fun l => { l with pegRate := rate })

theorem pegBegin_ran (rate : Nat) : PegsRan d pp s (pegBegin d pp rate s) := by
  unfold pegBegin
  refine .trans ?_ ((setPegState_works _ d pp 1).ran d pp)
  refine ⟨s.beyond_setFld _ _ (by simp [pegRegs]), rfl, s.linkState_setFld d pp _ rate (by decide) (by decide), ?_, ?_⟩ <;>
    rw [State.link_modLink_same] <;> rfl

/-- The sweep of a port's lanes. -/
def pegSweep (d : Nat) (lanes : List Nat) (o : PegRun) (s : State) : State :=
  s.forAll lanes.zipIdx fun x => storeSweep d x.1 (o.lanes.getD x.2 {}).fom

/-- The refinement of a port's lanes. -/
def pegRefine (d rate : Nat) (lanes : List Nat) (host : Bool) (o : PegRun) (s : State) : State :=
  s.forAll lanes.zipIdx fun x => refineLane d x.1 rate host (o.lanes.getD x.2 {})

theorem pegSweep_works (lanes : List Nat) (o : PegRun) : PegWork s (pegSweep d lanes o s) := by
  unfold pegSweep
  refine .forAll (fun x t => ?_) s _
  exact storeSweep_works t d x.1 _

theorem pegRefine_works (rate : Nat) (lanes : List Nat) (host : Bool) (o : PegRun) : PegWork s (pegRefine d rate lanes host o s) := by
  unfold pegRefine
  refine .forAll (fun x t => ?_) s _
  exact refineLane_works t d x.1 rate host _

/-- In hardware mode, a peg at a new rate whose sweep and refinement the command covers goes through to its end. -/
theorem pegStep_alone {rate : Nat} {o : PegRun} (hl : s.lanesOf d pp ≠ []) (hm : s.pegAlone) (h1 : o.stage ≠ 1) (h2 : o.stage ≠ 2)
    (hr : (s.link d pp).pegRate ≠ rate) : ∃ host, pegStep d pp rate o s =
      (pegEnd d pp (pegRefine d rate (s.lanesOf d pp) host o (pegSweep d (s.lanesOf d pp) o (pegBegin d pp rate s))), true) := by
  have hstate : (pegBegin d pp rate s).pegState d pp = 1 := setPegState_pegState _ d pp 1 (by decide) hl
  unfold pegStep
  extract_lets lanes mode s0 refine s1
  have hs0 : s0 = pegBegin d pp rate s := if_neg fun h => hr h.1
  have hmode : mode = 0 := by
    simp only [mode]
    split
    · rfl
    · exact hm.resolve_right ‹_›
  clear_value s0 mode
  subst hs0 hmode
  refine ⟨decide (s1.lane.pegMode.get 0 (gport d pp) ≠ 0), ?_⟩
  rw [hstate]
  rw [if_neg h1, if_neg (by simp), if_neg h2]
  rfl

theorem pegStep_ran {rate : Nat} {o : PegRun} (hl : s.lanesOf d pp ≠ []) (hm : s.pegAlone) (h1 : o.stage ≠ 1) (h2 : o.stage ≠ 2)
    (hr : (s.link d pp).pegRate ≠ rate) : let x := pegStep d pp rate o s
    x.2 = true ∧ PegsRan d pp s x.1 ∧ x.1.pegState d pp = 5 := by
  obtain ⟨host, heq⟩ := pegStep_alone s d pp hl hm h1 h2 hr
  rw [heq]
  have hswept := (pegBegin_ran s d pp rate).trans ((pegSweep_works _ d (s.lanesOf d pp) o).ran d pp)
  have hrefined := hswept.trans ((pegRefine_works _ d rate (s.lanesOf d pp) host o).ran d pp)
  exact ⟨rfl, hrefined.trans ((pegEnd_works _ d pp).ran d pp), pegEnd_pegState _ d pp (by rwa [State.lanesOf_congr d pp hrefined.live])⟩

theorem PegsRan.pegAlone {s t : State} {d pp : Nat} (h : PegsRan d pp s t) (hm : s.pegAlone) : t.pegAlone := by
  have hk := keeps_of_beyond h.beyond
  unfold State.pegAlone State.assist
  rwa [hk.fld _ _ (by decide), hk.mode (by decide)]

/-- In hardware mode, the pegs that a command covers all go through. -/
theorem runPegs_ran {r : TrainResult} (hr : ∀ p ∈ r.pegs, p.stage ≠ 1 ∧ p.stage ≠ 2) {rates : List Nat} (hpos : ∀ k ∈ rates, k ≠ 0) :
    ∀ s : State, s.lanesOf d pp ≠ [] → s.pegAlone → (s.link d pp).pegRate = 0 ∨ s.pegState d pp = 5 →
      (runPegs d pp r rates s).2 = true ∧ PegsRan d pp s (runPegs d pp r rates s).1 := by
  induction rates with
  | nil => exact fun s _ _ _ => ⟨rfl, .refl d pp s⟩
  | cons rate rest ih =>
    intro s hl hm hinv
    have ih := ih fun k hk => hpos k (List.mem_cons_of_mem _ hk)
    have hrate : rate ≠ 0 := hpos rate List.mem_cons_self
    unfold runPegs
    dsimp only
    split
    · exact ih s hl hm hinv
    · rename_i hnew
      have hstage : let o := (r.pegs.find? fun p => p.rate == rate).getD { rate := rate }
          o.stage ≠ 1 ∧ o.stage ≠ 2 := by
        cases hfind : r.pegs.find? fun p => p.rate == rate with
        | none => exact ⟨by simp, by simp⟩
        | some p => exact hr p (List.mem_of_find?_eq_some hfind)
      have hother : (s.link d pp).pegRate ≠ rate := by
        rintro rfl
        exact hnew (.inr ⟨rfl, hinv.resolve_left hrate⟩)
      obtain ⟨hthrough, hran, hended⟩ := pegStep_ran s d pp hl hm hstage.1 hstage.2 hother
      rw [if_pos hthrough]
      obtain ⟨hrest, hrestRan⟩ := ih _ (by rwa [State.lanesOf_congr d pp hran.live]) (hran.pegAlone hm) (.inr hended)
      exact ⟨hrest, hran.trans hrestRan⟩

/-! ### The rate of a training -/

theorem State.isNerov_port (hpp : pp < 16) : s.isNerov (gport d pp) =
    if 2 ≤ s.linkState d pp ∧ s.linkState d pp ≤ 5 ∨ s.linkState d pp = 8 then (s.link d pp).nerov
    else s.fld (lreg .linkCfg d pp) LinkCfg.KIND == 1 := by
  have hd : pdie (gport d pp) = d := by unfold pdie gport; omega
  have hn : pnum (gport d pp) = pp := by unfold pnum gport; omega
  unfold State.isNerov preg
  rw [hd, hn]
  rfl

/-- The rate at which a training ends rests on LINK.CFG, the mode, the kind of the link and a STEPDOWN's rate. -/
theorem State.trainRate_congr {s t : State} {d pp : Nat} {ns : List RegName} (r : TrainResult) (hk : Keeps ns s t)
    (hn : .linkCfg ∉ ns ∧ .partMode ∉ ns) (hkind : t.isNerov (gport d pp) = s.isNerov (gport d pp))
    (hstep : (t.link d pp).stepRate = (s.link d pp).stepRate) : t.trainRate d pp r = s.trainRate d pp r := by
  unfold State.trainRate
  rw [hk.fld _ _ (by simpa using hn.1), hk.mode hn.2, hkind, hstep]

theorem PegsRan.isNerov {s t : State} {d pp : Nat} (h : PegsRan d pp s t) (hpp : pp < 16) : t.isNerov (gport d pp) = s.isNerov (gport d pp) := by
  rw [State.isNerov_port t d pp hpp, State.isNerov_port s d pp hpp, h.state, h.kind, (keeps_of_beyond h.beyond).fld _ _ (by simp [pegRegs])]

theorem PegsRan.trainRate {s t : State} {d pp : Nat} (h : PegsRan d pp s t) (hpp : pp < 16) (r : TrainResult) :
    t.trainRate d pp r = s.trainRate d pp r :=
  State.trainRate_congr r (keeps_of_beyond h.beyond) (by decide) (h.isNerov hpp) h.step

theorem State.pegRates_pos (r : TrainResult) : ∀ k ∈ s.pegRates d pp r, k ≠ 0 := by
  intro k hk
  unfold State.pegRates at hk
  extract_lets top at hk
  split at hk
  · split at hk <;> simp at hk <;> omega
  · simp at hk
    omega

end Pegs

/-! ### A training from its beginning (03 R97) -/

/-- The registers that a training writes before its end. -/
def beginRegs : List RegName := [.linkStat, .laneStat]

/-- What a port shows once its training has begun: the code of TRAIN, its kind settled, its lanes as they were, and no peg run. -/
structure Begun (d pp : Nat) (s t : State) : Prop where
  state : t.linkState d pp = 2
  beyond : t.beyond beginRegs = s.beyond beginRegs
  live : t.lane.live = s.lane.live
  kind : (t.link d pp).nerov = (s.fld (lreg .linkCfg d pp) LinkCfg.KIND == 1)
  pegRate : (t.link d pp).pegRate = 0
  step : (t.link d pp).stepRate = (s.link d pp).stepRate

section Begin
variable (s : State) (d pp : Nat)

theorem State.forAll_setFld_links {α : Type} (r : α → Reg) (f : Field) (v : Nat) (l : List α) :
    (s.forAll l fun a t => t.setFld (r a) f v).links = s.links := by
  exact State.forAll_keeps State.links (fun a t => t.setFld (r a) f v) (fun _ _ => rfl) s l

theorem State.forAll_setFld_lane {α : Type} (r : α → Reg) (f : Field) (v : Nat) (l : List α) :
    (s.forAll l fun a t => t.setFld (r a) f v).lane = s.lane := by
  exact State.forAll_keeps State.lane (fun a t => t.setFld (r a) f v) (fun _ _ => rfl) s l

theorem beginTraining_begun : Begun d pp s (beginTraining d pp s) := by
  unfold beginTraining
  extract_lets nerov s1
  have hlink : (s1.link d pp) = { s.link d pp with nerov := nerov, pegRate := 0 } := State.link_modLink_same _ d pp _
  have hlive : s1.lane = s.lane := rfl
  have hbeyond : s1.beyond beginRegs = s.beyond beginRegs := s.beyond_setFld _ _ (by simp [beginRegs])
  clear_value s1
  generalize hs2 : (s1.forAll (s1.lanesOf d pp) fun ll t => t.setFld (laneStat d ll) LaneStat.LOCK 1) = s2
  have hlinks : s2.links = s1.links := hs2 ▸ s1.forAll_setFld_links (laneStat d) LaneStat.LOCK 1 _
  have hlane : s2.lane = s1.lane := hs2 ▸ s1.forAll_setFld_lane (laneStat d) LaneStat.LOCK 1 _
  have hlock : s2.beyond beginRegs = s1.beyond beginRegs := by
    rw [← hs2]
    exact s1.beyond_forAll (fun ll t => t.beyond_setFld _ _ (by simp [beginRegs])) _
  have hend : (setLinkState d pp 2 s2).link d pp = { s.link d pp with nerov := nerov, pegRate := 0 } := by
    rw [← hlink]
    exact State.link_congr hlinks d pp
  exact {
    state := setLinkState_linkState_same s2 d pp 2 (by decide)
    beyond := (setLinkState_beyond s2 d pp 2 (by simp [beginRegs])).trans (hlock.trans hbeyond)
    live := congrArg LaneSt.live (hlane.trans hlive)
    kind := by rw [hend]
    pegRate := by rw [hend]
    step := by rw [hend] }

/-- A training that begins in a state whose link keeps no kind takes that of LINK.CFG. -/
theorem Begun.isNerov {s t : State} {d pp : Nat} (h : Begun d pp s t) (hpp : pp < 16)
    (hs : ¬ (2 ≤ s.linkState d pp ∧ s.linkState d pp ≤ 5 ∨ s.linkState d pp = 8)) : t.isNerov (gport d pp) = s.isNerov (gport d pp) := by
  rw [State.isNerov_port t d pp hpp, State.isNerov_port s d pp hpp, h.state, h.kind, if_neg hs, if_pos (by omega)]

/-- A training that begins, with every peg in hardware mode, ends at the rate that its lanes, its target and its partner allow. -/
theorem train_up {r : TrainResult} (hpp : pp < 16) (hm : s.mayTrain d pp = true)
    (hs : s.linkState d pp ≠ 3 ∧ s.linkState d pp ≠ 5 ∧ s.linkState d pp ≠ 8 ∧ s.linkState d pp ≠ 2 ∧ s.linkState d pp ≠ 4)
    (hreached : r.reached = true) (hpeg : s.pegAlone) (hthrough : r.through = true) (hpegs : ∀ p ∈ r.pegs, p.stage ≠ 1 ∧ p.stage ≠ 2) :
    let t := train d pp r s
    CameUp d pp t ∧ t.fld (lreg .linkStat d pp) LinkStat.RATE = s.trainRate d pp r ∧ Still s t := by
  obtain ⟨h3, h5, h8, h2, h4⟩ := hs
  have hbegun := beginTraining_begun s d pp
  have hkeeps := keeps_of_beyond hbegun.beyond
  have hrate : (beginTraining d pp s).trainRate d pp r = s.trainRate d pp r :=
    State.trainRate_congr r hkeeps (by decide) (hbegun.isNerov hpp (by omega)) hbegun.step
  have hlanes : (beginTraining d pp s).lanesOf d pp ≠ [] := by
    rw [State.lanesOf_congr d pp hbegun.live]
    exact State.mayTrain_lanes hpp hm
  have halone : (beginTraining d pp s).pegAlone := by
    unfold State.pegAlone State.assist
    rwa [hkeeps.fld _ _ (by decide), hkeeps.mode (by decide)]
  obtain ⟨hran, hpegsRan⟩ := runPegs_ran d pp hpegs (State.pegRates_pos (beginTraining d pp s) d pp r) _ hlanes halone (.inl hbegun.pegRate)
  have htrain : train d pp r s = trainDone d pp r (runPegs d pp r ((beginTraining d pp s).pegRates d pp r) (beginTraining d pp s)).1 := by
    unfold train
    extract_lets st s0 x
    have hs0 : s0 = beginTraining d pp s := if_neg (not_or.mpr ⟨h2, h4⟩)
    have hx : x.2 = true := by rw [← hran, ← hs0]
    rw [if_neg (by simp [hm, st, h3, h5, h8]), if_neg (by simp [hreached]), if_neg (by simp [st, h4]), if_pos ⟨hx, hthrough⟩, ← hs0]
  intro t
  generalize (runPegs d pp r ((beginTraining d pp s).pegRates d pp r) (beginTraining d pp s)).1 = u at hpegsRan htrain
  obtain ⟨hup, hstill, hat⟩ := trainDone_reads u d pp r
  have hu2 : u.linkState d pp = 2 := hpegsRan.state.trans hbegun.state
  rw [show t = _ from htrain]
  refine ⟨hup, ?_, ?_⟩
  · rw [hat (by omega), hpegsRan.trainRate hpp, hrate]
  · exact Still.trans (still_of_beyond hbegun.beyond) (Still.trans (still_of_beyond hpegsRan.beyond) hstill)

/-- A retrain that reaches UP. -/
theorem train_again {r : TrainResult} (hm : s.mayTrain d pp = true) (h4 : s.linkState d pp = 4) (hf : (s.link d pp).fullTrain = false)
    (hreached : r.reached = true) : train d pp r s = trainDone d pp r s := by
  unfold train
  simp [hm, h4, hf, hreached]

end Begin

/-! ### A training that fails -/

section Fail
variable (s : State) (d pp : Nat)

theorem train_fails {r : TrainResult} (hm : s.mayTrain d pp = true) (h3 : s.linkState d pp ≠ 3) (h5 : s.linkState d pp ≠ 5)
    (h8 : s.linkState d pp ≠ 8) (hr : r.reached = false) : train d pp r s = trainFail d pp s := by
  unfold train
  simp [hm, h3, h5, h8, hr]

/-- A training that fails outside recovery goes back to DETECT, and sets TRAIN. -/
theorem trainFail_reads (hm : s.mayTrain d pp = true) (h4 : s.linkState d pp ≠ 4) : let t := trainFail d pp s
    t.linkState d pp = 1 ∧ t.fld (lreg .linkErr d pp) LinkErr.TRAIN = 1 ∧ Still s t := by
  have hfail : trainFail d pp s = enterDetect d pp false (stopTraining d pp (raise (lreg .linkErr d pp) LinkErr.TRAIN s)) := if_neg h4
  rw [hfail]
  generalize hu : raise (lreg .linkErr d pp) LinkErr.TRAIN s = u
  have hkeep : (enterDetect d pp false (stopTraining d pp u)).beyond [.linkStat, .lanePeg] = u.beyond [.linkStat, .lanePeg] :=
    (enterDetect_retrain_beyond _ d pp (by simp)).trans (stopTraining_beyond u d pp (by simp) (by simp))
  have herr : u.fld (lreg .linkErr d pp) LinkErr.TRAIN = 1 := hu ▸ fld_raise _ _ s (State.mayTrain_active hm) rfl (by decide)
  have hbeyond : u.beyond linkRegs = s.beyond linkRegs := hu ▸ raise_beyond s _ _ (by simp)
  have hmay : (stopTraining d pp u).mayTrain d pp = true := by
    rw [stopTraining_mayTrain, ← hu, raise_mayTrain s d pp _ (by simp [trainTerms]), hm]
  refine ⟨?_, ?_, Still.trans (still_of_beyond hbeyond) (still_of_beyond hkeep)⟩
  · rw [show enterDetect d pp false (stopTraining d pp u) = setLinkState d pp 1 (stopTraining d pp u) from if_pos hmay]
    exact setLinkState_linkState_same _ d pp 1 (by decide)
  · rw [(keeps_of_beyond hkeep).fld _ _ (by simp), herr]

end Fail
end Sys2Proof.Machine
end

section
/-! SUPPORT. The commands of training and of links, and the statement that they meet (03 R96 to R103). -/

namespace Sys2Proof.Machine

/-! ### The commands of training (03 R97, R98) -/

section Commands
variable (s : State) (d pp : Nat) (r : TrainResult)

/-- PCIE_LINK_TRAIN of a PCIe port. -/
theorem exec_pcieLinkTrain (h : s.isNerov (gport d pp) = false) : exec (.pcieLinkTrain d pp r) s = .next (train d pp r s) :=
  congrArg Host.Outcome.next (if_neg (by simp [h]))

/-- NEROV_TRAIN of a Nerov port: the attempt goes on with a partner that is a Kloend part. -/
theorem exec_nerovTrain (h : s.isNerov (gport d pp) = true) :
    exec (.nerovTrain d pp r) s = .next (train d pp { r with reached := r.reached && r.kloend } s) := congrArg Host.Outcome.next (if_pos h)

theorem exec_nerovTrainTimeout (h : s.isNerov (gport d pp) = true) (hm : s.mayTrain d pp = true) (h3 : s.linkState d pp ≠ 3)
    (h5 : s.linkState d pp ≠ 5) : exec (.nerovTrainTimeout d pp) s = .next (trainFail d pp s) :=
  congrArg Host.Outcome.next (if_pos ⟨h, hm, h3, h5⟩)

/-- A retrain that reaches its end leaves the link UP. -/
theorem again_reads {r : TrainResult} (hm : s.mayTrain d pp = true) (h4 : s.linkState d pp = 4) (hf : (s.link d pp).fullTrain = false)
    (hr : r.reached = true) : let t := train d pp r s
    t.linkState d pp = 3 ∧ (t.link d pp).grace = false ∧ (t.link d pp).ever = true ∧ Still s t := by
  obtain ⟨hup, hstill, -⟩ := trainDone_reads s d pp r
  rw [train_again s d pp hm h4 hf hr]
  exact ⟨hup.state, hup.grace, hup.ever, hstill⟩

/-- LINK_UP of a port whose peg waits for no verdict. -/
theorem linkUp_command (hpp : pp < 16) (hm : s.mayTrain d pp = true) (h3 : s.linkState d pp ≠ 3) (h0 : s.linkState d pp ≠ 0)
    (h5 : s.linkState d pp ≠ 5) (hw : s.pegWaiting d pp = 0) : Does (.linkUp d pp) s fun t => CameUp d pp t ∧ Still s t := by
  have hexec : exec (.linkUp d pp) s = .next (
      if s.linkState d pp = 4 ∧ (s.link d pp).fullTrain = false then linkUp d pp s
      else if s.linkState d pp = 4 ∨ s.linkState d pp = 2 then
        trainDone d pp {} (if 1 ≤ s.pegState d pp ∧ s.pegState d pp ≤ 4 then pegEnd d pp s else s)
      else trainDone d pp {} (beginTraining d pp s)) := by
    refine congrArg Host.Outcome.next ?_
    rw [if_neg (by omega), if_neg (by simp [hm, h3, h0, h5, hw])]
  refine ⟨_, hexec, ?_⟩
  split
  · obtain ⟨hup, hbeyond, -⟩ := linkUp_reads s d pp
    exact ⟨hup, still_of_beyond hbeyond⟩
  · split
    · have hpeg : Still s (if 1 ≤ s.pegState d pp ∧ s.pegState d pp ≤ 4 then pegEnd d pp s else s) := by
        split
        · exact still_of_beyond (pegEnd_works s d pp).beyond
        · exact ⟨rfl, rfl, rfl, rfl, rfl⟩
      obtain ⟨hup, hstill, -⟩ := trainDone_reads (if 1 ≤ s.pegState d pp ∧ s.pegState d pp ≤ 4 then pegEnd d pp s else s) d pp {}
      exact ⟨hup, hpeg.trans hstill⟩
    · obtain ⟨hup, hstill, -⟩ := trainDone_reads (beginTraining d pp s) d pp {}
      exact ⟨hup, Still.trans (still_of_beyond (beginTraining_begun s d pp).beyond) hstill⟩

/-- LINK_DOWN of a live link. -/
theorem linkDown_command (hl : s.linkLive d pp = true) (ha : s.active d = true) : Does (.linkDown d pp) s fun t =>
    t.linkState d pp = (if s.mayTrain d pp then 1 else 7) ∧ (t.link d pp).held = [] ∧ (t.link d pp).replay = [] ∧
      t.fld (lreg .linkErr d pp) LinkErr.DOWN = 1 ∧ Still s t := by
  have hexec : exec (.linkDown d pp) s = .next (linkDown d pp false s) := congrArg Host.Outcome.next (if_pos hl)
  obtain ⟨hstate, ⟨hheld, hreplay⟩, -, hdown⟩ := linkDown_self s d pp
  exact ⟨_, hexec, hstate, hheld, hreplay, hdown ha, still_of_beyond (linkDown_beyond s d pp false)⟩

/-- SPAN_LINK_DOWN of a live span link. -/
theorem spanLinkDown_command {e : Nat} (hd : d < s.dieCount) (he : e < s.dieCount) (hde : d ≠ e) (hl : s.linkLive d (16 + e) = true) :
    Does (.spanLinkDown d e) s fun t => t.linkState d (16 + e) = 7 ∧ t.linkState e (16 + d) = 7 ∧ Still s t :=
  ⟨_, congrArg Host.Outcome.next (if_pos ⟨hd, he, hde, hl⟩), spanDown_reads s⟩

/-- DOWN of a hart with the waiting tag. -/
theorem down_command {h tag : Nat} (ht : tag ≠ 0) (hw : s.fld (lreg .linkRtv d pp) LinkRtv.TAG = tag) : Does (.down (.hart d h) d pp tag) s fun t =>
    (t.fld (lreg .linkRtv d pp) LinkRtv.TAG = 0 ∧ Still s t) ∧ t.linkState d pp = (if s.mayTrain d pp then 1 else 7) := by
  have hexec : exec (.down (.hart d h) d pp tag) s = .next (linkDown d pp false (endRetrainInstance d pp s)) :=
    congrArg Host.Outcome.next (retrainVerdict_hart h _ ht hw rfl)
  obtain ⟨hstate, -, htag, -⟩ := linkDown_self (endRetrainInstance d pp s) d pp
  have hended : Still s (endRetrainInstance d pp s) := still_of_beyond (endRetrainInstance_beyond s d pp (ns := [.linkRtv]) (by simp))
  rw [endRetrainInstance_mayTrain] at hstate
  exact ⟨_, hexec, ⟨htag, hended.trans (still_of_beyond (linkDown_beyond _ d pp false))⟩, hstate⟩

end Commands

/-- Settles O12: a training goes through its pegs to its end, and every other command runs one operation of the link engine. -/
theorem linkTrainingAndVerdicts : Obligations.LinkTrainingAndVerdicts := by
  unfold Obligations.LinkTrainingAndVerdicts
  intro s d pp r hd hpp st cfg nerov trains begins again up fails quiet
  refine ⟨fun hr hm h4 hf => ⟨fun hn => ?_, fun hn hk => ?_⟩, fun hn hb hr hq => ?_, fun hn hb hr hk hq => ?_,
    fun ht h4 => ⟨fun hn hr => ?_, fun hn hk => ?_, fun hn => ?_⟩, fun hm h3 h0 h5 hw => ?_, linkDown_command s d pp,
    fun hg => ⟨_, rfl, graceExpire_reads s d pp hg⟩, fun e he hde hl => spanLinkDown_command s d hd he hde hl, fun v => ?_,
    fun h tag ht hw => ⟨?_, fun hc => ?_, down_command s d pp ht hw⟩⟩
  · have hup := again_reads s d pp hm h4 hf hr
    exact ⟨_, exec_pcieLinkTrain s d pp r hn, hup⟩
  · have hup := again_reads s d pp (r := { r with reached := r.reached && r.kloend }) hm h4 hf (by simp [hr, hk])
    exact ⟨_, exec_nerovTrain s d pp r hn, hup⟩
  · obtain ⟨⟨hm, h3, h5, h8⟩, h2, h4⟩ := hb
    obtain ⟨hpeg, hthrough, hpegs⟩ := hq
    obtain ⟨hup, hrate, hstill⟩ := train_up s d pp hpp hm ⟨h3, h5, h8, h2, h4⟩ hr hpeg hthrough hpegs
    exact ⟨_, exec_pcieLinkTrain s d pp r hn, hup.state, hrate, hup.grace, hup.ever, hstill⟩
  · obtain ⟨⟨hm, h3, h5, h8⟩, h2, h4⟩ := hb
    obtain ⟨hpeg, hthrough, hpegs⟩ := hq
    obtain ⟨hup, hrate, hstill⟩ := train_up s d pp (r := { r with reached := r.reached && r.kloend }) hpp hm ⟨h3, h5, h8, h2, h4⟩
      (by simp [hr, hk]) hpeg hthrough hpegs
    exact ⟨_, exec_nerovTrain s d pp r hn, hup.state, hrate, hup.grace, hup.ever, hstill⟩
  · obtain ⟨hm, h3, h5, h8⟩ := ht
    have hfails := trainFail_reads s d pp hm h4
    rw [← train_fails s d pp hm h3 h5 h8 hr] at hfails
    exact ⟨_, exec_pcieLinkTrain s d pp r hn, hfails⟩
  · obtain ⟨hm, h3, h5, h8⟩ := ht
    have hfails := trainFail_reads s d pp hm h4
    rw [← train_fails s d pp (r := { r with reached := r.reached && r.kloend }) hm h3 h5 h8 (by simp [hk])] at hfails
    exact ⟨_, exec_nerovTrain s d pp r hn, hfails⟩
  · obtain ⟨hm, h3, h5, -⟩ := ht
    exact ⟨_, exec_nerovTrainTimeout s d pp hn hm h3 h5, trainFail_reads s d pp hm h4⟩
  · obtain ⟨t, hexec, hup, hstill⟩ := linkUp_command s d pp hpp hm h3 h0 h5 hw
    exact ⟨t, hexec, hup.state, hup.grace, hup.ever, hup.held, hstill⟩
  · obtain ⟨u, hstored, hbeyond, hsame, hoff⟩ := linkCfgWrite_cases (s := s) (d := d) (v := v) hpp
    refine ⟨fun he => ⟨_, rfl, ?_⟩, fun he h0 => ?_⟩
    · rw [hsame he]
      exact ⟨⟨hstored.kind, hstored.replayn, hstored.grace, hstored.rate, hstored.rateKept⟩, keeps_of_beyond hbeyond⟩
    · obtain ⟨w, hw, heq⟩ := hoff he h0
      obtain ⟨hst, hen, hstate, hstill⟩ := linkCfgWrite_off hstored hbeyond hw
      exact ⟨_, congrArg Host.Outcome.next heq, ⟨hst.kind, hst.replayn, hst.grace, hst.rate, hst.rateKept⟩, hen, hstate, hstill⟩
  · obtain ⟨hbeyond, htag, hrecovery, hother⟩ := keep_reads s d pp
    exact ⟨_, congrArg Host.Outcome.next (retrainVerdict_hart h _ ht hw rfl), ⟨htag, still_of_beyond hbeyond⟩, keeps_of_beyond hbeyond,
      hrecovery, hother⟩
  · obtain ⟨htag, hstill, hstate, hstep⟩ := stepdown_reads s d pp hpp
    exact ⟨_, congrArg Host.Outcome.next (retrainVerdict_hart h _ ht hw hc), ⟨htag, hstill⟩, hstate, hstep⟩

end Sys2Proof.Machine
end

section
/-! SUPPORT. A map that becomes live, peg verdicts, lane tests and low power: what each operation leaves, and the statement that they meet
(02 R54 to R73). -/

namespace Sys2Proof.Machine

/-! ### A map that becomes live (02 R54) -/

section Apply
variable (s : State) (d : Nat) {ns : List RegName}

/-- The registers beside LANE_MAPCTL that a map writes as it becomes live. -/
def applyRegs : List RegName := [.laneStat, .pwrDom] ++ linkRegs

theorem mem_applyRegs : RegName.laneStat ∈ applyRegs ∧ RegName.pwrDom ∈ applyRegs ∧ RegName.linkStat ∈ applyRegs ∧
    RegName.laneMapctl ∉ applyRegs := by decide

theorem linkRegs_subset_applyRegs : ∀ n ∈ linkRegs, n ∈ applyRegs := fun _ h => List.mem_append_right _ h

theorem enterDetect_beyond (pp : Nat) (fresh : Bool) (hn : ∀ n ∈ packetRegs, n ∈ ns) (h : .linkStat ∈ ns) :
    (enterDetect d pp fresh s).beyond ns = s.beyond ns := by
  have hgrace := fun t : State => startGrace_beyond t d pp hn h
  unfold enterDetect
  simp [hgrace, h]

theorem clearLane_beyond (ll : Nat) (h : .laneStat ∈ ns) : (clearLane d ll s).beyond ns = s.beyond ns := by
  unfold clearLane
  simp [h]

theorem autoQuadOff_beyond (q : Nat) (h : .pwrDom ∈ ns) : (autoQuadOff d q s).beyond ns = s.beyond ns := by
  have hreg : (dom d q).reg.name ∈ ns := h
  unfold autoQuadOff startDomain
  simp [hreg]

/-- A port of a map that becomes live is off, or enters DETECT. -/
theorem remapPort_beyond (pp : Nat) (c : Prop) [Decidable c] :
    (if c then setLinkState d pp 0 s else enterDetect d pp true (setLinkState d pp 0 s)).beyond applyRegs = s.beyond applyRegs := by
  have hoff := setLinkState_beyond (ns := applyRegs) s d pp 0 mem_applyRegs.2.2.1
  split
  · exact hoff
  · exact (enterDetect_beyond _ d pp true (fun n h => linkRegs_subset_applyRegs n (packetRegs_subset_linkRegs n h)) mem_applyRegs.2.2.1).trans hoff

/-- A map that becomes live writes of LANE_MAPCTL the ports that it changed and BUSY. -/
theorem makeLive_reads (m : List Nat) : let t := makeLive d m s
    t.fld (dreg .laneMapctl d) LaneMapctl.STATUS = s.fld (dreg .laneMapctl d) LaneMapctl.STATUS ∧ Still s t := by
  unfold makeLive
  extract_lets old differs downs s1 s2 moved s3 s4 r s5 t
  have h1 : s1.beyond applyRegs = s.beyond applyRegs :=
    s.beyond_forAll (fun pp u => State.beyond_mono (takeDown_beyond u d pp) linkRegs_subset_applyRegs) _
  have h2 : s2.beyond applyRegs = s.beyond applyRegs := h1
  clear_value s2
  have h3 : s3.beyond applyRegs = s.beyond applyRegs :=
    (s2.beyond_forAll (fun ll u => clearLane_beyond u d ll mem_applyRegs.1) _).trans h2
  clear_value s3
  have h4 : s4.beyond applyRegs = s.beyond applyRegs :=
    (s3.beyond_forAll (fun pp u => remapPort_beyond u d pp _) _).trans h3
  clear_value s4
  have h5 : s5.fld r LaneMapctl.STATUS = s4.fld r LaneMapctl.STATUS := by
    rw [State.fld_setFld_apart _ _ _ (by decide) (by decide), State.fld_setFld_apart _ _ _ (by decide) (by decide)]
  have h5b : s5.beyond [.laneMapctl] = s4.beyond [.laneMapctl] := by simp [s5, r]
  clear_value s5
  have ht : t.beyond [.pwrDom] = s5.beyond [.pwrDom] := by
    refine s5.beyond_forAll (fun q u => ?_) _
    split
    · exact autoQuadOff_beyond u d q (by simp)
    · rfl
  clear_value t
  refine ⟨?_, Still.trans (still_of_beyond h4) (Still.trans (still_of_beyond h5b) (still_of_beyond ht))⟩
  rw [(keeps_of_beyond ht).fld _ _ (by simp), h5]
  exact (keeps_of_beyond h4).fld _ _ mem_applyRegs.2.2.2

theorem State.stagedMap_length : (s.stagedMap d).length = 16 := by simp [State.stagedMap]

theorem State.stagedMap_getD {q : Nat} (hq : q < 16) : (s.stagedMap d).getD q 0 = (s.reg { name := .laneQmap, die := d, i := q }).toNat := by
  simp [State.stagedMap, hq]

/-- An APPLY that no code refuses makes the staged map live on its die. -/
theorem applyMap_reads (hd : d < s.dieCount) (h : applyStatus d s = 1) : let t := applyMap d s
    t.fld (dreg .laneMapctl d) LaneMapctl.STATUS = 1 ∧ Still s t ∧
      (∀ q, q < 16 → t.quad d q = (s.reg { name := .laneQmap, die := d, i := q }).toNat) ∧ ∀ e q, e ≠ d → t.quad e q = s.quad e q := by
  have happly : applyMap d s = makeLive d (s.stagedMap d) (s.setFld (dreg .laneMapctl d) LaneMapctl.STATUS 1) := by
    unfold applyMap
    simp [hd, h]
  rw [happly]
  obtain ⟨hstatus, hstill⟩ := makeLive_reads (s.setFld (dreg .laneMapctl d) LaneMapctl.STATUS 1) d (s.stagedMap d)
  refine ⟨hstatus.trans (s.fld_setFld_same _ LaneMapctl.STATUS 1 (by decide) (by decide)), hstill, fun q hq => ?_, fun e q he => ?_⟩
  · rw [makeLive_quad, if_pos ⟨rfl, by rwa [State.stagedMap_length]⟩, s.stagedMap_getD d hq]
  · rw [makeLive_quad, if_neg fun h => he h.1]
    rfl

end Apply

/-! ### Transmitter overrides and peg verdicts (02 R58, R59, R64) -/

section Verdict
variable (s : State) (d : Nat)

/-- A write of LANE.TXEQ that R58 allows stores its fields. -/
theorem txeqWrite_stores {ll : Nat} {v : Word} (hd : d < s.dieCount) (hll : ll < 64)
    (h : LaneTxeq.OVR.of v = 1 → coeffOk (LaneTxeq.CM2.of v) (LaneTxeq.CM1.of v) (LaneTxeq.C0.of v) (LaneTxeq.CP1.of v)
      (decide (6 ≤ s.laneRate d ll)) = true) :
    txeqWrite d ll v s =
      s.storeFlds { name := .laneTxeq, die := d, i := ll } v [LaneTxeq.OVR, LaneTxeq.CM2, LaneTxeq.CM1, LaneTxeq.C0, LaneTxeq.CP1] := by
  unfold txeqWrite
  extract_lets r
  rw [if_neg (not_not.mpr ⟨hd, hll⟩), if_neg fun hno => hno.2 (h hno.1)]
  rfl

/-- A write of LANE.TXEQ whose coefficients do not add up to 63 changes nothing. -/
theorem txeqWrite_refused {ll : Nat} {v : Word} (ho : LaneTxeq.OVR.of v = 1)
    (hsum : LaneTxeq.CM2.of v + LaneTxeq.CM1.of v + LaneTxeq.C0.of v + LaneTxeq.CP1.of v ≠ 63) : txeqWrite d ll v s = s := by
  have hbad : coeffOk (LaneTxeq.CM2.of v) (LaneTxeq.CM1.of v) (LaneTxeq.C0.of v) (LaneTxeq.CP1.of v) (decide (6 ≤ s.laneRate d ll)) = false := by
    simp [coeffOk, hsum]
  unfold txeqWrite
  simp [ho, hbad]

theorem storeFlds_keeps (r : Reg) (v : Word) (fs : List Field) : Keeps [r.name] s (s.storeFlds r v fs) :=
  keeps_of_beyond (s.storeFlds_beyond r v fs (by simp))

/-- The set of each of a port's lanes is requested. -/
def requestSets (d pp : Nat) (s : State) : State :=
  s.forAll (s.lanesOf d pp) fun ll => fun t => t.modLane fun l => { l with request := l.request.set (d, ll) (t.pegSet d ll) }

theorem State.pegSet_congr {s t : State} (hk : Keeps [] s t) (x : Nat) : t.pegSet d x = s.pegSet d x := by
  have hfld : ∀ f, t.fld (lanePeg d x) f = s.fld (lanePeg d x) f := fun f => hk.fld _ f (by simp)
  unfold State.pegSet
  simp only [hfld]

theorem requestSets_keeps (pp : Nat) : Keeps [] s (requestSets d pp s) := keeps_forAll _ (fun _ t => keeps_modLane t _) s _

theorem requestSets_live (pp : Nat) : (requestSets d pp s).lane.live = s.lane.live :=
  State.forAll_keeps (fun t => t.lane.live) (fun ll t => t.modLane fun l => { l with request := l.request.set (d, ll) (t.pegSet d ll) })
    (fun _ _ => rfl) s _

theorem requestSets_find {pp x : Nat} (hx : x ∈ s.lanesOf d pp) : (requestSets d pp s).lane.request.find (d, x) = some (s.pegSet d x) := by
  unfold requestSets
  refine (State.forAll_reaches (P := fun t => Keeps [] s t) (Q := fun t => Keeps [] s t ∧ t.lane.request.find (d, x) = some (s.pegSet d x))
    (fun b t h => h.trans (keeps_modLane t _)) (fun t h => ⟨h.trans (keeps_modLane t _), ?_⟩)
    (fun b t h => ⟨h.1.trans (keeps_modLane t _), ?_⟩) hx (Keeps.refl [] s)).2
  · exact (FMap.find_set_same _ _ _).trans (congrArg some (State.pegSet_congr d h x))
  · by_cases hb : b = x
    · subst hb
      exact (FMap.find_set_same _ _ _).trans (congrArg some (State.pegSet_congr d h.1 b))
    · exact (FMap.find_set_ne _ _ (by simpa [eq_comm] using hb)).trans h.2

/-- A verdict of a hart with the waiting tag and valid fields ends the wait, requests the sets and goes on to their verification. -/
theorem pegVerdict_reads {h pp tag : Nat} {v : Word} (hd : d < s.dieCount) (hgo : LanePeggo.GO.of v = 1) (hpp : LanePeggo.PORT.of v = pp)
    (hv : LanePeggo.TAG.of v = tag) (ht : tag ≠ 0) (hw : s.pegWaiting d pp = tag) (hok : (s.lanesOf d pp).all (s.pegFieldOk d pp) = true) :
    let t := pegVerdict (.hart d h) d v s
    Keeps [.lanePeg] s t ∧ ∀ x ∈ s.lanesOf d pp, t.fld (lanePeg d x) LanePeg.TAG = 0 ∧ t.fld (lanePeg d x) LanePeg.STATE = 4 ∧
      t.lane.request.find (d, x) = some (s.pegSet d x) := by
  have happly : pegVerdict (.hart d h) d v s = pegGoOn d pp 4 (requestSets d pp s) := by
    unfold pegVerdict
    simp only [hpp, hv]
    rw [if_neg (by simp [hgo, hd]), if_pos ⟨ht, hw, hok, rfl⟩]
    rfl
  rw [happly]
  refine ⟨((requestSets_keeps s d pp).trans (keeps_pegGoOn d pp 4 _)).mono (by simp), fun x hx => ?_⟩
  have hlane : x ∈ (requestSets d pp s).lanesOf d pp := by rwa [State.lanesOf_congr d pp (requestSets_live s d pp)]
  refine ⟨pegGoOn_tag d pp 4 _ hlane, pegGoOn_state d pp 4 _ (by decide) hlane, ?_⟩
  rw [pegGoOn_lane]
  exact requestSets_find s d hx

end Verdict

/-! ### Lane tests (02 R71 to R74) -/

section Tests
variable (s : State) (d ll : Nat)

/-- The test register of a lane. -/
def laneTestReg (d ll : Nat) : Reg := { name := .laneTest, die := d, i := ll }

/-- The registers of a lane under test. -/
def testRegs : List RegName := [.laneTest, .laneStat, .laneErrcnt, .laneBitcnt]

theorem setTestElec_beyond {ns : List RegName} (term eidle sig lock : Nat) (h : .laneStat ∈ ns) :
    (setTestElec d ll term eidle sig lock s).beyond ns = s.beyond ns := by
  unfold setTestElec
  simp [h]

theorem setTestElec_eidle (term eidle sig lock : Nat) (h : eidle < 2) :
    (setTestElec d ll term eidle sig lock s).fld (laneStat d ll) LaneStat.EIDLE = eidle := by
  unfold setTestElec
  rw [State.fld_setFld_apart _ _ _ (by decide) (by decide), State.fld_setFld_apart _ _ _ (by decide) (by decide),
    State.fld_setFld_same _ _ LaneStat.EIDLE _ (by decide) (by decide)]
  exact Nat.mod_eq_of_lt h

theorem addCount_beyond {ns : List RegName} (r : Reg) (n : Nat) (h : r.name ∈ ns) : (addCount r n s).beyond ns = s.beyond ns :=
  s.beyond_setReg _ h

theorem clearCounts_beyond {ns : List RegName} (he : .laneErrcnt ∈ ns) (hb : .laneBitcnt ∈ ns) :
    (clearCounts d ll s).beyond ns = s.beyond ns := by
  unfold clearCounts
  simp [laneErrcnt, laneBitcnt, he, hb]

theorem injectError_beyond {ns : List RegName} (he : .laneErrcnt ∈ ns) : (injectError d ll s).beyond ns = s.beyond ns := by
  unfold injectError
  simp [addCount_beyond, laneErrcnt, he]

/-- INJECT adds one error on a lane whose checker is synchronised. -/
theorem injectError_counts (hg : s.fld (laneTestReg d ll) LaneTest.GEN = 1) (hc : s.fld (laneTestReg d ll) LaneTest.CHK = 1)
    (hs : s.fld (laneTestReg d ll) LaneTest.SYNC = 1) (hn : (s.reg (laneErrcnt d ll)).toNat < 2 ^ 64 - 1) :
    injectError d ll s = s.setReg (laneErrcnt d ll) (s.reg (laneErrcnt d ll) + 1) := by
  have hadd : injectError d ll s = addCount (laneErrcnt d ll) 1 s := if_pos ⟨hg, hc, hs⟩
  rw [hadd, addCount, satAdd_eq _ _ _ (by omega)]
  congr 1

/-- The fields of a lane's test register that a permitted test writes. -/
structure TestSet (d ll : Nat) (v : Word) (s t : State) : Prop where
  beyond : t.beyond testRegs = s.beyond testRegs
  status : t.fld (laneTestReg d ll) LaneTest.STATUS = 1
  fields : ∀ f ∈ [LaneTest.LOOP, LaneTest.PAT, LaneTest.GEN, LaneTest.CHK], t.fld (laneTestReg d ll) f = f.of v

theorem TestSet.of_beyond {s t u : State} {d ll : Nat} {v : Word} {ns : List RegName} (h : TestSet d ll v s t) (hb : u.beyond ns = t.beyond ns)
    (hn : ∀ n ∈ ns, n ∈ testRegs) (ht : .laneTest ∉ ns) : TestSet d ll v s u := by
  have hfld := fun f => (keeps_of_beyond hb).fld (laneTestReg d ll) f ht
  exact ⟨(State.beyond_mono hb hn).trans h.beyond, (hfld _).trans h.status, fun f hf => (hfld f).trans (h.fields f hf)⟩

/-- A test that is permitted with a valid pattern. -/
theorem laneTest_sets {v : Word} {rx : LaneRx} (hd : d < s.dieCount) (hll : ll < 64) (hg : LaneTest.GEN.of v = 1) (hl : LaneTest.LOOP.of v ≤ 3)
    (hp : LaneTest.PAT.of v ≤ 7) (ha : s.testAllowed d ll = true) (hok : patternOk (LaneTest.PAT.of v) (s.laneRate d ll) = true) :
    TestSet d ll v s (laneTest d ll v rx s) := by
  unfold laneTest
  extract_lets r lp pat gen chk some1 s0 s1a s1 sync s2 drives s3 s4
  have hlp : lp = LaneTest.LOOP.of v := if_pos hl
  have hpat : pat = LaneTest.PAT.of v := if_pos hp
  have hsome : some1 = true := by simp [some1, gen, hg]
  have h0 : s0.beyond testRegs = s.beyond testRegs := by
    simp only [s0]
    split
    · exact clearCounts_beyond s d ll (by simp [testRegs]) (by simp [testRegs])
    · rfl
  clear_value s0 lp pat some1
  subst hlp hpat hsome
  rw [if_neg (not_not.mpr ⟨hd, hll⟩), if_neg (by simp [ha]), if_neg (by simp [hok]), if_neg (by simp)]
  have h1 : s1 = (s0.storeFlds r v [LaneTest.LOOP, LaneTest.PAT, LaneTest.GEN, LaneTest.CHK]).setFld r LaneTest.STATUS 1 := rfl
  have hset1 : TestSet d ll v s s1 := by
    rw [h1]
    refine ⟨?_, State.fld_setFld_same _ r LaneTest.STATUS 1 (by decide) (by decide), fun f hf => ?_⟩
    · rw [State.beyond_setFld _ _ _ (by simp [r, testRegs]), State.storeFlds_beyond _ _ _ _ (by simp [r, testRegs]), h0]
    · refine (State.fld_setFld_apart _ r _ (by decide) (by revert f; decide)).trans ?_
      exact s0.fld_storeFlds r v (by decide) (by decide) hf
  clear_value s1
  have hset2 : TestSet d ll v s s2 := by
    refine ⟨?_, (State.fld_setFld_apart _ r _ (by decide) (by decide)).trans hset1.status, fun f hf => ?_⟩
    · exact (s1.beyond_setFld _ _ (by simp [r, testRegs])).trans hset1.beyond
    · exact (State.fld_setFld_apart _ r _ (by decide) (by revert f; decide)).trans (hset1.fields f hf)
  clear_value s2
  have hset3 : TestSet d ll v s s3 := hset2.of_beyond (ns := [.laneStat]) (setTestElec_beyond _ _ _ _ _ _ _ (by simp)) (by decide) (by decide)
  clear_value s3
  have hset4 : TestSet d ll v s s4 := by
    simp only [s4]
    split
    · refine hset3.of_beyond (ns := [.laneErrcnt, .laneBitcnt]) ?_ (by decide) (by decide)
      exact (addCount_beyond _ (laneBitcnt d ll) _ (by simp [laneBitcnt])).trans (addCount_beyond _ (laneErrcnt d ll) _ (by simp [laneErrcnt]))
    · exact hset3
  clear_value s4
  split
  · exact hset4.of_beyond (injectError_beyond _ _ _ (ns := [.laneErrcnt]) (by simp)) (by decide) (by decide)
  · exact hset4

/-- A test that is not permitted shows its refusal. -/
theorem laneTest_refused {v : Word} {rx : LaneRx} (hd : d < s.dieCount) (hll : ll < 64) (hg : LaneTest.GEN.of v = 1) (hc : LaneTest.CLR.of v = 0)
    (ha : s.testAllowed d ll = false) : laneTest d ll v rx s = s.setFld (laneTestReg d ll) LaneTest.STATUS 2 := by
  unfold laneTest
  extract_lets r lp pat gen chk some1 s0 s1a s1 sync s2 drives s3 s4
  have hsome : some1 = true := by simp [some1, gen, hg]
  have h0 : s0 = s := if_neg (by omega)
  rw [if_neg (not_not.mpr ⟨hd, hll⟩), if_pos (by simp [hsome, ha]), h0]
  rfl

/-- The end of a test. -/
theorem laneTestEnd_reads : let t := laneTestEnd d ll s
    t.laneTests d ll = false ∧ t.fld (laneStat d ll) LaneStat.EIDLE = 1 ∧ Still s t := by
  unfold laneTestEnd
  extract_lets r s1 t
  have h1 : s1 = s.storeFlds r 0 [LaneTest.LOOP, LaneTest.GEN, LaneTest.CHK, LaneTest.SYNC, LaneTest.STATUS] := rfl
  have hzero : ∀ f ∈ [LaneTest.LOOP, LaneTest.GEN, LaneTest.CHK, LaneTest.SYNC, LaneTest.STATUS], s1.fld r f = 0 := by
    intro f hf
    rw [h1, s.fld_storeFlds r 0 (by decide) (by decide) hf]
    revert f
    decide
  have hb1 : s1.beyond testRegs = s.beyond testRegs := by
    rw [h1]
    exact s.storeFlds_beyond r 0 _ (by simp [r, testRegs])
  clear_value s1
  have ht : t.beyond [.pwrDom] = (setTestElec d ll 0 1 0 0 s1).beyond [.pwrDom] := autoQuadOff_beyond _ d (ll / 4) (by simp)
  have helec : (setTestElec d ll 0 1 0 0 s1).beyond [.laneStat] = s1.beyond [.laneStat] := setTestElec_beyond s1 d ll 0 1 0 0 (by simp)
  clear_value t
  have hkt := keeps_of_beyond ht
  have hke := keeps_of_beyond helec
  have hfld : ∀ f ∈ [LaneTest.LOOP, LaneTest.GEN, LaneTest.CHK, LaneTest.SYNC, LaneTest.STATUS], t.fld r f = 0 := fun f hf => by
    rw [hkt.fld r f (by simp [r]), hke.fld r f (by simp [r]), hzero f hf]
  refine ⟨?_, ?_, Still.trans (still_of_beyond hb1) (Still.trans (still_of_beyond helec) (still_of_beyond ht))⟩
  · unfold State.laneTests
    simp only [show ({ name := .laneTest, die := d, i := ll } : Reg) = r from rfl]
    rw [hfld _ (by simp), hfld LaneTest.GEN (by simp), hfld LaneTest.CHK (by simp)]
    rfl
  · rw [hkt.fld _ _ (by simp), setTestElec_eidle s1 d ll 0 1 0 0 (by decide)]

end Tests

/-! ### Low power (02 R68 to R70) -/

section LowPower
variable (s : State) (d pp : Nat)

theorem State.linkState_modLink (e k : Nat) (f : LinkSt → LinkSt) : (s.modLink e k f).linkState d pp = s.linkState d pp := rfl

/-- A PCIe link enters L0s, L1 or L2. -/
theorem lowPowerEntry_reads {k w : Nat} (h3 : s.linkState d pp = 3) (hk : k ∈ [1, 2, 6]) (hn : s.isNerov (gport d pp) = false)
    (hf : k = 1 → s.fld (lreg .linkStat d pp) LinkStat.FLIT = 0) : let t := lowPowerEntry d pp k w s
    t.linkState d pp = 5 ∧ (t.link d pp).lowPower = k ∧ Keeps [.linkStat, .laneRxeq, .laneDfe] s t := by
  have henter : lowPowerEntry d pp k w s = (setLinkState d pp 5 (holdLanes d pp s)).modLink d pp fun l => { l with lowPower := k } := by
    have h5 : k ≠ 5 := by rintro rfl; simp at hk
    unfold lowPowerEntry
    extract_lets g st flit nerov
    have hpcie : ¬ nerov = true := by simp [nerov, g, hn]
    rw [if_neg (not_not.mpr h3), if_neg h5, if_pos ?_]
    simp only [List.mem_cons, List.not_mem_nil, or_false] at hk
    rcases hk with h | h | h
    · exact .inl ⟨h, hpcie, hf h⟩
    · exact .inr (.inl ⟨h, hpcie⟩)
    · exact .inr (.inr (.inr (.inr ⟨h, hpcie⟩)))
  rw [henter]
  refine ⟨?_, ?_, keeps_of_beyond ?_⟩
  · rw [State.linkState_modLink, setLinkState_linkState_same _ d pp 5 (by decide)]
  · rw [State.link_modLink_same]
  · rw [State.beyond_modLink, setLinkState_beyond _ _ _ _ (by simp), holdLanes_beyond _ _ _ (by simp) (by simp)]

/-- The number of fast exits of a lane that failed in a row is counted. -/
def countFails (d ll n : Nat) (s : State) : State := s.modLane fun x => { x with fastFail := x.fastFail.set (d, ll) n }

variable {lane ll : Nat}

/-- A fast exit of a Nerov link that may take it. -/
theorem nerovFastExit_eq (locked : Bool) (hn : s.isNerov (gport d pp) = true) (h5 : s.linkState d pp = 5) (h4 : (s.link d pp).lowPower = 4)
    (hfast : (s.link d pp).noFastExit = false) (hlane : (s.lanesOf d pp)[lane]? = some ll) : nerovFastExit d pp lane locked s =
      let n := if locked then 0 else s.lane.fastFail.get 0 (d, ll) + 1
      if 3 ≤ n then fullRetrain d pp ((countFails d ll n s).modLink d pp fun l => { l with noFastExit := true })
      else pumpLink d pp ((setLinkState d pp 3 ((countFails d ll n s).setFld (laneStat d ll) LaneStat.LOCK (b2n locked))).modLink d pp
        fun l => { l with lowPower := 0 }) := by
  unfold nerovFastExit
  extract_lets l
  rw [hlane]
  dsimp only
  rw [if_neg (by simp [hn, h5, l, h4]), if_neg (by simp [l, hfast])]
  rfl

/-- A fast exit with lock reaches UP. -/
theorem nerovFastExit_locks (hn : s.isNerov (gport d pp) = true) (h5 : s.linkState d pp = 5) (h4 : (s.link d pp).lowPower = 4)
    (hfast : (s.link d pp).noFastExit = false) (hlane : (s.lanesOf d pp)[lane]? = some ll) : let t := nerovFastExit d pp lane true s
    t.linkState d pp = 3 ∧ (t.link d pp).lowPower = 0 ∧ Keeps [.linkStat, .laneStat] s t := by
  have heq : nerovFastExit d pp lane true s = pumpLink d pp ((setLinkState d pp 3 ((countFails d ll 0 s).setFld (laneStat d ll) LaneStat.LOCK
      (b2n true))).modLink d pp fun l => { l with lowPower := 0 }) := nerovFastExit_eq s d pp true hn h5 h4 hfast hlane
  rw [heq]
  generalize hu : (countFails d ll 0 s).setFld (laneStat d ll) LaneStat.LOCK (b2n true) = u
  have hbeyond : u.beyond [.linkStat, .laneStat] = s.beyond [.linkStat, .laneStat] := by
    rw [← hu]
    exact State.beyond_setFld _ _ _ (by simp)
  generalize hw : (setLinkState d pp 3 u).modLink d pp (fun l => { l with lowPower := 0 }) = w
  have hstate : w.linkState d pp = 3 := by rw [← hw, State.linkState_modLink, setLinkState_linkState_same u d pp 3 (by decide)]
  have hlow : (w.link d pp).lowPower = 0 := by rw [← hw, State.link_modLink_same]
  have hwu : w.beyond [.linkStat, .laneStat] = u.beyond [.linkStat, .laneStat] := by
    rw [← hw, State.beyond_modLink, setLinkState_beyond _ _ _ _ (by simp)]
  obtain ⟨-, -, hpump⟩ := pumpLink_flags w d pp
  refine ⟨?_, hpump.trans hlow, keeps_of_beyond ((pumpLink_beyond w d pp).trans (hwu.trans hbeyond))⟩
  exact (linkState_of_keeps d pp (keeps_of_beyond (ns := []) (pumpLink_beyond w d pp)) (by simp)).trans hstate

/-- A third fast exit without lock ends fast exits: the link retrains fully. -/
theorem nerovFastExit_gives_up (hpp : pp < 16) (hn : s.isNerov (gport d pp) = true) (h5 : s.linkState d pp = 5)
    (h4 : (s.link d pp).lowPower = 4) (hfast : (s.link d pp).noFastExit = false) (hlane : (s.lanesOf d pp)[lane]? = some ll)
    (hfails : 2 ≤ s.lane.fastFail.get 0 (d, ll)) : let t := nerovFastExit d pp lane false s
    t.linkState d pp = 4 ∧ (t.link d pp).noFastExit = true ∧ (t.link d pp).fullTrain = true ∧
      Keeps [.linkStat, .linkErr, .laneRxeq, .laneDfe] s t := by
  have heq : nerovFastExit d pp lane false s = fullRetrain d pp
      ((countFails d ll (s.lane.fastFail.get 0 (d, ll) + 1) s).modLink d pp fun l => { l with noFastExit := true }) := by
    rw [nerovFastExit_eq s d pp false hn h5 h4 hfast hlane]
    exact if_pos (by simpa using hfails)
  rw [heq]
  generalize hu : (countFails d ll (s.lane.fastFail.get 0 (d, ll) + 1) s).modLink d pp (fun l => { l with noFastExit := true }) = u
  have hno : (u.link d pp).noFastExit = true := by rw [← hu, State.link_modLink_same]
  have hbeyond : u.beyond [.linkStat, .linkErr, .laneRxeq, .laneDfe] = s.beyond [.linkStat, .linkErr, .laneRxeq, .laneDfe] := by
    rw [← hu]
    rfl
  unfold fullRetrain
  rw [retrain_port u d hpp]
  refine ⟨?_, ?_, ?_, keeps_of_beyond ?_⟩
  · rw [State.linkState_modLink, retrainEnd_linkState]
  · rw [State.link_modLink_same]
    exact (congrArg LinkSt.noFastExit (retrainEnd_link u d pp d pp)).trans hno
  · rw [State.link_modLink_same]
  · rw [State.beyond_modLink, retrainEnd_beyond u d pp (by simp) (by simp) (by simp) (by simp), hbeyond]

/-- A lane of the live map belongs to one of the 16 ports of its die. -/
theorem quadPorts_lt (w p : Nat) (h : some p ∈ quadPorts w) : p < 16 := by
  unfold quadPorts at h
  extract_lets lo hi at h
  have hlo : lo < 16 := Nat.mod_lt _ (by decide)
  have hhi : hi < 16 := Nat.mod_lt _ (by decide)
  split at h <;> simp only [List.mem_cons, Option.some.injEq, List.not_mem_nil, or_false, reduceCtorEq, or_self] at h <;> omega

theorem State.port_lt_of_mem_lanesOf {x : Nat} (h : x ∈ s.lanesOf d pp) : pp < 16 := by
  simp only [State.lanesOf, List.mem_filter, beq_iff_eq] at h
  obtain ⟨-, hport⟩ := h
  have hmem : some pp ∈ s.lanePorts d := by
    rw [List.getD_eq_getElem?_getD] at hport
    cases hget : (s.lanePorts d)[x]? with
    | none => simp [hget] at hport
    | some o =>
      rw [hget, Option.getD_some] at hport
      exact hport ▸ List.mem_of_getElem? hget
  simp only [State.lanePorts, List.mem_flatten, List.mem_map] at hmem
  obtain ⟨l, ⟨q, -, rfl⟩, hl⟩ := hmem
  exact quadPorts_lt _ _ hl

end LowPower

/-! ### The statement -/

/-- Settles O10: each clause is what the one operation that its command runs leaves. -/
theorem laneMapEqualizationAndTests : Obligations.LaneMapEqualizationAndTests := by
  unfold Obligations.LaneMapEqualizationAndTests
  intro s d ll v rx hd hll tx test stat sum stores
  have hstores : txeqWrite d ll v s = s.storeFlds tx v [LaneTxeq.OVR, LaneTxeq.CM2, LaneTxeq.CM1, LaneTxeq.C0, LaneTxeq.CP1] → stores := by
    intro h
    refine ⟨_, congrArg Host.Outcome.next h, storeFlds_keeps s tx v _, fun f hf => ?_⟩
    exact s.fld_storeFlds tx v (by decide) (by decide) hf
  refine ⟨fun hno => ⟨_, rfl, ?_⟩, fun hok => ⟨_, rfl, applyMap_reads s d hd hok⟩, fun ho hsum => ⟨_, rfl, ?_⟩,
    fun ho => hstores (txeqWrite_stores s d hd hll (by omega)), fun ho hsum h2 h1 h0 => hstores (txeqWrite_stores s d hd hll fun _ => ?_),
    fun h pp tag hgo hp hv ht hw hok => ⟨_, rfl, pegVerdict_reads s d hd hgo hp hv ht hw hok⟩, fun hg hl hp ha hok => ⟨_, rfl, ?_⟩,
    fun hg hc ha => ⟨_, rfl, laneTest_refused s d ll hd hll hg hc ha⟩, fun hg hc hs hn => ⟨_, rfl, ?_⟩,
    ⟨_, rfl, if_pos ⟨hd, hll⟩⟩, fun htests => ⟨_, congrArg Host.Outcome.next (if_pos ⟨hd, hll, htests⟩), laneTestEnd_reads s d ll⟩,
    fun pp k w h3 hk hn hf => ⟨_, rfl, lowPowerEntry_reads s d pp h3 hk hn hf⟩, fun pp h5 h4 => ⟨_, rfl, if_pos ⟨h5, h4⟩⟩,
    fun pp lane hn h5 h4 hfast hlane => ⟨⟨_, rfl, nerovFastExit_locks s d pp hn h5 h4 hfast hlane⟩, fun hfails => ⟨_, rfl, ?_⟩⟩⟩
  · unfold applyMap
    simp [hd, hno]
  · exact txeqWrite_refused s d ho hsum
  · simp [coeffOk, h2, h1]
    omega
  · obtain ⟨hbeyond, hstatus, hfields⟩ := laneTest_sets s d ll (rx := rx) hd hll hg hl hp ha hok
    exact ⟨hstatus, hfields, keeps_of_beyond hbeyond⟩
  · rw [if_pos ⟨hd, hll⟩]
    exact injectError_counts s d ll hg hc hs hn
  · exact nerovFastExit_gives_up s d pp (s.port_lt_of_mem_lanesOf d pp (List.mem_of_getElem? hlane)) hn h5 h4 hfast hlane hfails

end Sys2Proof.Machine
end

section
/-! SUPPORT. Changes of one link engine that follow each other, flits that are received and acknowledged, and flits that the ack timer sends
again: what each operation leaves (03 R80 to R86, R94). -/

namespace Sys2Proof.Machine

/-! ### Changes of one link engine -/

theorem FMap.erase_erase {κ α : Type} [DecidableEq κ] (m : FMap κ α) (k : κ) : (m.erase k).erase k = m.erase k := by
  induction m with
  | nil => rfl
  | cons x m ih => by_cases h : x.1 = k <;> simp [FMap.erase, h, ih]

/-- The later of two values set at a key counts. -/
theorem FMap.set_set {κ α : Type} [DecidableEq κ] (m : FMap κ α) (k : κ) (v w : α) : (m.set k v).set k w = m.set k w := by
  have herase : (m.set k v).erase k = (m.erase k).erase k := if_pos rfl
  unfold FMap.set at herase ⊢
  rw [herase, FMap.erase_erase]

section Engines
variable (s : State) (d i : Nat)

/-- Two changes of one link engine are one. -/
theorem State.modLink_modLink (f g : LinkSt → LinkSt) : (s.modLink d i f).modLink d i g = s.modLink d i fun l => g (f l) := by
  have hlink : (s.modLink d i f).link d i = f (s.link d i) := s.link_modLink_same d i f
  have hset : (s.modLink d i f).links.set (d, i) (g (f (s.link d i))) = s.links.set (d, i) (g (f (s.link d i))) := FMap.set_set _ _ _ _
  calc (s.modLink d i f).modLink d i g
      = { s with links := (s.modLink d i f).links.set (d, i) (g ((s.modLink d i f).link d i)) } := rfl
    _ = s.modLink d i fun l => g (f l) := by rw [hlink, hset]; rfl

/-- A change is what it makes of the engine. -/
theorem State.modLink_congr {f g : LinkSt → LinkSt} (h : f (s.link d i) = g (s.link d i)) : s.modLink d i f = s.modLink d i g := by
  unfold State.modLink
  rw [h]

theorem updateXoff_eq : ∃ x, updateXoff d i s = s.modLink d i fun l => { l with xoffOut := x } := by
  unfold updateXoff
  extract_lets h all
  exact ⟨_, s.modLink_congr d i rfl⟩

@[simp] theorem updateXoff_beyond {ns : List RegName} : (updateXoff d i s).beyond ns = s.beyond ns := by unfold updateXoff; simp

/-- A link engine was changed by `f`, and some XOFF bits are sent. -/
def Relinked (f : LinkSt → LinkSt) (s t : State) : Prop := ∃ x, t = s.modLink d i fun l => { f l with xoffOut := x }

variable {s d i}

theorem relinked_updateXoff : Relinked d i id s (updateXoff d i s) := updateXoff_eq s d i

theorem relinked_updateXoff_modLink (f : LinkSt → LinkSt) : Relinked d i f s (updateXoff d i (s.modLink d i f)) := by
  obtain ⟨x, hx⟩ := updateXoff_eq (s.modLink d i f) d i
  exact ⟨x, hx.trans (s.modLink_modLink d i f _)⟩

/-- A further change of an engine that leaves the XOFF bits. -/
theorem Relinked.modLink {t : State} {f g h : LinkSt → LinkSt} (ht : Relinked d i f s t)
    (hg : ∀ x, g { f (s.link d i) with xoffOut := x } = { h (s.link d i) with xoffOut := x }) : Relinked d i h s (t.modLink d i g) := by
  obtain ⟨x, rfl⟩ := ht
  exact ⟨x, (s.modLink_modLink d i _ g).trans (s.modLink_congr d i (hg x))⟩

theorem Relinked.updateXoff {t : State} {f : LinkSt → LinkSt} (ht : Relinked d i f s t) : Relinked d i f s (updateXoff d i t) := by
  obtain ⟨x, rfl⟩ := ht
  obtain ⟨y, hy⟩ := updateXoff_eq (s.modLink d i fun l => { f l with xoffOut := x }) d i
  exact ⟨y, hy.trans (s.modLink_modLink d i _ _)⟩

theorem Relinked.link {t : State} {f : LinkSt → LinkSt} (ht : Relinked d i f s t) :
    ∃ x, t.link d i = { f (s.link d i) with xoffOut := x } := by
  obtain ⟨x, rfl⟩ := ht
  exact ⟨x, s.link_modLink_same d i _⟩

end Engines

/-! ### Fault sources of a link (03 R108) -/

/-- A fault source leaves the fields of its register that do not hold its bit. -/
theorem fld_raise_apart {r : Reg} {f g : Field} (s : State) (h64 : f.lo < 64) (hd : g.hi < f.lo ∨ f.lo < g.lo) :
    (raise r f s).fld r g = s.fld r g := by
  unfold raise State.fld
  rcases raiseFault_cases { reg := r, bit := f.lo } s with ⟨he, -⟩ | ⟨-, he⟩
  · rw [he]
  · rw [he, State.reg_modFlt, State.reg_setReg_same, getBits_setBits_other _ _ _ _ _ _ (le_refl _) h64 hd]

/-- A source of a link whose die is in service reads 1 once set. -/
theorem fld_raise_linkErr {s : State} {d i : Nat} {f : Field} (ha : s.active d = true) (hf : f.hi = f.lo) (h64 : f.lo < 64) :
    (raise (lreg .linkErr d i) f s).fld (lreg .linkErr d i) f = 1 := fld_raise (lreg .linkErr d i) f s ha hf h64

/-! ### Flits that are received (03 R81, R85) -/

section Receive
variable {s : State} {d i : Nat} {f : Flit}

/-- A flit that fails its checks sets CRC. -/
theorem flitReceive_bad (hl : s.linkLive d i = true) (hbad : f.good = false) :
    flitReceive d i f s = raise (lreg .linkErr d i) LinkErr.CRC s := by
  unfold flitReceive
  rw [if_neg (not_not.mpr hl), if_pos (by simp [hbad])]

/-- A good flit with a sequence number and without a trailer is classified, and XOFF is brought up to date. -/
theorem flitReceive_sequenced (hl : s.linkLive d i = true) (hok : f.good = true) (ht : f.typ ≠ 0) (ha : f.ackv = false) (hf : f.fcv = false) :
    flitReceive d i f s = updateXoff d i (receiveSeq d i f s) := by
  unfold flitReceive
  simp [hl, hok, ht, ha, hf]

/-- A good IDLE flit that acknowledges brings its acknowledgement. -/
theorem flitReceive_idle (hl : s.linkLive d i = true) (hok : f.good = true) (ht : f.typ = 0) (ha : f.ackv = true) (hf : f.fcv = false) :
    flitReceive d i f s = takeAck d i f (updateXoff d i s) := by
  unfold flitReceive
  simp [hl, hok, ht, ha, hf]

theorem drainReorder_empty (n : Nat) {l : LinkSt} (h : l.reorder = []) : drainReorder n l = l := by
  cases n with
  | zero => rfl
  | succ n => unfold drainReorder; rw [h]; rfl

/-- The flit next in order leaves an empty reorder buffer at once. -/
theorem drainReorder_next (n : Nat) {l : LinkSt} (hseq : f.seq = (l.rxAck + 1) % 65536) (hempty : l.reorder = []) :
    drainReorder (n + 1) { l with reorder := l.reorder ++ [f] } =
      { l with rxAck := f.seq, toCore := if f.typ = 1 then l.toCore ++ [f] else l.toCore } := by
  have hfirst : takeFirst (fun x => x.seq == (l.rxAck + 1) % 65536) (l.reorder ++ [f]) = some (f, []) := by
    simp [hempty, takeFirst, hseq]
  unfold drainReorder
  simp only [hfirst]
  rw [drainReorder_empty n rfl, ← hempty]

/-- The flit next in order is handed on and is the last one acknowledged (03 R85). -/
theorem receiveSeq_next (hseq : f.seq = ((s.link d i).rxAck + 1) % 65536) (hempty : (s.link d i).reorder = []) :
    receiveSeq d i f s = s.modLink d i fun l => { l with rxAck := f.seq, toCore := if f.typ = 1 then l.toCore ++ [f] else l.toCore } := by
  unfold receiveSeq
  extract_lets l dist
  have hdist : dist < 512 := by
    simp only [dist, l, hseq]
    omega
  rw [if_pos hdist, if_neg (by simp [l, hempty])]
  exact s.modLink_congr d i (drainReorder_next 511 hseq hempty)

/-- A flit far out of sequence sets SEQ (03 R85). -/
theorem receiveSeq_far (h : 512 ≤ (f.seq + 65536 + 65536 - (s.link d i).rxAck - 1) % 65536)
    (h' : (f.seq + 65536 + 65536 - (s.link d i).rxAck - 1) % 65536 < 65024) :
    receiveSeq d i f s = raise (lreg .linkErr d i) LinkErr.SEQ s := by
  unfold receiveSeq
  extract_lets l dist
  rw [if_neg (not_lt.mpr h), if_neg (not_le.mpr h')]

/-- A flit far out of sequence that arrives leaves what was handed on and what was acknowledged. -/
theorem flitReceive_far_reads (ha : s.active d = true) (hl : s.linkLive d i = true) (hok : f.good = true) (ht : f.typ ≠ 0)
    (hackv : f.ackv = false) (hfcv : f.fcv = false) (h : 512 ≤ (f.seq + 65536 + 65536 - (s.link d i).rxAck - 1) % 65536)
    (h' : (f.seq + 65536 + 65536 - (s.link d i).rxAck - 1) % 65536 < 65024) : let t := flitReceive d i f s
    t.fld (lreg .linkErr d i) LinkErr.SEQ = 1 ∧ (t.link d i).toCore = (s.link d i).toCore ∧ (t.link d i).rxAck = (s.link d i).rxAck ∧
      Keeps [.linkErr] s t := by
  have hlink := State.link_congr (raise_links (lreg .linkErr d i) LinkErr.SEQ s) d i
  have hsource : (raise (lreg .linkErr d i) LinkErr.SEQ s).fld (lreg .linkErr d i) LinkErr.SEQ = 1 := fld_raise_linkErr ha rfl (by decide)
  have hraise := keeps_raise (lreg .linkErr d i) LinkErr.SEQ s
  rw [flitReceive_sequenced hl hok ht hackv hfcv, receiveSeq_far h h']
  generalize raise (lreg .linkErr d i) LinkErr.SEQ s = u at hlink hsource hraise
  obtain ⟨x, hx⟩ := updateXoff_eq u d i
  rw [hx, ← hlink]
  refine ⟨hsource, ?_, ?_, hraise⟩ <;> rw [State.link_modLink_same]

end Receive

/-! ### Acknowledgements (03 R84, R86) -/

section Ack
variable {s : State} {d i : Nat}

/-- Where no held flit is picked, a replay brings at most XOFF up to date. -/
theorem Relinked.replayFlits_none {t : State} {g : LinkSt → LinkSt} {p : HeldFlit → Bool} (ht : Relinked d i g s t) (hp : ∀ h, p h = false) :
    Relinked d i g s (replayFlits d i p t) := by
  unfold replayFlits
  split
  · exact ht
  · extract_lets u hit stamp u1
    have hhit : hit = [] := by simp [hit, hp]
    have hu1 : Relinked d i g s u1 := ht.updateXoff.modLink fun x => by simp [hhit, hp]
    rw [hhit]
    exact hu1

/-- With nothing new to send, a link sends nothing. -/
theorem pump_empty (now : Nat) (span : Bool) (n : Nat) {l : LinkSt} (h : l.newQ = []) : pump now span n l = l := by
  cases n with
  | zero => rfl
  | succ n => unfold pump; simp [h, takeFirst]

theorem Relinked.pumpLink_empty {t : State} {g : LinkSt → LinkSt} (ht : Relinked d i g s t) (hq : (g (s.link d i)).newQ = []) :
    Relinked d i g s (pumpLink d i t) := by
  unfold pumpLink
  split
  · exact ht.modLink fun x => pump_empty _ _ _ hq
  · exact ht

/-- The engine with the flits released that an acknowledgement covers. -/
def LinkSt.released (ack : Nat) (l : LinkSt) : LinkSt := { l with held := l.held.filter fun h => !(covers ack h.flit.seq) }

/-- An acknowledgement with an empty bitmap of a port that has nothing new to send releases the flits that it covers. -/
theorem takeAck_releases {t : State} {f : Flit} (hi : i < 16) (ht : Relinked d i id s t) (hmap : f.ackmap = 0)
    (hsent : (s.link d i).neverSent f.ack = false) (hq : (s.link d i).newQ = []) (hlate : (s.link d i).lateAck = none) :
    Relinked d i (LinkSt.released f.ack) s (takeAck d i f t) := by
  obtain ⟨x, hx⟩ := ht.link
  have hnever : (t.link d i).neverSent f.ack = false := by rw [hx]; exact hsent
  have hlate' : (t.link d i).lateAck = none := by rw [hx]; exact hlate
  unfold takeAck
  extract_lets l top acked t0 t1 rtt missing
  have h0 : Relinked d i (LinkSt.released f.ack) s t0 := ht.modLink fun _ => rfl
  have h1 : t1 = t0 := if_pos hi
  have hmissing : ∀ h, missing h = false := fun h => by simp [missing, hmap]
  rw [if_neg (by simp [l, hnever, hmap]), if_neg (by simp [l, hlate']), h1]
  exact (h0.replayFlits_none hmissing).pumpLink_empty hq

end Ack

/-! ### The ack timer (03 R86, R94) -/

section AckTimer
variable {s : State} {d i : Nat} {h : HeldFlit} {rest : List HeldFlit}

/-- The engine with its oldest held flit sent again at a time. -/
def LinkSt.resent (span : Bool) (now : Nat) (h : HeldFlit) (rest : List HeldFlit) (l : LinkSt) : LinkSt :=
  let g := l.trailed span h.flit
  { l with held := { h with replays := h.replays + 1, sentAt := now, flit := g } :: rest, sent := some g }

/-- The replay of the oldest flit alone: it is sent again under the XOFF bits of the moment, and escalates by its count. -/
theorem replayFlits_oldest (hheld : (s.link d i).held = h :: rest) (hne : ∀ x ∈ rest, x.flit.seq ≠ h.flit.seq) (h3 : s.linkState d i = 3) :
    ∃ x, replayFlits d i (fun y => y.flit.seq == h.flit.seq) s = flitEscalate d i (h.replays + 1)
      (s.modLink d i fun l => ({ l with xoffOut := x }).resent (decide (16 ≤ i)) s.now h rest) := by
  obtain ⟨x, hx⟩ := updateXoff_eq s d i
  have hnot : ∀ y ∈ rest, ¬ (y.flit.seq == h.flit.seq) = true := fun y hy => by simp [hne y hy]
  refine ⟨x, ?_⟩
  unfold replayFlits
  rw [if_neg (not_not.mpr h3)]
  extract_lets u hit stamp u1
  have hhit : hit = [h] := by
    simp only [hit, u, hx, State.link_modLink_same, hheld]
    rw [List.filter_cons_of_pos (by simp), List.filter_eq_nil_iff.mpr hnot]
  have hu1 : u1 = s.modLink d i fun l => ({ l with xoffOut := x }).resent (decide (16 ≤ i)) s.now h rest := by
    have hrest : ∀ k : HeldFlit → HeldFlit, rest.map (fun y => if y.flit.seq = h.flit.seq then k y else y) = rest :=
      fun k => (List.map_congr_left fun y hy => if_neg (hne y hy)).trans rest.map_id'
    simp only [u1, u, hx, hhit, State.modLink_modLink]
    refine s.modLink_congr d i ?_
    simp [hheld, hrest, LinkSt.resent, stamp]
  rw [hhit, hu1]
  rfl

/-- The ack timer sends the oldest flit alone again; an acknowledgement of it that comes now is late. -/
theorem ackTimerExpire_resends (hheld : (s.link d i).held = h :: rest) (hne : ∀ x ∈ rest, x.flit.seq ≠ h.flit.seq) (h3 : s.linkState d i = 3) :
    ∃ x, ackTimerExpire d i s = flitEscalate d i (h.replays + 1)
      (s.modLink d i fun l => ({ l with lateAck := some h.flit.seq, xoffOut := x }).resent (decide (16 ≤ i)) s.now h rest) := by
  have hmarked : ((s.modLink d i fun l => { l with lateAck := some h.flit.seq }).link d i).held = h :: rest := by
    rw [State.link_modLink_same]
    exact hheld
  obtain ⟨x, hx⟩ := replayFlits_oldest hmarked hne h3
  refine ⟨x, ?_⟩
  rw [State.modLink_modLink] at hx
  unfold ackTimerExpire
  rw [hheld]
  exact (if_neg (not_not.mpr h3)).trans hx

/-- Fewer than four replays of a flit are counted. -/
theorem flitEscalate_counts {n : Nat} (hn : n < 4) : flitEscalate d i n s = s.count (lreg .linkCnt d i) LinkCnt.REPLAYS 1 := by
  unfold flitEscalate
  dsimp only
  rw [if_neg (by omega), if_neg (by omega), if_neg (by omega)]

/-- The fourth replay of a flit of a port sets REPLAYLIM and retrains. -/
theorem flitEscalate_fourth (hi : i < 16) : flitEscalate d i 4 s =
    retrainEnd d i (raise (lreg .linkErr d i) LinkErr.REPLAYLIM (s.count (lreg .linkCnt d i) LinkCnt.REPLAYS 1)) := by
  unfold flitEscalate
  dsimp only
  rw [if_pos rfl, if_neg (by omega), retrain_port _ d hi]

/-- A retrain leaves the sources of its link but RETRAIN. -/
theorem retrainEnd_fld_linkErr {f : Field} (hf : f.hi < LinkErr.RETRAIN.lo ∨ LinkErr.RETRAIN.lo < f.lo) :
    (retrainEnd d i s).fld (lreg .linkErr d i) f = s.fld (lreg .linkErr d i) f := by
  have hbefore : ((holdLanes d i s).count (lreg .linkStat d i) LinkStat.RETRAINS 1).beyond [.laneRxeq, .laneDfe, .linkStat] =
      s.beyond [.laneRxeq, .laneDfe, .linkStat] := by simp
  have hafter := keeps_of_beyond (setLinkState_beyond (ns := [.linkStat])
    (raise (lreg .linkErr d i) LinkErr.RETRAIN ((holdLanes d i s).count (lreg .linkStat d i) LinkStat.RETRAINS 1)) d i 4 (by simp))
  unfold retrainEnd
  rw [hafter.fld _ _ (by simp), fld_raise_apart _ (by decide) hf, (keeps_of_beyond hbefore).fld _ _ (by simp)]

end AckTimer

end Sys2Proof.Machine
end

section
/-! SUPPORT. Packets that a PCIe port sends again, DLLPs, measured round trips, and lanes marked bad: what each operation leaves
(03 R78, R79, R87, R91 to R93). -/

namespace Sys2Proof.Machine

/-! ### The PCIe replay timer (03 R78) -/

section ReplayTimer
variable {s : State} {d pp : Nat}

/-- The packet with one more replay counted. -/
def HeldTlp.again (h : HeldTlp) : HeldTlp := { h with replays := h.replays + 1 }

/-- A replay buffer after a packet was sent again from it. -/
def bumpTlp (h : HeldTlp) (l : List HeldTlp) : List HeldTlp :=
  l.map fun x => if x.seq = h.seq then { x with replays := h.replays + 1, recovered := h.recovered } else x

theorem bumpTlp_apart {h : HeldTlp} {l : List HeldTlp} (hne : ∀ x ∈ l, x.seq ≠ h.seq) : bumpTlp h l = l :=
  (List.map_congr_left fun x hx => if_neg (hne x hx)).trans l.map_id'

/-- Where the packets differ in their numbers, each packet sent again counts its own replay. -/
theorem foldl_bumpTlp {l : List HeldTlp} : ∀ {done : List HeldTlp}, ((done ++ l).map fun h => h.seq).Nodup →
    l.foldl (fun m h => bumpTlp h m) (done ++ l) = done ++ l.map HeldTlp.again := by
  induction l with
  | nil => exact fun _ => rfl
  | cons h rest ih =>
    intro done hnodup
    have hapart : (∀ x ∈ done, x.seq ≠ h.seq) ∧ ∀ x ∈ rest, x.seq ≠ h.seq := by
      simp only [List.map_append, List.map_cons, List.nodup_append, List.nodup_cons, List.mem_map, List.mem_cons] at hnodup
      obtain ⟨-, ⟨hrest, -⟩, hdone⟩ := hnodup
      exact ⟨fun x hx => hdone _ ⟨x, hx, rfl⟩ _ (.inl rfl), fun x hx he => hrest ⟨x, hx, he⟩⟩
    have hstep : bumpTlp h (done ++ h :: rest) = (done ++ [h.again]) ++ rest := by
      have hdone := bumpTlp_apart hapart.1
      have hrest := bumpTlp_apart hapart.2
      unfold bumpTlp at hdone hrest ⊢
      rw [List.map_append, List.map_cons, hdone, hrest, if_pos rfl, List.append_assoc]
      rfl
    have hnodup' : (((done ++ [h.again]) ++ rest).map fun x => x.seq).Nodup := by simpa [HeldTlp.again] using hnodup
    rw [List.foldl_cons, hstep, ih hnodup', List.append_assoc]
    rfl

/-- A packet that has not reached its limit is sent again and counted. -/
theorem replayTlp_below {h : HeldTlp} (hn : h.replays + 1 < s.replayN d pp) : replayTlp d pp h s =
    (s.modLink d pp fun l => { l with replay := bumpTlp h l.replay }).count (lreg .linkCnt d pp) LinkCnt.REPLAYS 1 := by
  unfold replayTlp
  extract_lets lim n enters s1
  have henters : enters = false := by
    have hlow : ¬ lim ≤ n := not_le.mpr hn
    simp [enters, hlow]
  have hs1 : s1 = (s.modLink d pp fun l => { l with replay := bumpTlp h l.replay }).count (lreg .linkCnt d pp) LinkCnt.REPLAYS 1 := by
    simp only [s1, henters, Bool.or_false]
    rfl
  rw [if_neg (by simp [henters]), if_neg (by omega), hs1]

/-- Packets below their limits were sent again from a replay buffer that has become `l`: they are counted. -/
structure SentAgain (d pp : Nat) (l : List HeldTlp) (s t : State) : Prop where
  beyond : t.beyond [.linkCnt] = s.beyond [.linkCnt]
  replay : (t.link d pp).replay = l

theorem SentAgain.state {l : List HeldTlp} {t : State} (h : SentAgain d pp l s t) : t.linkState d pp = s.linkState d pp :=
  linkState_of_keeps d pp (keeps_of_beyond h.beyond) (by simp)

theorem SentAgain.limit {l : List HeldTlp} {t : State} (h : SentAgain d pp l s t) : t.replayN d pp = s.replayN d pp :=
  congrArg (· + 1) ((keeps_of_beyond h.beyond).fld (lreg .linkCfg d pp) LinkCfg.REPLAYN (by simp))

theorem SentAgain.next {l : List HeldTlp} {t : State} {h : HeldTlp} (ht : SentAgain d pp l s t) (hn : h.replays + 1 < s.replayN d pp) :
    SentAgain d pp (bumpTlp h l) s (replayTlp d pp h t) := by
  rw [replayTlp_below (ht.limit ▸ hn)]
  refine ⟨?_, ?_⟩
  · rw [State.beyond_count _ _ _ (by simp), State.beyond_modLink, ht.beyond]
  · rw [State.link_congr (State.count_links ..), State.link_modLink_same]
    exact congrArg (bumpTlp h) ht.replay

/-- The replay of every packet in L0, each below its limit. -/
theorem foldl_replayTlp (h3 : s.linkState d pp = 3) {hs : List HeldTlp} (hn : ∀ h ∈ hs, h.replays + 1 < s.replayN d pp) :
    ∀ {l : List HeldTlp} {t : State}, SentAgain d pp l s t → SentAgain d pp (hs.foldl (fun m h => bumpTlp h m) l) s
      (hs.foldl (fun t h => if t.linkState d pp = 3 then replayTlp d pp h t else t) t) := by
  induction hs with
  | nil => exact fun ht => ht
  | cons h hs ih =>
    intro l t ht
    rw [List.foldl_cons, List.foldl_cons, if_pos (ht.state.trans h3)]
    exact ih (fun x hx => hn x (.tail _ hx)) (ht.next (hn h (.head _)))

theorem portAer_beyond {ns : List RegName} (g : Nat) (f : Aer → Aer) (s : State) : (portAer g f s).beyond ns = s.beyond ns := by
  unfold portAer
  split
  · rfl
  · dsimp only
    split <;> rfl

theorem portAer_links (g : Nat) (f : Aer → Aer) (s : State) : (portAer g f s).links = s.links := by
  unfold portAer
  split
  · rfl
  · dsimp only
    split <;> rfl

/-- The replay timer in L0 sends every held packet again once. -/
theorem pcieReplayTimer_reads (h3 : s.linkState d pp = 3) (hnodup : ((s.link d pp).replay.map fun h => h.seq).Nodup)
    (hn : ∀ h ∈ (s.link d pp).replay, h.replays + 1 < s.replayN d pp) :
    ∃ t, execPcieReplayTimerExpire d pp s = .next t ∧ SentAgain d pp ((s.link d pp).replay.map HeldTlp.again) s t := by
  let u := s.modLink d pp fun l => { l with lateAck := l.replay.head?.map (·.seq) }
  have hu : SentAgain d pp (s.link d pp).replay s u := ⟨s.beyond_modLink d pp _, by simp only [u, State.link_modLink_same]⟩
  have hsent : SentAgain d pp ((s.link d pp).replay.map HeldTlp.again) s (replayTlps d pp (fun _ => true) u) := by
    have hfold := foldl_replayTlp h3 hn hu
    have hagain : _ = (s.link d pp).replay.map HeldTlp.again := foldl_bumpTlp (done := []) hnodup
    rw [List.nil_append] at hagain
    rw [hagain] at hfold
    unfold replayTlps
    rw [hu.replay, List.filter_true]
    exact hfold
  refine ⟨_, congrArg Host.Outcome.next (if_pos h3), (portAer_beyond _ _ _).trans hsent.beyond, ?_⟩
  rw [State.link_congr (portAer_links _ _ _)]
  exact hsent.replay

end ReplayTimer

/-! ### DLLPs (03 R78, R79) -/

section Dllps
variable {s : State} {d pp : Nat}

/-- An Ack of a packet that was sent, in time, releases the packets up to its number. -/
theorem dllpReceive_ack {n : Nat} (hl : s.linkLive d pp = true) (hsent : 2048 ≤ (n + 4096 - (s.link d pp).pcieNext) % 4096)
    (hlate : (s.link d pp).lateAck = none) : dllpReceive d pp (.ack n) s =
      s.modLink d pp fun l => { l with replay := l.replay.filter fun h => decide (2048 ≤ (n + 4096 - h.seq) % 4096) } := by
  have hnot : ∀ q, (!decide ((n + 4096 - q) % 4096 < 2048)) = decide (2048 ≤ (n + 4096 - q) % 4096) := fun q => by
    rw [← decide_not, decide_eq_decide, not_lt]
  unfold dllpReceive
  rw [if_neg (not_not.mpr hl)]
  dsimp only
  unfold tlpAck
  extract_lets l covered
  rw [if_neg (by simp [l, LinkSt.neverSentTlp, hsent]), if_neg (by simp [l, hlate])]
  simp only [covered, hnot]
  rfl

theorem dllpReceive_updateFC {c h x : Nat} (hl : s.linkLive d pp = true) : dllpReceive d pp (.updateFC c h x) s =
    s.modLink d pp fun l => { l with crH := l.crH.upd 0 c (· + h), crD := l.crD.upd 0 c (· + x) } := by
  unfold dllpReceive
  rw [if_neg (not_not.mpr hl)]

end Dllps

/-! ### The round trip (03 R87, R91) -/

section RoundTrip
variable {s : State} {d i : Nat}

/-- A field set to a value within its width reads as that value. -/
theorem State.fld_setSat_same (s : State) (r : Reg) {f : Field} {v : Nat} (hf : f.Fits) (hv : v < 2 ^ (f.hi + 1 - f.lo)) :
    (s.setSat r f v).fld r f = v := by
  unfold State.setSat
  rw [s.fld_setFld_same r f _ hf.1 hf.2, Nat.min_eq_left (by omega), Nat.mod_eq_of_lt hv]

theorem State.fld_setSat_apart (s : State) (r : Reg) {f g : Field} (v : Nat) (hf : f.Fits) (h : f.Apart g) :
    (s.setSat r f v).fld r g = s.fld r g := s.fld_setFld_apart r _ hf h

/-- A CTRL flit writes no register. -/
theorem sendCtrl_beyond {ns : List RegName} (d i : Nat) (s : State) : (sendCtrl d i s).beyond ns = s.beyond ns := by
  unfold sendCtrl queueFlits
  simp

theorem State.rawRate_congr {ns : List RegName} {s t : State} (hk : Keeps ns s t) (hn : .linkStat ∉ ns) (d i : Nat) :
    t.rawRate d i = s.rawRate d i := by
  have hdies : t.dieCount = s.dieCount := by unfold State.dieCount; rw [hk.2.2.1]
  have hfld : ∀ f, t.fld (lreg .linkStat d i) f = s.fld (lreg .linkStat d i) f := fun f => hk.fld _ f (by simpa using hn)
  unfold State.rawRate
  simp only [hdies, hfld]

/-- A measurement within the widths of its registers is stored. -/
theorem measureRtt_reads {rtt : Nat} (hr : 4 * rtt < 65536) (hh : hmin rtt (s.rawRate d i) < 65536) : let t := measureRtt d i rtt s
    t.fld (lreg .linkRtt d i) LinkRtt.RTT = rtt ∧ t.fld (lreg .linkRtt d i) LinkRtt.ACKT = 4 * rtt ∧
      t.fld (lreg .linkVlhead d i) LinkVlhead.HMIN = hmin rtt (s.rawRate d i) := by
  unfold measureRtt
  extract_lets old s1 s2 t
  have h1 : s1.fld (lreg .linkVlhead d i) LinkVlhead.HMIN = hmin rtt (s.rawRate d i) := State.fld_setSat_same _ _ (by decide) hh
  have h2 : Keeps [.bufErr] s1 s2 := by
    refine keeps_of_beyond ?_
    simp [s2]
  have ht : Keeps [.linkRtt] s2 t := by
    refine keeps_of_beyond ?_
    simp [t]
  refine ⟨?_, State.fld_setSat_same _ _ (by decide) hr, ?_⟩
  · rw [State.fld_setSat_apart _ _ _ (by decide) (by decide)]
    exact State.fld_setSat_same _ _ (by decide) (show rtt < 65536 by omega)
  · rw [ht.fld _ _ (by simp), h2.fld _ _ (by simp), h1]

/-- The measurement of a Nerov or span link in L0. -/
theorem rttMeasure_reads {rtt : Nat} (hr : 4 * rtt < 65536) (hh : hmin rtt (s.rawRate d i) < 65536) :
    let t := measureRtt d i rtt (sendCtrl d i s)
    t.fld (lreg .linkRtt d i) LinkRtt.RTT = rtt ∧ t.fld (lreg .linkRtt d i) LinkRtt.ACKT = 4 * rtt ∧
      t.fld (lreg .linkVlhead d i) LinkVlhead.HMIN = hmin rtt (s.rawRate d i) ∧ Keeps [.linkRtt, .linkVlhead, .bufErr] s t := by
  have hsend : Keeps [] s (sendCtrl d i s) := keeps_of_beyond (sendCtrl_beyond d i s)
  have hrate : (sendCtrl d i s).rawRate d i = s.rawRate d i := State.rawRate_congr hsend (by simp) d i
  generalize sendCtrl d i s = u at hsend hrate
  rw [← hrate] at hh ⊢
  obtain ⟨hrtt, hackt, hhmin⟩ := measureRtt_reads hr hh
  have hmeasure := measureRtt_beyond (ns := [.linkRtt, .linkVlhead, .bufErr]) u d i rtt (by simp) (by simp) (by simp)
  exact ⟨hrtt, hackt, hhmin, (hsend.trans (keeps_of_beyond hmeasure)).mono (by simp)⟩

end RoundTrip

/-! ### Lanes of a Nerov link (03 R92) -/

section NerovLanes
variable {s : State} {d pp lane : Nat}

/-- The lanes of 16 without one lane. -/
theorem testBit_lanes_except {a lane k : Nat} (hl : lane < 16) (hk : k < 16) :
    (a &&& (0xFFFF - 2 ^ lane)).testBit k = (a.testBit k && k != lane) := by
  have hmask : ∀ l < 16, ∀ j < 16, (0xFFFF - 2 ^ l).testBit j = (j != l) := by decide
  rw [Nat.testBit_and, hmask lane hl k hk]

/-- Of at least three lanes, at least two are left without one. -/
theorem two_le_lanes_except {a lane : Nat} (hl : lane < 16) (h3 : 3 ≤ ((List.range 16).filter a.testBit).length) :
    2 ≤ ((List.range 16).filter (a &&& (0xFFFF - 2 ^ lane)).testBit).length := by
  have hleft : (List.range 16).filter (a &&& (0xFFFF - 2 ^ lane)).testBit = ((List.range 16).filter a.testBit).erase lane := by
    rw [List.Nodup.erase_eq_filter (List.nodup_range.filter _), List.filter_filter]
    refine List.filter_congr fun k hk => ?_
    rw [testBit_lanes_except hl (List.mem_range.mp hk), Bool.and_comm]
  have hle := List.le_length_erase (l := (List.range 16).filter a.testBit) (a := lane)
  rw [hleft]
  omega

/-- A lane leaves the striping of its link and is marked bad. -/
def strikeLane (d pp lane : Nat) (s : State) : State :=
  let r := lreg .linkLanes d pp
  (s.setFld r LinkLanes.ACTIVE (s.fld r LinkLanes.ACTIVE &&& (0xFFFF - 2 ^ lane))).setFld r LinkLanes.BAD (s.fld r LinkLanes.BAD ||| 2 ^ lane)

theorem strikeLane_beyond {ns : List RegName} (h : .linkLanes ∈ ns) : (strikeLane d pp lane s).beyond ns = s.beyond ns := by
  unfold strikeLane
  simp [h]

theorem strikeLane_active : (strikeLane d pp lane s).fld (lreg .linkLanes d pp) LinkLanes.ACTIVE =
    s.fld (lreg .linkLanes d pp) LinkLanes.ACTIVE &&& (0xFFFF - 2 ^ lane) := by
  have hlow : s.fld (lreg .linkLanes d pp) LinkLanes.ACTIVE < 65536 := s.fld_lt _ LinkLanes.ACTIVE
  unfold strikeLane
  rw [State.fld_setFld_apart _ _ _ (by decide) (by decide), State.fld_setFld_same _ _ _ _ (by decide) (by decide)]
  exact Nat.mod_eq_of_lt (lt_of_le_of_lt Nat.and_le_left hlow)

theorem strikeLane_bad (hl : lane < 16) : ((strikeLane d pp lane s).fld (lreg .linkLanes d pp) LinkLanes.BAD).testBit lane = true := by
  unfold strikeLane
  rw [State.fld_setFld_same _ _ _ _ (by decide) (by decide), Nat.testBit_mod_two_pow]
  simp [LinkLanes.BAD, hl]

/-- The receive equalizers of a logical lane of a port are held. -/
def holdLane (d pp lane : Nat) (s : State) : State := s.forAll ((s.lanesOf d pp).filter fun ll => s.laneNum d pp ll == lane) (holdEq d)

theorem holdLane_beyond : (holdLane d pp lane s).beyond [.laneRxeq, .laneDfe] = s.beyond [.laneRxeq, .laneDfe] :=
  s.beyond_forAll (fun ll u => holdEq_beyond u d ll (by simp) (by simp)) _

/-- The removal of a lane that leaves at least two: it is struck and reported through a CTRL flit exchange. -/
theorem removeLane_eq (hl : lane < 16) (h3 : 3 ≤ ((List.range 16).filter (s.fld (lreg .linkLanes d pp) LinkLanes.ACTIVE).testBit).length) :
    ∃ width, removeLane d pp lane s = sendCtrl d pp (raise (lreg .linkErr d pp) LinkErr.LANE
      ((strikeLane d pp lane (holdLane d pp lane s)).setFld (lreg .linkStat d pp) LinkStat.WIDTH width)) := by
  refine ⟨_, if_neg (not_lt.mpr ?_)⟩
  have hactive := strikeLane_active (s := holdLane d pp lane s) (d := d) (pp := pp) (lane := lane)
  rw [(keeps_of_beyond holdLane_beyond).fld _ _ (by simp)] at hactive
  exact (two_le_lanes_except hl h3).trans_eq (congrArg (fun a => ((List.range 16).filter (Nat.testBit a)).length) hactive.symm)

/-- A lane of a Nerov link that keeps two others leaves the striping, is marked bad and reported. -/
theorem removeLane_reads (ha : s.active d = true) (hl : lane < 16)
    (h3 : 3 ≤ ((List.range 16).filter (s.fld (lreg .linkLanes d pp) LinkLanes.ACTIVE).testBit).length) : let t := removeLane d pp lane s
    t.fld (lreg .linkLanes d pp) LinkLanes.ACTIVE = s.fld (lreg .linkLanes d pp) LinkLanes.ACTIVE &&& (0xFFFF - 2 ^ lane) ∧
      (t.fld (lreg .linkLanes d pp) LinkLanes.BAD).testBit lane = true ∧ t.fld (lreg .linkErr d pp) LinkErr.LANE = 1 ∧
      Keeps [.linkLanes, .linkErr, .linkStat, .laneRxeq, .laneDfe] s t := by
  intro t
  have hheld := keeps_of_beyond (holdLane_beyond (s := s) (d := d) (pp := pp) (lane := lane))
  have hactive := strikeLane_active (s := holdLane d pp lane s) (d := d) (pp := pp) (lane := lane)
  have hbad := strikeLane_bad (s := holdLane d pp lane s) (d := d) (pp := pp) hl
  have hstruck := keeps_of_beyond (strikeLane_beyond (ns := [.linkLanes]) (s := holdLane d pp lane s) (d := d) (pp := pp) (lane := lane) (by simp))
  obtain ⟨width, ht⟩ : ∃ width, t = _ := removeLane_eq hl h3
  generalize strikeLane d pp lane (holdLane d pp lane s) = u at ht hactive hbad hstruck
  have hafter : Keeps [.linkStat, .linkErr] u t := by
    refine keeps_of_beyond ?_
    rw [ht, sendCtrl_beyond, raise_beyond _ _ _ (by simp), State.beyond_setFld _ _ _ (by simp)]
  have hlive := (hheld.trans hstruck).trans (keeps_setFld u (lreg .linkStat d pp) LinkStat.WIDTH width)
  refine ⟨?_, ?_, ?_, ((hheld.trans hstruck).trans hafter).mono (by decide)⟩
  · rw [hafter.fld _ _ (by simp), hactive, hheld.fld _ _ (by simp)]
  · rw [hafter.fld _ _ (by simp), hbad]
  · rw [ht, (keeps_of_beyond (ns := []) (sendCtrl_beyond d pp _)).fld _ _ (by simp)]
    exact fld_raise_linkErr ((hlive.active (by simp) d).trans ha) rfl (by decide)

/-- The mark of a lane in use of a Nerov link removes it. -/
theorem laneMarkedBad_nerov {spares : Nat} (hthresh : s.fld (dreg .linkHealth d) LinkHealth.THRESH ≠ 0) (hlive : s.linkLive d pp = true)
    (hpp : pp < 16) (hn : s.isNerov (gport d pp) = true) (hl : lane < 16)
    (hbit : (s.fld (lreg .linkLanes d pp) LinkLanes.ACTIVE).testBit lane = true) : laneMarkedBad d pp lane spares s = removeLane d pp lane s := by
  unfold laneMarkedBad
  rw [if_neg (by simp [hthresh, hlive]), if_pos hpp, if_pos ⟨hn, hl, hbit⟩]

end NerovLanes

/-! ### Lanes of a span link (03 R93) -/

section SpanLanes
variable {s : State} {d i : Nat}

theorem setSpanState_beyond {ns : List RegName} (s : State) (d e v : Nat) (h : .linkStat ∈ ns) :
    (setSpanState d e v s).beyond ns = s.beyond ns := by
  unfold setSpanState
  simp [h]

/-- Both ends of a span link show the code that was set. -/
theorem setSpanState_linkState (s : State) (d e : Nat) {v : Nat} (hv : v < 16) :
    (setSpanState d e v s).linkState d (16 + e) = v ∧ (setSpanState d e v s).linkState e (16 + d) = v := by
  unfold setSpanState
  refine ⟨?_, setLinkState_linkState_same _ _ _ _ hv⟩
  rw [setLinkState_linkState _ _ _ _ _ _ hv, setLinkState_linkState_same _ _ _ _ hv, ite_self]

/-- The mark of a lane of a span link whose module has a redundant lane puts both ends in repair. -/
theorem laneMarkedBad_span_reads {lane spares : Nat} (hthresh : s.fld (dreg .linkHealth d) LinkHealth.THRESH ≠ 0)
    (hlive : s.linkLive d i = true) (hi : 16 ≤ i) (hs : spares ≠ 0) : let t := laneMarkedBad d i lane spares s
    t.linkState d i = 8 ∧ t.linkState (i - 16) (16 + d) = 8 ∧ (t.link d i).bad = (s.link d i).bad ++ [spares] ∧ Keeps [.linkStat] s t := by
  have heq : laneMarkedBad d i lane spares s = setSpanState d (i - 16) 8 (s.modLink d i fun l => { l with bad := l.bad ++ [spares] }) := by
    unfold laneMarkedBad
    rw [if_neg (by simp [hthresh, hlive]), if_neg (by omega), if_neg hs]
  obtain ⟨e, rfl⟩ : ∃ e, i = 16 + e := ⟨i - 16, by omega⟩
  rw [heq, Nat.add_sub_cancel_left]
  generalize hu : s.modLink d (16 + e) (fun l => { l with bad := l.bad ++ [spares] }) = u
  have hbad : (u.link d (16 + e)).bad = (s.link d (16 + e)).bad ++ [spares] := by rw [← hu, State.link_modLink_same]
  have hk : u.beyond [.linkStat] = s.beyond [.linkStat] := by rw [← hu, State.beyond_modLink]
  obtain ⟨hhere, hthere⟩ := setSpanState_linkState u d e (v := 8) (by decide)
  exact ⟨hhere, hthere, hbad, keeps_of_beyond ((setSpanState_beyond u d e 8 (by simp)).trans hk)⟩

theorem pump_bad (now : Nat) (span : Bool) (n : Nat) (l : LinkSt) : (pump now span n l).bad = l.bad := by
  induction n generalizing l with
  | zero => rfl
  | succ n ih =>
    unfold pump
    split
    · rfl
    · split
      · rfl
      · exact ih _

/-- Sending what waited leaves the marked lanes of every link. -/
theorem pumpLink_bad (s : State) (d i e k : Nat) : ((pumpLink d i s).link e k).bad = (s.link e k).bad := by
  unfold pumpLink
  split
  · rw [State.link_modLink]
    split
    · rename_i he
      obtain ⟨rfl, rfl⟩ := he
      exact pump_bad _ _ _ _
    · rfl
  · rfl

theorem repairLane_beyond {ns : List RegName} (n : Nat) (hp : .linkSpstat ∈ ns) (he : .linkErr ∈ ns) :
    (repairLane d i n s).beyond ns = s.beyond ns := by
  unfold repairLane
  simp [hp, he]

theorem repairLane_links (n : Nat) : (repairLane d i n s).links = s.links := by
  unfold repairLane
  extract_lets r s1
  have h1 : s1.links = s.links := raise_links _ _ _
  split
  · exact (raise_links _ _ _).trans h1
  · exact h1

/-- A marked lane whose module has another redundant lane is repaired: the lane is reported, and one spare lane fewer is left. -/
theorem repairLane_reads {spares : Nat} (ha : s.active d = true) (hs : 1 < spares) : let t := repairLane d i spares s
    t.fld (lreg .linkSpstat d i) LinkSpstat.SPARES = s.fld (lreg .linkSpstat d i) LinkSpstat.SPARES - 1 ∧
      t.fld (lreg .linkErr d i) LinkErr.LANE = 1 := by
  unfold repairLane
  extract_lets r s1 t
  have ht : t = s1 := if_neg (by omega)
  have hspares : s.fld r LinkSpstat.SPARES < 256 := s.fld_lt r LinkSpstat.SPARES
  rw [ht]
  refine ⟨?_, fld_raise_linkErr ?_ rfl (by decide)⟩
  · simp only [s1]
    rw [(keeps_raise _ _ _).fld _ _ (by simp), State.fld_setFld_same _ _ _ _ (by decide) (by decide)]
    exact Nat.mod_eq_of_lt (show s.fld r LinkSpstat.SPARES - 1 < 256 by omega)
  · rw [(keeps_setFld _ r _ _).active (by simp [r]), (keeps_count s r _ _).active (by simp [r])]
    exact ha

/-- An end of a span link that comes up has no marked lane left; the other links keep theirs, and their state codes. -/
theorem spanEndUp_links (s : State) (d i e k : Nat) :
    (spanEndUp d i s).linkState e k = (if e = d ∧ k = i then 3 else s.linkState e k) ∧
      ((spanEndUp d i s).link e k).bad = if e = d ∧ k = i then [] else (s.link e k).bad := by
  unfold spanEndUp
  extract_lets bad
  have hregs := (setLinkState d i 3 s).beyond_forAll (ns := [.linkSpstat, .linkErr])
    (fun n t => repairLane_beyond (d := d) (i := i) (s := t) n (by simp) (by simp)) bad
  have hlinks : ((setLinkState d i 3 s).forAll bad (repairLane d i)).links = s.links :=
    State.forAll_keeps State.links _ (fun n t => repairLane_links n) _ bad
  generalize (setLinkState d i 3 s).forAll bad (repairLane d i) = u at hregs hlinks
  refine ⟨?_, ?_⟩
  · rw [linkState_of_keeps e k (keeps_of_beyond (ns := []) (pumpLink_beyond _ d i)) (by simp), State.linkState_modLink,
      linkState_of_keeps e k (keeps_of_beyond hregs) (by simp), setLinkState_linkState _ _ _ _ _ _ (by decide)]
  · rw [pumpLink_bad, State.link_modLink]
    split
    · rfl
    · rw [State.link_congr hlinks]

/-- An end without a marked lane that comes up writes LINK.STAT alone. -/
theorem spanEndUp_clean (h : (s.link d i).bad = []) : (spanEndUp d i s).beyond [.linkStat] = s.beyond [.linkStat] := by
  unfold spanEndUp
  extract_lets bad
  have hbad : bad = [] := h
  rw [hbad, pumpLink_beyond, State.beyond_modLink]
  exact setLinkState_beyond s d i 3 (by simp)

/-- An end with one marked lane that comes up has repaired it. -/
theorem spanEndUp_repairs {spares : Nat} (ha : s.active d = true) (hs : 1 < spares) (h : (s.link d i).bad = [spares]) :
    let t := spanEndUp d i s
    t.fld (lreg .linkSpstat d i) LinkSpstat.SPARES = s.fld (lreg .linkSpstat d i) LinkSpstat.SPARES - 1 ∧
      t.fld (lreg .linkErr d i) LinkErr.LANE = 1 ∧
      t.beyond [.linkStat, .linkSpstat, .linkErr] = s.beyond [.linkStat, .linkSpstat, .linkErr] := by
  have hup : (setLinkState d i 3 s).beyond [.linkStat] = s.beyond [.linkStat] := setLinkState_beyond s d i 3 (by simp)
  have hk := keeps_of_beyond hup
  obtain ⟨hspares, hlane⟩ := repairLane_reads (s := setLinkState d i 3 s) (i := i) ((hk.active (by simp) d).trans ha) hs
  have heq : (spanEndUp d i s).beyond [] = (repairLane d i spares (setLinkState d i 3 s)).beyond [] := by
    unfold spanEndUp
    rw [h, pumpLink_beyond, State.beyond_modLink]
    rfl
  have hkeq := keeps_of_beyond heq
  refine ⟨?_, ?_, ?_⟩
  · rw [hkeq.fld _ _ (by simp), hspares, hk.fld _ _ (by simp)]
  · rw [hkeq.fld _ _ (by simp), hlane]
  · calc (spanEndUp d i s).beyond [.linkStat, .linkSpstat, .linkErr]
        = (repairLane d i spares (setLinkState d i 3 s)).beyond _ := State.beyond_mono heq (by simp)
      _ = (setLinkState d i 3 s).beyond _ := repairLane_beyond spares (by simp) (by simp)
      _ = s.beyond _ := State.beyond_mono hup (by simp)

/-- LINK_UP of a span link in repair brings both its ends up. -/
theorem execLinkUp_repair (hi : 16 ≤ i) (h8 : s.linkState d i = 8) :
    execLinkUp d i s = .next (spanEndUp (i - 16) (16 + d) (spanEndUp d i s)) := by
  unfold execLinkUp
  dsimp only
  rw [if_pos hi, if_pos (.inr h8)]

/-- With one lane marked at one end, the ends that come up have repaired it. -/
theorem spanUp_repairs {e k spares : Nat} (ha : s.active d = true) (hne : e ≠ d) (hs : 1 < spares) (h : (s.link d i).bad = [spares])
    (hother : (s.link e k).bad = []) : let t := spanEndUp e k (spanEndUp d i s)
    t.linkState d i = 3 ∧ t.linkState e k = 3 ∧ (t.link d i).bad = [] ∧
      t.fld (lreg .linkSpstat d i) LinkSpstat.SPARES = s.fld (lreg .linkSpstat d i) LinkSpstat.SPARES - 1 ∧
      t.fld (lreg .linkErr d i) LinkErr.LANE = 1 ∧ Keeps [.linkStat, .linkSpstat, .linkErr] s t := by
  obtain ⟨hspares, hlane, hrepaired⟩ := spanEndUp_repairs ha hs h
  have hhere := spanEndUp_links s d i d i
  have hclean : ((spanEndUp d i s).link e k).bad = [] := by
    rw [(spanEndUp_links s d i e k).2, if_neg fun x => hne x.1]
    exact hother
  rw [if_pos ⟨rfl, rfl⟩, if_pos ⟨rfl, rfl⟩] at hhere
  generalize spanEndUp d i s = u at hhere hclean hspares hlane hrepaired
  have hk := keeps_of_beyond (spanEndUp_clean hclean)
  have hapart := spanEndUp_links u e k d i
  rw [if_neg fun x => hne x.1.symm, if_neg fun x => hne x.1.symm] at hapart
  refine ⟨hapart.1.trans hhere.1, ?_, hapart.2.trans hhere.2, ?_, ?_, ((keeps_of_beyond hrepaired).trans hk).mono (by simp)⟩
  · rw [(spanEndUp_links u e k e k).1, if_pos ⟨rfl, rfl⟩]
  · rw [hk.fld _ _ (by simp), hspares]
  · rw [hk.fld _ _ (by simp), hlane]

end SpanLanes

/-! ### The statement -/

/-- Settles O11: each clause is what the one operation that its command runs leaves. -/
theorem linkReliableTransport : Obligations.LinkReliableTransport := by
  unfold Obligations.LinkReliableTransport
  intro s d i f hd ha l err dist
  refine ⟨fun hl hbad => ?_, fun hl hok ht hackv hfcv => ⟨fun _ hseq hempty => ⟨_, rfl, ?_⟩, fun hfar hfar' => ⟨_, rfl, ?_⟩⟩,
    fun hl hok ht hackv hfcv hmap hsent hq hlate hi => ⟨_, rfl, ?_⟩,
    fun h rest hheld hne h3 => ⟨fun hn => ⟨_, rfl, ?_⟩, fun hn hi => ⟨_, rfl, ?_⟩⟩,
    fun h3 hnodup hn => ?_, fun n hl hsent hlate => ⟨_, rfl, dllpReceive_ack hl hsent hlate⟩, fun c h x hl => ⟨_, rfl, ?_⟩,
    fun rtt hkind h3 hr hh => ?_, fun lane spares hthresh hl => ?_⟩
  · exact ⟨_, congrArg Host.Outcome.next (flitReceive_bad hl hbad), fld_raise_linkErr ha rfl (by decide), raise_links _ _ s, keeps_raise _ _ s⟩
  · rw [flitReceive_sequenced hl hok ht hackv hfcv, receiveSeq_next hseq hempty]
    exact relinked_updateXoff_modLink _
  · exact flitReceive_far_reads ha hl hok ht hackv hfcv hfar hfar'
  · rw [flitReceive_idle hl hok ht hackv hfcv]
    exact takeAck_releases hi relinked_updateXoff hmap hsent hq hlate
  · obtain ⟨x, hx⟩ := ackTimerExpire_resends hheld hne h3
    rw [hx, flitEscalate_counts (by omega)]
    let sending : LinkSt := { l with lateAck := some h.flit.seq, xoffOut := x }
    exact ⟨sending.trailed (decide (16 ≤ i)) h.flit, x, rfl, rfl, congrArg (State.count · _ _ 1) (s.modLink_congr d i rfl)⟩
  · obtain ⟨x, hx⟩ := ackTimerExpire_resends hheld hne h3
    rw [hx, hn, flitEscalate_fourth hi]
    refine ⟨(retrainEnd_fld_linkErr (by decide)).trans (fld_raise_linkErr ?_ rfl (by decide)), retrainEnd_linkState _ d i⟩
    exact ((keeps_count _ (lreg .linkCnt d i) _ 1).active (by simp) d).trans ha
  · obtain ⟨t, ht, hsent⟩ := pcieReplayTimer_reads h3 hnodup hn
    exact ⟨t, ht, keeps_of_beyond hsent.beyond, by rw [hsent.replay, List.map_map]; rfl⟩
  · rw [dllpReceive_updateFC hl]
    refine ⟨Keeps.of_eq rfl rfl rfl rfl rfl, ?_, ?_, rfl⟩ <;> rw [State.link_modLink_same] <;> exact FMap.get_set_same _ _ _ _
  · exact ⟨_, congrArg Host.Outcome.next (if_pos ⟨h3, hkind⟩), rttMeasure_reads hr hh⟩
  · refine ⟨fun hi hn hlane hbit h3 => ?_, fun hi hs => ?_, fun hi hne h8 hbad hs hother hspares => ?_⟩
    · obtain ⟨hactive, hbad, herr, hk⟩ := removeLane_reads ha hlane h3
      refine ⟨_, congrArg Host.Outcome.next (laneMarkedBad_nerov hthresh hl hi hn hlane hbit), fun k hk => ?_, hbad, herr, hk⟩
      dsimp only
      rw [hactive, testBit_lanes_except hlane hk]
    · exact ⟨_, rfl, laneMarkedBad_span_reads hthresh hl hi hs⟩
    · exact ⟨_, execLinkUp_repair hi h8, spanUp_repairs ha hne hs hbad hother⟩

end Sys2Proof.Machine
end

section
/-! SUPPORT. The instructions of the base subset on a hart that can take one: the words that the operations compute in the terms of the
statements, and the step that writes a word and goes on (04 R124, R125; 10 R403). -/

namespace Sys2Proof.Machine

/-! ### What the operations compute -/

theorem flagWord_slt (a b : Word) : flagWord (a.slt b) = if a.toInt < b.toInt then 1 else 0 := by
  simp [flagWord, BitVec.slt]

theorem flagWord_ult (a b : Word) : flagWord (a.ult b) = if a.toNat < b.toNat then 1 else 0 := by
  simp [flagWord, BitVec.ult]

/-- The search for the first set bit gives the number of clear bits before it, 64 where no bit is set. -/
theorem firstSet_spec (p : Nat → Bool) : let n := ((List.range 64).find? p).getD 64
    n ≤ 64 ∧ (∀ i, i < n → p i = false) ∧ (n < 64 → p n = true) := by
  cases h : (List.range 64).find? p with
  | none =>
    refine ⟨le_refl _, fun i hi => ?_, fun h => absurd h (lt_irrefl _)⟩
    simpa using List.find?_eq_none.mp h i (List.mem_range.mpr hi)
  | some n =>
    obtain ⟨hn, hlt, hbefore⟩ := List.find?_range_eq_some.mp h
    exact ⟨(List.mem_range.mp hlt).le, fun i hi => by simpa using hbefore i hi, fun _ => hn⟩

/-- POPC counts a one for each set bit. -/
theorem length_filter_eq_sum {α : Type} (p : α → Bool) (l : List α) : (l.filter p).length = (l.map fun i => (p i).toNat).sum := by
  induction l with
  | nil => rfl
  | cons x l ih => cases h : p x <;> simp [h, ih, Nat.add_comm]

/-- EXTU gives the named bits at the bottom and zeros above. -/
theorem getLsbD_extuWord (a : Word) (imm : Nat) {i : Nat} (hi : i < 64) :
    (extuWord a imm).getLsbD i = (decide (i < imm / 64 % 64 + 1) && a.getLsbD (imm % 64 + i)) := by
  rw [extuWord, BitVec.getLsbD_ofNat, Nat.testBit_mod_two_pow, Nat.testBit_div_two_pow, BitVec.testBit_toNat, Nat.add_comm i]
  simp [hi, bitPos, bitLen]

/-- INSU replaces the named bits and leaves the others. -/
theorem getLsbD_insuWord (old a : Word) (imm : Nat) {i : Nat} (hi : i < 64) : (insuWord old a imm).getLsbD i =
    if imm % 64 ≤ i ∧ i < imm % 64 + (imm / 64 % 64 + 1) then a.getLsbD (i - imm % 64) else old.getLsbD i := by
  have hmask : (BitVec.ofNat 64 ((2 ^ bitLen imm - 1) * 2 ^ bitPos imm)).getLsbD i
      = decide (imm % 64 ≤ i ∧ i < imm % 64 + (imm / 64 % 64 + 1)) := by
    rw [bitLen, bitPos, BitVec.getLsbD_ofNat, Nat.testBit_mul_two_pow, Nat.testBit_two_pow_sub_one, Bool.eq_iff_iff]
    simp only [Bool.and_eq_true, decide_eq_true_eq]
    omega
  rw [insuWord, BitVec.getLsbD_or, BitVec.getLsbD_and, BitVec.getLsbD_and, BitVec.getLsbD_not, hmask]
  by_cases h : imm % 64 ≤ i ∧ i < imm % 64 + (imm / 64 % 64 + 1)
  · have hlen : i - imm % 64 < bitLen imm := by unfold bitLen; omega
    rw [bitPos, BitVec.getLsbD_ofNat, Nat.testBit_mul_two_pow, Nat.testBit_mod_two_pow, BitVec.testBit_toNat, if_pos h]
    simp [hi, h, hlen]
  · rw [if_neg h]
    simp [hi, h]

/-! ### The step of a free hart -/

/-- Only what an instruction does to the hart as it stands shows. -/
theorem State.retired_congr {s : State} {d h : Nat} {f g : Hart → Hart} (hfg : f (s.hart d h) = g (s.hart d h)) :
    s.retired d h f = s.retired d h g := by
  have hh : (s.core.dies.get {} d).hart.get {} h = s.hart d h := rfl
  simp only [State.retired, State.modHart, State.modCore, FMap.upd, hh, hfg]

section Free
variable {s : State} {d h : Nat} (hf : HartFree s d h)
include hf

/-- An instruction that leaves the journals takes a free hart to the state that its effect gives. -/
theorem hartBase_free (o : FOp) : hartBase d h o s = s.retired d h fun x => x.base o := by
  obtain ⟨-, -, -, hm, hi, ho⟩ := id hf
  rw [hartBase, hartDo_free hf, retire_free _ hm (lt_trans hi (by decide)) (lt_trans ho (by decide))]

/-- An instruction whose effect on the hart is to write a word to a register. -/
theorem hartBase_writes (o : FOp) (rd : Nat) (v : Word) (hb : o.base (s.hart d h).regs = (rset (s.hart d h).regs rd v, none)) :
    hartBase d h o s = s.retired d h fun x => x.wrote rd v := by
  rw [hartBase_free hf]
  exact State.retired_congr (by simp [Hart.base, Hart.wrote, Hart.nextPc, hb])

/-- An instruction whose effect on the hart is to go on. -/
theorem hartBase_steps (o : FOp) (hb : o.base (s.hart d h).regs = ((s.hart d h).regs, none)) :
    hartBase d h o s = s.retired d h Hart.stepped := by
  rw [hartBase_free hf]
  exact State.retired_congr (by simp [Hart.base, Hart.stepped, Hart.nextPc, hb])

end Free
/-! ### The statements -/

/-- Settles O26: each operation on registers is a write of the word that it computes, or a step to the next instruction. -/
theorem hartAluRegister : Obligations.HartAluRegister := by
  unfold Obligations.HartAluRegister
  intro s d h rd ra rb hf x a b gives keeps
  have writes (o v) (hb : o.base x.regs = (rset x.regs rd v, none)) : .next (hartBase d h o s) = gives v :=
    congrArg _ (hartBase_writes hf o rd v hb)
  have steps (o) (hb : o.base x.regs = (x.regs, none)) : .next (hartBase d h o s) = keeps := congrArg _ (hartBase_steps hf o hb)
  have alu (o : AluOp) : .next (hartBase d h (.alu o rd ra rb) s) = gives (o.eval a b) := writes _ _ rfl
  have cnt (o : CntOp) : .next (hartBase d h (.cnt o rd ra) s) = gives (o.eval a) := writes _ _ rfl
  have cmov (nz : Bool) : .next (hartBase d h (.cmov nz rd ra rb) s) = if (b != 0) = nz then gives a else keeps := by
    by_cases hc : (b != 0) = nz
    · rw [if_pos hc]
      exact writes _ _ (Prod.ext (if_pos hc) rfl)
    · rw [if_neg hc]
      exact steps _ (Prod.ext (if_neg hc) rfl)
  obtain ⟨hclz, hclz0, hclz1⟩ := firstSet_spec fun i => a.getLsbD (63 - i)
  obtain ⟨hctz, hctz0, hctz1⟩ := firstSet_spec a.getLsbD
  refine ⟨alu .add, alu .sub, alu .and, alu .or, alu .xor, alu .sll, alu .srl, alu .sra, (alu .slt).trans ?_, (alu .sltu).trans ?_,
    (alu .min).trans ?_, (alu .minu).trans ?_, (alu .max).trans ?_, (alu .maxu).trans ?_, (cmov false).trans ?_, (cmov true).trans ?_,
    ⟨_, hclz, hclz0, hclz1, cnt .clz⟩, ⟨_, hctz, hctz0, hctz1, cnt .ctz⟩, (cnt .popc).trans ?_⟩
  case refine_1 => exact congrArg gives (flagWord_slt a b)
  case refine_2 => exact congrArg gives (flagWord_ult a b)
  case refine_7 => by_cases hb : b = 0 <;> simp [hb]
  case refine_8 => by_cases hb : b = 0 <;> simp [hb]
  case refine_9 => exact congrArg (gives ∘ BitVec.ofNat 64) (length_filter_eq_sum a.getLsbD _)
  all_goals simp only [AluOp.eval, BitVec.slt, BitVec.ult, decide_eq_true_eq]

/-- Settles O27: each operation with an immediate is a write of the word that it computes. -/
theorem hartAluImmediate : Obligations.HartAluImmediate := by
  unfold Obligations.HartAluImmediate
  intro s d h rd ra imm hf x a old pos len gives
  have writes (o v) (hb : o.base x.regs = (rset x.regs rd v, none)) : .next (hartBase d h o s) = gives v :=
    congrArg _ (hartBase_writes hf o rd v hb)
  have alu (o : ImmOp) : .next (hartBase d h (.imm o rd ra imm) s) = gives (o.eval a imm) := writes _ _ rfl
  exact ⟨alu .addi, alu .andi, alu .ori, alu .xori, alu .slli, alu .srli, alu .srai,
    (alu .slti).trans (congrArg gives (flagWord_slt a _)), (alu .sltui).trans (congrArg gives (flagWord_ult a _)),
    writes (.lui rd imm) _ rfl,
    ⟨_, fun i hi => getLsbD_extuWord a imm hi, writes (.extu rd ra imm) _ rfl⟩,
    ⟨_, fun i hi => getLsbD_insuWord old a imm hi, writes (.insu rd ra imm) _ rfl⟩⟩

end Sys2Proof.Machine
end

section
/-! SUPPORT. What the operations on cells and mirror copies leave: the fret engines, the queues, the tables, what waits beside the cells, and every
register but those of some names; and the packets that the part originates and refuses (04 R135; 06 R204 to R221). -/

namespace Sys2Proof.Machine

/-! ### What cells do not touch -/

/-- What the control island of each die has to write and what waits for another die, and a state without its cells, its link engines, its faults
and the registers of some names. -/
def State.parcels (ns : List RegName) (s : State) : (Nat → List (Nat × Tlp) × List Pkt) × State :=
  (fun d => ((s.bufDie d).ctlWait, (s.bufDie d).spanPending),
    { s with regs := s.regs.filter fun x => decide (x.1.name ∉ ns), links := [], buf := {}, flt := {} })

section Reading
variable {ns : List RegName} {s t : State} (h : t.parcels ns = s.parcels ns)
include h

theorem fret_of_parcels : t.fret = s.fret := (congrArg (fun x => x.2.fret) h :)
theorem sch_of_parcels : t.sch = s.sch := (congrArg (fun x => x.2.sch) h :)
theorem tab_of_parcels : t.tab = s.tab := (congrArg (fun x => x.2.tab) h :)
theorem ctlWait_of_parcels (d : Nat) : (t.bufDie d).ctlWait = (s.bufDie d).ctlWait := (congrArg (fun x => (x.1 d).1) h :)
theorem spanPending_of_parcels (d : Nat) : (t.bufDie d).spanPending = (s.bufDie d).spanPending := (congrArg (fun x => (x.1 d).2) h :)

theorem queue_of_parcels (g q : Nat) : t.queue g q = s.queue g q := by
  unfold State.queue
  rw [sch_of_parcels h]

theorem beyond_of_parcels : t.beyond ns = s.beyond ns := by
  have hs : (t.parcels ns).2 = (s.parcels ns).2 := congrArg Prod.snd h
  have hfuses : t.fuses = s.fuses := (congrArg State.fuses hs :)
  refine State.beyond_congr ⟨(congrArg State.mem hs :), (congrArg State.core hs :), hfuses, (congrArg State.boot hs :),
    (congrArg State.pending hs :)⟩ fun r hr => ?_
  have hkept : ∀ u : State, FMap.get (u.parcels ns).2.regs (r.resetValue u.fuses) r = u.reg r :=
    fun u => FMap.get_filter u.regs _ _ r (by simp [hr])
  rw [← hkept t, ← hkept s, hs, hfuses]

theorem keeps_of_parcels : Keeps ns s t := keeps_of_beyond (beyond_of_parcels h)

end Reading

/-! ### One update -/

section Updates
variable (s : State) {ns : List RegName}

@[simp] theorem State.parcels_setReg {r : Reg} (v : Word) (h : r.name ∈ ns) : (s.setReg r v).parcels ns = s.parcels ns := by
  unfold State.parcels
  rw [State.setReg_regs, FMap.filter_set _ _ _ fun _ => by simp [h]]
  rfl

@[simp] theorem State.parcels_count {r : Reg} (f : Field) (n : Nat) (h : r.name ∈ ns) : (s.count r f n).parcels ns = s.parcels ns :=
  s.parcels_setReg _ h

@[simp] theorem State.parcels_modLink (d i : Nat) (f : LinkSt → LinkSt) : (s.modLink d i f).parcels ns = s.parcels ns := by
  unfold State.modLink; rfl

@[simp] theorem State.parcels_modFlt (f : FltSt → FltSt) : (s.modFlt f).parcels ns = s.parcels ns := by unfold State.modFlt; rfl

@[simp] theorem raise_parcels (r : Reg) (f : Field) (h : r.name ∈ ns) : (raise r f s).parcels ns = s.parcels ns := by
  unfold raise
  rcases raiseFault_cases { reg := r, bit := f.lo } s with ⟨he, -⟩ | ⟨-, he⟩ <;> simp [he, h]

theorem State.bufDie_modBufDie (d e : Nat) (f : BufDie → BufDie) : (s.modBufDie d f).bufDie e = if e = d then f (s.bufDie d) else s.bufDie e :=
  FMap.get_set ..

@[simp] theorem State.bufDie_modBufDie_same (d : Nat) (f : BufDie → BufDie) : (s.modBufDie d f).bufDie d = f (s.bufDie d) := by
  rw [State.bufDie_modBufDie, if_pos rfl]

theorem State.parcels_modBufDie (d : Nat) {f : BufDie → BufDie} (hw : (f (s.bufDie d)).ctlWait = (s.bufDie d).ctlWait)
    (hp : (f (s.bufDie d)).spanPending = (s.bufDie d).spanPending) : (s.modBufDie d f).parcels ns = s.parcels ns := by
  unfold State.parcels
  refine Prod.ext (funext fun e => ?_) rfl
  dsimp only
  rw [State.bufDie_modBufDie]
  split
  · rename_i he; rw [he, hw, hp]
  · rfl

@[simp] theorem State.parcels_modCell (d c : Nat) (f : CellRec → CellRec) : (s.modCell d c f).parcels ns = s.parcels ns :=
  s.parcels_modBufDie d rfl rfl

@[simp] theorem parcels_ite (c : Prop) [Decidable c] (t : State) : (if c then s else t).parcels ns = if c then s.parcels ns else t.parcels ns :=
  apply_ite (State.parcels ns) ..

@[simp] theorem State.parcels_forAll {α : Type} {f : α → State → State} (h : ∀ a t, (f a t).parcels ns = t.parcels ns) (l : List α) :
    (s.forAll l f).parcels ns = s.parcels ns := s.forAll_keeps (State.parcels ns) f h l

end Updates

/-! ### Cells -/

section Cells
variable {ns : List RegName} (d c : Nat) (s : State)

@[simp] theorem returnCredits_parcels (g : Nat) (left : List Nat) : (returnCredits g left s).parcels ns = s.parcels ns := by
  unfold returnCredits; simp

@[simp] theorem leaveLedger_parcels : (leaveLedger d c s).parcels ns = s.parcels ns := by unfold leaveLedger; split <;> simp

@[simp] theorem freeCell_parcels : (freeCell d c s).parcels ns = s.parcels ns := by
  unfold freeCell
  dsimp only
  split
  · rfl
  · split <;> rw [State.parcels_modBufDie] <;> simp

@[simp] theorem sealCell_parcels (w : Writer) : (sealCell d w s).parcels ns = s.parcels ns := by
  unfold sealCell
  split
  · rfl
  · rename_i k hk
    have h1 : ((s.modCell d k fun y => { y with state := 3, seen := true }).modBufDie d fun b =>
        { b with openCell := b.openCell.erase w }).parcels ns = s.parcels ns := by
      rw [State.parcels_modBufDie] <;> simp
    dsimp only
    split <;> simp [h1]

@[simp] theorem dropRef_parcels : (dropRef d c s).parcels ns = s.parcels ns := by unfold dropRef; simp
@[simp] theorem addRef_parcels : (addRef d c s).parcels ns = s.parcels ns := by unfold addRef; simp

@[simp] theorem dropCells_parcels (cs : List Nat) : (dropCells d cs s).parcels ns = s.parcels ns := by unfold dropCells; simp
@[simp] theorem addCells_parcels (cs : List Nat) : (addCells d cs s).parcels ns = s.parcels ns := by unfold addCells; simp
@[simp] theorem touchCells_parcels (cs : List Nat) : (touchCells d cs s).parcels ns = s.parcels ns := by unfold touchCells; simp

@[simp] theorem moveCell_parcels : (moveCell d c s).parcels ns = s.parcels ns := by
  unfold moveCell
  dsimp only
  split
  · rfl
  · cases s.shareLedger d (s.cell d c).owner with
    | none => split <;> rfl
    | some l => split <;> simp

@[simp] theorem settleCells_parcels (cs : List Nat) : (settleCells d cs s).parcels ns = s.parcels ns := by
  unfold settleCells settleCell; simp

@[simp] theorem releaseIngress_parcels (p : Pkt) : (releaseIngress p s).parcels ns = s.parcels ns := by unfold releaseIngress; split <;> simp

end Cells

/-! ### Records -/

theorem drawCell_parcels {ns : List RegName} {d : Nat} {w : Writer} {hint : Nat} {s : State} {x : Nat × State}
    (h : drawCell d w hint s = some x) : x.2.parcels ns = s.parcels ns := by
  unfold drawCell at h
  extract_lets o take at h
  have htake : ∀ c u, (take c u).2.parcels ns = u.parcels ns := by
    intro c u
    simp only [take]
    rw [State.parcels_modBufDie _ _ rfl rfl, State.parcels_modCell]
    split <;> simp
  split at h
  · cases h
  · split at h
    · cases h
    · cases h
      rw [htake, State.parcels_modBufDie _ _ rfl rfl]
    · cases h
      rw [htake, State.parcels_modCell]

theorem writeRecord_parcels {ns : List RegName} {d : Nat} {w : Writer} {hint fuel : Nat} {bs : List Byte} {s : State} {x : List Nat × State}
    (h : writeRecord d w hint fuel bs s = some x) : x.2.parcels ns = s.parcels ns := by
  induction fuel generalizing bs s x with
  | zero => cases h; rfl
  | succ fuel ih =>
    unfold writeRecord at h
    split at h
    · cases h; rfl
    · extract_lets fit at h
      have hfit : ∀ c u y, fit c u = some y → y.2.parcels ns = u.parcels ns := by
        intro c u y hy
        simp only [fit] at hy
        split at hy
        · cases hy
        · rename_i hrest; cases hy; simpa using ih hrest
      have hdrawn : ∀ y, (match drawCell d w hint s with | none => none | some (c', s') => fit c' s') = some y →
          y.2.parcels ns = s.parcels ns := by
        intro y hy
        split at hy
        · cases hy
        · rename_i hdraw; rw [hfit _ _ _ hy]; exact drawCell_parcels hdraw
      split at h
      · split at h
        · split at h
          · exact hfit _ _ _ h
          · cases h
        · exact hdrawn _ h
      · exact hdrawn _ h

theorem storeRecord_parcels {ns : List RegName} {d : Nat} {w : Writer} {hint : Nat} {t : Tlp} {s : State} {x : List Nat × State}
    (h : storeRecord d w hint t s = some x) : x.2.parcels ns = s.parcels ns := writeRecord_parcels h

/-! ### Mirror copies (06 R220, R221) -/

section Mirrors
variable {ns : List RegName} (d : Nat)

theorem shedMirrors_parcels (hm : .bufMircnt ∈ ns) (n : Nat) (s : State) : (shedMirrors d n s).parcels ns = s.parcels ns := by
  induction n generalizing s with
  | zero => rfl
  | succ n ih =>
    unfold shedMirrors
    split
    · rfl
    · split
      · rfl
      · rw [ih]
        unfold dropMirror
        rw [dropCells_parcels, State.parcels_count _ _ _ hm, State.parcels_modBufDie _ _ rfl rfl]

theorem mirrorTo_parcels (hm : .bufMircnt ∈ ns) (he : .bufErr ∈ ns) (a : Nat) (m : Mirror) (s : State) :
    (mirrorTo d a m s).parcels ns = s.parcels ns := by
  unfold mirrorTo
  extract_lets g short drop
  have hdrop : drop.parcels ns = s.parcels ns := s.parcels_count _ _ hm
  split
  · exact hdrop
  · split
    · rw [shedMirrors_parcels d hm, raise_parcels _ _ _ he, hdrop]
    · split
      · exact hdrop
      · rw [State.parcels_modBufDie _ _ rfl rfl, addCells_parcels]

theorem mirrorIngress_parcels (hm : .bufMircnt ∈ ns) (he : .bufErr ∈ ns) (p : Pkt) (refused : Bool) (s : State) :
    (mirrorIngress p refused s).parcels ns = s.parcels ns := by
  unfold mirrorIngress
  dsimp only
  split
  · exact mirrorTo_parcels _ hm he _ _ s
  · rfl

end Mirrors

/-! ### Packets that the part originates (06 R204, R208) -/

/-- What originating a packet does: it stands at the end of one of the port's queues or of what the control island has to write, and the fret
engines, what lies beyond the fabric and every register stay. -/
structure Originated (g : Nat) (z : Tlp) (s t : State) : Prop where
  beyond : t.beyond [] = s.beyond []
  fret : t.fret = s.fret
  tab : t.tab = s.tab
  waits : (∃ q y, t.queue g q = s.queue g q ++ [y] ∧ y.tlp = z) ∨ (t.bufDie (pdie g)).ctlWait = (s.bufDie (pdie g)).ctlWait ++ [(g, z)]

@[simp] theorem State.queue_modQueue_same (s : State) (g q : Nat) (f : List Pkt → List Pkt) : (s.modQueue g q f).queue g q = f (s.queue g q) := by
  simp [State.queue, State.modQueue]

theorem placeControl_originated {g : Nat} {z : Tlp} {s t : State} (h : placeControl g z s = some t) : Originated g z s t := by
  unfold placeControl at h
  obtain ⟨x, hx, rfl⟩ := Option.map_eq_some_iff.mp h
  have hp := storeRecord_parcels (ns := []) hx
  exact ⟨(beyond_of_parcels hp :), (fret_of_parcels hp :), (tab_of_parcels hp :),
    .inl ⟨_, _, by rw [State.queue_modQueue_same, queue_of_parcels hp], rfl⟩⟩

/-- On a die in service a packet that the part originates is queued, or waits for a cell of the control island. -/
theorem originate_originated {g : Nat} (z : Tlp) {s : State} (ha : s.active (pdie g) = true) : Originated g z s (originate g z s) := by
  have hwait : Originated g z s (s.modBufDie (pdie g) fun b => { b with ctlWait := b.ctlWait ++ [(g, z)] }) :=
    ⟨rfl, rfl, rfl, .inr (by rw [State.bufDie_modBufDie_same])⟩
  unfold originate
  dsimp only
  rw [if_neg (by simp [ha])]
  split
  · exact hwait
  · cases hplace : placeControl g z s with
    | none => exact hwait
    | some t => exact placeControl_originated hplace

/-! ### Refusals (04 R135) -/

/-- The registers that a refusal writes: the port's error sources, and those of the mirror copies. -/
def refusalRegs : List RegName := [.fltTlerr, .bufMircnt, .bufErr]

/-- What the refusal of a packet of a port does: beside cells, credits and the log of its reason, a non-posted request gets one completion and sets
the source of its status, and a posted one is logged as an Unsupported Request. -/
structure Refused (p : Pkt) (ca : Bool) (s t : State) : Prop where
  beyond : t.beyond refusalRegs = s.beyond refusalRegs
  fret : ∃ r, t.fret = { s.fret with reasons := r }
  answered : p.tlp.cls = 1 → t.fld (tlerr p.iport) (if ca then FltTlerr.CASENT else FltTlerr.URSENT) = 1 ∧
    ∃ z, z = completionFor p.tlp (if ca then cplCA else cplUR) [] ∧
      ((∃ q y, t.queue p.iport q = s.queue p.iport q ++ [y] ∧ y.tlp = z) ∨
        (t.bufDie (pdie p.iport)).ctlWait = (s.bufDie (pdie p.iport)).ctlWait ++ [(p.iport, z)])
  logged : p.tlp.cls = 0 → t.fld (tlerr p.iport) FltTlerr.URSENT = 1

/-- Mirror copies and counts before a refusal do not show in what it does. -/
theorem Refused.of_parcels {p : Pkt} {ca : Bool} {s m t : State} (h : m.parcels refusalRegs = s.parcels refusalRegs) (hr : Refused p ca m t) :
    Refused p ca s t := by
  obtain ⟨hb, ⟨r, hf⟩, ha, hl⟩ := hr
  refine ⟨hb.trans (beyond_of_parcels h), ⟨r, by rw [hf, fret_of_parcels h]⟩, fun h1 => ?_, hl⟩
  obtain ⟨hsent, z, hz, hw⟩ := ha h1
  simp only [queue_of_parcels h, ctlWait_of_parcels h] at hw
  exact ⟨hsent, z, hz, hw⟩

theorem logReason_fret (p : Pkt) (s : State) : ∃ r, (logReason p s).fret = { s.fret with reasons := r } := by
  unfold logReason
  split
  · exact ⟨_, rfl⟩
  · exact ⟨_, rfl⟩

theorem logReason_beyond (ns : List RegName) (p : Pkt) (s : State) : (logReason p s).beyond ns = s.beyond ns := by
  unfold logReason
  split <;> rfl

theorem logReason_queue (p : Pkt) (s : State) (g q : Nat) : (logReason p s).queue g q = s.queue g q := by
  unfold logReason
  split <;> rfl

theorem logReason_bufDie (p : Pkt) (s : State) (d : Nat) : (logReason p s).bufDie d = s.bufDie d := by
  unfold logReason
  split <;> rfl

@[simp] theorem raise_fret (r : Reg) (f : Field) (s : State) : (raise r f s).fret = s.fret := by
  unfold raise
  rcases raiseFault_cases { reg := r, bit := f.lo } s with ⟨he, -⟩ | ⟨-, he⟩ <;> simp [he]

theorem Keeps.reg {ns : List RegName} {s t : State} (h : Keeps ns s t) (r : Reg) (hr : r.name ∉ ns) : t.reg r = s.reg r := by
  obtain ⟨-, -, -, -, hreg⟩ := h
  exact hreg r hr

theorem beyond_mono {ns ms : List RegName} {s t : State} (hs : ∀ n ∈ ns, n ∈ ms) (h : t.beyond ns = s.beyond ns) :
    t.beyond ms = s.beyond ms :=
  State.beyond_congr (still_of_beyond h) fun r hr => (keeps_of_beyond h).reg r fun hn => hr (hs _ hn)

theorem active_of_beyond {ns : List RegName} {s t : State} (h : t.beyond ns = s.beyond ns) (hn : .partDieState ∉ ns) (d : Nat) :
    t.active d = s.active d := (keeps_of_beyond h).active hn d

/-- The error source of a port that a refusal sets reads 1 on a die in service. -/
theorem fld_raise_tlerr {g : Nat} {f : Field} {s : State} (ha : s.active (pdie g) = true) (hf : f.hi = f.lo) (h64 : f.lo < 64) :
    (raise (tlerr g) f s).fld (tlerr g) f = 1 := fld_raise _ _ _ ha hf h64

/-- A packet of a port on a die in service is refused as the rule says. -/
theorem refusePkt_refused {p : Pkt} {s : State} (ca : Bool) (hsrc : p.src = .port) (ha : s.active (pdie p.iport) = true) :
    Refused p ca s (refusePkt p ca s) := by
  obtain ⟨r, hlog⟩ := logReason_fret p s
  have hcells := releaseIngress_parcels (ns := []) (logReason p s) p
  unfold refusePkt
  generalize hu : releaseIngress p (logReason p s) = u at hcells ⊢
  have hub : u.beyond [] = s.beyond [] := (beyond_of_parcels hcells).trans (logReason_beyond _ p s)
  have huf : u.fret = { s.fret with reasons := r } := (fret_of_parcels hcells).trans hlog
  have hua : u.active (pdie p.iport) = true := (active_of_beyond hub (by simp) _).trans ha
  have hum : u.beyond refusalRegs = s.beyond refusalRegs := beyond_mono (by simp) hub
  unfold refuseAnswer
  simp only [hsrc]
  by_cases h1 : p.tlp.cls = 1
  · rw [if_pos h1]
    have ho := originate_originated (completionFor p.tlp (if ca then cplCA else cplUR) []) hua
    have hoa := (active_of_beyond ho.beyond (by simp) (pdie p.iport)).trans hua
    generalize originate p.iport (completionFor p.tlp (if ca then cplCA else cplUR) []) u = v at ho hoa
    refine ⟨?_, ⟨r, by rw [raise_fret, ho.fret, huf]⟩, fun _ => ⟨?_, _, rfl, ?_⟩, fun h0 => by omega⟩
    · rw [raise_beyond _ _ _ (by simp [tlerr, refusalRegs]), beyond_mono (by simp) ho.beyond, hum]
    · exact fld_raise_tlerr hoa (by cases ca <;> rfl) (by cases ca <;> decide)
    · have hr := raise_parcels (ns := refusalRegs) v (tlerr p.iport) (if ca then FltTlerr.CASENT else FltTlerr.URSENT) (by simp [tlerr, refusalRegs])
      rcases ho.waits with ⟨q, y, hq, hy⟩ | hw
      · exact .inl ⟨q, y, by rw [queue_of_parcels hr, hq, queue_of_parcels hcells, logReason_queue], hy⟩
      · exact .inr (by rw [ctlWait_of_parcels hr, hw, ctlWait_of_parcels hcells, logReason_bufDie])
  · rw [if_neg h1]
    by_cases h0 : p.tlp.cls = 0
    · rw [if_pos h0]
      exact ⟨(raise_beyond _ _ _ (by simp [tlerr, refusalRegs])).trans hum, ⟨r, by rw [raise_fret, huf]⟩, fun h => absurd h h1,
        fun _ => fld_raise_tlerr hua rfl (by decide)⟩
    · rw [if_neg h0]
      exact ⟨(raise_beyond _ _ _ (by simp [tlerr, refusalRegs])).trans hum, ⟨r, by rw [raise_fret, huf]⟩, fun h => absurd h h1, fun h => absurd h h0⟩

end Sys2Proof.Machine
end

section
/-! SUPPORT. The fret-only instructions on a port's course: the header fields and bytes, the lookups and the metadata that they give, and the verdict
stage of a port with nothing parked or held back (04 R126 to R138, R164, R165). -/

namespace Sys2Proof.Machine

@[simp] theorem pdie_gport (d : Nat) {pp : Nat} (h : pp < 16) : pdie (gport d pp) = d := by unfold pdie gport; omega
@[simp] theorem pnum_gport (d : Nat) {pp : Nat} (h : pp < 16) : pnum (gport d pp) = pp := by unfold pnum gport; omega

/-! ### Header fields and bytes (04 R126, R127) -/

/-- ADDR: of a memory or I/O request and of a message routed by address (04 R126). -/
theorem hxfField_addr (s : State) (p : Pkt) : hxfField s p 0x06 =
    if p.tlp.isMem || p.tlp.kind == 4 || p.tlp.kind == 5 || ((p.tlp.kind == 10 || p.tlp.kind == 11) && p.tlp.mroute == 1) then
      p.tlp.addr % 2 ^ 64 else 0 := by
  simp [hxfField, or_assoc]

/-- A byte of the header with the zeros beyond it. -/
theorem getElem?_header (raw : List Byte) {k : Nat} (hk : k < 128) :
    (raw.take 64 ++ List.replicate 128 0)[k]? = some (if k < 64 then raw.getD k 0 else 0) := by
  rw [List.getElem?_append]
  by_cases h : k < min 64 raw.length
  · rw [List.getD_eq_getElem?_getD, List.getElem?_eq_getElem (l := raw) (by omega)]
    simp [h, show k < 64 by omega]
  · have hbeyond : (if k < 64 then raw.getD k 0 else 0) = 0 := by
      split
      · rw [List.getD_eq_getElem?_getD, List.getElem?_eq_none (by omega)]; rfl
      · rfl
    rw [if_neg (by simpa using h), hbeyond, List.getElem?_replicate]
    simp
    omega

theorem ofBytesBE_zeros {l : List Byte} (h : ∀ b ∈ l, b = 0) : ofBytesBE l = 0 := by
  unfold ofBytesBE
  induction l with
  | nil => rfl
  | cons b l ih =>
    obtain rfl := h b (by simp)
    exact ih fun c hc => h c (by simp [hc])

/-- HXB reads header bytes most significant first, and zeros beyond the header. -/
theorem hxbBytes_eq (p : Pkt) {pos n : Nat} (hpos : pos < 128) (hn : n < 8) : hxbBytes p (n * 128 + pos) =
    ofBytesBE ((List.range (n + 1)).map fun i => if pos + i < 64 then p.tlp.raw.getD (pos + i) 0 else 0) := by
  have hp : (n * 128 + pos) % 128 = pos := by omega
  have hlen : (n * 128 + pos) / 128 % 8 = n := by omega
  unfold hxbBytes
  rw [hp, hlen]
  by_cases h : pos < 64
  · congr 1
    apply List.ext_getElem?
    intro i
    rw [List.getElem?_take, List.getElem?_map]
    by_cases hi : i < n + 1
    · rw [if_pos hi, List.getElem?_drop, getElem?_header _ (by omega), List.getElem?_range hi]; rfl
    · rw [if_neg hi, List.getElem?_eq_none (by simpa using hi)]; rfl
  · rw [ofBytesBE_zeros, ofBytesBE_zeros]
    · simp; omega
    · intro b hb
      obtain ⟨i, hi⟩ := List.mem_iff_getElem?.mp (List.mem_of_mem_take hb)
      rw [List.getElem?_drop] at hi
      by_cases hk : pos + i < 128
      · rw [getElem?_header _ hk, if_neg (by omega)] at hi
        exact (Option.some.inj hi).symm
      · rw [List.getElem?_append_right (by simp; omega), List.getElem?_replicate] at hi
        split at hi
        · exact (Option.some.inj hi).symm
        · cases hi

/-- A handle whose descriptor is not valid gives zero (04 R129). -/
theorem lookup_invalid (s : State) (d e g h : Nat) (ra rb : Word) (hv : bitOf (s.bankAt d e (0x7000 + 256 * g + 16 * h)) 63 = false) :
    s.lookup d e g h ra rb = 0 := by
  simp [State.lookup, hv]

/-! ### An instruction on a course -/

section Course
variable {s : State} {d pp : Nat} {c : Course} (hc : CourseFree s d pp c)
include hc

/-- An instruction whose lookups find no error acts on the course. -/
theorem courseInstr_free (o : FOp) : courseInstr (gport d pp) o {} s = putCourse (gport d pp) (c.step s (gport d pp) {} o) s := by
  obtain ⟨rfl, hlive, hv, hslot⟩ := hc
  unfold courseInstr
  dsimp only
  rw [if_pos ⟨hlive, by simp [hv], hslot⟩]
  rfl

/-- One that gives no verdict changes that course alone. -/
theorem courseInstr_keeps (o : FOp) {c' : Course} (hstep : c.step s (gport d pp) {} o = c') (hv : c'.verdict = none) :
    courseInstr (gport d pp) o {} s = s.course d pp c' := by
  rw [courseInstr_free hc, hstep]
  unfold putCourse
  simp [hv]
  rfl

/-- One that gives a verdict sends the course to the verdict stage. -/
theorem courseInstr_verdict (code n : Nat) : courseInstr (gport d pp) (.v code n) {} s =
    verdictStage (gport d pp) (s.course d pp { c with verdict := some (code, n % 65536) }) := by
  rw [courseInstr_free hc]
  rfl

end Course

/-! ### The verdict stage (04 R135, R164) -/

/-- The count of a verdict of a port (04 R164). -/
def vcnt (d pp v : Nat) : Reg := { name := .fretVcnt, die := d, i := pp, j := v }

/-- The state in which a port's course has ended with a verdict, which is counted. -/
def State.judged (g v : Nat) (s : State) : State := countVerdict g v (s.modFret fun x => { x with course := x.course.erase g })

theorem judged_fret (g v : Nat) (s : State) : (s.judged g v).fret = { s.fret with course := s.fret.course.erase g } := rfl

theorem judged_beyond (g v : Nat) (s : State) : (s.judged g v).beyond [.fretVcnt] = s.beyond [.fretVcnt] :=
  State.beyond_count _ _ _ (by simp)

/-- Nothing of a port is parked or held back, and the recorder is idle. -/
def StageClear (g : Nat) (s : State) : Prop := s.fret.parked = [] ∧ s.fret.heldBack.get [] g = [] ∧ s.recState (pdie g) = 0

theorem recPkt_idle {d : Nat} {s : State} (h : s.recState d = 0) (point unit : Nat) (tagged : Bool) (p : Pkt) :
    recPkt d point unit tagged p s = s := by
  unfold recPkt recHdr
  rw [if_pos (by simp [h])]

/-- With nothing parked or held back a verdict takes effect at once. -/
theorem verdictStage_takes {g v n : Nat} {c : Course} {s : State} (hc : s.fret.course.get {} g = c) (hv : c.verdict = some (v, n))
    (hbad : c.bad = false) (hs : StageClear g s) :
    verdictStage g s = takeVerdict c.slot { c.pkt with mdata := c.mdata, verdict := v, reason := n } (s.judged g v) := by
  obtain ⟨hparked, hheld, hrec⟩ := hs
  have hidle : (s.judged g v).recState (pdie g) = 0 :=
    ((keeps_of_beyond (judged_beyond g v s)).fld _ _ (by simp)).trans hrec
  unfold verdictStage
  dsimp only
  rw [hc, hv]
  dsimp only
  rw [if_neg (by simp [hbad]), show countVerdict g v (s.modFret fun x => { x with course := x.course.erase g }) = s.judged g v from rfl,
    recPkt_idle hidle, if_neg]
  simp [State.heldByTrap, judged_fret, hparked, hheld]

theorem decidePkt_forwards {p : Pkt} (h : p.verdict ≠ 3) (s : State) :
    decidePkt p s = s.modFret fun x => { x with decided := x.decided.set p.iport (x.decided.get [] p.iport ++ [p]) } := by
  unfold decidePkt
  rw [if_neg h]

/-- REFUSE of a packet of a port on a die in service refuses it, after its mirror copy. -/
theorem decidePkt_refuses {p : Pkt} {s : State} (h : p.verdict = 3) (hsrc : p.src = .port) (ha : s.active (pdie p.iport) = true) :
    Refused p (p.reason.testBit 15) s (decidePkt p s) := by
  have hm : (mirrorIngress p true s).parcels refusalRegs = s.parcels refusalRegs :=
    mirrorIngress_parcels (by simp [refusalRegs]) (by simp [refusalRegs]) p true s
  have hma : (mirrorIngress p true s).active (pdie p.iport) = true := (active_of_beyond (beyond_of_parcels hm) (by simp [refusalRegs]) _).trans ha
  unfold decidePkt
  rw [if_pos h]
  exact (refusePkt_refused _ hsrc hma).of_parcels hm

/-! ### Parking (04 R138, R165) -/

@[simp] theorem toBmc_fret (m : BmcMsg) (s : State) : (toBmc m s).fret = s.fret := by
  unfold toBmc
  split
  · rfl
  · rfl

@[simp] theorem toEndpoint_fret (n d e : Nat) (s : State) : (toEndpoint n d e s).fret = s.fret := by
  unfold toEndpoint
  dsimp only
  split
  · exact State.forAll_keeps State.fret (fun f t => t.modFlt fun x => { x with pme := x.pme ++ [(n, f)] }) (fun _ _ => rfl) _ _
  · split <;> rfl

@[simp] theorem deliverRouted_fret (d e part : Nat) (m : BmcMsg) (s : State) : (deliverRouted d e part m s).fret = s.fret := by
  unfold deliverRouted recNote
  simp only [apply_ite State.fret, State.modFlt_fret, toBmc_fret, toEndpoint_fret, ite_self]

/-- The first word of the record of a parked packet (04 R165). -/
def traprecWord (slot prog tag : Nat) (p : Pkt) : Word :=
  BitVec.ofNat 64 (FretTraprec0.VALID.place 1 + FretTraprec0.TAG.place tag + FretTraprec0.CODE.place p.reason + FretTraprec0.EPOCH.place p.epoch
    + FretTraprec0.CLASS.place p.tlp.cls + FretTraprec0.TC.place p.tlp.tc + FretTraprec0.PSLOT.place slot + FretTraprec0.PROG.place prog)

theorem traprecWord_fields (slot prog tag : Nat) (p : Pkt) : FretTraprec0.VALID.of (traprecWord slot prog tag p) = 1 ∧
    (tag < 256 → FretTraprec0.TAG.of (traprecWord slot prog tag p) = tag) := by
  simp only [traprecWord, Field.of, getBits, Field.place, FretTraprec0.VALID, FretTraprec0.TAG, FretTraprec0.CODE, FretTraprec0.EPOCH,
    FretTraprec0.CLASS, FretTraprec0.TC, FretTraprec0.PSLOT, FretTraprec0.PROG, BitVec.toNat_ofNat, Nat.shiftRight_eq_div_pow]
  omega

/-- The registers of parking slots. -/
def trapRegs : List RegName := [.fretTraprec0, .fretTraprec1, .fretTraprec2, .fretTrapHdr]

theorem writeTraprec_beyond (g k slot prog tag : Nat) (p : Pkt) (s : State) :
    (writeTraprec g k slot prog tag p s).beyond trapRegs = s.beyond trapRegs := by
  unfold writeTraprec
  simp [trapRegs]

theorem writeTraprec_fret (g k slot prog tag : Nat) (p : Pkt) (s : State) : (writeTraprec g k slot prog tag p s).fret = s.fret := by
  unfold writeTraprec
  dsimp only
  rw [State.forAll_keeps State.fret _ fun _ _ => State.setReg_fret ..]
  rfl

theorem writeTraprec_reg (g k slot prog tag : Nat) (p : Pkt) (s : State) :
    (writeTraprec g k slot prog tag p s).reg (traprec .fretTraprec0 g k) = traprecWord slot prog tag p := by
  unfold writeTraprec
  dsimp only
  rw [State.forAll_keeps (fun t => t.reg (traprec .fretTraprec0 g k)) _ fun _ _ => State.reg_setReg_ne _ _ (by simp [traprec])]
  rw [State.reg_setReg_ne _ _ (by simp [traprec]), State.reg_setReg_ne _ _ (by simp [traprec]), State.reg_setReg_same]
  rfl

/-- What a TRAP does with no slot of the port in use: the packet stands in slot 0 under the next tag of the die, and its record says so. -/
structure Parks (p : Pkt) (tag : Nat) (s t : State) : Prop where
  keeps : Keeps (trapRegs ++ [.partEvtq]) s t
  course : t.fret.course = s.fret.course
  parked : t.fret.parked = [((p.iport, 0), { pkt := p, tag := tag })]
  recorded : tag < 256 → t.fld (traprec .fretTraprec0 p.iport 0) FretTraprec0.TAG = tag
  valid : t.fld (traprec .fretTraprec0 p.iport 0) FretTraprec0.VALID = 1

/-- The state in which a packet stands in slot 0 of its port under a tag. -/
def State.parking (p : Pkt) (tag : Nat) (s : State) : State :=
  s.modFret fun x => { x with parked := x.parked.set (p.iport, 0) { pkt := p, tag := tag }, trapTag := x.trapTag.set (pdie p.iport) tag,
                              trapExpired := x.trapExpired.filter fun y => !(pdie y.1 == pdie p.iport && y.2.2 == tag) }

theorem parkPkt_eq (slot : Nat) (p : Pkt) {s : State} (h : s.fret.parked = []) : ∃ m, parkPkt slot p s =
    deliverRouted (pdie p.iport) (32 * pnum p.iport + 11) 0x3F m (writeTraprec p.iport 0 slot (s.progOf p.epoch p.iport)
      (nextTag 255 (s.fret.trapTag.get 0 (pdie p.iport))) p (s.parking p (nextTag 255 (s.fret.trapTag.get 0 (pdie p.iport))))) := by
  have hfree : firstBelow (fun k => (s.fret.parked.find (p.iport, k)).isNone) 16 = some 0 := by simp [h, firstBelow, List.range_succ_eq_map]
  unfold parkPkt
  dsimp only
  rw [hfree]
  exact ⟨_, rfl⟩

theorem parkPkt_parks (slot : Nat) (p : Pkt) {s : State} (h : s.fret.parked = []) :
    Parks p (nextTag 255 (s.fret.trapTag.get 0 (pdie p.iport))) s (parkPkt slot p s) := by
  obtain ⟨m, heq⟩ := parkPkt_eq slot p h
  rw [heq]
  generalize nextTag 255 (s.fret.trapTag.get 0 (pdie p.iport)) = tag
  generalize s.progOf p.epoch p.iport = prog
  have hword := writeTraprec_reg p.iport 0 slot prog tag p (s.parking p tag)
  have hw1 : Keeps trapRegs s (writeTraprec p.iport 0 slot prog tag p (s.parking p tag)) :=
    keeps_of_beyond (s := s) (writeTraprec_beyond p.iport 0 slot prog tag p (s.parking p tag))
  have hw2 := writeTraprec_fret p.iport 0 slot prog tag p (s.parking p tag)
  generalize writeTraprec p.iport 0 slot prog tag p (s.parking p tag) = w at hword hw1 hw2
  have hdel := keeps_deliverRouted (pdie p.iport) (32 * pnum p.iport + 11) 0x3F m w
  have hfret := deliverRouted_fret (pdie p.iport) (32 * pnum p.iport + 11) 0x3F m w
  generalize deliverRouted (pdie p.iport) (32 * pnum p.iport + 11) 0x3F m w = t at hdel hfret
  have hreg : t.reg (traprec .fretTraprec0 p.iport 0) = traprecWord slot prog tag p := (hdel.reg _ (by simp)).trans hword
  obtain ⟨hvalid, htag⟩ := traprecWord_fields slot prog tag p
  refine ⟨hw1.trans hdel, by rw [hfret, hw2]; rfl, ?_, fun ht => ?_, ?_⟩
  · rw [hfret, hw2]
    simp [State.parking, h, FMap.set, FMap.erase]
  · rw [State.fld, hreg]; exact htag ht
  · rw [State.fld, hreg]; exact hvalid

/-! ### What a verdict leaves -/

/-- What every verdict of a course does: the course ends, memories and harts stay, and the verdict is counted. -/
def Ends (d pp v : Nat) (s t : State) : Prop :=
  t.fret.course.get {} (gport d pp) = {} ∧ t.mem = s.mem ∧ t.core = s.core ∧
    t.fld (vcnt d pp v) FretVcnt.COUNT = (s.count (vcnt d pp v) FretVcnt.COUNT 1).fld (vcnt d pp v) FretVcnt.COUNT

/-- The packet of a course with the verdict that its program gave. -/
def Course.decision (c : Course) (v n : Nat) : Pkt := { c.pkt with mdata := c.mdata, verdict := v, reason := n }

section Verdicts
variable {s : State} {d pp : Nat} {c : Course}

/-- The state in which the course of a port has ended with a verdict. -/
def State.ended (d pp : Nat) (c : Course) (v n : Nat) (s : State) : State :=
  (s.course d pp { c with verdict := some (v, n) }).judged (gport d pp) v

theorem ended_beyond (v n : Nat) : (s.ended d pp c v n).beyond [.fretVcnt] = s.beyond [.fretVcnt] := judged_beyond ..

theorem ended_vcnt (hpp : pp < 16) (v n : Nat) : (s.ended d pp c v n).fld (vcnt d pp v) FretVcnt.COUNT =
    (s.count (vcnt d pp v) FretVcnt.COUNT 1).fld (vcnt d pp v) FretVcnt.COUNT := by
  unfold State.ended State.judged countVerdict
  rw [pdie_gport d hpp, pnum_gport d hpp]
  rfl

/-- What then writes no count of verdicts and no course ends the course. -/
theorem ends_of_keeps (hpp : pp < 16) {v n : Nat} {ns : List RegName} {t : State} (hk : Keeps ns (s.ended d pp c v n) t) (hn : .fretVcnt ∉ ns)
    (hc : t.fret.course = (s.ended d pp c v n).fret.course) : Ends d pp v s t := by
  obtain ⟨hmem, hcore, -⟩ := id hk
  obtain ⟨jmem, jcore, -⟩ := still_of_beyond (ended_beyond (s := s) (d := d) (pp := pp) (c := c) v n)
  refine ⟨?_, hmem.trans jmem, hcore.trans jcore, (hk.fld _ _ hn).trans (ended_vcnt hpp v n)⟩
  rw [hc]
  exact FMap.get_erase_same ..

variable (hc : CourseFree s d pp c) (hbad : c.bad = false) (hs : StageClear (gport d pp) s)
include hc hbad hs

/-- V of a course whose port has nothing parked or held back takes effect at once. -/
theorem courseInstr_takes (v : Nat) {n : Nat} (hn : n < 65536) : courseInstr (gport d pp) (.v v n) {} s =
    takeVerdict c.slot (c.decision v n) (s.ended d pp c v n) := by
  rw [courseInstr_verdict hc, Nat.mod_eq_of_lt hn]
  exact verdictStage_takes (c := { c with verdict := some (v, n) }) (FMap.get_set_same ..) rfl hbad hs

variable (hpp : pp < 16) (hport : c.pkt.iport = gport d pp)
include hpp hport

/-- FWD, FWDM and HOLD put the packet after the decided ones. -/
theorem courseInstr_decides {v n : Nat} (hv : v < 3) (hn : n < 65536) : let t := courseInstr (gport d pp) (.v v n) {} s
    Ends d pp v s t ∧ Keeps [.fretVcnt] s t ∧
      t.fret.decided.get [] (gport d pp) = s.fret.decided.get [] (gport d pp) ++ [c.decision v n] := by
  have hport' : (c.decision v n).iport = gport d pp := hport
  dsimp only
  rw [courseInstr_takes hc hbad hs v hn, takeVerdict, if_neg (by simp only [Course.decision]; omega),
    decidePkt_forwards (by simp only [Course.decision]; omega)]
  refine ⟨ends_of_keeps hpp (keeps_modFret _ _) (by simp) rfl,
    (keeps_of_beyond (ended_beyond (s := s) (d := d) (pp := pp) (c := c) v n) : Keeps [.fretVcnt] s _), ?_⟩
  rw [State.modFret_fret, hport', FMap.get_set_same]
  rfl

/-- REFUSE of a non-posted request answers it once. -/
theorem courseInstr_refuses {n : Nat} (hn : n < 65536) (hsrc : c.pkt.src = .port) (hcls : c.pkt.tlp.cls = 1) (ha : s.active d = true) :
    let t := courseInstr (gport d pp) (.v 3 n) {} s
    Ends d pp 3 s t ∧ t.fret.decided.get [] (gport d pp) = s.fret.decided.get [] (gport d pp) ∧
      t.fld (tlerr (gport d pp)) (if n.testBit 15 then FltTlerr.CASENT else FltTlerr.URSENT) = 1 ∧
      ∃ z, z.rid = c.pkt.tlp.rid ∧ z.tag = c.pkt.tlp.tag ∧ z.cst = (if n.testBit 15 then 4 else 1) ∧
        ((∃ q y, t.queue (gport d pp) q = s.queue (gport d pp) q ++ [y] ∧ y.tlp = z) ∨
          (t.bufDie d).ctlWait = (s.bufDie d).ctlWait ++ [(gport d pp, z)]) := by
  have hport' : (c.decision 3 n).iport = gport d pp := hport
  have ha' : (s.ended d pp c 3 n).active (pdie (c.decision 3 n).iport) = true := by
    rw [hport', pdie_gport d hpp, active_of_beyond (ended_beyond 3 n) (by simp)]
    exact ha
  obtain ⟨hb, ⟨r, hf⟩, hanswer, -⟩ := decidePkt_refuses (p := c.decision 3 n) rfl hsrc ha'
  obtain ⟨hsent, z, hz, hwhere⟩ := hanswer hcls
  rw [hport'] at hsent hwhere
  rw [pdie_gport d hpp] at hwhere
  dsimp only
  rw [courseInstr_takes hc hbad hs 3 hn, takeVerdict, if_neg (by simp [Course.decision])]
  refine ⟨ends_of_keeps hpp (keeps_of_beyond hb) (by simp [refusalRegs]) (by rw [hf]), by rw [hf]; rfl, hsent, z, ?_⟩
  subst hz
  exact ⟨rfl, rfl, rfl, hwhere⟩

/-- TRAP parks the packet in slot 0 under the next tag of the die. -/
theorem courseInstr_parks {n : Nat} (hn : n < 65536) : let t := courseInstr (gport d pp) (.v 4 n) {} s
    Ends d pp 4 s t ∧
      let tag := nextTag 255 (s.fret.trapTag.get 0 d)
      t.fret.parked = [((gport d pp, 0), { pkt := c.decision 4 n, tag := tag })] ∧
      (tag < 256 → t.fld (traprec .fretTraprec0 (gport d pp) 0) FretTraprec0.TAG = tag) ∧
      t.fld (traprec .fretTraprec0 (gport d pp) 0) FretTraprec0.VALID = 1 := by
  have hport' : (c.decision 4 n).iport = gport d pp := hport
  obtain ⟨hk, hcourse, hparked, htag, hvalid⟩ := parkPkt_parks c.slot (c.decision 4 n) (s := s.ended d pp c 4 n) hs.1
  rw [hport'] at hparked htag hvalid
  rw [pdie_gport d hpp] at hparked htag
  dsimp only
  rw [courseInstr_takes hc hbad hs 4 hn, takeVerdict,
    if_pos (show (c.decision 4 n).verdict = 4 from rfl)]
  exact ⟨ends_of_keeps hpp hk (by simp [trapRegs]) hcourse, hparked, htag, hvalid⟩

end Verdicts

/-! ### The statement -/

/-- Settles O13: the instructions that give no verdict change the course as `Course.step` says, and those that give one pass a clear verdict stage. -/
theorem fretCourseInstructions : Obligations.FretCourseInstructions := by
  unfold Obligations.FretCourseInstructions
  intro s d pp rd ra rb imm c hc hrd himm hd hpp g x p a e gives sets
  have step (o : FOp) (c' : Course) (hstep : c.step s g {} o = c') (hv : c'.verdict = none) :
      (.next (courseInstr g o {} s) : Host.Outcome State Fault Refusal) = .next (s.course d pp c') :=
    congrArg _ (courseInstr_keeps hc o hstep hv)
  have hnone : c.verdict = none := hc.2.2.1
  have writes (o : FOp) (v : Word) (hstep : c.step s g {} o = c.wrote rd v) := step o _ hstep hnone
  have metas (o : FOp) (m : Meta) (hstep : c.step s g {} o = { c with mdata := m, slot := c.slot + 1 }) := step o _ hstep hnone
  have hg : pdie g = d := pdie_gport d hpp
  have hi : imm % 65536 = imm := Nat.mod_eq_of_lt himm
  have lookups (h : Nat) (hh : h < 16) : gives (.lk x rd ra rb h {}) (s.lookup d e g h a (rget c.regs rb)) :=
    writes (.lk rd ra rb h) _ (by simp [Course.step, Course.found, hg, Nat.mod_eq_of_lt hh]; rfl)
  refine ⟨fun sel v hm => ?_, fun pos n hpos hn => ?_, fun h hh => ⟨lookups h hh, fun hv => ?_⟩, ?_, ?_, ?_, ?_, ?_, ?_, ?_,
    fun hparked hheld hrec hbad hport => ?_⟩
  case refine_1 =>
    have hv : hxfField s p sel = v := by
      simp only [List.mem_cons, List.not_mem_nil, or_false, Prod.mk.injEq] at hm
      rcases hm with ⟨rfl, rfl⟩ | ⟨rfl, rfl⟩ | ⟨rfl, rfl⟩ | ⟨rfl, rfl⟩ | ⟨rfl, rfl⟩ | ⟨rfl, rfl⟩ | ⟨rfl, rfl⟩ | ⟨rfl, rfl⟩ | ⟨rfl, rfl⟩
      case inr.inr.inr.inr.inl => exact hxfField_addr s p
      all_goals rfl
    subst hv
    exact writes (.hxf rd sel) _ rfl
  case refine_2 =>
    rw [← hxbBytes_eq p hpos hn]
    exact writes (.hxb rd (n * 128 + pos)) _ rfl
  case refine_3 =>
    have h0 := lookups h hh
    rwa [lookup_invalid s d e g h a _ hv] at h0
  case refine_4 => exact writes (.lkf rd ra) _ (by simp [Course.step, Course.found, hg]; rfl)
  case refine_5 => exact metas (.mset 0 ra) _ rfl
  case refine_6 => exact metas (.mset 2 ra) _ rfl
  case refine_7 => exact metas (.mseti 1 imm) _ (by simp [Course.step, Meta.setField, hi])
  case refine_8 => exact metas (.mseti 3 imm) _ (by simp [Course.step, Meta.setField, hi])
  case refine_9 => exact metas (.mseti 4 imm) _ (by simp [Course.step, Meta.setField, hi])
  case refine_10 => exact metas (.mseti 5 imm) _ (by simp [Course.step, Meta.setField, hi])
  case refine_11 =>
    have hs : StageClear g s := ⟨hparked, hheld, by rw [hg]; exact hrec⟩
    have decides (v : Nat) (hv : v < 3) := courseInstr_decides hc hbad hs hpp hport hv himm
    exact ⟨⟨_, rfl, decides 0 (by decide)⟩, ⟨_, rfl, decides 1 (by decide)⟩, ⟨_, rfl, decides 2 (by decide)⟩,
      fun hsrc hcls ha => ⟨_, rfl, courseInstr_refuses hc hbad hs hpp hport himm hsrc hcls ha⟩,
      _, rfl, courseInstr_parks hc hbad hs hpp hport himm⟩

end Sys2Proof.Machine
end

section
/-! SUPPORT. FRET_LOAD: what its check answers, and what the copy of a checked program stages (04 R143, R144, R156, 05 R168). -/

namespace Sys2Proof.Machine

/-! ### The check of a program (04 R144) -/

theorem firstBelow_lt {f : Nat → Bool} {n k : Nat} (h : firstBelow f n = some k) : k < n := List.mem_range.mp (List.mem_of_find?_eq_some h)

/-- The answer of the check fits its register, a status below 16 and an index below 64, and a program of more than 24 words does not pass. -/
theorem loadCheck_answer (words : List Nat) (len slot : Nat) :
    (loadCheck words len slot).1 < 16 ∧ (loadCheck words len slot).2 < 64 ∧ ((loadCheck words len slot).1 = 1 → len ≤ 24) := by
  unfold loadCheck
  extract_lets ops p
  by_cases hlen : len = 0 ∨ 24 < len
  · rw [if_pos hlen]; exact ⟨by decide, by decide, fun h => absurd h (by decide)⟩
  have h24 : len ≤ 24 := by omega
  have hp : p.length ≤ len := by simp [p, ops]
  have hat : ∀ {f : Nat → Bool} {n k : Nat}, n ≤ len → firstBelow f n = some k → k < 64 := fun hn hk => by
    have := firstBelow_lt hk
    omega
  have hfault : ∀ {st k : Nat}, st < 16 → k < 64 → (st, k).1 < 16 ∧ (st, k).2 < 64 ∧ ((st, k).1 = 1 → len ≤ 24) :=
    fun hst hk => ⟨hst, hk, fun _ => h24⟩
  rw [if_neg hlen]
  split
  · rename_i hk; exact hfault (by decide) (hat le_rfl hk)
  · split
    · rename_i hk; exact hfault (by decide) (hat le_rfl hk)
    · split
      · rename_i hk; exact hfault (by decide) (hat le_rfl hk)
      · split
        · rename_i hk; exact hfault (by decide) (hat hp hk)
        · split
          · rename_i hk; exact hfault (by decide) (hat hp hk)
          · split
            · exact hfault (by decide) (by omega)
            · split
              · exact hfault (by decide) (by decide)
              · exact hfault (by decide) (by decide)

/-! ### Staging a word (05 R168) -/

/-- What staging does to a state: only shadow banks and the record of their pages differ. -/
structure Stages (s t : State) : Prop where
  rest : ∃ dies soft, t = { s with tab := { s.tab with dies := dies, soft := soft } }
  epochs : ∀ e, (t.tabDie e).older = (s.tabDie e).older ∧ (t.tabDie e).syncing = (s.tabDie e).syncing

theorem Stages.refl (s : State) : Stages s s := ⟨⟨_, _, rfl⟩, fun _ => ⟨rfl, rfl⟩⟩

theorem Stages.trans {s t u : State} (h : Stages s t) (h' : Stages t u) : Stages s u := by
  obtain ⟨⟨dies, soft, rfl⟩, he⟩ := h
  obtain ⟨⟨dies', soft', rfl⟩, he'⟩ := h'
  exact ⟨⟨_, _, rfl⟩, fun e => ⟨(he' e).1.trans (he e).1, (he' e).2.trans (he e).2⟩⟩

section Staged
variable {s t : State} (h : Stages s t)
include h

theorem Stages.pageOk (d tgt mid page need : Nat) : t.pageOk d tgt mid page need = s.pageOk d tgt mid page need := by
  obtain ⟨⟨dies, soft, rfl⟩, -⟩ := h; rfl

theorem Stages.activeDies : t.activeDies = s.activeDies := by
  obtain ⟨⟨dies, soft, rfl⟩, -⟩ := h; rfl

theorem Stages.dieCount : t.dieCount = s.dieCount := by
  obtain ⟨⟨dies, soft, rfl⟩, -⟩ := h; rfl

theorem Stages.reg (r : Reg) : t.reg r = s.reg r := by
  obtain ⟨⟨dies, soft, rfl⟩, -⟩ := h; rfl

theorem Stages.heldWrites : t.tab.heldWrites = s.tab.heldWrites := by
  obtain ⟨⟨dies, soft, rfl⟩, -⟩ := h; rfl

theorem Stages.stageClosed : t.stageClosed = s.stageClosed := by
  have htwo : t.twoEpochs = s.twoEpochs := by
    unfold State.twoEpochs
    rw [h.activeDies]
    exact congrArg (List.any _) (funext fun e => by rw [(h.epochs e).1, (h.epochs e).2])
  have hcapo : t.capoRuns = s.capoRuns := by
    unfold State.capoRuns State.fld; rw [h.reg]
  unfold State.stageClosed
  rw [htwo, hcapo]

theorem Stages.keeps : Keeps [] s t := by
  obtain ⟨⟨dies, soft, rfl⟩, -⟩ := h; exact ⟨rfl, rfl, rfl, rfl, fun _ _ => rfl⟩

end Staged

theorem State.tabDie_modTabDie (s : State) (d e : Nat) (f : TabDie → TabDie) :
    (s.modTabDie d f).tabDie e = if e = d then f (s.tabDie d) else s.tabDie e := FMap.get_set ..

/-- A change of one die's shadow bank stages. -/
theorem modTabDie_stages (s : State) (d : Nat) {f : TabDie → TabDie} (ho : (f (s.tabDie d)).older = (s.tabDie d).older)
    (hs : (f (s.tabDie d)).syncing = (s.tabDie d).syncing) : Stages s (s.modTabDie d f) := by
  refine ⟨⟨_, _, rfl⟩, fun e => ?_⟩
  rw [State.tabDie_modTabDie]
  split
  · rename_i he; rw [he]; exact ⟨ho, hs⟩
  · exact ⟨rfl, rfl⟩

/-- A word of a bank after a word of it is set. -/
theorem bankWord_set (b : FMap Nat Word) (k j : Nat) (v : Word) : bankWord (b.set k v) j = if j = k then v else bankWord b j := FMap.get_set ..

/-- A die's bank record after a word of its shadow bank was staged. -/
def TabDie.stage (d k : Nat) (w : Word) (soft : List (Nat × Nat)) (x : TabDie) : TabDie :=
  { x with shadow := x.shadow.set k w, written := addPage (pageOf k) x.written,
           badPages := if (d, k) ∈ soft then addPage (pageOf k) x.badPages else x.badPages }

/-- Staging on dies whose gates let the word pass changes that word of the shadow banks of these dies. -/
theorem forAll_replicate_stages {s : State} {k : Nat} {w : Word} {soft : List (Nat × Nat)} {l : List Nat}
    (hok : ∀ d ∈ l, s.pageOk d 19 (0x58 + d) (8 * k / 4096) 1 = true) {t : State} (ht : Stages s t) :
    let u := t.forAll l fun d => replicate d (8 * k) fun t => t.modTabDie d (TabDie.stage d k w soft)
    Stages s u ∧ ∀ e j, bankWord (u.tabDie e).shadow j = if e ∈ l ∧ j = k then w else bankWord (t.tabDie e).shadow j := by
  induction l generalizing t with
  | nil => exact ⟨ht, fun e j => by simp [State.forAll]⟩
  | cons d l ih =>
    dsimp only at ih ⊢
    have hpass : t.pageOk d 19 (0x58 + d) (8 * k / 4096) 1 = true := (ht.pageOk ..).trans (hok d (by simp))
    obtain ⟨hu, hword⟩ := ih (fun e he => hok e (by simp [he])) (ht.trans (modTabDie_stages t d (f := TabDie.stage d k w soft) rfl rfl))
    simp only [State.forAll, List.foldl_cons] at hu hword ⊢
    rw [replicate, if_pos hpass]
    refine ⟨hu, fun e j => ?_⟩
    rw [hword, State.tabDie_modTabDie]
    by_cases hj : j = k
    · by_cases he : e ∈ l
      · simp [hj, he]
      · by_cases hed : e = d <;> simp [hj, he, hed, TabDie.stage, bankWord_set]
    · by_cases hed : e = d <;> simp [hj, hed, TabDie.stage, bankWord_set]

/-- A staged word reaches the shadow bank of every die in service, as far as the bank has its bits. -/
theorem applyStaged_stages {s : State} (hok : ∀ e page, s.active e = true → s.pageOk e 19 (0x58 + e) page 1 = true) (k : Nat) (v : Word) :
    Stages s (applyStaged k v s) ∧ ∀ e, e ∈ s.activeDies → ∀ j, bankWord ((applyStaged k v s).tabDie e).shadow j =
      if j = k then v &&& bankMask s.dieCount k else bankWord (s.tabDie e).shadow j := by
  obtain ⟨hu, hword⟩ := forAll_replicate_stages (k := k) (w := v &&& bankMask s.dieCount k) (soft := s.tab.soft) (l := s.activeDies)
    (fun d hd => hok d _ (List.mem_filter.mp hd).2) (Stages.refl s)
  unfold applyStaged
  refine ⟨hu.trans ⟨⟨_, _, rfl⟩, fun _ => ⟨rfl, rfl⟩⟩, fun e he j => ?_⟩
  have h := hword e j
  simp only [he, true_and] at h
  exact h

/-- The words of a program keep all their bits in the banks (05 R171). -/
theorem bankMask_program {dies slot j : Nat} (hslot : slot < 64) (hj : j < 12) :
    bankMask dies ((0x1000 + 128 * slot) / 8 + j) = BitVec.allOnes 64 := by
  unfold bankMask
  rw [if_neg (by omega), if_neg (by omega), if_pos (by omega), if_pos (by omega)]

/-- The pair of staged words that a program's word `j` of the banks takes. -/
def stagePair (d j : Nat) (s : State) : Word :=
  BitVec.ofNat 64 ((s.reg (fretStage d (2 * j + 1))).toNat % 2 ^ 32 * 2 ^ 32 + (s.reg (fretStage d (2 * j))).toNat % 2 ^ 32)

/-- What every step of a loop keeps holds after the loop. -/
theorem State.forAll_invariant {α : Type} {P : State → Prop} {f : α → State → State} (h : ∀ a t, P t → P (f a t)) (l : List α) {s : State}
    (hs : P s) : P (s.forAll l f) := by
  induction l generalizing s with
  | nil => exact hs
  | cons a l ih => exact ih (h a s hs)

/-- The step of the copy that stages word `j` of a program. -/
def copyWord (d slot len j : Nat) (t : State) : State :=
  let k := (0x1000 + 128 * slot) / 8 + j
  let lo := (t.reg (fretStage d (2 * j))).toNat % 2 ^ 32
  let hi := if 2 * j + 1 < len then (t.reg (fretStage d (2 * j + 1))).toNat % 2 ^ 32 else (t.carried k).toNat / 2 ^ 32
  stageWord k (BitVec.ofNat 64 (hi * 2 ^ 32 + lo)) t

theorem copyProgram_eq (d slot len : Nat) (s : State) : copyProgram d slot len s = s.forAll (List.range ((len + 1) / 2)) (copyWord d slot len) := rfl

section Copy
variable {s : State} (hok : ∀ e page, s.active e = true → s.pageOk e 19 (0x58 + e) page 1 = true) (hopen : s.stageClosed = false)
include hok hopen

theorem Stages.afterWord {t : State} (ht : Stages s t) (k : Nat) (v : Word) : Stages s (stageWord k v t) ∧
    ∀ e, e ∈ s.activeDies → ∀ j, bankWord ((stageWord k v t).tabDie e).shadow j =
      if j = k then v &&& bankMask s.dieCount k else bankWord (t.tabDie e).shadow j := by
  have hactive : ∀ e, t.active e = s.active e := fun e => ht.keeps.active (by simp) e
  obtain ⟨hu, hword⟩ := applyStaged_stages (s := t) (fun e page he => (ht.pageOk ..).trans (hok e page ((hactive e).symm.trans he))) k v
  rw [ht.activeDies, ht.dieCount] at hword
  rw [stageWord, if_neg (by simp [ht.stageClosed, hopen])]
  exact ⟨ht.trans hu, hword⟩

/-- A step of the copy sets its word of the shadow banks, where its two staged words belong to the program to that pair. -/
theorem Stages.afterCopy {t : State} (ht : Stages s t) {d slot len j : Nat} (hslot : slot < 64) (hlen : len ≤ 24) :
    Stages s (copyWord d slot len j t) ∧ ∀ e, e ∈ s.activeDies →
      (2 * j + 1 < len → bankWord ((copyWord d slot len j t).tabDie e).shadow (0x200 + 16 * slot + j) = stagePair d j s) ∧
      ∀ k, k ≠ 0x200 + 16 * slot + j → bankWord ((copyWord d slot len j t).tabDie e).shadow k = bankWord (t.tabDie e).shadow k := by
  have hat : (0x1000 + 128 * slot) / 8 + j = 0x200 + 16 * slot + j := by omega
  unfold copyWord
  extract_lets k lo hi
  obtain ⟨hu, hword⟩ := ht.afterWord hok hopen k (BitVec.ofNat 64 (hi * 2 ^ 32 + lo))
  refine ⟨hu, fun e he => ⟨fun hj => ?_, fun i hi => ?_⟩⟩
  · have hpair : (BitVec.ofNat 64 (hi * 2 ^ 32 + lo) : Word) = stagePair d j s := by
      simp only [hi, lo, if_pos hj, ht.reg]; rfl
    rw [← hat, hword e he, if_pos rfl, hpair, bankMask_program hslot (by omega), BitVec.and_allOnes]
  · rw [hword e he, if_neg (by omega)]

/-- With the staging path open and the gates letting it pass, the copy puts each pair of staged words in its word of every shadow bank. -/
theorem copyProgram_stages {d slot len : Nat} (hslot : slot < 64) (hlen : len ≤ 24) : Stages s (copyProgram d slot len s) ∧
    ∀ e j, e ∈ s.activeDies → 2 * j + 1 < len →
      bankWord ((copyProgram d slot len s).tabDie e).shadow (0x200 + 16 * slot + j) = stagePair d j s := by
  have hstep : ∀ i t, Stages s t → Stages s (copyWord d slot len i t) := fun i t ht => (ht.afterCopy hok hopen hslot hlen).1
  rw [copyProgram_eq]
  refine ⟨State.forAll_invariant hstep _ (Stages.refl s), fun e j he hj => ?_⟩
  refine (State.forAll_reaches (Q := fun t => Stages s t ∧ bankWord (t.tabDie e).shadow (0x200 + 16 * slot + j) = stagePair d j s) hstep
    (fun t ht => ?_) (fun i t ht => ⟨hstep i t ht.1, ?_⟩) (List.mem_range.mpr (show j < (len + 1) / 2 by omega)) (Stages.refl s)).2
  · obtain ⟨hu, hword⟩ := ht.afterCopy (d := d) (j := j) hok hopen hslot hlen
    exact ⟨hu, (hword e he).1 hj⟩
  · obtain ⟨hset, hkeep⟩ := (ht.1.afterCopy (d := d) (j := i) hok hopen hslot hlen).2 e he
    by_cases hij : i = j
    · rw [← hij]; exact hset (hij ▸ hj)
    · rw [hkeep _ (by omega), ht.2]

end Copy

/-! ### FRET_LOAD (04 R143, R144) -/

/-- The registers that say what a replication gate lets pass. -/
def gateRegs : List RegName := [.gateCtl, .gateReg0, .gateReg1, .gateMidgrp]

theorem State.pageOk_congr {s t : State} (hreg : ∀ r : Reg, r.name ∈ gateRegs → t.reg r = s.reg r) (hgate : t.gate = s.gate)
    (d tgt mid page need : Nat) : t.pageOk d tgt mid page need = s.pageOk d tgt mid page need := by
  have h0 : ∀ r, t.reg (gateReg0 d tgt r) = s.reg (gateReg0 d tgt r) := fun r => hreg _ (by simp [gateReg0, gateRegs])
  have h1 : ∀ r, t.reg (gateReg1 d tgt r) = s.reg (gateReg1 d tgt r) := fun r => hreg _ (by simp [gateReg1, gateRegs])
  have hctl : t.reg (gateCtl d tgt) = s.reg (gateCtl d tgt) := hreg _ (by simp [gateCtl, gateRegs])
  have hgrp : t.midGroup d mid = s.midGroup d mid := by unfold State.midGroup; rw [hreg _ (by simp [gateRegs])]
  have hcovers : t.covers d tgt = s.covers d tgt := by
    funext r p; unfold State.covers State.fld; rw [h0]
  have hlocked : t.regionLocked d tgt = s.regionLocked d tgt := by
    funext r; unfold State.regionLocked State.fld; rw [h0]
  have hcover : t.lockedCover d tgt page = s.lockedCover d tgt page := by
    unfold State.lockedCover; rw [hlocked, hcovers]
  have hdecides : t.decides d tgt page = s.decides d tgt page := by
    unfold State.decides; rw [hcover, hcovers]
  have hpermits : t.permits d tgt = s.permits d tgt := by
    funext r grp n; unfold State.permits; rw [h1]
  have hpasses : t.gatePasses d tgt mid page need = s.gatePasses d tgt mid page need := by
    unfold State.gatePasses State.fld; rw [hcover, hpermits, hgrp, hdecides, hctl]
  have htoken : t.tokenPasses d tgt page need = s.tokenPasses d tgt page need := by
    unfold State.tokenPasses; rw [hgate, hcover]
  unfold State.pageOk
  rw [hpasses, htoken]

/-- The state in which FRET_LOAD has taken the slot and the length of its write. -/
def State.loadAsked (d : Nat) (v : Word) (s : State) : State :=
  (s.setFld (dreg .fretLoad d) FretLoad.SLOT (FretLoad.SLOT.of v)).setFld (dreg .fretLoad d) FretLoad.LEN (FretLoad.LEN.of v)

/-- The state in which FRET_LOAD shows a status and an index. -/
def State.loadAnswers (d st bad : Nat) (s : State) : State :=
  (s.setFld (dreg .fretLoad d) FretLoad.STATUS st).setFld (dreg .fretLoad d) FretLoad.BADIDX bad

section Load
variable (d : Nat) (v : Word) (s : State)

theorem loadAsked_keeps : Keeps [.fretLoad] s (s.loadAsked d v) :=
  Keeps.mono (by simp [dreg]) ((keeps_setFld s (dreg .fretLoad d) _ _).trans (keeps_setFld _ (dreg .fretLoad d) _ _))

theorem loadAnswers_keeps (st bad : Nat) : Keeps [.fretLoad] s (s.loadAnswers d st bad) :=
  Keeps.mono (by simp [dreg]) ((keeps_setFld s (dreg .fretLoad d) _ _).trans (keeps_setFld _ (dreg .fretLoad d) _ _))

theorem loadAnswers_status {st : Nat} (bad : Nat) (h : st < 16) : (s.loadAnswers d st bad).fld (dreg .fretLoad d) FretLoad.STATUS = st := by
  unfold State.loadAnswers
  rw [State.fld_setFld_other _ _ _ _ _ (by decide) (by decide) (by decide), State.fld_setFld_same _ _ _ _ (by decide) (by decide)]
  exact Nat.mod_eq_of_lt h

theorem loadAnswers_badidx (st : Nat) {bad : Nat} (h : bad < 64) : (s.loadAnswers d st bad).fld (dreg .fretLoad d) FretLoad.BADIDX = bad := by
  unfold State.loadAnswers
  rw [State.fld_setFld_same _ _ _ _ (by decide) (by decide)]
  exact Nat.mod_eq_of_lt h

variable {d v s}

/-- A load that stages nothing shows its status and writes nothing else. -/
theorem loadAnswers_shows {st bad : Nat} (h : st < 16) (hb : bad < 64) : let t := (s.loadAsked d v).loadAnswers d st bad
    t.fld (dreg .fretLoad d) FretLoad.STATUS = st ∧ t.fld (dreg .fretLoad d) FretLoad.BADIDX = bad ∧ t.tab = s.tab ∧ Keeps [.fretLoad] s t :=
  ⟨loadAnswers_status d _ bad h, loadAnswers_badidx d _ st hb, rfl,
    Keeps.mono (by simp) ((loadAsked_keeps d v s).trans (loadAnswers_keeps d _ st bad))⟩

variable (hbusy : s.fld (dreg .fretLoad d) FretLoad.BUSY ≠ 1)
include hbusy

theorem fretLoad_closedMode (hm : s.mode = 0 ∨ s.mode = 7) : fretLoad d v s = (s.loadAsked d v).loadAnswers d 11 0x3F := by
  unfold fretLoad
  dsimp only
  rw [if_neg hbusy, if_pos hm]
  rfl

variable (hm : ¬(s.mode = 0 ∨ s.mode = 7)) (hopen : s.stageClosed = false)
include hm hopen

/-- With the staging path open, FRET_LOAD answers the check of the staged program or copies it. -/
theorem fretLoad_checks : fretLoad d v s =
    let c := loadCheck ((List.range 24).map fun i => (s.reg (fretStage d i)).toNat % 2 ^ 32) (FretLoad.LEN.of v) (FretLoad.SLOT.of v)
    let t := copyProgram d (FretLoad.SLOT.of v) (FretLoad.LEN.of v) (s.loadAsked d v)
    if c.1 = 1 then (if t.tab.heldWrites.isEmpty then t.loadAnswers d 1 0x3F
      else ((t.loadAnswers d 0 0x3F).setFld (dreg .fretLoad d) FretLoad.BUSY 1).modFret fun x => { x with loading := d :: x.loading.erase d })
    else (s.loadAsked d v).loadAnswers d c.1 c.2 := by
  have hcapo : ¬(s.capoRuns = true ∧ d ∈ s.tab.toFlip) := by
    unfold State.stageClosed at hopen
    simp [(Bool.or_eq_false_iff.mp hopen).1]
  unfold fretLoad
  dsimp only
  rw [if_neg hbusy, if_neg hm, if_neg hcapo]
  rfl

/-- A program that passes the check is in every shadow bank, with nothing held and every gate open. -/
theorem fretLoad_stages (hc : (loadCheck ((List.range 24).map fun i => (s.reg (fretStage d i)).toNat % 2 ^ 32) (FretLoad.LEN.of v)
      (FretLoad.SLOT.of v)).1 = 1) (hheld : s.tab.heldWrites = [])
    (hok : ∀ e page, s.active e = true → s.pageOk e 19 (0x58 + e) page 1 = true) :
    (fretLoad d v s).fld (dreg .fretLoad d) FretLoad.STATUS = 1 ∧ Keeps [.fretLoad] s (fretLoad d v s) ∧
      ∀ e j, e ∈ s.activeDies → 2 * j + 1 < FretLoad.LEN.of v →
        bankWord ((fretLoad d v s).tabDie e).shadow (0x200 + 16 * FretLoad.SLOT.of v + j) = stagePair d j s := by
  have hk := loadAsked_keeps d v s
  have hactive : (s.loadAsked d v).activeDies = s.activeDies := hk.activeDies (by simp)
  have hopen1 : (s.loadAsked d v).stageClosed = false := by
    rw [← hopen]
    unfold State.stageClosed State.capoRuns
    rw [hk.fld _ _ (by simp [partCapo]), State.twoEpochs_congr hactive rfl]
  have hok1 : ∀ e page, (s.loadAsked d v).active e = true → (s.loadAsked d v).pageOk e 19 (0x58 + e) page 1 = true := fun e page he => by
    rw [State.pageOk_congr (s := s) (fun r hr => hk.reg r fun hn => ?_) rfl, hok e page ((hk.active (by simp) e).symm.trans he)]
    simp only [List.mem_singleton] at hn
    simp [hn, gateRegs] at hr
  have hlen := (loadCheck_answer _ _ _).2.2 hc
  have hslot : FretLoad.SLOT.of v < 64 := getBits_lt ..
  obtain ⟨hu, hword⟩ := copyProgram_stages (d := d) hok1 hopen1 hslot hlen
  rw [fretLoad_checks hbusy hm hopen]
  dsimp only
  rw [if_pos hc, if_pos (by rw [hu.heldWrites]; exact List.isEmpty_iff.mpr hheld)]
  refine ⟨loadAnswers_status d _ _ (by decide), Keeps.mono (by simp) ((hk.trans hu.keeps).trans (loadAnswers_keeps d _ 1 0x3F)), fun e j he hj => ?_⟩
  have hpair : stagePair d j (s.loadAsked d v) = stagePair d j s := by
    unfold stagePair
    rw [hk.reg _ (by simp [fretStage]), hk.reg _ (by simp [fretStage])]
  exact (hword e j (hactive ▸ he) hj).trans hpair

end Load

/-! ### Verdicts on parked packets (04 R138 to R140, R157, R158) -/

theorem clearTraprec_beyond (g k : Nat) (s : State) : (clearTraprec g k s).beyond trapRegs = s.beyond trapRegs := by
  unfold clearTraprec
  simp [trapRegs]

theorem clearTraprec_fret (g k : Nat) (s : State) : (clearTraprec g k s).fret = s.fret := by
  unfold clearTraprec
  dsimp only
  rw [State.forAll_keeps State.fret _ fun _ _ => State.setReg_fret ..]
  rfl

theorem clearTraprec_reg (g k : Nat) (s : State) : (clearTraprec g k s).reg (traprec .fretTraprec0 g k) = 0 := by
  unfold clearTraprec
  dsimp only
  rw [State.forAll_keeps (fun t => t.reg (traprec .fretTraprec0 g k)) _ fun _ _ => State.reg_setReg_ne _ _ (by simp [traprec])]
  rw [State.reg_setReg_ne _ _ (by simp [traprec]), State.reg_setReg_ne _ _ (by simp [traprec]), State.reg_setReg_same]

theorem trapFreed_fret (g k : Nat) (s : State) : (trapFreed g k s).fret = { s.fret with parked := s.fret.parked.erase (g, k) } :=
  clearTraprec_fret ..

theorem trapFreed_beyond (g k : Nat) (s : State) : (trapFreed g k s).beyond trapRegs = s.beyond trapRegs := clearTraprec_beyond ..

/-- What freeing a parking slot does, and what the verdict that follows leaves of it. -/
structure Frees (g k : Nat) (s t : State) : Prop where
  gone : t.fret.parked.find (g, k) = none
  cleared : t.reg (traprec .fretTraprec0 g k) = 0
  still : Still s t

/-- The state in which a parking slot is free and the verdict on its packet is counted. -/
def State.freed (g k code : Nat) (s : State) : State := countVerdict g code (trapFreed g k s)

theorem freed_fret (g k code : Nat) (s : State) : (s.freed g k code).fret = { s.fret with parked := s.fret.parked.erase (g, k) } :=
  trapFreed_fret g k s

theorem freed_beyond (g k code : Nat) (s : State) : (s.freed g k code).beyond (.fretVcnt :: trapRegs) = s.beyond (.fretVcnt :: trapRegs) := by
  unfold State.freed countVerdict
  rw [State.beyond_count _ _ _ (by simp)]
  exact beyond_mono (fun _ h => List.mem_cons_of_mem _ h) (trapFreed_beyond g k s)

theorem freed_frees (g k code : Nat) (s : State) : Frees g k s (s.freed g k code) := by
  refine ⟨by rw [freed_fret]; exact FMap.find_erase_same .., ?_, still_of_beyond (freed_beyond g k code s)⟩
  have hcount : Keeps [.fretVcnt] (trapFreed g k s) (s.freed g k code) := keeps_setFld (trapFreed g k s) _ _ _
  rw [hcount.reg _ (by simp [traprec])]
  exact clearTraprec_reg ..

/-- The state in which the trap timer has freed a slot, kept its tag as expired and counted the fallback. -/
def State.expired (g k tag : Nat) (s : State) : State :=
  countVerdict g 0 ((trapFreed g k s).modFret fun y => { y with trapExpired := (g, k, tag) :: y.trapExpired })

theorem expired_fret (g k tag : Nat) (s : State) : (s.expired g k tag).fret =
    { s.fret with parked := s.fret.parked.erase (g, k), trapExpired := (g, k, tag) :: s.fret.trapExpired } := by
  have h := trapFreed_fret g k s
  change { (trapFreed g k s).fret with trapExpired := (g, k, tag) :: (trapFreed g k s).fret.trapExpired } = _
  rw [h]

theorem expired_frees (g k tag : Nat) (s : State) : Frees g k s (s.expired g k tag) := by
  obtain ⟨hgone, hclear, hstill⟩ := freed_frees g k 0 s
  exact ⟨hgone, hclear, hstill⟩

/-- What follows keeps the slot free, as far as it writes no parking record and parks no packet. -/
theorem Frees.after {g k : Nat} {s t u : State} {ns : List RegName} (h : Frees g k s t) (hb : u.beyond ns = t.beyond ns)
    (hn : .fretTraprec0 ∉ ns) (hp : u.fret.parked = t.fret.parked) : Frees g k s u := by
  exact ⟨hp ▸ h.gone, ((keeps_of_beyond hb).reg _ hn).trans h.cleared, h.still.trans (still_of_beyond hb)⟩

/-- With nothing held back nothing resumes. -/
theorem resumeHeldBack_none {g : Nat} {s : State} (h : s.fret.heldBack.get [] g = []) :
    resumeHeldBack g s = s.modFret fun x => { x with heldBack := x.heldBack.set g [] } := by
  unfold resumeHeldBack
  rw [h]
  rfl

/-- FWD, FWDM and HOLD of a freed packet put it after the decided ones of its port. -/
theorem decide_freed {g k : Nat} {p : Pkt} {s t : State} (hp : p.iport = g) (hv : p.verdict ≠ 3) (hheld : t.fret.heldBack.get [] g = [])
    (hf : Frees g k s t) : Frees g k s (resumeHeldBack g (decidePkt p t)) ∧
      (resumeHeldBack g (decidePkt p t)).fret.decided.get [] g = t.fret.decided.get [] g ++ [p] ∧
      (resumeHeldBack g (decidePkt p t)).fret.trapExpired = t.fret.trapExpired := by
  subst hp
  have hstill : (decidePkt p t).fret.heldBack.get [] p.iport = [] := by rw [decidePkt_forwards hv]; exact hheld
  rw [resumeHeldBack_none hstill, decidePkt_forwards hv]
  exact ⟨hf.after (ns := []) rfl (by simp) rfl, FMap.get_set_same .., rfl⟩

/-- REFUSE of a freed request answers it as an Unsupported Request and decides nothing. -/
theorem refuse_freed {g k : Nat} {p : Pkt} {s t : State} (hp : p.iport = g) (hv : p.verdict = 3) (hreason : p.reason = 0) (hsrc : p.src = .port)
    (hcls : p.tlp.cls = 0 ∨ p.tlp.cls = 1) (ha : t.active (pdie g) = true) (hheld : t.fret.heldBack.get [] g = []) (hf : Frees g k s t) :
    Frees g k s (resumeHeldBack g (decidePkt p t)) ∧ (resumeHeldBack g (decidePkt p t)).fld (tlerr g) FltTlerr.URSENT = 1 ∧
      (resumeHeldBack g (decidePkt p t)).fret.decided.get [] g = t.fret.decided.get [] g := by
  subst hp
  obtain ⟨hb, ⟨r, hfret⟩, hanswered, hlogged⟩ := decidePkt_refuses hv hsrc ha
  rw [hreason] at hanswered
  have hstill : (decidePkt p t).fret.heldBack.get [] p.iport = [] := by rw [hfret]; exact hheld
  rw [resumeHeldBack_none hstill]
  refine ⟨hf.after (ns := refusalRegs) hb (by simp [refusalRegs]) (show (decidePkt p t).fret.parked = _ by rw [hfret]), ?_,
    show (decidePkt p t).fret.decided.get [] p.iport = _ by rw [hfret]⟩
  rcases hcls with h0 | h1
  · exact hlogged h0
  · exact (hanswered h1).1

/-! ### The statement -/

/-- A packet is posted, non-posted or a completion. -/
theorem cls_le (t : Tlp) : t.cls ≤ 2 := by
  unfold Tlp.cls
  split
  · omega
  · split <;> omega

@[simp] theorem refuseVerdict_fret (d : Nat) (s : State) : (refuseVerdict d s).fret = s.fret := by
  unfold refuseVerdict
  rw [deliverRouted_fret]
  rfl

section Parked
variable {s : State} {d : Nat} {v : Word} {x : Parked}

/-- The metadata of a verdict of the harts. -/
def trapMeta (v : Word) (x : Parked) : Meta :=
  if FretTrapv.OVR.of v = 1 then { x.pkt.mdata with egress := FretTrapv.EGRESS.of v, queue := some (FretTrapv.QUEUE.of v) } else x.pkt.mdata

/-- The packet that a verdict of the harts decides. -/
def trapDecision (v : Word) (code : Nat) (x : Parked) : Pkt :=
  { x.pkt with mdata := trapMeta v x, verdict := code, reason := 0, parked := true }

/-- A verdict with the tag of the parked packet decides that packet. -/
theorem trapVerdict_takes (code : Nat) (hx : s.fret.parked.find (gport d (FretTrapv.PORT.of v), FretTrapv.SLOT.of v) = some x)
    (htag : x.tag = FretTrapv.TAG.of v) : trapVerdict d v code s = resumeHeldBack (gport d (FretTrapv.PORT.of v))
      (decidePkt (trapDecision v code x) (s.freed (gport d (FretTrapv.PORT.of v)) (FretTrapv.SLOT.of v) code)) := by
  unfold trapVerdict
  dsimp only
  rw [hx, Option.filter_some_pos (by simpa using htag)]
  rfl

/-- A verdict with another tag is late or refused. -/
theorem trapVerdict_misses (code : Nat) (hx : s.fret.parked.find (gport d (FretTrapv.PORT.of v), FretTrapv.SLOT.of v) = some x)
    (htag : x.tag ≠ FretTrapv.TAG.of v) : trapVerdict d v code s =
      if (gport d (FretTrapv.PORT.of v), FretTrapv.SLOT.of v, FretTrapv.TAG.of v) ∈ s.fret.trapExpired then
        s.count (dreg .fretDiecnt d) FretDiecnt.LATE 1 else refuseVerdict d s := by
  unfold trapVerdict
  dsimp only
  rw [hx, Option.filter_some_neg (by simpa using htag)]

/-- The trap timer with FALLBACK set forwards the parked packet and keeps its tag as expired. -/
theorem trapExpire_forwards {g k : Nat} (hx : s.fret.parked.find (g, k) = some x) (hp : x.pkt.iport = g)
    (hfall : s.fld (dreg .fretTrapcfg (pdie g)) FretTrapcfg.FALLBACK ≠ 0) : trapExpire g k s =
      resumeHeldBack g (decidePkt { x.pkt with verdict := 0, reason := 0, parked := true } (s.expired g k x.tag)) := by
  subst hp
  have hkeep : ((trapFreed x.pkt.iport k s).modFret fun y => { y with trapExpired := (x.pkt.iport, k, x.tag) :: y.trapExpired }).fld
      (dreg .fretTrapcfg (pdie x.pkt.iport)) FretTrapcfg.FALLBACK = s.fld (dreg .fretTrapcfg (pdie x.pkt.iport)) FretTrapcfg.FALLBACK :=
    (keeps_of_beyond (trapFreed_beyond x.pkt.iport k s)).fld _ _ (by simp [dreg, trapRegs])
  unfold trapExpire
  rw [hx]
  dsimp only
  unfold trapFallback
  dsimp only
  rw [if_neg (by rw [hkeep]; exact hfall)]
  rfl

end Parked

/-- Settles O15: a load answers the check or copies the program, and a verdict or the timer decides the parked packet of its tag. -/
theorem programLoadsAndTrapVerdicts : Obligations.ProgramLoadsAndTrapVerdicts := by
  unfold Obligations.ProgramLoadsAndTrapVerdicts
  intro s d v hd
  extract_lets r slot len words c g k freed
  have hload : FretLoad.GO.of v = 1 → exec (.fretLoad d v) s = .next (fretLoad d v s) := fun hgo => by
    rw [show exec (.fretLoad d v) s = execFretLoad d v s from rfl, execFretLoad, if_pos hd, if_pos hgo]
  refine ⟨fun hgo hbusy => ⟨fun hm => ?_, fun h0 h7 hopen hc => ?_, fun h0 h7 hopen hc hheld hok => ?_⟩, ?_⟩
  · obtain ⟨hst, -, htab, hk⟩ := loadAnswers_shows (d := d) (v := v) (s := s) (st := 11) (bad := 0x3F) (by decide) (by decide)
    exact ⟨_, hload hgo, by rw [fretLoad_closedMode hbusy hm]; exact ⟨hst, htab, hk⟩⟩
  · obtain ⟨h16, h64, -⟩ := loadCheck_answer words len slot
    refine ⟨_, hload hgo, ?_⟩
    rw [fretLoad_checks hbusy (by simp [h0, h7]) hopen]
    dsimp only
    rw [if_neg hc]
    exact loadAnswers_shows h16 h64
  · obtain ⟨hst, hk, hword⟩ := fretLoad_stages hbusy (by simp [h0, h7]) hopen hc hheld hok
    refine ⟨_, hload hgo, hst, hk, fun e j ha he hj => ?_⟩
    have h24 : len ≤ 24 := (loadCheck_answer words len slot).2.2 hc
    have hget : ∀ i, i < 24 → words.getD i 0 = (s.reg (fretStage d i)).toNat % 2 ^ 32 := fun i hi => by
      simp [words, List.getD_eq_getElem?_getD, List.getElem?_range hi]
    rw [hget _ (by omega), hget _ (by omega)]
    exact hword e j (State.mem_activeDies he ha) hj
  · intro x hx hport hheld md decides
    have hfld : FretTrapv.PORT.of v < 16 := getBits_lt ..
    have hg : pdie g = d := pdie_gport d hfld
    refine ⟨fun htag => ?_, fun htag => ?_, fun hfall => ?_⟩
    · have hverdict : ∀ (i : Instr) (code : Nat), code ≠ 3 → exec i s = .next (trapVerdict d v code s) → decides i code := fun i code hcode hi => by
        refine ⟨_, hi, ?_⟩
        rw [trapVerdict_takes code hx htag]
        obtain ⟨⟨hgone, hclear, hstill⟩, hdec, -⟩ := decide_freed (p := trapDecision v code x) hport hcode
          (by rw [freed_fret]; exact hheld) (freed_frees g k code s)
        exact ⟨⟨hgone, hclear, hstill⟩, by rw [hdec, freed_fret]; rfl⟩
      refine ⟨hverdict _ 0 (by decide) rfl, hverdict _ 1 (by decide) rfl, hverdict _ 2 (by decide) rfl, fun hsrc hcls ha => ?_⟩
      refine ⟨_, rfl, ?_⟩
      rw [trapVerdict_takes 3 hx htag]
      have hcls01 : x.pkt.tlp.cls = 0 ∨ x.pkt.tlp.cls = 1 := by
        have := cls_le x.pkt.tlp
        omega
      have hactive : (s.freed g k 3).active (pdie g) = true := by
        rw [active_of_beyond (freed_beyond g k 3 s) (by simp [trapRegs]), hg]; exact ha
      obtain ⟨⟨hgone, hclear, hstill⟩, hsent, hdec⟩ := refuse_freed (p := trapDecision v 3 x) hport rfl rfl hsrc hcls01 hactive
        (by rw [freed_fret]; exact hheld) (freed_frees g k 3 s)
      exact ⟨⟨hgone, hclear, hstill⟩, hsent, by rw [hdec, freed_fret]⟩
    · refine ⟨fun hlate => ⟨_, rfl, ?_⟩, fun hlate => ⟨_, rfl, ?_⟩⟩
      · rw [trapVerdict_misses 0 hx htag, if_neg hlate]
        exact ⟨by rw [refuseVerdict_fret], refuseVerdict_vref d s⟩
      · rw [trapVerdict_misses 0 hx htag, if_pos hlate]
    · refine ⟨_, rfl, ?_⟩
      rw [trapExpire_forwards hx hport (by rw [hg]; exact hfall)]
      have hfret := expired_fret g k x.tag s
      obtain ⟨⟨hgone, hclear, hstill⟩, hdec, hexp⟩ := decide_freed (p := { x.pkt with verdict := 0, reason := 0, parked := true }) hport (by simp)
        (by rw [hfret]; exact hheld) (expired_frees g k x.tag s)
      exact ⟨⟨hgone, hclear, hstill⟩, by rw [hexp, hfret]; simp, by rw [hdec, hfret]⟩

end Sys2Proof.Machine
end

section
/-! SUPPORT. The header queue of a port: admission, the entry into a course, and the release reports of forwarding tags (04 R112 to R116, R136, R148). -/

namespace Sys2Proof.Machine

/-! ### Release reports (04 R148) -/

@[simp] theorem FMap.get_upd_same {κ α : Type} [DecidableEq κ] (m : FMap κ α) (x : α) (k : κ) (f : α → α) :
    (m.upd x k f).get x k = f (m.get x k) := FMap.get_set_same ..

theorem State.streamOf_modStream_same (s : State) (k : StreamKey) (f : Stream → Stream) : (s.modStream k f).streamOf k = f (s.streamOf k) :=
  FMap.get_set_same ..

theorem reportTag_outst (p : Pkt) (s : State) :
    ((reportTag p s).streamOf p.stream).outst.get 0 p.tlp.cls = (s.streamOf p.stream).outst.get 0 p.tlp.cls - 1 := by
  unfold reportTag
  rw [State.streamOf_modStream_same]
  simp

/-- The state in which the packets that wait for a report on a die are those of a list. -/
def State.awaiting (d : Nat) (l : List Pkt) (s : State) : State := s.modBufDie d fun b => { b with spanPending := l }

theorem awaiting_spanPending (d : Nat) (l : List Pkt) (s : State) : ((s.awaiting d l).bufDie d).spanPending = l := by
  unfold State.awaiting
  rw [State.bufDie_modBufDie_same]

/-- The report of a tag that the egress die has released ends the ingress reference of the packet. -/
theorem releaseReport_ends {s : State} {d : Nat} {p : Pkt} {rest : List Pkt} (hp : (s.bufDie d).spanPending = p :: rest) (hsrc : p.src = .port)
    (hgone : s.tagGone p = true) : let t := releaseReport d p.iport p.egress p.tlp.tc p.tlp.cls p.seq s
    (t.bufDie d).spanPending = rest ∧
      (t.streamOf p.stream).outst.get 0 p.tlp.cls = (s.streamOf p.stream).outst.get 0 p.tlp.cls - 1 ∧ Keeps [] s t := by
  have hfirst : takeFirst (fun q : Pkt => q.stream == (p.iport, p.egress, p.tlp.tc) && q.tlp.cls == p.tlp.cls && q.seq == p.seq && s.tagGone q)
      (s.bufDie d).spanPending = some (p, rest) := by
    rw [hp, takeFirst, if_pos (by simp [Pkt.stream, hsrc, hgone])]
  have heq : releaseReport d p.iport p.egress p.tlp.tc p.tlp.cls p.seq s = dropCells d p.cells (reportTag p (s.awaiting d rest)) := by
    unfold releaseReport
    rw [hfirst]
    dsimp only
    rw [dmaReleased, hsrc]
    rfl
  have hcells := dropCells_parcels (ns := []) d (reportTag p (s.awaiting d rest)) p.cells
  dsimp only
  rw [heq]
  refine ⟨?_, ?_, (keeps_of_parcels hcells :)⟩
  · rw [spanPending_of_parcels hcells]
    exact awaiting_spanPending d rest s
  · unfold State.streamOf at *
    rw [fret_of_parcels hcells]
    exact reportTag_outst p (s.awaiting d rest)

/-! ### The header queue (04 R116) -/

section Queue
variable (g : Nat) (f : List Pkt → List Pkt) (s : State)

theorem updateXoff_fret (d i : Nat) : (updateXoff d i s).fret = s.fret := by
  obtain ⟨x, hx⟩ := updateXoff_eq s d i
  rw [hx]; rfl

theorem updateXoff_pcieRx (d i e k : Nat) : ((updateXoff d i s).link e k).pcieRx = (s.link e k).pcieRx := by
  obtain ⟨x, hx⟩ := updateXoff_eq s d i
  rw [hx, State.link_modLink]
  split
  · rename_i h; rw [h.1, h.2]
  · rfl

theorem giveHeaders_pcieRx (e k : Nat) : ((giveHeaders g s).link e k).pcieRx = (s.link e k).pcieRx := by
  unfold giveHeaders
  rw [State.link_modLink]
  split
  · rename_i h; rw [h.1, h.2]
  · rfl

/-- What throttling leaves: the fret engines but for the throttled ports, what lies beyond the fabric, and the numbers that links expect. -/
structure Throttles (s t : State) : Prop where
  fret : ∃ th, t.fret = { s.fret with throttle := th }
  beyond : ∀ ns, t.beyond ns = s.beyond ns
  pcieRx : ∀ e k, (t.link e k).pcieRx = (s.link e k).pcieRx

variable {s} in
theorem Throttles.updateXoff {t : State} (h : Throttles s t) (d i : Nat) : Throttles s (updateXoff d i t) := by
  obtain ⟨⟨th, hf⟩, hb, hl⟩ := h
  exact ⟨⟨th, (updateXoff_fret t d i).trans hf⟩, fun ns => (updateXoff_beyond t d i).trans (hb ns), fun e k => (updateXoff_pcieRx t d i e k).trans (hl e k)⟩

theorem throttleUpdate_throttles : Throttles s (throttleUpdate g s) := by
  unfold throttleUpdate
  extract_lets n t
  have ht : Throttles s t := by
    simp only [t]
    split
    · exact ⟨⟨_, rfl⟩, fun _ => rfl, fun _ _ => rfl⟩
    · split
      · exact ⟨⟨_, rfl⟩, fun _ => rfl, fun e k => giveHeaders_pcieRx g _ e k⟩
      · exact ⟨⟨_, rfl⟩, fun _ => rfl, fun _ _ => rfl⟩
  split
  · exact ht.updateXoff _ _
  · exact ht

theorem modHq_fret : ∃ th, (modHq g f s).fret = { s.fret with hq := s.fret.hq.set g (f (s.fret.hq.get [] g)), throttle := th } := by
  obtain ⟨⟨th, h⟩, -⟩ := throttleUpdate_throttles g (s.modFret fun x => { x with hq := x.hq.set g (f (x.hq.get [] g)) })
  exact ⟨th, h⟩

theorem modHq_beyond (ns : List RegName) : (modHq g f s).beyond ns = s.beyond ns :=
  (throttleUpdate_throttles g (s.modFret fun x => { x with hq := x.hq.set g (f (x.hq.get [] g)) })).beyond ns

theorem modHq_pcieRx (e k : Nat) : ((modHq g f s).link e k).pcieRx = (s.link e k).pcieRx :=
  (throttleUpdate_throttles g (s.modFret fun x => { x with hq := x.hq.set g (f (x.hq.get [] g)) })).pcieRx e k

theorem modHq_hq : (modHq g f s).fret.hq.get [] g = f (s.fret.hq.get [] g) := by
  obtain ⟨th, h⟩ := modHq_fret g f s
  rw [h]
  exact FMap.get_set_same ..

end Queue

/-- The head of the queue of a port with a program enters a course of that program. -/
theorem enterCourse_enters {s : State} {g : Nat} {p : Pkt} {rest : List Pkt} (hq : s.fret.hq.get [] g = p :: rest) (hs : g ∉ s.fret.stopped)
    (hc : (s.fret.course.get {} g).live = false) (hm : s.modeOf p ∉ [0, 1]) (h7 : s.mode ≠ 7) (hprog : s.progOf p.epoch g ≠ 63) (ecc : LookupEcc) :
    let t := enterCourse g true ecc s
    t.fret.hq.get [] g = rest ∧ t.fret.course.get {} g = { pkt := p, prog := s.progOf p.epoch g, live := true } ∧ Keeps [] s t := by
  simp only [List.mem_cons, List.not_mem_nil, or_false, not_or] at hm
  have heq : enterCourse g true ecc s = (modHq g (fun l => l.drop 1) s).modFret fun x =>
      { x with course := x.course.set g { pkt := p, prog := s.progOf p.epoch g, live := true } } := by
    unfold enterCourse
    rw [hq]
    dsimp only
    rw [if_neg (by simp [hs, hc]), if_neg h7, if_neg hm.2, if_neg (by simp [hm.1, hprog]), if_pos rfl]
    rfl
  rw [heq]
  refine ⟨?_, FMap.get_set_same .., (keeps_of_beyond (modHq_beyond g (fun l => l.drop 1) s []) :)⟩
  exact (modHq_hq g (fun l => l.drop 1) s).trans (by rw [hq]; rfl)

/-! ### Malformed packets (04 R112) -/

section Malformed
variable (g : Nat) (s : State)

theorem retireTag_hq (p : Pkt) : (retireTag p s).fret.hq = s.fret.hq := rfl

theorem fret_hq_of_parcels {ns : List RegName} {t : State} (h : t.parcels ns = s.parcels ns) : t.fret.hq = s.fret.hq := by rw [fret_of_parcels h]

theorem foldl_hq {α : Type} {f : State → α → State} (h : ∀ t a, (f t a).fret.hq = t.fret.hq) (l : List α) : (l.foldl f s).fret.hq = s.fret.hq := by
  induction l generalizing s with
  | nil => rfl
  | cons a l ih => exact (ih (f s a)).trans (h s a)

/-- Abandoning the partial packet of a port takes it from the header queue. -/
theorem abortPartial_hq : (abortPartial g s).fret.hq = s.fret.hq.set g (dropPartial g (s.fret.hq.get [] g)) := by
  unfold abortPartial
  extract_lets d c parts early gone slots s1 s2 s3 s4 s5
  have h2 : s2.fret.hq = s1.fret.hq :=
    State.forAll_keeps (fun t => t.fret.hq) (trapFreed g) (fun k t => by rw [trapFreed_fret]) s1 slots
  have h5 : s5.fret.hq = s4.fret.hq := by
    simp only [s5]
    rw [foldl_hq _ fun t p => fret_hq_of_parcels t (releaseIngress_parcels (ns := []) t p)]
    exact foldl_hq _ (fun t p => (retireTag_hq _ p).trans (fret_hq_of_parcels t (dropCells_parcels (ns := []) d t p.cells))) _
  have h1 : s5.fret.hq = s.fret.hq.set g (dropPartial g (s.fret.hq.get [] g)) := h5.trans h2
  split
  · rw [raise_fret, h1]
  · exact h1

/-- A port that holds no partial packet keeps its header queue. -/
theorem dropPartial_hq {s : State} (h : s.hasPartial g = false) : dropPartial g (s.fret.hq.get [] g) = s.fret.hq.get [] g := by
  unfold State.hasPartial State.untagged at h
  simp only [Bool.or_eq_false_iff, List.any_append, List.any_eq_false] at h
  obtain ⟨⟨⟨⟨⟨⟨⟨⟨hq, -⟩, -⟩, -⟩, -⟩, -⟩, -⟩, -⟩, -⟩ := h
  exact List.filter_eq_self.mpr fun p hp => by simpa using hq p hp

theorem portAer_fret (f : Aer → Aer) : (portAer g f s).fret = s.fret := by
  unfold portAer
  split
  · rfl
  · dsimp only
    split <;> rfl

variable {g} {s} {t : Tlp}

/-- What a PCIe port takes from its link is one number of the sequence. -/
theorem takeFromLink_pcie (hn : s.isNerov g = false) : takeFromLink g t s =
    if t.whole then s.modLink (pdie g) (pnum g) fun l => { l with pcieRx := (l.pcieRx + 1) % 4096 } else s := by
  unfold takeFromLink
  rw [if_neg (by simp [hn])]

/-- What a port in service of a die in service admits in sequence. -/
structure InSequence (g : Nat) (t : Tlp) (seq : Nat) (s : State) : Prop where
  up : s.portUp g = true
  partCase : s.flt.partCase = false
  active : s.active (pdie g) = true
  pcie : s.isNerov g = false
  expected : (s.link (pdie g) (pnum g)).pcieRx = seq
  crc : t.crcBad = false

theorem admitTlp_malformed {seq : Nat} (h : InSequence g t seq s) (hm : t.malformed = true) (hint : Nat) :
    admitTlp g t seq hint s = raise (tlerr g) FltTlerr.MALFORMED (portAer g (Aer.note [] [] t.raw) (abortPartial g (takeFromLink g t s))) := by
  unfold admitTlp
  dsimp only
  rw [if_neg (by simp [h.up, h.partCase, h.active]), if_neg (by simp [h.crc]), if_neg (by simp [h.expected]), if_pos hm]

/-- A malformed packet sets MALFORMED and joins no queue. -/
theorem admitTlp_refuses {seq : Nat} (h : InSequence g t seq s) (hm : t.malformed = true) (hp : s.hasPartial g = false) (hint : Nat) :
    (admitTlp g t seq hint s).fld (tlerr g) FltTlerr.MALFORMED = 1 ∧ (admitTlp g t seq hint s).fret.hq.get [] g = s.fret.hq.get [] g := by
  have hlink : (takeFromLink g t s).beyond [] = s.beyond [] ∧ (takeFromLink g t s).fret = s.fret := by
    rw [takeFromLink_pcie h.pcie]
    split <;> exact ⟨rfl, rfl⟩
  rw [admitTlp_malformed h hm]
  constructor
  · refine fld_raise_tlerr ?_ rfl (by decide)
    have habort := abortPartial_beyond (g := g) (s := takeFromLink g t s) (ns := .fretErr :: packetRegs) (fun _ hn => List.mem_cons_of_mem _ hn) (by simp)
    rw [active_of_beyond ((portAer_beyond g (Aer.note [] [] t.raw) _).trans habort) (by simp [packetRegs]), active_of_beyond hlink.1 (by simp)]
    exact h.active
  · rw [raise_fret, portAer_fret, abortPartial_hq, hlink.2, FMap.get_set_same]
    exact dropPartial_hq g hp

end Malformed

/-! ### Admission (04 R112 to R114) -/

section Admission
variable {g : Nat} {s t : State} {p : Tlp}

theorem storeRecord_wires {d : Nat} {w : Writer} {hint : Nat} {x : List Nat × State} (h : storeRecord d w hint p s = some x) :
    x.2.wires = s.wires := writeRecord_wires h

theorem isNerov_of_wires (h : t.wires = s.wires) : t.isNerov g = s.isNerov g := by
  have hnerov : (t.link (pdie g) (pnum g)).nerov = (s.link (pdie g) (pnum g)).nerov := (congrArg LinkSt.nerov (engine_of_wires h _ _) :)
  unfold State.isNerov
  rw [linkState_of_wires _ _ h, (keeps_of_wires h).fld _ _ (by simp [preg, packetRegs]), hnerov]

theorem pcieRx_of_wires (h : t.wires = s.wires) (d i : Nat) : (t.link d i).pcieRx = (s.link d i).pcieRx :=
  (congrArg LinkSt.pcieRx (engine_of_wires h d i) :)

theorem takeCredits_wires (c units : Nat) (cs : List Nat) : (takeCredits g c units cs s).wires = s.wires := s.wires_modLink _ _ rfl

theorem useCredits_wires (cs : List Nat) : (useCredits g p cs s).wires = s.wires := by
  unfold useCredits
  split
  · rfl
  · rw [returnCredits_wires, takeCredits_wires]

theorem useCredits_fret (cs : List Nat) : (useCredits g p cs s).fret = s.fret := by
  unfold useCredits
  split
  · rfl
  · rfl

theorem noteFormation_fret : (noteFormation g p s).fret = s.fret := by
  unfold noteFormation
  dsimp only
  split <;> split <;> simp

theorem noteFormation_links : (noteFormation g p s).links = s.links := by
  unfold noteFormation
  dsimp only
  split <;> split <;> simp [raise_links]

theorem noteFormation_beyond : (noteFormation g p s).beyond [.fltTlerr, .fretErr] = s.beyond [.fltTlerr, .fretErr] := by
  unfold noteFormation
  dsimp only
  split <;> split <;> simp [tlerr, preg]

/-- The packet that stands for an admitted one in the header queue. -/
def State.queued (g : Nat) (p : Tlp) (cs : List Nat) (s : State) : Pkt :=
  { tlp := p, iport := g, epoch := s.newE (pdie g), cells := cs, time := s.meridian (pdie g) }

theorem admitTlp_stores {seq hint : Nat} {cs : List Nat} {u : State} (h : InSequence g p seq s) (hm : p.malformed = false)
    (he : s.takenEarly g p = false) (hp : s.hasPartial g = false) (hw : p.whole = true)
    (hstore : storeRecord (pdie g) (.pcie g p.cls) hint p s = some (cs, u)) : admitTlp g p seq hint s =
      modHq g (fun l => l ++ [s.queued g p cs]) (noteFormation g p (takeFromLink g p (useCredits g p cs u))) := by
  have hwriter : s.portWriter g p = .pcie g p.cls := by
    unfold State.portWriter
    rw [if_neg (by simp [h.pcie])]
  unfold admitTlp
  dsimp only
  rw [if_neg (by simp [h.up, h.partCase, h.active]), if_neg (by simp [h.crc]), if_neg (by simp [h.expected]), if_neg (by simp [hm]),
    if_neg (by simp [he]), if_neg (by simp [hp]), hwriter, if_pos hw, hstore]
  dsimp only
  rw [if_pos hw]
  rfl

/-- A whole packet in sequence that finds its cells joins the header queue, and the expected number moves on. -/
theorem admitTlp_joins {seq hint : Nat} {cs : List Nat} {u : State} (h : InSequence g p seq s) (hm : p.malformed = false)
    (he : s.takenEarly g p = false) (hp : s.hasPartial g = false) (hw : p.whole = true)
    (hstore : storeRecord (pdie g) (.pcie g p.cls) hint p s = some (cs, u)) : let t := admitTlp g p seq hint s
    (t.link (pdie g) (pnum g)).pcieRx = (seq + 1) % 4096 ∧ t.mem = s.mem ∧ t.fret.hq.get [] g = s.fret.hq.get [] g ++ [s.queued g p cs] := by
  have hwires : (useCredits g p cs u).wires = s.wires := (useCredits_wires cs).trans (storeRecord_wires hstore)
  have hfret : (useCredits g p cs u).fret = s.fret := (useCredits_fret cs).trans (fret_of_parcels (ns := []) (storeRecord_parcels hstore))
  have htake := takeFromLink_pcie (t := p) ((isNerov_of_wires hwires).trans h.pcie)
  rw [if_pos hw] at htake
  dsimp only
  rw [admitTlp_stores h hm he hp hw hstore]
  refine ⟨?_, ?_, ?_⟩
  · rw [modHq_pcieRx, State.link_congr noteFormation_links, htake, State.link_modLink_same, ← h.expected]
    exact congrArg (fun n => (n + 1) % 4096) (pcieRx_of_wires hwires _ _)
  · have hmem := (keeps_of_beyond ((modHq_beyond g (fun l => l ++ [s.queued g p cs]) _ _).trans
      (noteFormation_beyond (g := g) (p := p) (s := takeFromLink g p (useCredits g p cs u))))).1
    rw [hmem, htake]
    exact (keeps_of_wires hwires).1
  · rw [modHq_hq, noteFormation_fret, htake, State.modLink_fret, hfret]

end Admission

end Sys2Proof.Machine
end

section
/-! SUPPORT. Forwarding entry: the head of the decided packets of a port passes the checks, or is refused by them (04 R136, R143). -/

namespace Sys2Proof.Machine

/-- The state in which the decided packets of a port are those of a list. -/
def State.decidedLeft (g : Nat) (l : List Pkt) (s : State) : State := s.modFret fun x => { x with decided := x.decided.set g l }

section Left
variable (g : Nat) (l : List Pkt) (s : State)

theorem decidedLeft_checks (p : Pkt) : (s.decidedLeft g l).checks p = s.checks p := rfl

theorem decidedLeft_decided : (s.decidedLeft g l).fret.decided.get [] g = l := FMap.get_set_same ..

end Left

section Entry
variable {s : State} {g : Nat} {p : Pkt} {rest : List Pkt}

/-- The head of the decided packets goes first when its tag is free. -/
theorem forwardNext_head (hd : s.fret.decided.get [] g = p :: rest) (hfull : s.tagFull p = false) (ptbad : Bool) :
    forwardNext g ptbad s = forwardEntry p ptbad (s.decidedLeft g rest) := by
  unfold forwardNext
  rw [hd, State.pickDecided, if_neg (by simp [hfull])]
  rfl

/-- An EGRESS that names no destination fails check 1. -/
theorem checks_none (h : s.resolve p = none) : s.checks p = .refuse 0xFF01 (some FretErr.BADEGRESS) none := by
  have hdest : s.checkDest p = .refuse 0xFF01 (some FretErr.BADEGRESS) none := by
    unfold State.checkDest
    rw [h]
  unfold State.checks
  rw [hdest]

/-- The checks give the packet its destinations and change nothing else of it. -/
theorem checks_ok {q : Pkt} (h : s.checks p = .ok q) : ∃ l, q = { p with dests := l } := by
  unfold State.checks at h
  dsimp only at h
  cases hdest : s.checkDest p with
  | refuse r b a => rw [hdest] at h; cases h
  | ok x =>
    rw [hdest] at h
    have hx : x = q := by
      dsimp only at h
      split at h
      · cases h
      · split at h
        · cases h
        · cases h; rfl
    subst hx
    unfold State.checkDest at hdest
    split at hdest
    · cases hdest
    · split at hdest
      · cases hdest; exact ⟨_, rfl⟩
      · cases hdest
      · cases hdest
      · cases hdest

/-- A packet that the checks refuse takes no tag. -/
theorem tagFull_refused {r : Nat} {b : Option Field} {a : Option (Nat × Nat)} (h : s.checks p = .refuse r b a) : s.tagFull p = false := by
  unfold State.tagFull State.destsOf
  rw [h]
  rfl

/-- The registers that a refusal of the checks writes beside those of every refusal. -/
def checkRegs : List RegName := [.fretErr, .fretHwref]

/-- A decided packet whose EGRESS names no destination sets BADEGRESS and waits for no tag. -/
theorem forwardNext_badEgress (hd : s.fret.decided.get [] g = p :: rest) (hport : p.iport = g) (hsrc : p.src = .port)
    (herr : p.tlp.isErrMsg = false) (ha : s.active (pdie g) = true) (hr : s.resolve p = none) (ptbad : Bool) :
    let t := forwardNext g ptbad s
    t.fret.decided.get [] g = rest ∧ t.fld (preg .fretErr g) FretErr.BADEGRESS = 1 ∧ t.fret.toTag.get [] g = s.fret.toTag.get [] g := by
  subst hport
  have hchecks := checks_none hr
  have hm : (mirrorIngress p true (s.decidedLeft p.iport rest)).parcels refusalRegs = (s.decidedLeft p.iport rest).parcels refusalRegs :=
    mirrorIngress_parcels (by simp [refusalRegs]) (by simp [refusalRegs]) p true _
  have heq : forwardNext p.iport ptbad s = entryRefuse p 0xFF01 (some FretErr.BADEGRESS) none (mirrorIngress p true (s.decidedLeft p.iport rest)) := by
    rw [forwardNext_head hd (tagFull_refused hchecks)]
    unfold forwardEntry
    rw [if_neg (by simp [herr]), decidedLeft_checks, hchecks]
  dsimp only
  rw [heq]
  generalize mirrorIngress p true (s.decidedLeft p.iport rest) = m at hm
  have hma : m.active (pdie p.iport) = true := (active_of_beyond (beyond_of_parcels hm) (by simp [refusalRegs]) _).trans ha
  have hcount : ((raise (preg .fretErr p.iport) FretErr.BADEGRESS m).count (preg .fretHwref p.iport) FretHwref.COUNT 1).parcels checkRegs =
      m.parcels checkRegs := by
    rw [State.parcels_count _ _ _ (by simp [preg, checkRegs]), raise_parcels _ _ _ (by simp [preg, checkRegs])]
  have hbit : ((raise (preg .fretErr p.iport) FretErr.BADEGRESS m).count (preg .fretHwref p.iport) FretHwref.COUNT 1).fld
      (preg .fretErr p.iport) FretErr.BADEGRESS = 1 :=
    (Keeps.fld (keeps_setFld _ _ _ _) _ _ (by simp [preg])).trans (fld_raise _ _ _ hma rfl (by decide))
  unfold entryRefuse
  dsimp only
  generalize (raise (preg .fretErr p.iport) FretErr.BADEGRESS m).count (preg .fretHwref p.iport) FretHwref.COUNT 1 = u at hcount hbit
  have hua : u.active (pdie p.iport) = true := (active_of_beyond (beyond_of_parcels hcount) (by simp [checkRegs]) _).trans hma
  obtain ⟨hb, ⟨r, hf⟩, -, -⟩ := refusePkt_refused (p := { p with verdict := 3, reason := 0xFF01 }) (Nat.testBit 0xFF01 15) hsrc hua
  have hfret : u.fret = (s.decidedLeft p.iport rest).fret := (fret_of_parcels hcount).trans (fret_of_parcels hm)
  refine ⟨?_, ((keeps_of_beyond hb).fld _ _ (by simp [preg, refusalRegs])).trans hbit, ?_⟩
  · rw [hf, hfret]; exact decidedLeft_decided ..
  · rw [hf, hfret]; rfl

/-- A memory request that the checks pass, with no context and no flow, waits for its tag. -/
theorem forwardNext_waits {q : Pkt} (hd : s.fret.decided.get [] g = p :: rest) (hport : p.iport = g) (herr : p.tlp.isErrMsg = false)
    (hc : s.checks p = .ok q) (hfull : s.tagFull p = false) (hmem : p.tlp.isMem = true) (hx : q.xctx? = none) (hflow : q.flow? = none)
    (ptbad : Bool) : let t := forwardNext g ptbad s
    t.fret.decided.get [] g = rest ∧ t.fret.toTag.get [] g = s.fret.toTag.get [] g ++ [{ q with colour := 3 }] ∧ t.mem = s.mem := by
  subst hport
  obtain ⟨l, rfl⟩ := checks_ok hc
  have hkind : p.tlp.kind ≠ 8 ∧ p.tlp.kind ≠ 9 := by
    unfold Tlp.isMem at hmem
    constructor <;> intro h <;> simp [h] at hmem
  have hm : (mirrorIngress { p with dests := l } false (s.decidedLeft p.iport rest)).parcels refusalRegs =
      (s.decidedLeft p.iport rest).parcels refusalRegs :=
    mirrorIngress_parcels (by simp [refusalRegs]) (by simp [refusalRegs]) _ false _
  have hconvert : ∀ m : State, m.cfgConvert { p with dests := l } = some { p with dests := l } := fun m => by
    unfold State.cfgConvert
    dsimp only
    rw [if_pos hkind]
  have hnote : ∀ m : State, noteErrMsg { p with dests := l } m = m := fun m => by
    unfold noteErrMsg
    rw [if_neg (by simp [herr])]
  have hpolice : ∀ m : State, entryXlt { p with dests := l } ptbad m = m.modFret fun x =>
      { x with toTag := x.toTag.set p.iport (x.toTag.get [] p.iport ++ [{ p with dests := l, colour := 3 }]) } := fun m => by
    unfold entryXlt
    dsimp only
    rw [hx]
    dsimp only
    unfold entryPolice police
    rw [hflow]
    rfl
  have heq : forwardNext p.iport ptbad s = (mirrorIngress { p with dests := l } false (s.decidedLeft p.iport rest)).modFret fun x =>
      { x with toTag := x.toTag.set p.iport (x.toTag.get [] p.iport ++ [{ p with dests := l, colour := 3 }]) } := by
    rw [forwardNext_head hd hfull]
    unfold forwardEntry
    rw [if_neg (by simp [herr]), decidedLeft_checks, hc]
    dsimp only
    rw [hnote, hconvert]
    exact hpolice _
  dsimp only
  rw [heq]
  generalize mirrorIngress { p with dests := l } false (s.decidedLeft p.iport rest) = m at hm
  have hfret := fret_of_parcels hm
  refine ⟨?_, ?_, (keeps_of_parcels hm).1⟩
  · exact (congrArg (fun x => x.decided.get [] p.iport) hfret).trans (decidedLeft_decided ..)
  · refine (FMap.get_set_same ..).trans ?_
    rw [hfret]; rfl

end Entry

end Sys2Proof.Machine
end

section
/-! SUPPORT. Tags and the span: the head of a port's packets takes the next number of its stream and stands in the queue of its egress port, and a
record from the span does so once (04 R145, R148, 06 R219). -/

namespace Sys2Proof.Machine

/-! ### The queue of an egress port -/

/-- A packet whose port is active stands at the end of its queue. -/
theorem arrive_queues {p : Pkt} {s : State} (hl : s.linkState (pdie p.egress) (pnum p.egress) = 3) :
    arrive p s = s.modQueue p.egress p.queue fun l => l ++ [{ p with time := s.meridian (pdie p.egress) }] := by
  unfold arrive
  dsimp only
  rw [if_pos (by simp [State.carries, hl])]

/-- The packet that stands in a queue for one that arrives. -/
def State.arrived (p : Pkt) (s : State) : Pkt := { p with time := s.meridian (pdie p.egress) }

theorem linkState_of_parcels {ns : List RegName} {s t : State} (h : t.parcels ns = s.parcels ns) (hn : .linkStat ∉ ns) (d i : Nat) :
    t.linkState d i = s.linkState d i := linkState_of_keeps d i (keeps_of_parcels h) hn

/-- A tagged packet for a port of its own die stands at the end of that port's queue. -/
theorem placeTagged_queues {p : Pkt} {s : State} (hhold : p.hold = false) (he : p.egress < 128) (hd : pdie p.egress = pdie p.iport)
    (hl : s.linkState (pdie p.egress) (pnum p.egress) = 3) :
    placeTagged p s = (touchCells (pdie p.iport) p.cells s).modQueue p.egress p.queue fun l =>
      l ++ [(touchCells (pdie p.iport) p.cells s).arrived p] := by
  have htouch := touchCells_parcels (ns := []) (pdie p.iport) s p.cells
  unfold placeTagged
  rw [if_neg (by simp [hhold])]
  unfold toEgress
  dsimp only
  rw [if_neg (by omega), if_pos hd]
  exact arrive_queues ((linkState_of_parcels htouch (by simp) _ _).trans hl)

/-! ### Tagging (04 R145) -/

/-- The state in which the packets of a port that wait for a tag are those of a list. -/
def State.toTagLeft (g : Nat) (l : List Pkt) (s : State) : State := s.modFret fun x => { x with toTag := x.toTag.set g l }

/-- The state in which a packet is tagged: it no longer waits, and its cells are settled. -/
def State.settled (p : Pkt) (l : List Pkt) (s : State) : State := settleCells (pdie p.iport) p.cells (s.toTagLeft p.iport l)

/-- A packet as it takes its tag for the port `o`. -/
structure TagFor (p : Pkt) (o : Nat) (q : Pkt) : Prop where
  tlp : q.tlp = p.tlp
  src : q.src = p.src
  iport : q.iport = p.iport
  hold : q.hold = p.hold
  egress : q.egress = o

theorem fixQueue_tagFor {p q : Pkt} {o : Nat} (h : TagFor p o q) (s : State) : TagFor p o (fixQueue q s) := by
  obtain ⟨h1, h2, h3, h4, h5⟩ := h
  unfold fixQueue
  dsimp only
  cases q.demq with
  | none => exact ⟨h1, h2, h3, h4, h5⟩
  | some k => exact ⟨h1, h2, h3, h4, h5⟩

section Tagging
variable {s : State} {g o : Nat} {p : Pkt} {rest : List Pkt}

/-- The head of the packets that wait for a tag takes it for its one destination. -/
theorem tagNext_places (ht : s.fret.toTag.get [] g = p :: rest) (hport : p.iport = g) (hdests : p.dests = [o]) (hv : p.verdict = 0) :
    ∃ q, TagFor p o q ∧ tagNext g s = placeTagged (giveTag q (s.settled p rest)).1 (giveTag q (s.settled p rest)).2 := by
  subst hport
  have hmirror : ∀ t : State, mirrorFlow p t = t := fun t => by
    unfold mirrorFlow
    dsimp only
    rw [if_neg (by simp [hv])]
  refine ⟨{ fixQueue { p with egress := o, copy := 0, group := 0 } (s.settled p rest) with
    cutThrough := (s.settled p rest).cutAllowed (fixQueue { p with egress := o, copy := 0, group := 0 } (s.settled p rest)) }, ?_, ?_⟩
  · obtain ⟨h1, h2, h3, h4, h5⟩ := fixQueue_tagFor (q := { p with egress := o, copy := 0, group := 0 }) (p := p) (o := o) ⟨rfl, rfl, rfl, rfl, rfl⟩
      (s.settled p rest)
    exact ⟨h1, h2, h3, h4, h5⟩
  · unfold tagNext
    rw [ht]
    dsimp only
    unfold tagMembers
    dsimp only
    rw [hdests, hmirror]
    rfl

theorem settled_parcels : (s.settled p rest).parcels [] = (s.toTagLeft p.iport rest).parcels [] := settleCells_parcels ..

theorem settled_fret : (s.settled p rest).fret = (s.toTagLeft p.iport rest).fret := fret_of_parcels settled_parcels

/-- The state in which a stream has given the next number of a class. -/
theorem giveTag_counts (q : Pkt) (u : State) : ((giveTag q u).2.streamOf q.stream).count.get 0 q.tlp.cls = (giveTag q u).1.seq := by
  unfold giveTag
  dsimp only
  rw [State.streamOf_modStream_same]
  exact FMap.get_set_same ..

/-- The packet that a tag makes of a packet. -/
theorem giveTag_tags {q : Pkt} (h : TagFor p o q) (u : State) : TagFor p o (giveTag q u).1 ∧
    (giveTag q u).1.seq = ((u.streamOf q.stream).count.get 0 q.tlp.cls + 1) % 65536 := by
  obtain ⟨h1, h2, h3, h4, h5⟩ := h
  exact ⟨⟨h1, h2, h3, h4, h5⟩, rfl⟩

/-- A packet for one port of its die takes the next number of its stream and class, and stands at the end of a queue of that port. -/
theorem tagNext_queues (ht : s.fret.toTag.get [] g = p :: rest) (hport : p.iport = g) (hsrc : p.src = .port) (hdests : p.dests = [o])
    (hd : pdie o = pdie g) (ho : o < 128) (hhold : p.hold = false) (hv : p.verdict = 0) (hl : s.linkState (pdie o) (pnum o) = 3) :
    let t := tagNext g s
    t.fret.toTag.get [] g = rest ∧ ∃ y, t.queue o y.queue = s.queue o y.queue ++ [y] ∧ y.tlp = p.tlp ∧ y.egress = o ∧
      y.seq = ((s.streamOf (g, o, p.tlp.tc)).count.get 0 p.tlp.cls + 1) % 65536 ∧
      (t.streamOf (g, o, p.tlp.tc)).count.get 0 p.tlp.cls = y.seq := by
  subst hport
  obtain ⟨q, hq, heq⟩ := tagNext_places ht rfl hdests hv
  have hstream : q.stream = (p.iport, o, p.tlp.tc) := by
    unfold Pkt.stream
    rw [hq.src, hsrc, hq.iport, hq.egress, hq.tlp]
  have hcount := giveTag_counts q (s.settled p rest)
  obtain ⟨⟨htlp, -, hiport, hhold', hegress⟩, hseq⟩ := giveTag_tags hq (s.settled p rest)
  have hsettled := settled_parcels (s := s) (p := p) (rest := rest)
  have hfret : (giveTag q (s.settled p rest)).2.fret.toTag = s.fret.toTag.set p.iport rest := congrArg FretSt.toTag settled_fret
  have hqueue : ∀ k, (giveTag q (s.settled p rest)).2.queue o k = s.queue o k := fun k => queue_of_parcels hsettled o k
  have hlink : (giveTag q (s.settled p rest)).2.linkState (pdie o) (pnum o) = 3 := (linkState_of_parcels hsettled (by simp) _ _).trans hl
  have hstreams : (s.settled p rest).streamOf (p.iport, o, p.tlp.tc) = s.streamOf (p.iport, o, p.tlp.tc) :=
    congrArg (fun x => x.streams.get {} (p.iport, o, p.tlp.tc)) settled_fret
  rw [hstream, hq.tlp] at hcount hseq
  rw [hstreams] at hseq
  generalize (giveTag q (s.settled p rest)).1 = y at *
  generalize (giveTag q (s.settled p rest)).2 = u at *
  have htouch := touchCells_parcels (ns := []) (pdie y.iport) u y.cells
  dsimp only
  rw [heq, placeTagged_queues (hhold'.trans hhold) (by omega) (by rw [hegress, hiport, hd]) (by rw [hegress]; exact hlink)]
  generalize touchCells (pdie y.iport) y.cells u = v at htouch
  refine ⟨?_, v.arrived y, ?_, htlp, hegress, hseq, ?_⟩
  · have hvfret : v.fret.toTag = s.fret.toTag.set p.iport rest := by rw [fret_of_parcels htouch, hfret]
    exact (congrArg (fun x => x.get [] p.iport) hvfret).trans (FMap.get_set_same ..)
  · rw [hegress]
    exact (State.queue_modQueue_same ..).trans (by rw [queue_of_parcels htouch, hqueue]; rfl)
  · have hvfret : v.fret = u.fret := fret_of_parcels htouch
    exact (congrArg (fun x => (x.streams.get {} (p.iport, o, p.tlp.tc)).count.get 0 p.tlp.cls) hvfret).trans hcount

end Tagging

/-! ### Records from the span (06 R219) -/

section Span
variable {s : State} {d e : Nat} {p : Pkt}

/-- A record whose cells are readable is read without an error. -/
theorem readCells_clean (hb : (p.cellsOn e).all (fun c => !(s.cell e c).bad) = true) : readCells e p (p.cellsOn e) .clean s = (.clean, s) := by
  unfold readCells
  dsimp only
  rw [if_neg]
  simpa [List.any_eq_true, List.all_eq_true] using hb

/-- A record of a tag that the die has is dropped. -/
theorem spanRecord_known (hint : Nat) (hb : (p.cellsOn e).all (fun c => !(s.cell e c).bad) = true) (ht : s.hasTag p = true) (hd : pdie p.egress = d) :
    spanRecord d e p hint .clean s = s := by
  unfold spanRecord
  rw [readCells_clean hb]
  dsimp only
  split
  · rw [if_neg (by decide), if_pos ⟨hd, ht⟩]
  · rfl

/-- A record of a tag that the die does not have is taken. -/
theorem spanRecord_takes (hint : Nat) (ha : s.active d = true) (he : s.active e = true) (hde : d ≠ e) (hi : s.active (pdie p.iport) = true)
    (hb : (p.cellsOn e).all (fun c => !(s.cell e c).bad) = true) (ht : s.hasTag p = false) (h3 : s.dieState d = 3) :
    spanRecord d e p hint .clean s = takeRecord d e p hint s := by
  unfold spanRecord
  rw [if_pos ⟨ha, he, hde, .inr hi⟩, readCells_clean hb]
  dsimp only
  rw [if_neg (by decide), if_neg (by simp [ht]), if_neg (by simp [h3])]
  rfl

theorem updateXoff_parcels (ns : List RegName) (i : Nat) (t : State) : (updateXoff d i t).parcels ns = t.parcels ns := by
  obtain ⟨x, hx⟩ := updateXoff_eq t d i
  rw [hx, State.parcels_modLink]

/-- The packet of a record that finds its cells stands at the end of its queue. -/
theorem takeRecord_queues {hint : Nat} {cs : List Nat} {u : State} (hrec : s.recState d = 0) (hd : pdie p.egress = d)
    (hl : s.linkState d (pnum p.egress) = 3) (hstore : storeRecord d (.span d e p.tlp.tc p.tlp.cls) hint p.tlp s = some (cs, u)) :
    let t := takeRecord d e p hint s
    t.mem = s.mem ∧ ∃ y, t.queue p.egress p.queue = s.queue p.egress p.queue ++ [y] ∧ y.tlp = p.tlp ∧ y.seq = p.seq ∧ y.iport = p.iport := by
  have hu : u.parcels [] = s.parcels [] := storeRecord_parcels hstore
  have hflits : (consumeFlits d (16 + e) p.tlp.tc p.tlp.cls p.tlp.wire u).parcels [] = s.parcels [] := (State.parcels_modLink ..).trans hu
  have hidle : (consumeFlits d (16 + e) p.tlp.tc p.tlp.cls p.tlp.wire u).recState d = 0 := ((keeps_of_parcels hflits).fld _ _ (by simp)).trans hrec
  have hsettled : (settleCells d cs (updateXoff d (16 + e) (consumeFlits d (16 + e) p.tlp.tc p.tlp.cls p.tlp.wire u))).parcels [] = s.parcels [] := by
    rw [settleCells_parcels, updateXoff_parcels, hflits]
  have heq : takeRecord d e p hint s = arrive { p with tcells := cs }
      (settleCells d cs (updateXoff d (16 + e) (consumeFlits d (16 + e) p.tlp.tc p.tlp.cls p.tlp.wire u))) := by
    unfold takeRecord
    rw [hstore]
    dsimp only
    rw [recPkt_idle hidle, if_pos hd]
  dsimp only
  rw [heq]
  generalize settleCells d cs (updateXoff d (16 + e) (consumeFlits d (16 + e) p.tlp.tc p.tlp.cls p.tlp.wire u)) = v at hsettled
  rw [arrive_queues ((linkState_of_parcels hsettled (by simp) _ _).trans (hd ▸ hl))]
  refine ⟨(keeps_of_parcels hsettled).1, v.arrived { p with tcells := cs }, ?_, rfl, rfl, rfl⟩
  exact (State.queue_modQueue_same ..).trans (by rw [queue_of_parcels hsettled]; rfl)

end Span

/-! ### The statement -/

/-- Settles O14: each of its operations is admitted, entered, checked, tagged, received and reported by the lemma of that operation. -/
theorem admissionForwardingAndTagging : Obligations.AdmissionForwardingAndTagging := by
  unfold Obligations.AdmissionForwardingAndTagging
  intro s d pp hd hpp ha hrec
  have hg : pdie (gport d pp) = d := pdie_gport d hpp
  have hn : pnum (gport d pp) = pp := pnum_gport d hpp
  extract_lets g hq
  have hag : s.active (pdie g) = true := by rw [hg]; exact ha
  have hentry : ∀ ptbad, exec (.tlpForwardingEntry d pp ptbad) s = .next (forwardNext g ptbad s) := fun ptbad =>
    show execTlpForwardingEntry d pp ptbad s = _ by rw [execTlpForwardingEntry, if_pos ⟨hd, hpp⟩]
  refine ⟨fun p seq hint hup hcase hpcie hseq hcrc => ?_, fun p rest hhead hstop hlive hmode h7 hprog => ?_, ⟨_, rfl, rfl⟩,
    fun p rest hhead hport hsrc herr => ⟨fun hr => ⟨_, hentry false, forwardNext_badEgress hhead hport hsrc herr hag hr false⟩,
      fun q hc hfull hmem _ _ hx hflow => ⟨_, hentry false, forwardNext_waits hhead hport herr hc hfull hmem hx hflow false⟩⟩,
    fun p rest o hhead hport hsrc hdests hdo ho hhold hv _ hl => ?_, fun e p hint he hde hsrc hb hi hpe _ ht h3 hl hstore => ?_,
    fun e p hint ht hpe hb => ⟨_, rfl, spanRecord_known hint hb ht hpe⟩, fun p rest hp hsrc hgone => ⟨_, rfl, releaseReport_ends hp hsrc hgone⟩⟩
  · have hin : InSequence g p seq s := ⟨hup, hcase, hag, hpcie, by rw [hg, hn]; exact hseq, hcrc⟩
    have hadmit : exec (.tlpAdmit d pp p seq hint) s = .next (admitTlp g p seq hint s) :=
      show execTlpAdmit d pp p seq hint s = _ by rw [execTlpAdmit, if_pos ⟨hd, hpp⟩]
    refine ⟨fun hm hpart => ⟨_, hadmit, admitTlp_refuses hin hm hpart hint⟩, fun hm hearly hpart hw hstore => ⟨_, hadmit, ?_⟩⟩
    obtain ⟨⟨cs, u⟩, hcs⟩ := Option.isSome_iff_exists.mp hstore
    obtain ⟨hrx, hmem, hjoin⟩ := admitTlp_joins hin hm hearly hpart hw (by rw [hg]; exact hcs)
    rw [hg, hn] at hrx
    exact ⟨hrx, hmem, s.queued g p cs, hjoin, rfl, rfl, congrArg s.newE hg, rfl⟩
  · exact ⟨_, show execHeaderEnterCourse d pp true {} s = _ by rw [execHeaderEnterCourse, if_pos ⟨hd, hpp⟩],
      enterCourse_enters hhead hstop hlive hmode h7 hprog {}⟩
  · exact ⟨_, rfl, tagNext_queues hhead hport hsrc hdests (hdo.trans hg.symm) ho hhold hv (by rw [hdo]; exact hl)⟩
  · refine ⟨_, rfl, ?_⟩
    obtain ⟨⟨cs, u⟩, hcs⟩ := Option.isSome_iff_exists.mp hstore
    rw [spanRecord_takes hint ha he hde hi hb ht h3]
    exact takeRecord_queues hrec hpe hl hcs

end Sys2Proof.Machine
end

section
/-! SUPPORT. The state after part reset: what its registers, its gates and its banks read, and the statement that they meet (05 R171; 11 R402,
R429; 12 R488). -/

namespace Sys2Proof.Machine

/-! ### Registers after part reset -/

/-- A field of a register whose word is known. -/
theorem fld_of_reg {s : State} {r : Reg} {w : Word} (h : s.reg r = w) (f : Field) : s.fld r f = f.of w := congrArg f.of h

/-- After part reset the route of every event reads what its field table gives (12 R488). -/
theorem reg_reset_route (d e : Nat) : State.reset.reg (State.reset.route d e) = BitVec.ofNat 64 RegName.evtRoute.tableReset := rfl

/-- The gate of the key vault is armed and locked (11 R429). -/
theorem reg_reset_vaultCtl (d : Nat) : State.reset.reg (gateCtl d 24) = BitVec.ofNat 64 (GateCtl.LOCK.place 1 + GateCtl.ARM.place 1) := rfl

/-- Its first region is valid and locked, over the whole vault (11 R429). -/
theorem reg_reset_vaultRegion (d : Nat) : State.reset.reg (gateReg0 d 24 0) =
    BitVec.ofNat 64 (GateReg0.VALID.place 1 + GateReg0.LOCK.place 1 + GateReg0.LIMIT.place 0xFFFFF) := rfl

theorem regionLocked_reset_vault (d : Nat) : State.reset.regionLocked d 24 0 = true := by
  unfold State.regionLocked
  rw [fld_of_reg (reg_reset_vaultRegion d)]
  decide

/-- That region lets group 10 read, and no other group do anything (11 R429). -/
theorem permits_reset_vault (d group : Nat) {need : Nat} (hneed : need < 3) :
    State.reset.permits d 24 0 group need = (decide (group = 10) && decide (need = 0)) := by
  have hbit : State.reset.permits d 24 0 group need = (2 ^ 30).testBit (3 * group + need) := rfl
  rw [hbit, Nat.testBit_two_pow, ← Bool.decide_and]
  exact decide_eq_decide.mpr (by omega)

/-! ### Banks after part reset (05 R171) -/

theorem bankAt_reset (d e off : Nat) : State.reset.bankAt d e off = bankReset (off / 8) := by
  have hbank : (State.reset.tabDie d).bankOf State.reset.tab.capoE e = [] := by
    unfold TabDie.bankOf
    split
    · rfl
    · exact ite_self _
  unfold State.bankAt
  rw [hbank]
  rfl

theorem portWord_reset (d e : Nat) {g : Nat} (hg : g < 128) : State.reset.portWord d e g 0 = BitVec.ofNat 64 (63 * 2 ^ 40) := by
  unfold State.portWord
  rw [bankAt_reset, bankReset, if_neg (by omega), if_pos (by omega)]

/-! ### The statement -/

/-- Settles O5: every register reads its reset value by definition, and the vault's gate, the routes and the banks by the words that these give. -/
theorem resetValues : Obligations.ResetValues := by
  unfold Obligations.ResetValues
  refine ⟨fun _ => rfl, rfl, rfl, rfl, rfl, rfl, fun d => ⟨?_, ?_, regionLocked_reset_vault d, fun group _ _ => permits_reset_vault d group⟩,
    fun d e => ?_, fun d e g hg => ⟨?_, ?_⟩, fun _ _ => ⟨rfl, rfl, rfl⟩, fun d i => ?_, fun d => ?_⟩
  · rw [fld_of_reg (reg_reset_vaultCtl d)]; decide
  · rw [fld_of_reg (reg_reset_vaultCtl d)]; decide
  · have hroute : ∀ f, State.reset.fld (State.reset.route d e) f = f.of (BitVec.ofNat 64 RegName.evtRoute.tableReset) :=
      fld_of_reg (reg_reset_route d e)
    simp only [hroute]
    decide
  · rw [bankAt_reset]; decide
  · rw [portWord_reset d e hg]; decide
  · have hcase : State.reset.reg (case0 d i) = BitVec.ofNat 64 RegName.fltCase0.tableReset := rfl
    unfold State.caseOn State.caseFld
    rw [fld_of_reg hcase]
    decide
  · have hrec : State.reset.reg (dreg .recStat d) = BitVec.ofNat 64 RegName.recStat.tableReset := rfl
    unfold State.recState
    rw [fld_of_reg hrec]
    decide

end Sys2Proof.Machine
end

section
/-! SUPPORT. What operations on the table stores leave: pages copied between banks, words that the replication gates let pass or refuse, flits of
the lead die, and the queue of staged writes (05 R168, R181, R185, R189; 11 R422, R427). -/

namespace Sys2Proof.Machine

/-! ### Banks -/

/-- The value at a key of two maps in a row. -/
theorem FMap.get_append {κ α : Type} [DecidableEq κ] (a b : FMap κ α) (v : α) (k : κ) : FMap.get (a ++ b) v k = a.get (b.get v k) k := by
  induction a with
  | nil => rfl
  | cons x a ih =>
    obtain ⟨l, w⟩ := x
    by_cases h : l = k
    · simp [FMap.get, h]
    · simpa [FMap.get, h] using ih

/-- A page copied between banks has the words of its source, and every other page those that it had. -/
theorem bankWord_copyPage (p : Nat) (src dst : FMap Nat Word) (k : Nat) :
    bankWord (copyPage p src dst) k = if pageOf k = p then bankWord src k else bankWord dst k := by
  unfold bankWord copyPage
  rw [FMap.get_append]
  by_cases hk : pageOf k = p
  · rw [if_pos hk, FMap.get_filter src _ _ k (by simp [hk]), FMap.get_filter_out dst _ _ k (by simp [hk])]
  · rw [if_neg hk, FMap.get_filter_out src _ _ k (by simp [hk]), FMap.get_filter dst _ _ k (by simp [hk])]

/-- Pages of a list copied from one bank. -/
theorem bankWord_copyPages (src : FMap Nat Word) (l : List Nat) (dst : FMap Nat Word) (k : Nat) :
    bankWord (l.foldl (fun b p => copyPage p src b) dst) k = if pageOf k ∈ l then bankWord src k else bankWord dst k := by
  induction l generalizing dst with
  | nil => rfl
  | cons p l ih =>
    rw [List.foldl_cons, ih, bankWord_copyPage]
    by_cases hp : pageOf k = p
    · by_cases hl : pageOf k ∈ l <;> simp [hp]
    · simp [hp]

/-- A page joins a list. -/
theorem mem_addPage (p : Nat) (l : List Nat) : p ∈ addPage p l := by
  unfold addPage
  split
  · assumption
  · simp

/-! ### The table store of a die -/

@[simp] theorem State.tabDie_modTabDie_same (s : State) (d : Nat) (f : TabDie → TabDie) : (s.modTabDie d f).tabDie d = f (s.tabDie d) := by
  rw [State.tabDie_modTabDie, if_pos rfl]

theorem tabDie_of_tab {s t : State} (h : t.tab = s.tab) (e : Nat) : t.tabDie e = s.tabDie e := by
  unfold State.tabDie; rw [h]

theorem keeps_modTabDie (s : State) (d : Nat) (f : TabDie → TabDie) : Keeps [] s (s.modTabDie d f) := keeps_modTab s _

/-- A loop whose turn for a die changes that die's table store alone changes so the stores of the dies of its list. -/
theorem tabDie_forAll {P : State → Prop} {f : Nat → State → State} {g : Nat → TabDie → TabDie} (hP : ∀ d t, P t → P (f d t))
    (h : ∀ d t, P t → ∀ e, (f d t).tabDie e = if e = d then g d (t.tabDie d) else t.tabDie e) {l : List Nat} (hl : l.Nodup) {s : State}
    (hs : P s) (e : Nat) : (s.forAll l f).tabDie e = if e ∈ l then g e (s.tabDie e) else s.tabDie e := by
  induction l generalizing s with
  | nil => rfl
  | cons d l ih =>
    obtain ⟨hd, hrest⟩ := List.nodup_cons.mp hl
    have hstep : (s.forAll (d :: l) f).tabDie e = ((f d s).forAll l f).tabDie e := rfl
    rw [hstep, ih hrest (hP d s hs), h d s hs]
    by_cases he : e = d
    · subst he; simp [hd]
    · simp [he]

theorem State.activeDies_nodup (s : State) : s.activeDies.Nodup := List.nodup_range.filter _

theorem State.mem_activeDies_iff {s : State} {d : Nat} : d ∈ s.activeDies ↔ d < s.dieCount ∧ s.active d = true := by
  simp [State.activeDies]

/-- Two epochs are live where a die in service has an older one or copies one. -/
theorem State.twoEpochs_iff {s : State} : s.twoEpochs = true ↔ ∃ e ∈ s.activeDies, (s.tabDie e).older.isSome = true ∨ (s.tabDie e).syncing = true := by
  simp [State.twoEpochs, List.any_eq_true]

/-! ### Words through the replication gates (11 R422, R427) -/

theorem captureFrec_tab (d mid t acc addr lo : Nat) (s : State) : (captureFrec d mid t acc addr lo s).tab = s.tab := by
  unfold captureFrec
  split <;> rfl

theorem captureFrec_gate (d mid t acc addr lo : Nat) (s : State) : (captureFrec d mid t acc addr lo s).gate = s.gate := by
  unfold captureFrec
  split <;> rfl

theorem raise_gate (r : Reg) (f : Field) (s : State) : (raise r f s).gate = s.gate := by
  unfold raise
  rcases raiseFault_cases { reg := r, bit := f.lo } s with ⟨he, -⟩ | ⟨-, he⟩ <;> simp [he]

/-- A refused write leaves the tables and the tokens. -/
theorem gateRefuse_tab (d mid t addr lo : Nat) (s : State) : (gateRefuse d mid t 1 addr lo s).tab = s.tab :=
  (raise_tab _ _ _).trans (captureFrec_tab ..)

theorem gateRefuse_gate (d mid t addr lo : Nat) (s : State) : (gateRefuse d mid t 1 addr lo s).gate = s.gate :=
  (raise_gate _ _ _).trans (captureFrec_gate ..)

/-- The registers in which a gate records a refusal. -/
def refusedRegs : List RegName := [.gateErr, .gateFrec0, .gateFrec1]

/-- What staging does through gates that may refuse it: their records of refusals, the shadow banks and what is known of their pages may differ,
and nothing that a lookup reads. -/
structure Replicates (s t : State) : Prop where
  keeps : Keeps refusedRegs s t
  gate : t.gate = s.gate
  tab : ∃ dies soft, t.tab = { s.tab with dies := dies, soft := soft }
  banks : ∀ e, ∃ sh wr bad, t.tabDie e = { s.tabDie e with shadow := sh, written := wr, badPages := bad }

theorem Replicates.refl (s : State) : Replicates s s := ⟨Keeps.refl _ _, rfl, ⟨_, _, rfl⟩, fun _ => ⟨_, _, _, rfl⟩⟩

theorem Replicates.trans {s t u : State} (h : Replicates s t) (h' : Replicates t u) : Replicates s u := by
  obtain ⟨hk, hg, ⟨dies, soft, ht⟩, hb⟩ := h
  obtain ⟨hk', hg', ⟨dies', soft', ht'⟩, hb'⟩ := h'
  refine ⟨(hk.trans hk').mono (by simp), hg'.trans hg, ⟨dies', soft', by rw [ht', ht]⟩, fun e => ?_⟩
  obtain ⟨_, _, _, he⟩ := hb e
  obtain ⟨sh, wr, bad, he'⟩ := hb' e
  exact ⟨sh, wr, bad, by rw [he', he]⟩

/-- The gates pass the same words before and after. -/
theorem Replicates.pageOk {s t : State} (h : Replicates s t) (d tgt mid page need : Nat) :
    t.pageOk d tgt mid page need = s.pageOk d tgt mid page need :=
  State.pageOk_congr (fun r hr => h.keeps.reg r fun hn => by simp only [refusedRegs, List.mem_cons, List.not_mem_nil, or_false] at hn
                                                             rcases hn with hn | hn | hn <;> simp [hn, gateRegs] at hr) h.gate ..

theorem Replicates.of_tab {s t : State} (hk : Keeps refusedRegs s t) (hg : t.gate = s.gate) (ht : t.tab = s.tab) : Replicates s t :=
  ⟨hk, hg, ⟨_, _, ht⟩, fun e => ⟨_, _, _, tabDie_of_tab ht e⟩⟩

/-- A word staged on a die: its gate lets it pass, or records a refusal. -/
theorem replicate_stage (d k : Nat) (w : Word) (soft : List (Nat × Nat)) (s : State) :
    let t := replicate d (8 * k) (fun t => t.modTabDie d (TabDie.stage d k w soft)) s
    Replicates s t ∧ ∀ e, t.tabDie e =
      if e = d then (if s.pageOk d 19 (0x58 + d) (8 * k / 4096) 1 then TabDie.stage d k w soft (s.tabDie d) else s.tabDie d) else s.tabDie e := by
  dsimp only
  unfold replicate
  split
  · refine ⟨⟨(keeps_modTabDie s d _).mono (by simp), rfl, ⟨_, _, rfl⟩, fun e => ?_⟩, fun e => State.tabDie_modTabDie ..⟩
    rw [State.tabDie_modTabDie]
    split
    · rename_i he; rw [he]; exact ⟨_, _, _, rfl⟩
    · exact ⟨_, _, _, rfl⟩
  · exact ⟨Replicates.of_tab (keeps_gateRefuse ..) (gateRefuse_gate ..) (gateRefuse_tab ..), fun e => by
      rw [tabDie_of_tab (gateRefuse_tab ..)]; split <;> simp [*]⟩

/-- A staged word reaches the shadow bank of each die in service whose gate lets it pass (05 R168). -/
theorem applyStaged_replicates (k : Nat) (v : Word) (s : State) : Replicates s (applyStaged k v s) ∧ ∀ e, e ∈ s.activeDies →
    (applyStaged k v s).tabDie e = if s.pageOk e 19 (0x58 + e) (8 * k / 4096) 1
      then TabDie.stage e k (v &&& bankMask s.dieCount k) s.tab.soft (s.tabDie e) else s.tabDie e := by
  have hstep : ∀ d t, Replicates s t → Replicates s (replicate d (8 * k) (fun t => t.modTabDie d
      (TabDie.stage d k (v &&& bankMask s.dieCount k) s.tab.soft)) t) := fun d t ht => ht.trans (replicate_stage ..).1
  have hloop := tabDie_forAll (g := fun d x => if s.pageOk d 19 (0x58 + d) (8 * k / 4096) 1
    then TabDie.stage d k (v &&& bankMask s.dieCount k) s.tab.soft x else x) hstep (fun d t ht e => by
      rw [(replicate_stage ..).2, ht.pageOk]) s.activeDies_nodup (Replicates.refl s)
  refine ⟨(State.forAll_invariant hstep s.activeDies (Replicates.refl s)).trans ⟨(keeps_modTab _ _).mono (by simp), rfl, ⟨_, _, rfl⟩,
    fun _ => ⟨_, _, _, rfl⟩⟩, fun e he => ?_⟩
  exact (hloop e).trans (if_pos he)

/-! ### The queue of staged writes (05 R189) -/

/-- The end of the program load of a die. -/
def loadEnds (d : Nat) (t : State) : State := (t.setFld (dreg .fretLoad d) FretLoad.BUSY 0).setFld (dreg .fretLoad d) FretLoad.STATUS 1

theorem endLoads_eq (s : State) : endLoads s = (s.forAll s.fret.loading loadEnds).modFret fun x => { x with loading := [] } := rfl

theorem endLoads_keeps (s : State) : Keeps [.fretLoad] s (endLoads s) := by
  have hturn : ∀ d t, Keeps [.fretLoad] t (loadEnds d t) := fun d t =>
    ((keeps_setFld t (dreg .fretLoad d) _ _).trans (keeps_setFld _ (dreg .fretLoad d) _ _)).mono (by simp)
  rw [endLoads_eq]
  exact ((keeps_forAll loadEnds hturn s s.fret.loading).trans (keeps_modFret _ _)).mono (by simp)

theorem endLoads_tab (s : State) : (endLoads s).tab = s.tab := by
  rw [endLoads_eq]
  exact s.forAll_keeps State.tab loadEnds (fun _ _ => rfl) _

/-- The state whose queue of staged writes is empty. -/
def State.unqueued (s : State) : State := s.modTab fun t => { t with queue := [], heldWrites := [] }

/-- The queue is applied through the gates, and the loads that waited for it end. -/
theorem drainQueue_replicates (s : State) : ∃ t, Replicates s.unqueued t ∧ drainQueue s = endLoads t :=
  ⟨_, State.forAll_invariant (fun x t ht => ht.trans (applyStaged_replicates x.1 x.2 t).1) (s.tab.queue ++ s.tab.heldWrites)
    (Replicates.refl s.unqueued), rfl⟩

/-! ### CAPO flits (05 R185; 03 R81) -/

@[simp] theorem queueFlits_beyond {ns : List RegName} (d i : Nat) (fs : List HeldFlit) (s : State) : (queueFlits d i fs s).beyond ns = s.beyond ns := by
  unfold queueFlits; simp

theorem queueFlits_tab (d i : Nat) (fs : List HeldFlit) (s : State) : (queueFlits d i fs s).tab = s.tab := by
  unfold queueFlits pumpLink updateXoff; split <;> rfl

theorem queueFlits_buf (d i : Nat) (fs : List HeldFlit) (s : State) : (queueFlits d i fs s).buf = s.buf := by
  unfold queueFlits pumpLink updateXoff; split <;> rfl

/-- What sending a CAPO flit does: beside the link engines, the die is one to which a flit is on its way. -/
theorem sendCapoFlit_sends (d : Nat) (s : State) : Keeps [] s (sendCapoFlit d s) ∧ (sendCapoFlit d s).buf = s.buf ∧
    (sendCapoFlit d s).tab = { s.tab with flits := s.tab.flits.erase d ++ [d] } := by
  unfold sendCapoFlit
  extract_lets f x s0 s1
  have h0 : s0.beyond [] = s.beyond [] := rfl
  have h1 : s1.beyond [] = s.beyond [] ∧ s1.buf = s.buf ∧ s1.tab = s0.tab := by
    simp only [s1]
    split
    · exact ⟨h0, rfl, rfl⟩
    · exact ⟨(queueFlits_beyond ..).trans h0, queueFlits_buf .., queueFlits_tab ..⟩
  obtain ⟨hb, hbuf, htab⟩ := h1
  split
  · exact ⟨keeps_of_beyond hb, hbuf, htab⟩
  · exact ⟨keeps_of_beyond ((queueFlits_beyond ..).trans hb), (queueFlits_buf ..).trans hbuf, (queueFlits_tab ..).trans htab⟩

end Sys2Proof.Machine
end

section
/-! SUPPORT. Pages that are reloaded, older epochs that drain and retire, and banks that are synced: what each command leaves
(05 R181, R185, R188, R189). -/

namespace Sys2Proof.Machine

/-! ### Reloaded pages (05 R181, R185) -/

/-- A reloaded page of a die whose newest epoch is that of its source: the shadow bank takes it, and one page fewer is to reload. -/
theorem reloadPage_reloads {s : State} {d p : Nat} (he : (s.tabDie d).newE = s.newE (s.reloadFrom d)) :
    Keeps [.tabCnt] s (reloadPage d p s) ∧ ((reloadPage d p s).tabDie d).shadow = copyPage p (s.tabDie (s.reloadFrom d)).shadow (s.tabDie d).shadow ∧
      ((reloadPage d p s).tabDie d).newE = (s.tabDie d).newE ∧ ((reloadPage d p s).tabDie d).reload = (s.tabDie d).reload.erase p := by
  unfold reloadPage
  extract_lets r s1
  refine ⟨((keeps_modTabDie s d _).trans (keeps_count s1 (dreg .tabCnt d) _ _)).mono (by simp), ?_⟩
  have ht : ∀ f n, (s1.count (dreg .tabCnt d) f n).tabDie d = s1.tabDie d := fun _ _ => rfl
  rw [ht, State.tabDie_modTabDie_same]
  exact ⟨if_pos he, rfl, rfl⟩

/-- The end of the reload of a page, with further pages to reload or on a die that is out of step. -/
theorem pageReloadEnd_reloads {s : State} {d p : Nat} {rest : List Nat} (hr : (s.tabDie d).reload = p :: rest) (hfrom : s.reloadFrom d ≠ 0xF)
    (he : (s.tabDie d).newE = s.newE (s.reloadFrom d)) (hnext : rest ≠ [] ∨ s.dieState d = 4) :
    let t := pageReloadEnd d s
    (t.tabDie d).reload = rest ∧ (rest = [] → d ∈ t.tab.flits) ∧ (t.tabDie d).newE = (s.tabDie d).newE ∧ Keeps [.tabCnt] s t ∧
      (t.tabDie d).shadow = copyPage p (s.tabDie (s.reloadFrom d)).shadow (s.tabDie d).shadow := by
  obtain ⟨hk, hshadow, hnew, hrest⟩ := reloadPage_reloads (p := p) he
  rw [hr, List.erase_cons_head] at hrest
  have hend : pageReloadEnd d s = if !rest.isEmpty then reloadPage d p s else sendCapoFlit d (reloadPage d p s) := by
    unfold pageReloadEnd
    rw [hr]
    dsimp only
    rw [if_neg hfrom]
    by_cases hn : rest = []
    · have hstep : (reloadPage d p s).dieState d = 4 := by
        rw [← hnext.resolve_left (fun h => h hn)]
        unfold State.dieState
        rw [hk.reg _ (by simp [partDieState])]
      simp [hn, hstep]
    · simp [hn]
  dsimp only
  rw [hend]
  by_cases hn : rest = []
  · obtain ⟨hkeeps, -, htab⟩ := sendCapoFlit_sends d (reloadPage d p s)
    have htd : (sendCapoFlit d (reloadPage d p s)).tabDie d = (reloadPage d p s).tabDie d := by unfold State.tabDie; rw [htab]
    rw [if_neg (by simp [hn]), htd]
    exact ⟨hrest, fun _ => by rw [htab]; simp, hnew, (hk.trans hkeeps).mono (by simp), hshadow⟩
  · rw [if_pos (by simp [hn])]
    exact ⟨hrest, fun h => absurd h hn, hnew, hk, hshadow⟩

/-! ### Drain and retirement (05 R188) -/

/-- A die with an older epoch and nothing unsettled reports it drained, with the time since its flip. -/
theorem epochDrained_reports {s : State} {d : Nat} (ho : (s.tabDie d).older.isSome = true) (hd : d ∉ s.tab.drained)
    (hu : s.unsettled d (s.tabDie d).oldE = 0) :
    let t := epochDrained d s
    t.tab = { s.tab with drained := d :: s.tab.drained } ∧
      t.fld (dreg .tabDrain d) TabDrain.LAST = min 65535 ((s.meridian d + 2 ^ 64 - (s.tabDie d).flipAt) % 2 ^ 64 / 65536) ∧ Keeps [.tabDrain] s t := by
  unfold epochDrained
  dsimp only
  rw [if_pos ⟨ho, hd, hu⟩]
  refine ⟨rfl, ?_, ((keeps_modTab s _).trans ((keeps_setFld _ (dreg .tabDrain d) _ _).trans (keeps_setFld _ (dreg .tabDrain d) _ _))).mono (by simp)⟩
  rw [State.fld_setFld_other _ _ _ _ _ (by decide) (by decide) (by decide), State.fld_setFld_same _ _ _ _ (by decide) (by decide)]
  exact Nat.mod_eq_of_lt (lt_of_le_of_lt (min_le_left ..) (by decide))

/-- A die's bank record after its older epoch has retired: the freed bank syncs. -/
def TabDie.retire (x : TabDie) : TabDie := { x with older := none, oldE := x.newE, syncing := true, syncPages := x.written, written := [] }

/-- The turn of a die when the older epoch retires: its bank is free and is synced, and translations of older generations go. -/
def retireDie (d : Nat) (t : State) : State :=
  (t.modTabDie d TabDie.retire).modXltDie d fun x =>
    { x with gen := x.gen.filter (fun g => g.1.2 == t.newE d), cache := x.cache.filter fun c => c.gen == x.gen.get 0 (c.ctx, t.newE d) }

theorem keeps_modXltDie (s : State) (d : Nat) (f : XltDie → XltDie) : Keeps [] s (s.modXltDie d f) := Keeps.of_eq rfl rfl rfl rfl rfl

/-- When every die has flipped and reported, each die in service has one epoch and syncs, and PART.EPOCH.OLD is the newest epoch. -/
theorem epochRetire_retires {s : State} {d : Nat} (hflip : s.tab.toFlip = []) (hd : d ∈ s.activeDies) (ho : (s.tabDie d).older.isSome = true)
    (hall : ∀ e, e ∈ s.activeDies → e ∈ s.tab.drained) (hlead : s.newE s.lead < 65536) :
    let t := epochRetire s
    (∀ e, e ∈ s.activeDies → (t.tabDie e).older = none ∧ (t.tabDie e).newest = (s.tabDie e).newest ∧ (t.tabDie e).syncing = true) ∧
      t.fld { name := .partEpoch } PartEpoch.OLD = s.newE s.lead ∧ Keeps [.partEpoch] s t := by
  have hrun : epochRetire s = (((s.forAll s.activeDies retireDie).setFld { name := .partEpoch } PartEpoch.OLD
      ((s.forAll s.activeDies retireDie).newE (s.forAll s.activeDies retireDie).lead)).modTab fun t => { t with drained := [] }) := by
    unfold epochRetire
    dsimp only
    rw [if_pos ⟨by simp [hflip], List.any_eq_true.mpr ⟨d, hd, ho⟩, by simpa using hall⟩]
    rfl
  have hk : Keeps [] s (s.forAll s.activeDies retireDie) :=
    keeps_forAll _ (fun e t => ((keeps_modTabDie t e _).trans (keeps_modXltDie _ e _)).mono (by simp)) s _
  have hturn : ∀ d t e, (retireDie d t).tabDie e = (t.modTabDie d TabDie.retire).tabDie e := fun _ _ _ => rfl
  have hdie : ∀ e, (s.forAll s.activeDies retireDie).tabDie e = if e ∈ s.activeDies then (s.tabDie e).retire else s.tabDie e :=
    tabDie_forAll (P := fun _ => True) (g := fun _ => TabDie.retire) (fun _ _ _ => trivial)
      (fun d t _ e => (hturn d t e).trans (State.tabDie_modTabDie ..)) s.activeDies_nodup trivial
  have hnew : ∀ e, (s.forAll s.activeDies retireDie).newE e = s.newE e := fun e => by
    unfold State.newE; rw [hdie]; split <;> rfl
  dsimp only
  rw [hrun, hk.lead (by simp), hnew]
  refine ⟨fun e he => ?_, ?_, (hk.trans ((keeps_setFld _ { name := .partEpoch } _ _).trans (keeps_modTab _ _))).mono (by simp)⟩
  · have hsame : ∀ r f v g, ((((s.forAll s.activeDies retireDie).setFld r f v).modTab fun t => { t with drained := g }).tabDie e) =
        (s.forAll s.activeDies retireDie).tabDie e := fun _ _ _ _ => rfl
    rw [hsame, hdie, if_pos he]
    exact ⟨rfl, rfl, rfl⟩
  · have hfld : ∀ (u : State) f, (u.modTab f).fld { name := .partEpoch } PartEpoch.OLD = u.fld { name := .partEpoch } PartEpoch.OLD := fun _ _ => rfl
    rw [hfld, State.fld_setFld_same _ _ _ _ (by decide) (by decide)]
    exact Nat.mod_eq_of_lt hlead

/-! ### Bank sync (05 R189) -/

/-- The state in which a die's bank sync has ended: its shadow bank has the pages that the sync copies. -/
def State.synced (d : Nat) (s : State) : State :=
  s.modTabDie d fun x =>
    { x with shadow := x.syncPages.foldl (fun b p => copyPage p x.newest b) x.shadow, syncing := false, syncPages := [] }

theorem bankSyncEnd_eq {s : State} {d : Nat} (h : (s.tabDie d).syncing = true) : bankSyncEnd d s = syncsOver (s.synced d) := by
  unfold bankSyncEnd
  rw [if_pos h]
  rfl

theorem synced_keeps (d : Nat) (s : State) : Keeps [] s (s.synced d) := keeps_modTabDie s d _

theorem synced_shadow (d : Nat) (s : State) (k : Nat) : bankWord ((s.synced d).tabDie d).shadow k =
    if pageOf k ∈ (s.tabDie d).syncPages then bankWord (s.tabDie d).newest k else bankWord (s.tabDie d).shadow k := by
  unfold State.synced
  rw [State.tabDie_modTabDie_same]
  exact bankWord_copyPages ..

theorem synced_syncing (d : Nat) (s : State) : ((s.synced d).tabDie d).syncing = false := by
  unfold State.synced
  rw [State.tabDie_modTabDie_same]

theorem synced_tabDie_ne {d e : Nat} (h : e ≠ d) (s : State) : (s.synced d).tabDie e = s.tabDie e := by
  unfold State.synced
  rw [State.tabDie_modTabDie, if_neg h]

/-- While another die syncs, the end of a die's sync changes that die alone. -/
theorem bankSyncEnd_waits {s : State} {d e : Nat} (h : (s.tabDie d).syncing = true) (he : e ∈ s.activeDies) (hne : e ≠ d)
    (hs : (s.tabDie e).syncing = true) : bankSyncEnd d s = s.synced d := by
  rw [bankSyncEnd_eq h, syncsOver, if_pos]
  have htwo : (s.synced d).twoEpochs = true := State.twoEpochs_iff.mpr
    ⟨e, (synced_keeps d s).activeDies (by simp) ▸ he, .inr (by rw [synced_tabDie_ne hne, hs])⟩
  simp [State.stageClosed, htwo]

/-- The last sync, with no capo running or waiting, leaves no staged write waiting. -/
theorem bankSyncEnd_last {s : State} {d : Nat} (h : (s.tabDie d).syncing = true)
    (hall : ∀ e, e ∈ s.activeDies → (s.tabDie e).older = none ∧ (e = d ∨ (s.tabDie e).syncing = false)) (hd : (s.tabDie d).older = none)
    (hrun : s.capoRuns = false) (hwait : s.tab.waiting = false) (hcheck : s.tab.check = none) :
    let t := bankSyncEnd d s
    (t.tabDie d).syncing = false ∧ t.tab.queue = [] ∧ t.tab.heldWrites = [] ∧ Keeps [.gateErr, .gateFrec0, .gateFrec1, .fretLoad] s t := by
  have hk := synced_keeps d s
  have htwo : (s.synced d).twoEpochs = false := by
    rw [Bool.eq_false_iff]
    intro htrue
    obtain ⟨e, he, hlive⟩ := State.twoEpochs_iff.mp htrue
    rw [hk.activeDies (by simp)] at he
    obtain ⟨holder, hsync⟩ := hall e he
    by_cases hed : e = d
    · subst hed
      rw [synced_syncing] at hlive
      unfold State.synced at hlive
      rw [State.tabDie_modTabDie_same] at hlive
      simp [holder] at hlive
    · rw [synced_tabDie_ne hed, holder, hsync.resolve_left hed] at hlive
      simp at hlive
  have hclosed : (s.synced d).stageClosed = false := by
    have hcapo : (s.synced d).capoRuns = s.capoRuns := rfl
    simp [State.stageClosed, htwo, hcapo, hrun]
  obtain ⟨t, ⟨hkeeps, -, ⟨dies, soft, htab⟩, hbanks⟩, hdrain⟩ := drainQueue_replicates (s.synced d)
  have htab2 : (drainQueue (s.synced d)).tab = t.tab := by rw [hdrain, endLoads_tab]
  have hresult : bankSyncEnd d s = drainQueue (s.synced d) := by
    rw [bankSyncEnd_eq h, syncsOver, if_neg (by simp [hclosed])]
    dsimp only
    have hw : (drainQueue (s.synced d)).tab.waiting = false := by rw [htab2, htab]; exact hwait
    have hc : (drainQueue (s.synced d)).tab.check = none := by rw [htab2, htab]; exact hcheck
    rw [if_neg (by simp [hw]), checkEnd, hc]
  obtain ⟨sh, wr, bad, hbank⟩ := hbanks d
  dsimp only
  rw [hresult]
  refine ⟨?_, ?_, ?_, ?_⟩
  · rw [tabDie_of_tab htab2, hbank]; exact synced_syncing d s
  · rw [htab2, htab]; rfl
  · rw [htab2, htab]; rfl
  · rw [hdrain]
    exact (hk.trans ((keeps_modTab (s.synced d) _).trans (hkeeps.trans (endLoads_keeps t)))).mono (by simp [refusedRegs])

end Sys2Proof.Machine
end

section
/-! SUPPORT. Packets that are restamped, slow translations, the epoch fence and the scrub, and the statement that they and the reloads, drains and
syncs meet (05 R181, R188 to R193). -/

namespace Sys2Proof.Machine

/-! ### Restamping (05 R190) -/

/-- A port with one decided packet, of an older epoch and waiting for its tag: it returns to the head of the header queue under the port's epoch. -/
theorem restamp_returns {s : State} {g : Nat} {p : Pkt} (ho : (s.tabDie (pdie g)).older.isSome = true) (hq : s.fret.decided.get [] g = [p])
    (hold : olderEpoch p.epoch (s.newE (pdie g)) = true) (hfull : s.tagFull p = true) :
    let t := restamp g s
    t.fret.decided.get [] g = [] ∧
      t.fret.hq.get [] g = { p with epoch := s.newE (pdie g), mdata := {}, verdict := 0, reason := 0 } :: s.fret.hq.get [] g ∧
      t.fld (dreg .tabCnt (pdie g)) TabCnt.RESTAMPS =
        (s.count (dreg .tabCnt (pdie g)) TabCnt.RESTAMPS 1).fld (dreg .tabCnt (pdie g)) TabCnt.RESTAMPS ∧ t.mem = s.mem := by
  have hsplit : s.restamped (s.newE (pdie g)) [p] [] = ([p], []) := by simp [State.restamped, hold, hfull]
  have hrun : restamp g s = (modHq g (fun l => { p with epoch := s.newE (pdie g), mdata := {}, verdict := 0, reason := 0 } :: l)
      (s.modFret fun y => { y with decided := y.decided.set g [] })).count (dreg .tabCnt (pdie g)) TabCnt.RESTAMPS 1 := by
    unfold restamp
    dsimp only
    rw [if_neg (by simp [Option.isSome_iff_ne_none.mp ho]), hq, hsplit]
    rfl
  generalize hf : (fun l => { p with epoch := s.newE (pdie g), mdata := {}, verdict := 0, reason := 0 } :: l) = f at hrun
  have hbeyond := modHq_beyond g f (s.modFret fun y => { y with decided := y.decided.set g [] }) []
  obtain ⟨th, hfret⟩ := modHq_fret g f (s.modFret fun y => { y with decided := y.decided.set g [] })
  have hk : Keeps [] s (modHq g f (s.modFret fun y => { y with decided := y.decided.set g [] })) :=
    ((keeps_modFret s _).trans (keeps_of_beyond hbeyond)).mono (by simp)
  obtain ⟨hmem, -⟩ := id hk
  dsimp only
  rw [hrun]
  refine ⟨?_, ?_, ?_, hmem⟩
  · rw [State.count_fret, hfret]; exact FMap.get_set_same ..
  · rw [State.count_fret, hfret, ← hf]; exact FMap.get_set_same ..
  · rw [State.fld_count_same _ _ _ _ (by decide) (by decide), State.fld_count_same _ _ _ _ (by decide) (by decide), hk.fld _ _ (by simp)]

/-! ### Slow translations (05 R191) -/

theorem raiseTied_xlt (r : Reg) (f : Field) (x : TlpRef) (s : State) : (raiseTied r f x s).xlt = s.xlt := by
  unfold raiseTied
  rcases raiseFault_cases { reg := r, bit := f.lo, tied := some x } s with ⟨he, -⟩ | ⟨-, he⟩ <;> simp [he]

theorem raise_xlt (r : Reg) (f : Field) (s : State) : (raise r f s).xlt = s.xlt := by
  unfold raise
  rcases raiseFault_cases { reg := r, bit := f.lo } s with ⟨he, -⟩ | ⟨-, he⟩ <;> simp [he]

theorem keeps_raiseTied (r : Reg) (f : Field) (x : TlpRef) (s : State) : Keeps [r.name] s (raiseTied r f x s) := keeps_raiseFault _ _

/-- A source of one bit tied to a packet reads 1 once set. -/
theorem fld_raiseTied (r : Reg) (f : Field) (x : TlpRef) (s : State) (h : s.active (faultDie s r) = true) (hf : f.hi = f.lo) (h64 : f.lo < 64) :
    (raiseTied r f x s).fld r f = 1 := by
  unfold State.fld raiseTied
  rw [hf]
  exact getBits_raiseFault { reg := r, bit := f.lo, tied := some x } s h h64

theorem xlt_of_parcels {ns : List RegName} {s t : State} (h : t.parcels ns = s.parcels ns) : t.xlt = s.xlt := (congrArg (fun x => x.2.xlt) h :)

theorem originate_xlt (g : Nat) (t : Tlp) (s : State) : (originate g t s).xlt = s.xlt := by
  unfold originate
  dsimp only
  split
  · rfl
  · split
    · rfl
    · cases hplace : placeControl g t s with
      | none => rfl
      | some u =>
        unfold placeControl at hplace
        obtain ⟨x, hx, rfl⟩ := Option.map_eq_some_iff.mp hplace
        have hp := storeRecord_parcels (ns := []) hx
        exact (xlt_of_parcels hp :)

theorem originate_beyond (g : Nat) (t : Tlp) (s : State) : (originate g t s).beyond [] = s.beyond [] := by
  by_cases ha : s.active (pdie g) = true
  · exact (originate_originated t ha).beyond
  · unfold originate
    dsimp only
    rw [if_pos (by simpa using ha)]

/-- What the answer to a refused packet leaves: the translation units, and every register but those of refusals. -/
theorem refusePkt_leaves (p : Pkt) (ca : Bool) (s : State) : (refusePkt p ca s).xlt = s.xlt ∧ Keeps refusalRegs s (refusePkt p ca s) := by
  have hcells := releaseIngress_parcels (ns := []) (logReason p s) p
  have hlog : (logReason p s).xlt = s.xlt := by unfold logReason; split <;> rfl
  have hx := (xlt_of_parcels hcells).trans hlog
  have hb : (releaseIngress p (logReason p s)).beyond refusalRegs = s.beyond refusalRegs :=
    beyond_mono (by simp) ((beyond_of_parcels hcells).trans (logReason_beyond _ p s))
  have hraise : ∀ f (u : State), (raise (tlerr p.iport) f u).beyond refusalRegs = u.beyond refusalRegs := fun f u =>
    raise_beyond u _ f (by simp [tlerr, refusalRegs])
  unfold refusePkt refuseAnswer
  generalize releaseIngress p (logReason p s) = u at hx hb
  dsimp only
  split
  · split
    · exact ⟨(raise_xlt ..).trans ((originate_xlt ..).trans hx),
        keeps_of_beyond ((hraise ..).trans ((beyond_mono (by simp) (originate_beyond ..)).trans hb))⟩
    · split <;> exact ⟨(raise_xlt ..).trans hx, keeps_of_beyond ((hraise ..).trans hb)⟩
  · exact ⟨hx, keeps_of_beyond hb⟩

/-- What the tags of a packet's copies leave: the translation units, and every register but those of mirror copies. -/
theorem tagMembers_leaves (p : Pkt) (s : State) : (tagMembers p s).2.xlt = s.xlt ∧ Keeps refusalRegs s (tagMembers p s).2 := by
  unfold tagMembers
  extract_lets d k s0 s1
  have h0 : s0.xlt = s.xlt ∧ s0.beyond refusalRegs = s.beyond refusalRegs := by
    simp only [s0]; split <;> exact ⟨rfl, rfl⟩
  have h1 : s1.parcels refusalRegs = s0.parcels refusalRegs := by
    simp only [s1, mirrorFlow]
    split
    · exact (mirrorTo_parcels _ (by simp [refusalRegs]) (by simp [refusalRegs]) ..).trans (settleCells_parcels ..)
    · exact settleCells_parcels ..
  have hmore : ∀ q (u : State), (addCells d p.cells (giveTag q u).2).xlt = u.xlt ∧ Keeps [] u (addCells d p.cells (giveTag q u).2) := by
    intro q u
    have hadd := addCells_parcels (ns := []) d (giveTag q u).2 p.cells
    have hgive : Keeps [] u (giveTag q u).2 := Keeps.of_eq rfl rfl rfl rfl rfl
    exact ⟨(xlt_of_parcels hadd).trans rfl, (hgive.trans (keeps_of_parcels hadd)).mono (by simp)⟩
  refine List.foldlRecOn (motive := fun a : List Pkt × State => a.2.xlt = s.xlt ∧ Keeps refusalRegs s a.2) _ _
    ⟨(xlt_of_parcels h1).trans h0.1, keeps_of_beyond ((beyond_of_parcels h1).trans h0.2)⟩ fun a ha x _ => ?_
  obtain ⟨hx, hk⟩ := ha
  dsimp only
  split
  · exact ⟨hx, hk⟩
  · obtain ⟨hx', hk'⟩ := hmore _ a.2
    exact ⟨hx'.trans hx, (hk.trans hk').mono (by simp)⟩

/-- The walk of a packet that is refused ends. -/
def dropWalk (d id : Nat) (t : State) : State := t.modXltDie d fun y => { y with walks := y.walks.filter fun v => v.id != id }

/-- The walk of a packet goes on in the fault queue. -/
def queueWalk (d id : Nat) (t : State) : State :=
  t.modXltDie d fun y => { y with walks := y.walks.map fun v => if v.id = id then { v with queued := true, pkt := {} } else v }

@[simp] theorem State.xltDie_modXltDie_same (s : State) (d : Nat) (f : XltDie → XltDie) : (s.modXltDie d f).xltDie d = f (s.xltDie d) :=
  FMap.get_set_same ..

theorem dropWalk_fq (d id : Nat) (t : State) : ((dropWalk d id t).xltDie d).fq = (t.xltDie d).fq := by simp [dropWalk]

theorem queueWalk_fq (d id : Nat) (t : State) : ((queueWalk d id t).xltDie d).fq = (t.xltDie d).fq := by simp [queueWalk]

theorem fq_of_xlt {s t : State} (h : t.xlt = s.xlt) (d : Nat) : (t.xltDie d).fq = (s.xltDie d).fq := by unfold State.xltDie; rw [h]

section Slow
variable {s : State} {g : Nat} {w : Walk} (ha : s.active (pdie g) = true)
  (hw : (s.xltDie (pdie g)).walks.find? (fun w => w.who == .tlp g && !w.queued) = some w)
include ha hw

/-- With the fault queue full a slow packet is refused, and the queue stays. -/
theorem translationSlow_full (hfull : 256 ≤ (s.xltDie (pdie g)).fq.length) : let t := translationSlow g s
    t.fld (dreg .xltErr (pdie g)) XltErr.FQFULL = 1 ∧ (t.xltDie (pdie g)).fq = (s.xltDie (pdie g)).fq ∧ t.mem = s.mem := by
  have hslow := keeps_raiseTied (dreg .xltErr (pdie g)) XltErr.SLOW (s.refOf w.pkt) s
  have hslowx := raiseTied_xlt (dreg .xltErr (pdie g)) XltErr.SLOW (s.refOf w.pkt) s
  generalize hu : raiseTied (dreg .xltErr (pdie g)) XltErr.SLOW (s.refOf w.pkt) s = u at hslow hslowx
  have hset := fld_raise (dreg .xltErr (pdie g)) XltErr.FQFULL u ((hslow.active (by simp) _).trans ha) rfl (by decide)
  have hk := hslow.trans (keeps_raise (dreg .xltErr (pdie g)) XltErr.FQFULL u)
  have hx := (raise_xlt (dreg .xltErr (pdie g)) XltErr.FQFULL u).trans hslowx
  generalize hv : raise (dreg .xltErr (pdie g)) XltErr.FQFULL u = v at hset hk hx
  have hrun : translationSlow g s = refusePkt { w.pkt with verdict := 3, reason := 0x7F24 } false (dropWalk (pdie g) w.id v) := by
    unfold translationSlow
    dsimp only
    rw [hw]
    dsimp only
    rw [if_pos hfull, hu, hv]
    rfl
  have hdrop : Keeps [] v (dropWalk (pdie g) w.id v) := keeps_modXltDie v (pdie g) _
  obtain ⟨hrx, hrefuse⟩ := refusePkt_leaves { w.pkt with verdict := 3, reason := 0x7F24 } false (dropWalk (pdie g) w.id v)
  obtain ⟨hmem, -⟩ := hk.trans (hdrop.trans hrefuse)
  dsimp only
  rw [hrun]
  refine ⟨?_, ?_, hmem⟩
  · rw [hrefuse.fld _ _ (by simp [refusalRegs]), hdrop.fld _ _ (by simp), hset]
  · rw [fq_of_xlt hrx, dropWalk_fq, fq_of_xlt hx]

/-- A slow packet enters the fault queue at its end, with its walk. -/
theorem translationSlow_enters (hroom : (s.xltDie (pdie g)).fq.length < 256) : let t := translationSlow g s
    t.fld (dreg .xltErr (pdie g)) XltErr.SLOW = 1 ∧ t.mem = s.mem ∧
      ∃ y, (t.xltDie (pdie g)).fq = (s.xltDie (pdie g)).fq ++ [y] ∧ y.ctx = w.ctx ∧ y.va = w.va ∧ y.walk = some w.id := by
  have hqueued : Keeps [] s (queueWalk (pdie g) w.id s) := keeps_modXltDie s (pdie g) _
  have hset := fld_raiseTied (dreg .xltErr (pdie g)) XltErr.SLOW (s.refOf w.pkt) (queueWalk (pdie g) w.id s)
    ((hqueued.active (by simp) _).trans ha) rfl (by decide)
  have hk := hqueued.trans (keeps_raiseTied (dreg .xltErr (pdie g)) XltErr.SLOW (s.refOf w.pkt) (queueWalk (pdie g) w.id s))
  have hx := raiseTied_xlt (dreg .xltErr (pdie g)) XltErr.SLOW (s.refOf w.pkt) (queueWalk (pdie g) w.id s)
  generalize hv : raiseTied (dreg .xltErr (pdie g)) XltErr.SLOW (s.refOf w.pkt) (queueWalk (pdie g) w.id s) = v at hset hk hx
  have hrun : translationSlow g s = enterFq (pdie g) w.pkt
      { pkts := [], ctx := w.ctx, va := w.va, rd := w.rd, wr := w.wr, walk := some w.id, w0 := w.w0, w1 := w.w1 } v := by
    unfold translationSlow
    dsimp only
    rw [hw]
    dsimp only
    rw [if_neg (by omega), ← hv]
    rfl
  dsimp only
  rw [hrun]
  unfold enterFq
  extract_lets copy r
  obtain ⟨htx, htag⟩ := tagMembers_leaves { w.pkt with fctx := copy } v
  obtain ⟨hmem, -⟩ := hk.trans htag
  have hfq : (r.2.xltDie (pdie g)).fq = (s.xltDie (pdie g)).fq := by rw [fq_of_xlt htx, fq_of_xlt hx, queueWalk_fq]
  refine ⟨?_, hmem, ?_⟩
  · rw [(keeps_modXltDie r.2 (pdie g) _).fld _ _ (by simp), htag.fld _ _ (by simp [refusalRegs]), hset]
  · rw [State.xltDie_modXltDie_same, hfq]
    exact ⟨_, rfl, rfl, rfl, rfl⟩

end Slow

/-! ### The fence and the scrub (05 R181, R193) -/

/-- A fence in force whose time has passed is lifted for its port and TC. -/
theorem fenceExpire_lifts {s : State} {d pp tc : Nat} (ha : s.active d = true) (hf : s.fenceActive (gport d pp) tc (s.newE d) = true) :
    let t := fenceExpire d pp tc s
    t.fld (dreg .tabErr d) TabErr.FENCE = 1 ∧ t.fenceActive (gport d pp) tc (s.newE d) = false ∧ Keeps [.tabErr] s t := by
  unfold fenceExpire
  dsimp only
  rw [if_pos hf]
  generalize hu : s.modTab (fun t => { t with lifted := (gport d pp * 8 + tc, s.newE d) :: t.lifted }) = u
  have hk : Keeps [] s u := hu ▸ keeps_modTab s _
  have hlifted : (gport d pp * 8 + tc, s.newE d) ∈ (raise (dreg .tabErr d) TabErr.FENCE u).tab.lifted := by
    rw [raise_tab, ← hu]; simp
  refine ⟨fld_raise _ _ _ ((hk.active (by simp) d).trans ha) rfl (by decide), ?_, (hk.trans (keeps_raise _ _ _)).mono (by simp)⟩
  unfold State.fenceActive
  simp [hlifted]

/-- A scrub that finds a bad page of a bank notes it in that bank and among those to reload, and sets SCRUB. -/
theorem markPage_notes {s : State} {d : Nat} (p bank c : Nat) (ha : s.active d = true) :
    let t := markPage d p (bank == 0) (raise (dreg .tabErr d) TabErr.SCRUB (s.modTabDie d fun x => { x with corrected := x.corrected + c }))
    t.fld (dreg .tabErr d) TabErr.SCRUB = 1 ∧ (if bank = 0 then p ∈ (t.tabDie d).badNewest else p ∈ (t.tabDie d).badPages) ∧
      p ∈ (t.tabDie d).reload ∧ Keeps [.tabErr] s t := by
  have hk := keeps_modTabDie s d fun x => { x with corrected := x.corrected + c }
  generalize s.modTabDie d (fun x => { x with corrected := x.corrected + c }) = u at hk
  unfold markPage
  dsimp only
  rw [State.tabDie_modTabDie_same]
  refine ⟨fld_raise (dreg .tabErr d) TabErr.SCRUB u ((hk.active (by simp) d).trans ha) rfl (by decide), ?_, mem_addPage .., ?_⟩
  · by_cases hb : bank = 0
    · simpa [hb] using mem_addPage ..
    · simpa [hb] using mem_addPage ..
  · exact (hk.trans ((keeps_raise (dreg .tabErr d) TabErr.SCRUB u).trans (keeps_modTabDie _ d _))).mono (by simp)

/-! ### The statement -/

/-- Settles O17: each of its commands does what the lemma of that command says. -/
theorem retirementReloadAndFence : Obligations.RetirementReloadAndFence := by
  unfold Obligations.RetirementReloadAndFence
  intro s d pp hd hpp ha
  have hg : pdie (gport d pp) = d := pdie_gport d hpp
  have hmem : d ∈ s.activeDies := State.mem_activeDies hd ha
  extract_lets g b x
  have hag : s.active (pdie g) = true := hg.symm ▸ ha
  refine ⟨fun p rest hr hfrom he hnext => ?_, fun ho hdr hu => ⟨_, rfl, epochDrained_reports ho hdr hu⟩,
    fun hflip ho hall hlead => ⟨_, rfl, epochRetire_retires hflip hmem ho hall hlead⟩, fun hs => ⟨fun hother => ?_, fun hall hrun hwait hcheck => ?_⟩,
    fun ho => ⟨_, rfl, ?_⟩, fun p ho hq hold hfull => ?_, fun w hw => ⟨fun hfull => ?_, fun hroom => ?_⟩,
    fun tc hf => ⟨_, rfl, fenceExpire_lifts ha hf⟩, fun c => ⟨_, rfl, if_pos hd⟩, fun c p bank hp => ⟨_, rfl, ?_⟩⟩
  · obtain ⟨hrest, hflit, hnew, hk, hshadow⟩ := pageReloadEnd_reloads hr hfrom he hnext
    refine ⟨_, rfl, hrest, hflit, hnew, hk, fun k hkp => ?_, fun k hkp => ?_⟩
    · rw [hshadow, bankWord_copyPage, if_pos hkp]
    · rw [hshadow, bankWord_copyPage, if_neg hkp]
  · obtain ⟨e, he, hne, hse⟩ := hother
    refine ⟨_, rfl, ?_⟩
    rw [bankSyncEnd_waits hs he hne hse]
    exact ⟨synced_syncing d s, rfl, synced_keeps d s, synced_shadow d s⟩
  · obtain ⟨hold, -⟩ := hall d hmem
    exact ⟨_, rfl, bankSyncEnd_last hs hall hold hrun hwait hcheck⟩
  · unfold restamp
    dsimp only
    rw [hg, if_pos (Option.isNone_iff_eq_none.mpr ho)]
  · have h := restamp_returns (g := g) (by rw [hg]; exact ho) hq (by rw [hg]; exact hold) hfull
    rw [hg] at h
    exact ⟨_, rfl, h⟩
  · have h := translationSlow_full hag (by rw [hg]; exact hw) (by rw [hg]; exact hfull)
    rw [hg] at h
    exact ⟨_, rfl, h⟩
  · have h := translationSlow_enters hag (by rw [hg]; exact hw) (by rw [hg]; exact hroom)
    rw [hg] at h
    exact ⟨_, rfl, h⟩
  · rw [if_pos hd]
    dsimp only
    rw [if_pos hp]
    exact markPage_notes p bank c ha

end Sys2Proof.Machine
end

section
/-! SUPPORT. What the operations beside the tables leave of them: cells and packets that the part originates, instances, virtual ports, the recorder
and ports that enter DETECT keep the tables, what waits for a die that is out of step, and every register but those of some names
(05 R183, R185; 06 R204, R205; 07 R249; 08 R298; 17 R608 to R616). -/

namespace Sys2Proof.Machine

/-! ### The tables and what waits for them -/

/-- The registers that a flip writes, but for the state of its die. -/
def flipRegs : List RegName := [.tabCnt, .tabErr, .xltErr, .parErr, .schPxrec, .recStat, .recSptr, .recErr, .linkStat]

@[simp] theorem mem_flipRegs : RegName.tabCnt ∈ flipRegs ∧ RegName.tabErr ∈ flipRegs ∧ RegName.xltErr ∈ flipRegs ∧ RegName.parErr ∈ flipRegs ∧
    RegName.schPxrec ∈ flipRegs ∧ RegName.recStat ∈ flipRegs ∧ RegName.recSptr ∈ flipRegs ∧ RegName.recErr ∈ flipRegs ∧
    RegName.linkStat ∈ flipRegs := by decide

/-- What waits for dies that are out of step, the tables, and every register but those that a flip writes. -/
def State.tables (s : State) : (Nat → List (Nat × Pkt)) × TabSt × (Reg → Word) :=
  (fun d => (s.bufDie d).spanWait, s.tab, fun r => if r.name ∈ flipRegs then 0 else s.reg r)

theorem State.tables_congr {s t : State} (hw : ∀ d, (t.bufDie d).spanWait = (s.bufDie d).spanWait) (ht : t.tab = s.tab)
    (hr : ∀ r : Reg, r.name ∉ flipRegs → t.reg r = s.reg r) : t.tables = s.tables := by
  refine Prod.ext (funext hw) (Prod.ext ht (funext fun r => ?_))
  unfold State.tables
  by_cases hn : r.name ∈ flipRegs
  · simp [hn]
  · simp [hn, hr r hn]

section Reading
variable {s t : State} (h : t.tables = s.tables)
include h

theorem spanWait_of_tables (d : Nat) : (t.bufDie d).spanWait = (s.bufDie d).spanWait := (congrArg (fun x => x.1 d) h :)
theorem tab_of_tables : t.tab = s.tab := (congrArg (fun x => x.2.1) h :)

theorem reg_of_tables (r : Reg) (hr : r.name ∉ flipRegs) : t.reg r = s.reg r := by
  have hreg : (if r.name ∈ flipRegs then (0 : Word) else t.reg r) = if r.name ∈ flipRegs then 0 else s.reg r := (congrArg (fun x => x.2.2 r) h :)
  rwa [if_neg hr, if_neg hr] at hreg

end Reading

/-! ### One update -/

section Updates
variable (s : State)

@[simp] theorem State.tables_setReg {r : Reg} (v : Word) (h : r.name ∈ flipRegs) : (s.setReg r v).tables = s.tables :=
  State.tables_congr (fun _ => rfl) rfl fun _ hq => s.reg_setReg_ne v fun e => hq (e ▸ h)

@[simp] theorem State.tables_setFld {r : Reg} (f : Field) (v : Nat) (h : r.name ∈ flipRegs) : (s.setFld r f v).tables = s.tables :=
  s.tables_setReg _ h

@[simp] theorem State.tables_count {r : Reg} (f : Field) (n : Nat) (h : r.name ∈ flipRegs) : (s.count r f n).tables = s.tables :=
  s.tables_setReg _ h

@[simp] theorem State.tables_modLink (d i : Nat) (f : LinkSt → LinkSt) : (s.modLink d i f).tables = s.tables := rfl
@[simp] theorem State.tables_modFlt (f : FltSt → FltSt) : (s.modFlt f).tables = s.tables := rfl
@[simp] theorem State.tables_modQueue (g q : Nat) (f : List Pkt → List Pkt) : (s.modQueue g q f).tables = s.tables := rfl
@[simp] theorem State.tables_modFlow (n : Nat) (f : FlowSt → FlowSt) : (s.modFlow n f).tables = s.tables := rfl
@[simp] theorem State.tables_modVport (n k : Nat) (f : VpSt → VpSt) : (s.modVport n k f).tables = s.tables := rfl
@[simp] theorem State.tables_modXltDie (d : Nat) (f : XltDie → XltDie) : (s.modXltDie d f).tables = s.tables := rfl
@[simp] theorem State.tables_modRec (d : Nat) (f : RecDie → RecDie) : (s.modRec d f).tables = s.tables := rfl

@[simp] theorem State.tables_modBufDie (d : Nat) {f : BufDie → BufDie} (h : (f (s.bufDie d)).spanWait = (s.bufDie d).spanWait) :
    (s.modBufDie d f).tables = s.tables := by
  refine State.tables_congr (fun e => ?_) rfl fun _ _ => rfl
  rw [State.bufDie_modBufDie]
  split
  · rename_i he; rw [he, h]
  · rfl

@[simp] theorem State.tables_modCell (d c : Nat) (f : CellRec → CellRec) : (s.modCell d c f).tables = s.tables := s.tables_modBufDie d rfl

@[simp] theorem raise_tables (r : Reg) (f : Field) (h : r.name ∈ flipRegs) : (raise r f s).tables = s.tables := by
  unfold raise
  rcases raiseFault_cases { reg := r, bit := f.lo } s with ⟨he, -⟩ | ⟨-, he⟩ <;> simp [he, h]

@[simp] theorem tables_ite (c : Prop) [Decidable c] (t : State) : (if c then s else t).tables = if c then s.tables else t.tables :=
  apply_ite ..

@[simp] theorem State.tables_forAll {α : Type} {f : α → State → State} (h : ∀ a t, (f a t).tables = t.tables) (l : List α) :
    (s.forAll l f).tables = s.tables := s.forAll_keeps State.tables f h l

@[simp] theorem tables_foldl {α : Type} {f : State → α → State} (h : ∀ t a, (f t a).tables = t.tables) (l : List α) :
    (l.foldl f s).tables = s.tables := s.tables_forAll (f := fun a t => f t a) (fun a t => h t a) l

end Updates

/-! ### Cells and packets (06 R204, R205) -/

section Cells
variable (d c : Nat) (s : State)

@[simp] theorem leaveLedger_tables : (leaveLedger d c s).tables = s.tables := by unfold leaveLedger returnCredits; split <;> simp

@[simp] theorem freeCell_tables : (freeCell d c s).tables = s.tables := by unfold freeCell; simp

@[simp] theorem sealCell_tables (w : Writer) : (sealCell d w s).tables = s.tables := by unfold sealCell; split <;> simp

variable {d s} {w : Writer} {hint : Nat}

theorem drawCell_tables {x : Nat × State} (h : drawCell d w hint s = some x) : x.2.tables = s.tables := by
  unfold drawCell at h
  extract_lets o take at h
  have htake : ∀ c u, (take c u).2.tables = u.tables := by
    intro c u
    simp only [take]
    rw [State.tables_modBufDie _ _ rfl, State.tables_modCell]
    split <;> simp
  split at h
  · cases h
  · split at h <;> cases h <;> simp [htake]

theorem writeRecord_tables {fuel : Nat} {bs : List Byte} {x : List Nat × State} (h : writeRecord d w hint fuel bs s = some x) :
    x.2.tables = s.tables := by
  induction fuel generalizing bs s x with
  | zero => cases h; rfl
  | succ fuel ih =>
    unfold writeRecord at h
    extract_lets fit at h
    have hfit : ∀ c u, fit c u = some x → x.2.tables = u.tables := by
      intro c u hy
      simp only [fit] at hy
      split at hy
      · cases hy
      · rename_i hrest; cases hy; simpa using ih hrest
    have hdrawn : (match drawCell d w hint s with | none => none | some (c', s') => fit c' s') = some x → x.2.tables = s.tables := by
      cases hdraw : drawCell d w hint s with
      | none => exact fun hy => by cases hy
      | some y => exact fun hy => (hfit _ _ hy).trans (drawCell_tables hdraw)
    split at h
    · cases h; rfl
    · split at h
      · split at h
        · split at h
          · exact hfit _ _ h
          · cases h
        · exact hdrawn h
      · exact hdrawn h

end Cells

@[simp] theorem originate_tables (g : Nat) (t : Tlp) (s : State) : (originate g t s).tables = s.tables := by
  unfold originate
  dsimp only
  split
  · rfl
  · split
    · simp
    · cases hplace : placeControl g t s with
      | none => simp
      | some u =>
        unfold placeControl at hplace
        obtain ⟨x, hx, rfl⟩ := Option.map_eq_some_iff.mp hplace
        simpa using writeRecord_tables hx

/-! ### Instances, virtual ports and links (07 R249; 08 R298) -/

section Ends
variable (s : State)

@[simp] theorem endPx_tables (n : Nat) : (endPx n s).tables = s.tables := by unfold endPx pxrec; simp

@[simp] theorem flowFlip_tables (n : Nat) (was now : FlowCtx) (e : Nat) : (flowFlip n was now e s).tables = s.tables := by unfold flowFlip; simp

@[simp] theorem vpEvent_tables (n k : Nat) (bits : List Nat) : (vpEvent n k bits s).tables = s.tables := by
  have hmsi : ∀ u, (vpMsi n k u).tables = u.tables := by
    intro u
    unfold vpMsi
    dsimp only
    split
    · simp
    · rfl
  unfold vpEvent
  simp [hmsi]

@[simp] theorem sealPort_tables (g : Nat) : (sealPort g s).tables = s.tables := by unfold sealPort; simp

@[simp] theorem unbindPorts_tables (d oldE newE : Nat) : (unbindPorts d oldE newE s).tables = s.tables := by unfold unbindPorts; simp

@[simp] theorem flipGens_tables (d : Nat) (old now : FMap Nat Word) (oldE newE : Nat) : (flipGens d old now oldE newE s).tables = s.tables := by
  unfold flipGens; simp

@[simp] theorem enterDetect_retrain_tables (d pp : Nat) : (enterDetect d pp false s).tables = s.tables := by
  unfold enterDetect setLinkState; simp

end Ends

/-! ### The recorder (17 R608 to R616) -/

section Recorder
variable (d : Nat) (s : State)

@[simp] theorem putSeg_tables (seg off : Nat) (bs : List Byte) : (putSeg d seg off bs s).tables = s.tables := rfl

@[simp] theorem closeSeg_tables (o : OpenSeg) : (closeSeg d o s).tables = s.tables := by unfold closeSeg; simp

@[simp] theorem streamSeg_tables (seg owner : Nat) : (streamSeg d seg owner s).tables = s.tables := by
  unfold streamSeg
  dsimp only
  split
  · rfl
  · split
    · simp
    · split <;> simp

@[simp] theorem freeze_tables : (freeze d s).tables = s.tables := by unfold freeze freezeAll; simp

@[simp] theorem sealSeg_tables (ch owner : Nat) : (sealSeg d ch owner s).tables = s.tables := by
  unfold sealSeg
  split
  · rfl
  · simp

@[simp] theorem writeRec_tables (ch owner : Nat) (o : OpenSeg) (r : RecBody) : (writeRec d ch owner o r s).tables = s.tables := by
  unfold writeRec; simp

variable {d s}

theorem takeSeg_tables {ch owner : Nat} {x : OpenSeg × State} (h : takeSeg d ch owner s = some x) : x.2.tables = s.tables := by
  unfold takeSeg at h
  split at h
  · cases h
  · split at h
    · cases h
    · extract_lets seq s1 head s2 at h
      have h1 : s1.tables = s.tables := rfl
      cases h
      simp [s2, h1]

theorem placeRec_tables {ch owner : Nat} {r : RecBody} {t : State} (h : placeRec d ch owner r s = some t) : t.tables = s.tables := by
  unfold placeRec at h
  extract_lets need go at h
  have hgo : ∀ u, go u = some t → t.tables = u.tables := by
    intro u hu
    simp only [go] at hu
    split at hu
    · cases hu
    · rename_i hseg; cases hu; simpa using takeSeg_tables hseg
  split at h
  · split at h
    · simpa using hgo _ h
    · split at h
      · cases h; simp
      · simpa using hgo _ h
  · exact hgo _ h

variable (d s)

@[simp] theorem drainStaged_tables (n : Nat) : (drainStaged d n s).tables = s.tables := by
  induction n generalizing s with
  | zero => rfl
  | succ n ih =>
    unfold drainStaged
    split
    · rfl
    · split
      · rfl
      · rename_i hrec; simpa [ih] using placeRec_tables hrec

@[simp] theorem recFlip_tables (e : Nat) : (recFlip d e s).tables = s.tables := by
  unfold recFlip recCtrl; split <;> simp

end Recorder

end Sys2Proof.Machine
end

section
/-! SUPPORT. The flip of a die, and the CAPO flit that brings it (05 R183, R185). -/

namespace Sys2Proof.Machine

/-! ### Die states (01 R26) -/

/-- The code of a die after the code of one was set. -/
theorem getBits_dieState (w : Word) {d e v : Nat} (hd : d < 16) (hv : v < 16) :
    getBits (setBits w (4 * d + 3) (4 * d) v) (4 * e + 3) (4 * e) = if e = d then v else getBits w (4 * e + 3) (4 * e) := by
  split
  · rename_i he
    rw [he, getBits_setBits_same _ _ _ _ (by omega) (by omega), show 4 * d + 3 + 1 - 4 * d = 4 by omega]
    exact Nat.mod_eq_of_lt hv
  · exact getBits_setBits_other _ _ _ _ _ _ (by omega) (by omega) (by omega)

theorem State.dieState_setDieState (s : State) {d v : Nat} (e : Nat) (hd : d < 16) (hv : v < 16) :
    (s.setDieState d v).dieState e = if e = d then v else s.dieState e := by
  unfold State.dieState State.setDieState
  rw [State.reg_setReg_same, getBits_dieState _ hd hv]

theorem Keeps.dieState {ns : List RegName} {s t : State} (h : Keeps ns s t) (hn : .partDieState ∉ ns) (d : Nat) : t.dieState d = s.dieState d := by
  unfold State.dieState
  rw [h.reg _ hn]

theorem keeps_setDieState (s : State) (d v : Nat) : Keeps [.partDieState] s (s.setDieState d v) := keeps_setReg s partDieState _

/-! ### The flip (05 R183) -/

/-- The new bank of a die that flips: its shadow bank, with the epoch in word 0. -/
def flipBank (d : Nat) (s : State) : FMap Nat Word :=
  (s.tabDie d).shadow.set 0 (setBits (bankWord (s.tabDie d).shadow 0) 47 32 s.tab.capoE)

/-- A die's bank record after its flip to a bank: the former newest bank is the older one, and the next shadow bank. -/
def TabDie.flip (bank : FMap Nat Word) (e time : Nat) (x : TabDie) : TabDie :=
  { x with older := some x.newest, oldE := x.newE, newest := bank, newE := e, shadow := x.newest, flipAt := time,
           badPages := x.badNewest, badNewest := x.badPages }

/-- The state in which a die's banks have flipped and its code is ACTIVE. -/
def State.flipped (d : Nat) (s : State) : State :=
  ((s.modTabDie d (TabDie.flip (flipBank d s) s.tab.capoE (s.meridian d))).count (dreg .tabCnt d) TabCnt.FLIPS 1).setDieState d 3

theorem flipped_tabDie (d : Nat) (s : State) : (s.flipped d).tabDie d = (s.tabDie d).flip (flipBank d s) s.tab.capoE (s.meridian d) :=
  State.tabDie_modTabDie_same ..

theorem keeps_flowFlip (n : Nat) (was now : FlowCtx) (e : Nat) (s : State) : Keeps [.schPxrec] s (flowFlip n was now e s) := by
  have hpx : Keeps [.schPxrec] s (endPx n s) := by
    unfold endPx
    dsimp only
    split
    · exact Keeps.refl _ _
    · exact ((keeps_setReg s _ _).trans (keeps_modSch _ _)).mono (by simp [pxrec])
  unfold flowFlip
  split
  · exact (hpx.trans (keeps_modSch _ _)).mono (by simp)
  · exact Keeps.refl _ _

theorem sealPort_wires (g : Nat) (s : State) : (sealPort g s).wires = s.wires := by unfold sealPort; simp

theorem unbindPorts_wires (d oldE newE : Nat) (s : State) : (unbindPorts d oldE newE s).wires = s.wires := by unfold unbindPorts; simp

theorem enterDetect_retrain_mem (d pp : Nat) (s : State) : (enterDetect d pp false s).mem = s.mem := by
  unfold enterDetect setLinkState
  split <;> rfl

/-- The fault sources that a die sets for what its new bank holds. -/
def flipSources (d e : Nat) (now : FMap Nat Word) (s : State) : State :=
  let s3 := if anyDescBad now then raise (dreg .tabErr d) TabErr.DESC s else s
  let s4 := if s3.anyCtxBad d e then raise (dreg .xltErr d) XltErr.BADCTX s3 else s3
  let s5 := if s4.anyBindingBad d e then raise (dreg .parErr d) ParErr.BINDING s4 else s4
  if s5.anyDual d e then raise (dreg .parErr d) ParErr.DUAL s5 else s5

/-- The contexts, flow contexts and ports of a die follow its new bank. -/
def flipUnits (d e : Nat) (t : TabDie) (now : FMap Nat Word) (s : State) : State :=
  let s7 := flipGens d t.newest now t.newE e s
  let s8 := (flowKeys d t.newest now).foldl (fun u n => flowFlip n (u.flowCtx d t.newE n) (u.flowCtx d e n) e u) s7
  unbindPorts d t.newE e (s8.forAll (List.range 16) fun pp => fun u =>
    if u.portOwner d t.newE (gport d pp) = u.portOwner d e (gport d pp) then u else sealPort (gport d pp) u)

/-- The records that waited for the flip of a die are taken. -/
def flipLate (d : Nat) (s : State) : State :=
  (s.bufDie d).spanWait.foldl (fun u x => if u.hasTag x.2 then u else takeRecord d x.1 x.2 0 u) (s.modBufDie d fun b => { b with spanWait := [] })

/-- The ports of a die that rejoined train. -/
def flipTrains (d : Nat) (rejoining : List Nat) (s : State) : State :=
  if d ∈ rejoining then (s.modFlt fun x => { x with rejoining := x.rejoining.erase d }).forAll (List.range 16) fun pp => enterDetect d pp false
  else s

theorem flipDie_eq (d : Nat) (s : State) : flipDie d s =
    flipTrains d s.flt.rejoining (flipLate d (recFlip d s.tab.capoE
      (flipUnits d s.tab.capoE (s.tabDie d) (flipBank d s) (flipSources d s.tab.capoE (flipBank d s) (s.flipped d))))) := rfl

theorem flipSources_leaves (d e : Nat) (now : FMap Nat Word) (s : State) :
    (flipSources d e now s).tables = s.tables ∧ Keeps [.tabErr, .xltErr, .parErr] s (flipSources d e now s) := by
  have hraise : ∀ (c : Prop) [Decidable c] n f (u : State), n ∈ flipRegs → n ∈ [RegName.tabErr, .xltErr, .parErr] →
      u.tables = s.tables ∧ Keeps [.tabErr, .xltErr, .parErr] s u →
      (if c then raise (dreg n d) f u else u).tables = s.tables ∧ Keeps [.tabErr, .xltErr, .parErr] s (if c then raise (dreg n d) f u else u) := by
    intro c _ n f u hn hm hu
    split
    · exact ⟨(raise_tables u _ f hn).trans hu.1, (hu.2.trans (keeps_raise (dreg n d) f u)).mono fun k hk => by
        rcases List.mem_append.mp hk with hk | hk
        · exact hk
        · rw [List.mem_singleton.mp hk]; exact hm⟩
    · exact hu
  unfold flipSources
  extract_lets s3 s4 s5
  have h3 := hraise (anyDescBad now = true) .tabErr TabErr.DESC s (by simp) (by simp) ⟨rfl, Keeps.refl _ s⟩
  have h4 := hraise (s3.anyCtxBad d e = true) .xltErr XltErr.BADCTX s3 (by simp) (by simp) h3
  have h5 := hraise (s4.anyBindingBad d e = true) .parErr ParErr.BINDING s4 (by simp) (by simp) h4
  exact hraise (s5.anyDual d e = true) .parErr ParErr.DUAL s5 (by simp) (by simp) h5

theorem flipUnits_leaves (d e : Nat) (t : TabDie) (now : FMap Nat Word) (s : State) :
    (flipUnits d e t now s).tables = s.tables ∧ Keeps (.schPxrec :: packetRegs) s (flipUnits d e t now s) := by
  unfold flipUnits
  extract_lets s7 s8
  have h7 : Keeps [] s s7 := keeps_modXltDie s d _
  have h8 : s8.tables = s.tables ∧ Keeps [.schPxrec] s7 s8 := ⟨(tables_foldl s7 (fun _ _ => flowFlip_tables ..) _).trans (flipGens_tables ..),
    keeps_forAll (fun n u => flowFlip n (u.flowCtx d t.newE n) (u.flowCtx d e n) e u) (fun _ _ => keeps_flowFlip ..) s7 _⟩
  generalize s8 = u at h8
  have hports : ∀ pp (v : State), (if v.portOwner d t.newE (gport d pp) = v.portOwner d e (gport d pp) then v else sealPort (gport d pp) v).wires =
      v.wires ∧ (if v.portOwner d t.newE (gport d pp) = v.portOwner d e (gport d pp) then v else sealPort (gport d pp) v).tables = v.tables := by
    intro pp v
    split
    · exact ⟨rfl, rfl⟩
    · exact ⟨sealPort_wires .., sealPort_tables ..⟩
  refine ⟨?_, ?_⟩
  · rw [unbindPorts_tables, State.tables_forAll _ fun pp v => (hports pp v).2]
    exact h8.1
  · have hwires := (unbindPorts_wires d t.newE e _).trans (State.wires_forAll (fun pp v => (hports pp v).1) (List.range 16) u)
    exact (h7.trans (h8.2.trans (keeps_of_wires hwires))).mono (by simp)

theorem flipLate_none {d : Nat} {s : State} (hw : (s.bufDie d).spanWait = []) : (flipLate d s).tables = s.tables ∧ (flipLate d s).mem = s.mem := by
  unfold flipLate
  rw [hw]
  exact ⟨State.tables_modBufDie s d hw.symm, rfl⟩

theorem flipTrains_leaves (d : Nat) (l : List Nat) (s : State) : (flipTrains d l s).tables = s.tables ∧ (flipTrains d l s).mem = s.mem := by
  unfold flipTrains
  split
  · exact ⟨State.tables_forAll _ (fun _ _ => enterDetect_retrain_tables ..) _, (State.forAll_keeps State.mem (fun pp => enterDetect d pp false)
      (fun _ _ => enterDetect_retrain_mem ..) _ _).trans rfl⟩
  · exact ⟨rfl, rfl⟩

theorem flipped_keeps (d : Nat) (s : State) : Keeps [.tabCnt, .partDieState] s (s.flipped d) :=
  ((keeps_modTabDie s d _).trans ((keeps_count _ (dreg .tabCnt d) _ _).trans (keeps_setDieState _ d 3))).mono (by simp)

/-- Where no record waits for a die's flip, the flip leaves the tables, and the registers but its own, as they are when the banks have flipped; the
memories too, while the die's recorder does not run. -/
theorem flipDie_leaves {s : State} {d : Nat} (hw : (s.bufDie d).spanWait = []) :
    (flipDie d s).tables = (s.flipped d).tables ∧ (s.recState d = 0 → (flipDie d s).mem = s.mem) := by
  rw [flipDie_eq]
  obtain ⟨hs, hsk⟩ := flipSources_leaves d s.tab.capoE (flipBank d s) (s.flipped d)
  generalize flipSources d s.tab.capoE (flipBank d s) (s.flipped d) = v at hs hsk
  obtain ⟨hu, huk⟩ := flipUnits_leaves d s.tab.capoE (s.tabDie d) (flipBank d s) v
  generalize flipUnits d s.tab.capoE (s.tabDie d) (flipBank d s) v = u at hu huk
  have hrec : (recFlip d s.tab.capoE u).tables = (s.flipped d).tables := (recFlip_tables ..).trans (hu.trans hs)
  obtain ⟨hl, hlm⟩ := flipLate_none ((spanWait_of_tables hrec d).trans hw)
  obtain ⟨ht, htm⟩ := flipTrains_leaves d s.flt.rejoining (flipLate d (recFlip d s.tab.capoE u))
  refine ⟨ht.trans (hl.trans hrec), fun h0 => ?_⟩
  have hk := (flipped_keeps d s).trans (hsk.trans huk)
  have hidle : u.recState d = 0 := (hk.fld _ _ (by simp [packetRegs])).trans h0
  have hoff : recFlip d s.tab.capoE u = u := by unfold recFlip recCtrl; rw [if_neg (by simp [hidle])]
  rw [htm, hlm, hoff]
  exact hk.1

/-! ### A CAPO flit (05 R185) -/

/-- What the flip of a die by the running capo does while others have yet to flip: the die's new bank is the newest and its former newest bank the
older one, the die is ACTIVE and no longer among those to flip, and beside it the registers of a flip alone are written. -/
structure Flips (d : Nat) (s t : State) : Prop where
  newE : t.newE d = s.tab.capoE
  older : (t.tabDie d).older = some (s.tabDie d).newest
  newest : (t.tabDie d).newest = flipBank d s
  toFlip : t.tab.toFlip = s.tab.toFlip.erase d
  flits : t.tab.flits = s.tab.flits.erase d
  regs : ∀ r : Reg, r.name ∉ flipRegs → r ≠ partDieState → t.reg r = s.reg r
  states : ∀ e, t.dieState e = if e = d then 3 else s.dieState e
  mem : s.recState d = 0 → t.mem = s.mem

theorem capoFlip_flips {s : State} {d : Nat} (hd : d < 16) (hmem : d ∈ s.tab.toFlip) (hrest : s.tab.toFlip.erase d ≠ [])
    (hw : (s.bufDie d).spanWait = []) : Flips d s (capoFlip d s) := by
  obtain ⟨ht, hm⟩ := flipDie_leaves hw
  have htab : (flipDie d s).tab = (s.flipped d).tab := tab_of_tables ht
  have hrun : capoFlip d s = (flipDie d s).modTab fun t => { t with toFlip := t.toFlip.erase d, flits := t.flits.erase d } := by
    have htoFlip : (flipDie d s).tab.toFlip = s.tab.toFlip := (congrArg TabSt.toFlip htab).trans rfl
    unfold capoFlip
    rw [if_pos hmem]
    dsimp only
    rw [if_neg]
    rw [State.modTab_tab, htoFlip]
    simpa using hrest
  have hbank : (capoFlip d s).tabDie d = (s.tabDie d).flip (flipBank d s) s.tab.capoE (s.meridian d) := by
    rw [hrun, ← flipped_tabDie]; exact tabDie_of_tab htab d
  have hreg : ∀ r : Reg, r.name ∉ flipRegs → (capoFlip d s).reg r = (s.flipped d).reg r := fun r hr => by
    rw [hrun, State.reg_modTab, reg_of_tables ht r hr]
  refine ⟨?_, ?_, ?_, ?_, ?_, fun r hr hne => ?_, fun e => ?_, fun h0 => by rw [hrun]; exact hm h0⟩
  · unfold State.newE; rw [hbank]; rfl
  · rw [hbank]; rfl
  · rw [hbank]; rfl
  · rw [hrun, State.modTab_tab, htab]; rfl
  · rw [hrun, State.modTab_tab, htab]; rfl
  · have hcount : r ≠ dreg .tabCnt d := fun he => hr (he ▸ by simp)
    rw [hreg r hr]
    exact (State.reg_setReg_ne _ _ hne).trans (State.reg_setReg_ne _ _ hcount)
  · have hcode : (capoFlip d s).dieState e = (s.flipped d).dieState e := by
      unfold State.dieState; rw [hreg _ (by decide)]
    rw [hcode]
    unfold State.flipped
    rw [State.dieState_setDieState _ e hd (by decide)]
    split
    · rfl
    · exact ((keeps_modTabDie s d _).trans (keeps_count _ (dreg .tabCnt d) _ _)).dieState (by simp) e

/-- Every word of the new bank but the first is that of the shadow bank. -/
theorem bankWord_flipBank {k : Nat} (hk : k ≠ 0) (d : Nat) (s : State) : bankWord (flipBank d s) k = bankWord (s.tabDie d).shadow k := by
  unfold flipBank
  rw [bankWord_set, if_neg hk]

end Sys2Proof.Machine
end

section
/-! SUPPORT. Staging writes, GO, and the step of a capo that compares and flips, and the statement that they meet
(05 R168, R169, R182, R183, R185, R189). -/

namespace Sys2Proof.Machine

/-! ### Loops over the dies of a list -/

theorem State.forAll_of_mem {α : Type} {P : State → Prop} {f : α → State → State} {l : List α} (h : ∀ a ∈ l, ∀ t, P t → P (f a t)) {s : State}
    (hs : P s) : P (s.forAll l f) :=
  List.foldlRecOn (motive := P) l _ hs fun t ht a ha => h a ha t ht

/-- What the turn of an element gives and every other turn keeps holds after the loop. -/
theorem State.forAll_gives {α : Type} {Q : State → Prop} {f : α → State → State} {l : List α} {a : α} (ha : a ∈ l) (hgive : ∀ t, Q (f a t))
    (hkeep : ∀ b ∈ l, ∀ t, Q t → Q (f b t)) (s : State) : Q (s.forAll l f) := by
  obtain ⟨l1, l2, rfl⟩ := List.append_of_mem ha
  have hsplit : s.forAll (l1 ++ a :: l2) f = (f a (s.forAll l1 f)).forAll l2 f := by simp [State.forAll]
  rw [hsplit]
  exact State.forAll_of_mem (fun b hb => hkeep b (by simp [hb])) (hgive _)

/-! ### Steps 3 and 4 of a capo (05 R183) -/

/-- The turn of a die in the comparison: a CAPO flit, or the reload of its pages. -/
def compareDie (d : Nat) (t : State) : State :=
  if (t.mismatch d).isEmpty then sendCapoFlit d t
  else raise (dreg .tabErr d) TabErr.DIGEST ((t.modTabDie d fun x => { x with reload := t.mismatch d }).setDieState d 4)

/-- What the comparison of dies other than `l` leaves. -/
structure Compares (l : Nat) (s t : State) : Prop where
  keeps : Keeps [.tabErr, .partDieState] s t
  buf : t.buf = s.buf
  lead : t.tabDie l = s.tabDie l
  toFlip : t.tab.toFlip = s.tab.toFlip
  capoE : t.tab.capoE = s.tab.capoE

theorem raise_buf (r : Reg) (f : Field) (s : State) : (raise r f s).buf = s.buf := by
  unfold raise
  rcases raiseFault_cases { reg := r, bit := f.lo } s with ⟨he, -⟩ | ⟨-, he⟩ <;> simp [he]

theorem compareDie_compares {d l : Nat} (hne : d ≠ l) {s t : State} (h : Compares l s t) : Compares l s (compareDie d t) := by
  obtain ⟨hk, hb, hl, hf, he⟩ := h
  unfold compareDie
  split
  · obtain ⟨hsend, hbuf, htab⟩ := sendCapoFlit_sends d t
    refine ⟨(hk.trans hsend).mono (by simp), hbuf.trans hb, ?_, ?_, ?_⟩
    · rw [← hl]; unfold State.tabDie; rw [htab]
    · rw [htab, ← hf]
    · rw [htab, ← he]
  · have hstep : Keeps [.partDieState] t ((t.modTabDie d fun x => { x with reload := t.mismatch d }).setDieState d 4) :=
      ((keeps_modTabDie t d _).trans (keeps_setDieState _ d 4)).mono (by simp)
    refine ⟨(hk.trans (hstep.trans (keeps_raise _ _ _))).mono (by simp), (raise_buf ..).trans hb, ?_, ?_, ?_⟩
    · have hcode : ∀ u : State, (u.setDieState d 4).tabDie l = u.tabDie l := fun _ => rfl
      rw [tabDie_of_tab (raise_tab ..), ← hl, hcode]
      exact (State.tabDie_modTabDie t d l _).trans (if_neg hne.symm)
    · rw [raise_tab, ← hf]; rfl
    · rw [raise_tab, ← he]; rfl

/-- Whether a die of the comparison has a CAPO flit coming or is out of step. -/
def State.called (x : Nat) (s : State) : Prop := x ∈ s.tab.flits ∨ s.dieState x = 4

theorem compareDie_called {d : Nat} (hd : d < 16) (t : State) : (compareDie d t).called d := by
  unfold compareDie
  split
  · left; rw [(sendCapoFlit_sends d t).2.2]; simp
  · right
    rw [(keeps_raise (dreg .tabErr d) TabErr.DIGEST _).dieState (by simp), State.dieState_setDieState _ d hd (by decide), if_pos rfl]

theorem compareDie_keeps_called {d : Nat} (x : Nat) (hd : d < 16) {t : State} (h : t.called x) : (compareDie d t).called x := by
  unfold compareDie
  split
  · obtain ⟨hk, -, htab⟩ := sendCapoFlit_sends d t
    refine h.imp (fun hx => ?_) fun hx => (hk.dieState (by simp) x).trans hx
    rw [htab]
    by_cases hxd : x = d
    · simp [hxd]
    · simp [(List.mem_erase_of_ne hxd).mpr hx]
  · refine h.imp (fun hx => by rw [raise_tab]; exact hx) fun hx => ?_
    rw [(keeps_raise (dreg .tabErr d) TabErr.DIGEST _).dieState (by simp), State.dieState_setDieState _ x hd (by decide)]
    split
    · rfl
    · exact ((keeps_modTabDie t d _).dieState (by simp) x).trans hx

/-- Where no version differs, the other dies are compared in turn and the lead die flips. -/
theorem capoCompare_eq {s : State} (hver : ∀ x, x ∈ s.tab.toFlip → s.sameVersion x = true) : capoCompare s =
    let v := s.forAll (s.tab.toFlip.filter fun d => d != s.lead) compareDie
    capoFlip s.lead (v.setFld { name := .partEpoch } PartEpoch.NEW v.tab.capoE) := by
  unfold capoCompare
  extract_lets off s1 others v
  have hoff : off = [] := List.filter_eq_nil_iff.mpr fun x hx => by simp [hver x hx]
  have hs1 : s1 = s := by
    simp only [s1, State.modTab, hoff, List.append_nil, List.filter_eq_self.mpr hver]
  have hv : v = s.forAll (s.tab.toFlip.filter fun d => d != s.lead) compareDie := by
    simp only [v, others, hs1]
    rfl
  rw [hv, hs1]

section Tick
variable {s : State} (hver : ∀ x, x ∈ s.tab.toFlip → s.sameVersion x = true) (hdies : ∀ x, x ∈ s.tab.toFlip → x < 16)
  (hlead : s.lead ∈ s.tab.toFlip) (hrest : s.tab.toFlip.erase s.lead ≠ []) (hw : (s.bufDie s.lead).spanWait = [])
include hver hdies hlead hrest hw

/-- The lead die flips to the capo's epoch, which PART.EPOCH.NEW shows, and every other die is called to it or out of step. -/
theorem capoCompare_flips : let u := capoCompare s
    u.newE s.lead = s.tab.capoE ∧ u.fld { name := .partEpoch } PartEpoch.NEW = s.tab.capoE % 65536 ∧
      (u.tabDie s.lead).older = some (s.tabDie s.lead).newest ∧ (∀ x, x ∈ s.tab.toFlip → x ≠ s.lead → x ∈ u.tab.flits ∨ u.dieState x = 4) ∧
      (s.recState s.lead = 0 → u.mem = s.mem) := by
  dsimp only
  rw [capoCompare_eq hver]
  dsimp only
  generalize hv : s.forAll (s.tab.toFlip.filter fun d => d != s.lead) compareDie = v
  have hother : ∀ d ∈ s.tab.toFlip.filter (fun d => d != s.lead), d ≠ s.lead ∧ d < 16 := fun d hd => by
    rw [List.mem_filter] at hd
    exact ⟨by simpa using hd.2, hdies d hd.1⟩
  obtain ⟨hk, hbuf, hdie, hflip, he⟩ : Compares s.lead s v :=
    hv ▸ State.forAll_of_mem (fun d hd t ht => compareDie_compares (hother d hd).1 ht) ⟨Keeps.refl _ s, rfl, rfl, rfl, rfl⟩
  have hcalled : ∀ x, x ∈ s.tab.toFlip → x ≠ s.lead → v.called x := fun x hx hne =>
    hv ▸ State.forAll_gives (List.mem_filter.mpr ⟨hx, by simpa using hne⟩) (compareDie_called (hdies x hx))
      (fun d hd t => compareDie_keeps_called x (hother d hd).2) s
  generalize hn : v.setFld { name := .partEpoch } PartEpoch.NEW v.tab.capoE = n
  have hkn : Keeps [.partEpoch] v n := hn ▸ keeps_setFld v { name := .partEpoch } _ _
  have htab : n.tab = v.tab := by rw [← hn]; rfl
  have hnbuf : n.bufDie s.lead = s.bufDie s.lead := by
    have h : n.buf = s.buf := by rw [← hn]; exact hbuf
    unfold State.bufDie; rw [h]
  obtain ⟨hnew, holder, -, -, hflits, hregs, hstates, hmem⟩ := capoFlip_flips (s := n) (d := s.lead) (hdies _ hlead) (by rw [htab, hflip]; exact hlead)
    (by rw [htab, hflip]; exact hrest) (by rw [hnbuf]; exact hw)
  refine ⟨by rw [hnew, htab, he], ?_, by rw [holder, tabDie_of_tab htab, hdie], fun x hx hne => ?_, fun h0 => ?_⟩
  · have hfld : (capoFlip s.lead n).fld { name := .partEpoch } PartEpoch.NEW = n.fld { name := .partEpoch } PartEpoch.NEW := by
      unfold State.fld
      rw [hregs _ (by decide) (by decide)]
    rw [hfld, ← hn, State.fld_setFld_same _ _ _ _ (by decide) (by decide), he]
    rfl
  · refine (hcalled x hx hne).imp (fun hin => ?_) fun hstep => ?_
    · rw [hflits, htab]; exact (List.mem_erase_of_ne hne).mpr hin
    · rw [hstates, if_neg hne, hkn.dieState (by simp), hstep]
  · have hall := hk.trans hkn
    rw [hmem ((hall.fld _ _ (by simp)).trans h0)]
    exact hall.1

end Tick

/-! ### GO (05 R182) -/

theorem State.twoEpochs_of_keeps {ns : List RegName} {s t : State} (h : Keeps ns s t) (hn : .partDieState ∉ ns) (ht : t.tab = s.tab) :
    t.twoEpochs = s.twoEpochs := State.twoEpochs_congr (h.activeDies hn) (congrArg TabSt.dies ht)

/-- PART.CAPO with FENCE and STATUS as GO leaves them when it starts no capo. -/
def State.goShows (fence : Bool) (n : Nat) (s : State) : State := (s.setFld partCapo PartCapo.FENCE (b2n fence)).setFld partCapo PartCapo.STATUS n

theorem goShows_tab (fence : Bool) (n : Nat) (s : State) : (s.goShows fence n).tab = s.tab := rfl

theorem goShows_shows (fence : Bool) {n : Nat} (hn : n < 8) (s : State) : let t := s.goShows fence n
    t.fld partCapo PartCapo.STATUS = n ∧ t.fld partCapo PartCapo.FENCE = b2n fence ∧ t.fld partCapo PartCapo.BUSY = s.fld partCapo PartCapo.BUSY ∧
      Keeps [.partCapo] s t := by
  unfold State.goShows
  refine ⟨?_, ?_, ?_, ((keeps_setFld s partCapo _ _).trans (keeps_setFld _ partCapo _ _)).mono (by simp [partCapo])⟩
  · rw [State.fld_setFld_same _ _ _ _ (by decide) (by decide)]
    exact Nat.mod_eq_of_lt hn
  · rw [State.fld_setFld_other _ _ _ _ _ (by decide) (by decide) (by decide), State.fld_setFld_same _ _ _ _ (by decide) (by decide)]
    cases fence <;> rfl
  · rw [State.fld_setFld_other _ _ _ _ _ (by decide) (by decide) (by decide), State.fld_setFld_other _ _ _ _ _ (by decide) (by decide) (by decide)]

section Go
variable {s : State} (fence : Bool)

theorem goCapo_noForward (hm : s.mode = 0 ∨ s.mode = 7) : goCapo fence s = s.goShows fence 4 := if_pos hm

variable (hm : ¬(s.mode = 0 ∨ s.mode = 7))
include hm

theorem goCapo_taken (ht : s.capoTaken = true) : goCapo fence s = s.goShows fence 3 := by
  unfold goCapo
  dsimp only
  rw [if_neg hm, if_pos ht]
  rfl

variable (ht : s.capoTaken = false)
include ht

theorem goCapo_issues : goCapo fence s = issueCapo (s.setFld partCapo PartCapo.FENCE (b2n fence)) := by
  unfold goCapo
  dsimp only
  rw [if_neg hm, if_neg (by simp [ht])]

theorem goCapo_waits (htwo : s.twoEpochs = true) : goCapo fence s = (s.goShows fence 2).modTab fun t => { t with waiting := true } := by
  rw [goCapo_issues fence hm ht, issueCapo, if_pos]
  · rfl
  · rw [State.twoEpochs_of_keeps (keeps_setFld s partCapo _ _) (by simp [partCapo]) rfl, htwo]

end Go

theorem State.fld_modTab (s : State) (f : TabSt → TabSt) (r : Reg) (g : Field) : (s.modTab f).fld r g = s.fld r g := by
  unfold State.fld
  rw [State.reg_modTab]

/-- What the start of a capo does that carries no mode: the shadow contents are closed, and every die in service has to flip to the next epoch. -/
structure Starts (s t : State) : Prop where
  keeps : Keeps [.partCapo] s t
  busy : t.fld partCapo PartCapo.BUSY = 1
  status : t.fld partCapo PartCapo.STATUS = 0
  buf : t.buf = s.buf
  dies : t.tab.dies = s.tab.dies
  applying : t.tab.applying = true
  toFlip : t.tab.toFlip = s.activeDies
  capoE : t.tab.capoE = (s.newE s.lead + 1) % 65536

theorem capoStart_starts {s : State} (hmode : s.tab.mode = none) : Starts s (capoStart s) := by
  generalize hn : (s.setFld partCapo PartCapo.BUSY 1).setFld partCapo PartCapo.STATUS 0 = n
  have hk : Keeps [.partCapo] s n := hn ▸ ((keeps_setFld s partCapo _ _).trans (keeps_setFld _ partCapo _ _)).mono (by simp [partCapo])
  have hbusy : n.fld partCapo PartCapo.BUSY = 1 := by
    rw [← hn, State.fld_setFld_other _ _ _ _ _ (by decide) (by decide) (by decide), State.fld_setFld_same _ _ _ _ (by decide) (by decide)]
    rfl
  have hstatus : n.fld partCapo PartCapo.STATUS = 0 := by
    rw [← hn, State.fld_setFld_same _ _ _ _ (by decide) (by decide)]
    rfl
  have htab : n.tab = s.tab := by rw [← hn]; rfl
  have hbuf : n.buf = s.buf := by rw [← hn]; rfl
  unfold capoStart
  rw [hn]
  dsimp only
  rw [htab, hmode]
  dsimp only
  exact ⟨(hk.trans (keeps_modTab n _)).mono (by simp), (n.fld_modTab ..).trans hbusy, (n.fld_modTab ..).trans hstatus, hbuf,
    by rw [State.modTab_tab, htab], rfl, rfl, rfl⟩

section Start
variable {s t : State} (h : Starts s t)
include h

theorem Starts.tabDie (e : Nat) : t.tabDie e = s.tabDie e := by unfold State.tabDie; rw [h.dies]

theorem Starts.lead : t.lead = s.lead := h.keeps.lead (by simp)

theorem Starts.capoRuns : t.capoRuns = true := by unfold State.capoRuns; rw [h.busy]; rfl

/-- At the tick after the start, where the lead die's pages are good, the dies are compared. -/
theorem Starts.tick_compares (hgood : (s.tabDie s.lead).badPages = []) : capoTick t = capoCompare (t.modTab fun x => { x with applying := false }) := by
  have hpages : ((t.modTab fun x => { x with applying := false }).tabDie t.lead).badPages = [] := by rw [h.lead, ← hgood, ← h.tabDie]; rfl
  unfold capoTick
  rw [if_pos ⟨h.capoRuns, h.applying⟩]
  dsimp only
  rw [if_pos]
  exact List.isEmpty_iff.mpr hpages

end Start

section Started
variable {s t : State} (h : Starts s t) (hl : s.lead ∈ s.activeDies) (hgood : (s.tabDie s.lead).badPages = [])
  (hver : ∀ x, x ∈ s.activeDies → s.sameVersion x = true) (hrest : s.activeDies.erase s.lead ≠ []) (hw : (s.bufDie s.lead).spanWait = [])
include h hl hgood hver hrest hw

/-- The tick after the start of a capo flips the lead die and calls every other. -/
theorem Starts.flips : let e := (s.newE s.lead + 1) % 65536
    let u := capoTick t
    u.newE s.lead = e ∧ u.fld { name := .partEpoch } PartEpoch.NEW = e ∧ (u.tabDie s.lead).older = some (s.tabDie s.lead).newest ∧
      (∀ x, x ∈ s.activeDies → x ≠ s.lead → x ∈ u.tab.flits ∨ u.dieState x = 4) ∧ (s.recState s.lead = 0 → u.mem = s.mem) := by
  dsimp only
  rw [h.tick_compares hgood]
  generalize hn : (t.modTab fun x => { x with applying := false }) = n
  have hk : Keeps [.partCapo] s n := hn ▸ (h.keeps.trans (keeps_modTab t _)).mono (by simp)
  have hlead : n.lead = s.lead := hk.lead (by simp)
  have hflip : n.tab.toFlip = s.activeDies := by rw [← hn]; exact h.toFlip
  have hcapo : n.tab.capoE = (s.newE s.lead + 1) % 65536 := by rw [← hn]; exact h.capoE
  have hdie : n.tabDie s.lead = s.tabDie s.lead := by rw [← h.tabDie, ← hn]; rfl
  have hbuf : n.bufDie s.lead = s.bufDie s.lead := by
    have hb : n.buf = s.buf := by rw [← hn]; exact h.buf
    unfold State.bufDie; rw [hb]
  have hsame : ∀ x, n.sameVersion x = s.sameVersion x := fun x => by
    unfold State.sameVersion
    rw [hlead, hk.fld (bootVer x) _ (by simp [bootVer]), hk.fld (bootVer s.lead) _ (by simp [bootVer]),
      hk.fld (bootVer x) _ (by simp [bootVer]), hk.fld (bootVer s.lead) _ (by simp [bootVer])]
  have hsmall : ∀ x, x ∈ s.activeDies → x < 16 := fun x hx => by
    have hx8 := (State.mem_activeDies_iff.mp hx).1
    have := s.dieCount_le
    omega
  obtain ⟨hnew, hepoch, holder, hcalled, hmem⟩ := capoCompare_flips (s := n) (fun x hx => by rw [hsame]; exact hver x (hflip ▸ hx))
    (fun x hx => hsmall x (hflip ▸ hx)) (by rw [hflip, hlead]; exact hl) (by rw [hflip, hlead]; exact hrest) (by rw [hlead, hbuf]; exact hw)
  rw [hlead] at hnew holder hcalled hmem
  rw [hflip] at hcalled
  refine ⟨hnew.trans hcapo, ?_, by rw [holder, hdie], hcalled, fun h0 => ?_⟩
  · rw [hepoch, hcapo, Nat.mod_mod]
  · rw [hmem ((hk.fld _ _ (by simp)).trans h0)]
    exact hk.1

end Started

/-- GO with one epoch live and no capo starts one. -/
theorem goCapo_starts {s : State} (fence : Bool) (hm : ¬(s.mode = 0 ∨ s.mode = 7)) (ht : s.capoTaken = false) (hone : s.twoEpochs = false)
    (hmode : s.tab.mode = none) : Starts s (goCapo fence s) := by
  generalize hn : s.setFld partCapo PartCapo.FENCE (b2n fence) = n
  have hk : Keeps [.partCapo] s n := hn ▸ keeps_setFld s partCapo _ _
  have htab : n.tab = s.tab := by rw [← hn]; rfl
  have hbuf : n.buf = s.buf := by rw [← hn]; rfl
  have hissue : goCapo fence s = capoStart n := by
    rw [goCapo_issues fence hm ht, hn, issueCapo, if_neg]
    rw [State.twoEpochs_of_keeps hk (by simp) htab, hone]
    simp
  obtain ⟨hk', hb, hst, hbuf', hdies, happ, hflip, he⟩ := capoStart_starts (htab ▸ hmode : n.tab.mode = none)
  rw [hissue]
  refine ⟨(hk.trans hk').mono (by simp), hb, hst, hbuf'.trans hbuf, hdies.trans (congrArg _ htab), happ, hflip.trans (hk.activeDies (by simp)), ?_⟩
  rw [he, hk.lead (by simp)]
  unfold State.newE
  rw [tabDie_of_tab htab]

/-! ### Staging writes (05 R168, R189) -/

section Write
variable {s : State} {off : Nat} (hlead : s.flt.noLead = false) (h8 : off % 8 = 0) (hin : off < 8 * bankWords)
include hlead h8 hin

/-- An aligned 8-byte write below the end of the bank that the lead die takes is refused, or stages its word. -/
theorem stagingWrite_taken (via : Nat) (v : Word) : stagingWrite via off v 8 s =
    if off < 0x3000 then (if s.active via then raise (dreg .tabErr via) TabErr.PROTECT s else s) else stageWord (off / 8) v s := by
  unfold stagingWrite
  rw [if_neg]
  simp [hlead, h8, hin]

theorem stagingWrite_protected {via : Nat} (v : Word) (hp : off < 0x3000) (ha : s.active via = true) : let t := stagingWrite via off v 8 s
    t.fld (dreg .tabErr via) TabErr.PROTECT = 1 ∧ t.tab = s.tab ∧ Keeps [.tabErr] s t := by
  dsimp only
  rw [stagingWrite_taken hlead h8 hin, if_pos hp, if_pos ha]
  exact ⟨fld_raise _ _ _ ha rfl (by decide), raise_tab .., keeps_raise (dreg .tabErr via) _ _⟩

end Write

/-- A word staged with open shadow banks is, in its bits that are not reserved, in the shadow bank of each die in service whose gate passes it. -/
theorem stageWord_open {s : State} (k : Nat) (v : Word) (hopen : s.stageClosed = false) : let t := stageWord k v s
    Keeps refusedRegs s t ∧ ∀ x, x ∈ s.activeDies → (t.tabDie x).newest = (s.tabDie x).newest ∧
      bankWord (t.tabDie x).shadow k = (if s.pageOk x 19 (0x58 + x) (8 * k / 4096) 1 then v &&& bankMask s.dieCount k
        else bankWord (s.tabDie x).shadow k) ∧
      ∀ j, j ≠ k → bankWord (t.tabDie x).shadow j = bankWord (s.tabDie x).shadow j := by
  obtain ⟨hr, hdie⟩ := applyStaged_replicates k v s
  dsimp only
  unfold stageWord
  rw [if_neg (by simp [hopen])]
  refine ⟨hr.keeps, fun x hx => ?_⟩
  rw [hdie x hx]
  split
  · exact ⟨rfl, (bankWord_set ..).trans (if_pos rfl), fun j hj => (bankWord_set ..).trans (if_neg hj)⟩
  · exact ⟨rfl, rfl, fun _ _ => rfl⟩

/-- A word staged while the shadow banks take no writes waits in the queue, which has room. -/
theorem stageWord_closed {s : State} (k : Nat) (v : Word) (hclosed : s.stageClosed = true) (hroom : s.tab.queue.length < 4096) :
    stageWord k v s = s.modTab fun t => { t with queue := t.queue ++ [(k, v)] } := by
  unfold stageWord
  rw [if_pos hclosed, if_pos hroom]

/-! ### The statement -/

theorem staging_holds (s : State) (who : Master) (off : Nat) (v : Word) (worn : List Nat) :
    let soft := (worn.map fun x => (x, off / 8)) ++ s.tab.soft
    s.flt.noLead = false → off % 8 = 0 → off < 8 * bankWords →
      (0x3000 ≤ off → s.stageClosed = false → Does (.stagingWrite who off v 8 worn) s fun t => Keeps [.gateErr, .gateFrec0, .gateFrec1] s t ∧
        ∀ x, x ∈ s.activeDies → (t.tabDie x).newest = (s.tabDie x).newest ∧
          bankWord (t.tabDie x).shadow (off / 8) = (if s.pageOk x 19 (0x58 + x) (off / 4096) 1 then v &&& bankMask s.dieCount (off / 8)
            else bankWord (s.tabDie x).shadow (off / 8)) ∧
          ∀ k, k ≠ off / 8 → bankWord (t.tabDie x).shadow k = bankWord (s.tabDie x).shadow k) ∧
      (0x3000 ≤ off → s.stageClosed = true → s.tab.queue.length < 4096 → Does (.stagingWrite who off v 8 worn) s fun t =>
        t = { s with tab := { s.tab with queue := s.tab.queue ++ [(off / 8, v)], soft := soft } }) ∧
      (off < 0x3000 → s.active (s.viaDie who) = true → Does (.stagingWrite who off v 8 worn) s fun t =>
        t.fld (dreg .tabErr (s.viaDie who)) TabErr.PROTECT = 1 ∧ t.tab = { s.tab with soft := soft } ∧ Keeps [.tabErr] s t) := by
  intro soft hlead h8 hin
  generalize hn : (s.modTab fun t => { t with soft := soft }) = n
  have hrun : exec (.stagingWrite who off v 8 worn) s = .next (stagingWrite (s.viaDie who) off v 8 n) := by rw [← hn]; rfl
  have hk : Keeps [] s n := hn ▸ keeps_modTab s _
  have hnlead : n.flt.noLead = false := by rw [← hn]; exact hlead
  have hstage : 0x3000 ≤ off → stagingWrite (s.viaDie who) off v 8 n = stageWord (off / 8) v n := fun hfrom => by
    rw [stagingWrite_taken hnlead h8 hin, if_neg (by omega)]
  have hclose : n.stageClosed = s.stageClosed := by rw [← hn]; rfl
  refine ⟨fun hfrom hopen => ⟨_, hrun, ?_⟩, fun hfrom hclosed hroom => ⟨_, hrun, ?_⟩, fun hp ha => ⟨_, hrun, ?_⟩⟩
  · rw [hstage hfrom]
    obtain ⟨hkeep, hdie⟩ := stageWord_open (off / 8) v (hclose.trans hopen)
    refine ⟨(hk.trans hkeep).mono (by simp [refusedRegs]), fun x hx => ?_⟩
    have hsame : ∀ e, n.tabDie e = s.tabDie e := fun e => by rw [← hn]; rfl
    have hok : n.pageOk x 19 (0x58 + x) (8 * (off / 8) / 4096) 1 = s.pageOk x 19 (0x58 + x) (off / 4096) 1 := by
      rw [show 8 * (off / 8) = off by omega, ← hn]; rfl
    have hcount : n.dieCount = s.dieCount := by rw [← hn]; rfl
    simpa only [hsame, hok, hcount] using hdie x (by rw [hk.activeDies (by simp)]; exact hx)
  · have hqueue : n.tab.queue = s.tab.queue := by rw [← hn]; rfl
    rw [hstage hfrom, stageWord_closed _ _ (hclose.trans hclosed) (hqueue ▸ hroom), ← hn]
    rfl
  · obtain ⟨hbit, htab, hkeep⟩ := stagingWrite_protected hnlead h8 hin v hp ((hk.active (by simp) _).trans ha)
    exact ⟨hbit, htab.trans (by rw [← hn]; rfl), (hk.trans hkeep).mono (by simp)⟩

/-- GO that starts no capo shows why, and where it waits the capo is noted. -/
theorem go_shows {s : State} {who : Master} {fence : Bool} {n : Nat} (hn : n < 8)
    (heq : goCapo fence s = (s.goShows fence n).modTab fun x => { x with waiting := x.waiting || n == 2 }) :
    Does (.go who fence) s fun t => t.fld partCapo PartCapo.STATUS = n ∧ t.fld partCapo PartCapo.FENCE = b2n fence ∧
      t.fld partCapo PartCapo.BUSY = s.fld partCapo PartCapo.BUSY ∧ t.tab = { s.tab with waiting := s.tab.waiting || n == 2 } ∧
      Keeps [.partCapo] s t := by
  obtain ⟨hstatus, hfence, hbusy, hk⟩ := goShows_shows fence hn s
  have hrun : exec (.go who fence) s = .next (goCapo fence s) := rfl
  rw [heq] at hrun
  refine ⟨_, hrun, (State.fld_modTab ..).trans hstatus, (State.fld_modTab ..).trans hfence, (State.fld_modTab ..).trans hbusy, ?_,
    (hk.trans (keeps_modTab _ _)).mono (by simp)⟩
  rw [State.modTab_tab, goShows_tab]

/-- A status other than 2 notes no waiting capo. -/
theorem modTab_unwaiting (t : State) {n : Nat} (hn : n ≠ 2) : (t.modTab fun x => { x with waiting := x.waiting || n == 2 }) = t := by
  have hb : (n == 2) = false := by simp [hn]
  simp [State.modTab, hb]

/-- The start of a capo by GO, and the tick after it. -/
theorem go_starts {s : State} (who : Master) (fence : Bool) (hl : s.lead ∈ s.activeDies) (hm : ¬(s.mode = 0 ∨ s.mode = 7)) (ht : s.capoTaken = false)
    (hone : s.twoEpochs = false) (hmode : s.tab.mode = none) : let l := s.lead
    let e := (s.newE l + 1) % 65536
    Does (.go who fence) s fun t =>
      t.fld partCapo PartCapo.BUSY = 1 ∧ t.fld partCapo PartCapo.STATUS = 0 ∧ t.tab.applying = true ∧ t.tab.toFlip = s.activeDies ∧
        t.tab.capoE = e ∧ t.stageClosed = true ∧ t.newE l = s.newE l ∧ Keeps [.partCapo] s t ∧
        ((s.tabDie l).badPages = [] → (∀ x, x ∈ s.activeDies → s.sameVersion x = true) → s.activeDies.erase l ≠ [] →
          (s.bufDie l).spanWait = [] → let u := capoTick t
          u.newE l = e ∧ u.fld { name := .partEpoch } PartEpoch.NEW = e ∧ (u.tabDie l).older = some (s.tabDie l).newest ∧
            (∀ x, x ∈ s.activeDies → x ≠ l → x ∈ u.tab.flits ∨ u.dieState x = 4) ∧ (s.recState l = 0 → u.mem = s.mem)) := by
  have h := goCapo_starts fence hm ht hone hmode
  have hrun : exec (.go who fence) s = .next (goCapo fence s) := rfl
  generalize goCapo fence s = t at h hrun
  have hclosed : t.stageClosed = true := by unfold State.stageClosed; simp [h.capoRuns]
  exact ⟨t, hrun, h.busy, h.status, h.applying, h.toFlip, h.capoE, hclosed, congrArg TabDie.newE (h.tabDie s.lead), h.keeps, h.flips hl⟩

/-- A CAPO flit flips a die that has yet to flip. -/
theorem capoFlit_flips {s : State} {d : Nat} (hd : d < s.dieCount) (hin : d ∈ s.tab.flits) (hmem : d ∈ s.tab.toFlip)
    (hrest : s.tab.toFlip.erase d ≠ []) (hw : (s.bufDie d).spanWait = []) : Does (.capoFlitReceive d) s fun t =>
      t.newE d = s.tab.capoE ∧ (t.tabDie d).older = some (s.tabDie d).newest ∧ t.tab.toFlip = s.tab.toFlip.erase d ∧ t.dieState d = 3 ∧
      (s.recState d = 0 → t.mem = s.mem) ∧ ∀ k, k ≠ 0 → bankWord (t.tabDie d).newest k = bankWord (s.tabDie d).shadow k := by
  have hd16 : d < 16 := by have := s.dieCount_le; omega
  obtain ⟨hnew, holder, hnewest, hflip, -, -, hstates, hm⟩ := capoFlip_flips hd16 hmem hrest hw
  have hrun : exec (.capoFlitReceive d) s = .next (capoFlip d s) := congrArg _ (if_pos hin)
  exact ⟨_, hrun, hnew, holder, hflip, (hstates d).trans (if_pos rfl), hm, fun k hk => by rw [hnewest, bankWord_flipBank hk]⟩

/-- A die that has flipped ignores the flit. -/
theorem capoFlit_ignored {s : State} {d : Nat} (hout : d ∉ s.tab.toFlip) : Does (.capoFlitReceive d) s fun t => t = s := by
  have hsame : capoFlip d s = s := by unfold capoFlip; rw [if_neg hout]
  have hrun : exec (.capoFlitReceive d) s = .next (if d ∈ s.tab.flits then capoFlip d s else s) := rfl
  rw [hsame, ite_self] at hrun
  exact ⟨s, hrun, rfl⟩

/-- Settles O16: a staged word goes through each die's gate or waits, GO shows its status or starts a capo whose tick flips the lead die, and a CAPO
flit flips its die. -/
theorem stagingAndCapo : Obligations.StagingAndCapo := by
  unfold Obligations.StagingAndCapo
  intro s who off d v fence worn hd hlead hactive l e soft
  refine ⟨staging_holds s who off v worn, ⟨fun hm => ?_, fun h0 h7 ht => ?_, fun h0 h7 ht htwo => ?_, fun h0 h7 ht hone hmode => ?_⟩,
    fun hin hmem hrest hw => capoFlit_flips hd hin hmem hrest hw, capoFlit_ignored⟩
  · exact go_shows (by decide) ((goCapo_noForward fence hm).trans (modTab_unwaiting _ (by decide)).symm)
  · exact go_shows (by decide) ((goCapo_taken fence (by simp [h0, h7]) ht).trans (modTab_unwaiting _ (by decide)).symm)
  · exact go_shows (by decide) (by simpa using goCapo_waits fence (by simp [h0, h7]) ht htwo)
  · exact go_starts who fence (State.mem_activeDies_iff.mpr ⟨hlead, hactive⟩) (by simp [h0, h7]) ht hone hmode

end Sys2Proof.Machine
end

section
/-! SUPPORT. The cells of a die's packet buffer: what each operation does to the cell that it names, and what it leaves of the other cells, of the
sticky bits and of the round count (06 R205, R207, R209, R225 to R227). -/

namespace Sys2Proof.Machine

/-! ### A cell after one update -/

section Updates
variable (s : State) (d : Nat)

theorem State.cell_of_buf {s t : State} (h : t.buf = s.buf) (d c : Nat) : t.cell d c = s.cell d c := by
  unfold State.cell State.bufDie; rw [h]

@[simp] theorem State.cell_setReg (r : Reg) (v : Word) (c : Nat) : (s.setReg r v).cell d c = s.cell d c := rfl
@[simp] theorem State.cell_setFld (r : Reg) (f : Field) (v c : Nat) : (s.setFld r f v).cell d c = s.cell d c := rfl
@[simp] theorem State.cell_count (r : Reg) (f : Field) (n c : Nat) : (s.count r f n).cell d c = s.cell d c := rfl
@[simp] theorem State.cell_modLink (e i : Nat) (f : LinkSt → LinkSt) (c : Nat) : (s.modLink e i f).cell d c = s.cell d c := rfl
@[simp] theorem raise_cell (r : Reg) (f : Field) (c : Nat) : (raise r f s).cell d c = s.cell d c := State.cell_of_buf (raise_buf r f s) d c

/-- A change of a buffer that leaves its list of cells leaves each cell. -/
@[simp] theorem State.cell_modBufDie {f : BufDie → BufDie} (c : Nat) (h : (f (s.bufDie d)).cells = (s.bufDie d).cells) :
    (s.modBufDie d f).cell d c = s.cell d c := by
  unfold State.cell; rw [State.bufDie_modBufDie_same, h]

theorem State.cell_modCell (c k : Nat) (f : CellRec → CellRec) : (s.modCell d c f).cell d k = if k = c then f (s.cell d c) else s.cell d k := by
  unfold State.modCell State.cell
  rw [State.bufDie_modBufDie_same]
  exact FMap.get_set ..

@[simp] theorem State.cell_modCell_same (c : Nat) (f : CellRec → CellRec) : (s.modCell d c f).cell d c = f (s.cell d c) := by
  rw [State.cell_modCell, if_pos rfl]

theorem State.cell_modCell_ne {c k : Nat} (f : CellRec → CellRec) (h : k ≠ c) : (s.modCell d c f).cell d k = s.cell d k := by
  rw [State.cell_modCell, if_neg h]

@[simp] theorem leaveLedger_cell (c k : Nat) : (leaveLedger d c s).cell d k = s.cell d k := by
  unfold leaveLedger returnCredits; split <;> simp

end Updates

/-! ### A cell that is freed -/

section Freed
variable (d c : Nat) (s : State)

/-- Freeing a cell changes its state, its ledger and its count of untagged records alone. -/
theorem freeCell_cell (k : Nat) : (freeCell d c s).cell d k = s.cell d k ∨
    k = c ∧ ∃ n, (freeCell d c s).cell d k = { s.cell d c with state := n, ledger := none, untagged := 0 } := by
  by_cases hk : k = c
  · subst hk
    unfold freeCell
    dsimp only
    split
    · exact .inl rfl
    · split <;> exact .inr ⟨rfl, _, by simp; rfl⟩
  · left
    unfold freeCell
    dsimp only
    split
    · rfl
    · split <;> simp [State.cell_modCell_ne _ _ _ hk]

theorem freeCell_cell_ne {k : Nat} (h : k ≠ c) : (freeCell d c s).cell d k = s.cell d k :=
  (freeCell_cell d c s k).resolve_right fun ⟨hk, _⟩ => h hk

@[simp] theorem freeCell_data (k : Nat) : ((freeCell d c s).cell d k).data = (s.cell d k).data := by
  rcases freeCell_cell d c s k with h | ⟨rfl, n, h⟩ <;> simp [h]

@[simp] theorem freeCell_refs (k : Nat) : ((freeCell d c s).cell d k).refs = (s.cell d k).refs := by
  rcases freeCell_cell d c s k with h | ⟨rfl, n, h⟩ <;> simp [h]

@[simp] theorem freeCell_listed (k : Nat) : ((freeCell d c s).cell d k).listed = (s.cell d k).listed := by
  rcases freeCell_cell d c s k with h | ⟨rfl, n, h⟩ <;> simp [h]

/-- Sealing an open cell leaves the contents of every cell. -/
@[simp] theorem sealCell_data (w : Writer) (k : Nat) : ((sealCell d w s).cell d k).data = (s.cell d k).data := by
  unfold sealCell
  split
  · rfl
  · rename_i p hp
    have hsealed : (((s.modCell d p fun y => { y with state := 3, seen := true }).modBufDie d fun b =>
        { b with openCell := b.openCell.erase w }).cell d k).data = (s.cell d k).data := by
      rw [State.cell_modBufDie _ _ _ rfl, State.cell_modCell]
      split
      · rename_i hk; rw [hk]
      · rfl
    dsimp only
    split <;> simp only [freeCell_data, hsealed]

end Freed

/-! ### Work on some cells -/

/-- The register that counts the audit rounds of a die, its suspects and its reclaimed cells (06 R238). -/
abbrev auditReg (d : Nat) : Reg := { name := .bufAudit, die := d }

/-- The registers that work on cells writes. -/
abbrev cellRegs : List RegName := [.bufErr, .bufAudit]

/-- Work on some cells of a die: it writes the registers of some names, sets sticky bits of BUF.ERR and clears none, leaves the count of rounds, and
leaves every other cell. -/
structure WorksOn (ns : List RegName) (d : Nat) (cs : List Nat) (s t : State) : Prop where
  keeps : Keeps ns s t
  rounds : t.fld (auditReg d) BufAudit.ROUNDS = s.fld (auditReg d) BufAudit.ROUNDS
  marks : ∀ f : Field, f.hi = f.lo → s.fld (dreg .bufErr d) f = 1 → t.fld (dreg .bufErr d) f = 1
  cells : ∀ k, k ∉ cs → t.cell d k = s.cell d k

section Work
variable {ns : List RegName} {d : Nat} {cs : List Nat} {s t u : State}

theorem WorksOn.refl (ns : List RegName) (d : Nat) (cs : List Nat) (s : State) : WorksOn ns d cs s s :=
  ⟨Keeps.refl ns s, rfl, fun _ _ h => h, fun _ _ => rfl⟩

theorem WorksOn.trans (h : WorksOn ns d cs s t) (g : WorksOn ns d cs t u) : WorksOn ns d cs s u where
  keeps := (h.keeps.trans g.keeps).mono (by simp)
  rounds := g.rounds.trans h.rounds
  marks f hf hs := g.marks f hf (h.marks f hf hs)
  cells k hk := (g.cells k hk).trans (h.cells k hk)

theorem WorksOn.mono {ms : List RegName} {cs' : List Nat} (h : WorksOn ns d cs s t) (hn : ∀ n ∈ ns, n ∈ ms) (hc : ∀ c ∈ cs, c ∈ cs') :
    WorksOn ms d cs' s t :=
  ⟨h.keeps.mono hn, h.rounds, h.marks, fun k hk => h.cells k fun hmem => hk (hc k hmem)⟩

/-- Work that writes neither BUF.ERR nor BUF.AUDIT. -/
theorem WorksOn.of_keeps (h : Keeps ns s t) (hc : ∀ k, k ∉ cs → t.cell d k = s.cell d k) (he : .bufErr ∉ ns := by decide)
    (ha : .bufAudit ∉ ns := by decide) : WorksOn ns d cs s t :=
  ⟨h, h.fld _ _ ha, fun f _ hs => (h.fld _ f he).trans hs, hc⟩

/-- Setting a sticky bit of BUF.ERR leaves every bit that is set. -/
theorem fld_raise_marked (r : Reg) {f g : Field} (s : State) (hf : f.lo < 64) (hg : g.hi = g.lo) (h : s.fld r g = 1) : (raise r f s).fld r g = 1 := by
  by_cases hfg : f.lo = g.lo
  · rcases raiseFault_cases { reg := r, bit := f.lo } s with ⟨he, -⟩ | ⟨-, he⟩
    · unfold raise; rw [he]; exact h
    · unfold raise State.fld
      rw [he, State.reg_modFlt, State.reg_setReg_same, hg, ← hfg, getBits_setBits_same _ _ _ _ (le_refl _) hf]
      simp
  · rw [fld_raise_apart s hf (by omega)]
    exact h

theorem worksOn_raise (f : Field) (s : State) (d : Nat) (cs : List Nat) (hn : .bufErr ∈ ns := by decide) (hf : f.lo < 64 := by decide) :
    WorksOn ns d cs s (raise (dreg .bufErr d) f s) where
  keeps := (keeps_raise _ _ _).mono (by simpa [dreg] using hn)
  rounds := (keeps_raise (dreg .bufErr d) f s).fld _ _ (by simp [dreg])
  marks _ hg h := fld_raise_marked _ s hf hg h
  cells k _ := raise_cell s d _ f k

theorem worksOn_setFld {f : Field} (hf : f.Fits) (h : f.Apart BufAudit.ROUNDS) (v : Nat) (s : State) (d : Nat) (cs : List Nat) :
    WorksOn cellRegs d cs s (s.setFld (auditReg d) f v) where
  keeps := (keeps_setFld _ _ _ _).mono (by simp)
  rounds := s.fld_setFld_apart _ v hf h
  marks g _ hs := (s.fld_setFld_ne f g v (by simp [dreg])).trans hs
  cells _ _ := rfl

/-- Work on one cell that writes no register. -/
theorem WorksOn.of_parcels {c : Nat} (h : t.parcels [] = s.parcels []) (hc : ∀ k, k ≠ c → t.cell d k = s.cell d k) :
    WorksOn ns d [c] s t :=
  (WorksOn.of_keeps (keeps_of_parcels h) (cs := [c]) fun k hk => hc k (by simpa using hk)).mono (by simp) fun _ h => h

theorem worksOn_modCell (d c : Nat) (f : CellRec → CellRec) (s : State) : WorksOn ns d [c] s (s.modCell d c f) :=
  .of_parcels (by simp) fun _ hk => s.cell_modCell_ne d f hk

/-- A source of the buffer of a die in service reads 1 once set. -/
theorem fld_raise_bufErr {f : Field} (h : Keeps ns s t) (ha : s.active d = true) (hn : .partDieState ∉ ns := by decide)
    (hf : f.hi = f.lo := by rfl) (h64 : f.lo < 64 := by decide) : (raise (dreg .bufErr d) f t).fld (dreg .bufErr d) f = 1 :=
  fld_raise (dreg .bufErr d) f t ((h.active hn d).trans ha) hf h64

/-- A loop whose turns work on cells of a list. -/
theorem WorksOn.forAll {α : Type} {f : α → State → State} {l : List α} (h : ∀ a ∈ l, ∀ t, WorksOn ns d cs t (f a t)) (s : State) :
    WorksOn ns d cs s (s.forAll l f) :=
  State.forAll_of_mem (P := WorksOn ns d cs s) (fun a ha t ht => ht.trans (h a ha t)) (.refl ..)

end Work

/-! ### Cells that are zeroed, retired, counted again and reclaimed -/

section Cells
variable (d c : Nat) (s : State)

@[simp] theorem zeroCell_bufDie : (zeroCell d c s).bufDie d = { s.bufDie d with cells := (s.bufDie d).cells.set c {} } :=
  s.bufDie_modBufDie_same d fun b => { b with cells := b.cells.set c {} }

theorem zeroCell_cell_same : (zeroCell d c s).cell d c = {} := by
  unfold State.cell; rw [zeroCell_bufDie]; exact FMap.get_set_same ..

theorem keeps_zeroCell : Keeps [.bufZcnt] s (zeroCell d c s) :=
  keeps_of_beyond (((s.modBufDie d _).beyond_count _ _ (by simp [dreg])).trans (s.beyond_modBufDie d _))

/-- The cell that is retired, before its sources are set. -/
def State.outOfUse (d c : Nat) (s : State) : State :=
  (s.modCell d c fun y => { y with state := 5, ledger := none }).modBufDie d fun b => { b with retired := b.retired + 1 }

/-- A retired cell sets RETIRE, and RETLIM beside it at the limit (06 R225). -/
theorem retireCell_cases : retireCell d c s = raise (dreg .bufErr d) BufErr.RETIRE (s.outOfUse d c) ∨
    retireCell d c s = raise (dreg .bufErr d) BufErr.RETLIM (raise (dreg .bufErr d) BufErr.RETIRE (s.outOfUse d c)) := by
  unfold retireCell
  dsimp only
  split
  · exact .inr rfl
  · exact .inl rfl

theorem retireCell_buf : (retireCell d c s).buf = (s.outOfUse d c).buf := by
  rcases retireCell_cases d c s with h | h <;> simp only [h, raise_buf]

theorem worksOn_retireCell {ns : List RegName} (hn : .bufErr ∈ ns) : WorksOn ns d [c] s (retireCell d c s) := by
  have hout : WorksOn ns d [c] s (s.outOfUse d c) := by
    refine .of_parcels ?_ fun k hk => ?_
    · exact ((s.modCell d c _).parcels_modBufDie d rfl rfl).trans (s.parcels_modCell d c _)
    · exact ((s.modCell d c _).cell_modBufDie d k rfl).trans (s.cell_modCell_ne d _ hk)
  have hretire := hout.trans (worksOn_raise BufErr.RETIRE _ d [c] hn)
  rcases retireCell_cases d c s with h | h
  · rw [h]; exact hretire
  · rw [h]; exact hretire.trans (worksOn_raise BufErr.RETLIM _ d [c] hn)

/-- A free cell that is referenced leaves its pool and counts its references (06 R226). -/
def State.recounted (d c f : Nat) (s : State) : State :=
  let x := s.cell d c
  (if x.state = 1 then s.modBufDie d fun b => { b with recycle := b.recycle.set x.owner ((b.rawPool x.owner).erase c) } else s).modCell d c
    fun y => { y with refs := f, state := if x.state ≤ 1 then 3 else y.state, seen := true, listed := false }

theorem refover_eq (f : Nat) : refover d c f s = raise (dreg .bufErr d) BufErr.REFOVER (s.recounted d c f) := rfl

theorem recounted_cell (f k : Nat) : (s.recounted d c f).cell d k = if k = c then
    { s.cell d c with refs := f, state := if (s.cell d c).state ≤ 1 then 3 else (s.cell d c).state, seen := true, listed := false }
    else s.cell d k := by
  unfold State.recounted
  dsimp only
  rw [State.cell_modCell]
  split <;> split <;> simp

theorem worksOn_recounted {ns : List RegName} (f : Nat) : WorksOn ns d [c] s (s.recounted d c f) := by
  refine .of_parcels ?_ fun k hk => ?_
  · unfold State.recounted
    dsimp only
    rw [State.parcels_modCell]
    split
    · exact s.parcels_modBufDie d rfl rfl
    · rfl
  · rw [recounted_cell, if_neg hk]

theorem worksOn_refover (f : Nat) : WorksOn cellRegs d [c] s (refover d c f s) := by
  rw [refover_eq]
  exact (worksOn_recounted d c s f).trans (worksOn_raise BufErr.REFOVER _ d [c])

theorem refover_source (f : Nat) (ha : s.active d = true) : (refover d c f s).fld (dreg .bufErr d) BufErr.REFOVER = 1 := by
  rw [refover_eq]
  exact fld_raise_bufErr (worksOn_recounted (ns := []) d c s f).keeps ha

/-- The state in which a leaked cell has the references that were found, and is free where none was (06 R227). -/
def State.reclaimed (d c f : Nat) (s : State) : State :=
  let s1 := s.modCell d c fun y => { y with refs := f, suspect := none, seen := true, listed := false }
  if f = 0 ∧ (s1.cell d c).state = 3 then freeCell d c s1 else s1

theorem reclaimCell_eq (f : Nat) : reclaimCell d c f s =
    raise (dreg .bufErr d) BufErr.RECLAIM ((s.reclaimed d c f).count (auditReg d) BufAudit.RECLAIMED 1) := rfl

theorem reclaimCell_cell (f k : Nat) : (reclaimCell d c f s).cell d k = (s.reclaimed d c f).cell d k := by
  rw [reclaimCell_eq, raise_cell, State.cell_count]

theorem reclaimCell_refs (f : Nat) : ((reclaimCell d c f s).cell d c).refs = f := by
  rw [reclaimCell_cell]; unfold State.reclaimed; dsimp only; split <;> simp

theorem reclaimCell_listed (f : Nat) : ((reclaimCell d c f s).cell d c).listed = false := by
  rw [reclaimCell_cell]; unfold State.reclaimed; dsimp only; split <;> simp

theorem worksOn_reclaimed (f : Nat) : WorksOn cellRegs d [c] s ((s.reclaimed d c f).count (auditReg d) BufAudit.RECLAIMED 1) := by
  have hcell : WorksOn cellRegs d [c] s (s.reclaimed d c f) := by
    refine .of_parcels ?_ fun k hk => ?_ <;> unfold State.reclaimed <;> dsimp only
    · split <;> simp
    · split <;> simp only [freeCell_cell_ne _ _ _ hk, State.cell_modCell_ne _ _ _ hk]
  exact hcell.trans (worksOn_setFld (f := BufAudit.RECLAIMED) (by decide) (by decide) _ _ d [c])

theorem worksOn_reclaimCell (f : Nat) : WorksOn cellRegs d [c] s (reclaimCell d c f s) := by
  rw [reclaimCell_eq]
  exact (worksOn_reclaimed d c s f).trans (worksOn_raise BufErr.RECLAIM _ d [c])

theorem reclaimCell_source (f : Nat) (ha : s.active d = true) : (reclaimCell d c f s).fld (dreg .bufErr d) BufErr.RECLAIM = 1 := by
  rw [reclaimCell_eq]
  exact fld_raise_bufErr (worksOn_reclaimed d c s f).keeps ha

end Cells

end Sys2Proof.Machine
end

section
/-! SUPPORT. Draws, takes of the zeroing engine, and writes of reservations (06 R204, R208 to R210, R218, R225). -/

namespace Sys2Proof.Machine

/-! ### Ledgers (06 R214) -/

/-- A predicate of listed cells that does not see their contents, and that no unlisted cell fulfils. -/
structure Unseeing (p : Nat × CellRec → Bool) : Prop where
  data : ∀ c x l, p (c, { x with data := l }) = p (c, x)
  unlisted : ∀ c, p (c, {}) = false

theorem FMap.get_of_not_mem {κ α : Type} [DecidableEq κ] (m : FMap κ α) (x : α) {k : κ} (h : k ∉ m.map Prod.fst) : FMap.get m x k = x := by
  induction m with
  | nil => rfl
  | cons y m ih =>
    rw [List.map_cons, List.mem_cons, not_or] at h
    rw [FMap.get, if_neg (Ne.symm h.1)]
    exact ih h.2

/-- Where each key has one entry, those of a key and those of the others make up the count of a predicate. -/
theorem FMap.length_filter_erase {κ α : Type} [DecidableEq κ] (p : κ × α → Bool) (x : α) (k : κ) (hp : p (k, x) = false) (m : FMap κ α)
    (hm : (m.map Prod.fst).Nodup) : (m.filter p).length = (p (k, FMap.get m x k)).toNat + ((m.erase k).filter p).length := by
  induction m with
  | nil => simp [FMap.erase, hp]
  | cons y m ih =>
    obtain ⟨k', v⟩ := y
    obtain ⟨hout, hrest⟩ := List.nodup_cons.mp hm
    have ih := ih hrest
    by_cases hk : k' = k
    · subst hk
      have hget : FMap.get m x k' = x := FMap.get_of_not_mem m x hout
      rw [hget, hp] at ih
      rw [List.filter_cons, FMap.get, FMap.erase, if_pos rfl, if_pos rfl]
      cases p (k', v) <;> simp [ih, Nat.add_comm]
    · rw [List.filter_cons, FMap.get, FMap.erase, if_neg hk, if_neg hk, List.filter_cons]
      cases p (k', v) <;> simp [ih, Nat.add_assoc]

/-- Clearing the contents of a cell keeps the count of a predicate that does not see them. -/
theorem FMap.length_filter_clear {p : Nat × CellRec → Bool} (hp : Unseeing p) (m : FMap Nat CellRec) (hm : (m.map Prod.fst).Nodup) (c : Nat) :
    ((m.set c { m.get {} c with data := [] }).filter p).length = (m.filter p).length := by
  rw [FMap.length_filter_erase p {} c (hp.unlisted c) m hm, FMap.set, List.filter_cons, hp.data]
  cases p (c, m.get {} c) <;> simp [Nat.add_comm]

section Ledgers
variable {s : State} {d : Nat} {f : BufDie → BufDie}

/-- The ledger of a draw depends on the counts of cells alone. -/
theorem State.drawLedger_modBufDie (w : Writer) (hready : (f (s.bufDie d)).ready = (s.bufDie d).ready)
    (hclosed : (f (s.bufDie d)).closed = (s.bufDie d).closed) (hretired : (f (s.bufDie d)).retired = (s.bufDie d).retired)
    (hcount : ∀ p, Unseeing p → ((f (s.bufDie d)).cells.filter p).length = ((s.bufDie d).cells.filter p).length) :
    (s.modBufDie d f).drawLedger d w = s.drawLedger d w := by
  have hcharged : ∀ l, (s.modBufDie d f).charged d l = s.charged d l := fun l => by
    unfold State.charged
    rw [State.bufDie_modBufDie_same]
    exact hcount _ ⟨fun _ _ _ => rfl, fun _ => rfl⟩
  have hused : (s.modBufDie d f).sharedUsed d = s.sharedUsed d := by
    unfold State.sharedUsed
    rw [State.bufDie_modBufDie_same]
    exact hcount _ ⟨fun _ _ _ => rfl, fun _ => rfl⟩
  have hsize : (s.modBufDie d f).sharedSize d = s.sharedSize d := by
    have hreserved : (s.modBufDie d f).reserved d = s.reserved d := rfl
    have haway : ∀ c, (f (s.bufDie d)).away c = (s.bufDie d).away c := fun c => by unfold BufDie.away; rw [hclosed]
    unfold State.sharedSize
    rw [State.bufDie_modBufDie_same, hreserved]
    dsimp only
    simp only [haway]
    rw [hready, hclosed, hretired, hcount _ ⟨fun _ _ _ => rfl, fun _ => rfl⟩]
  have hshare : ∀ n, (s.modBufDie d f).shareLedger d n = s.shareLedger d n := fun n => by
    unfold State.shareLedger State.partUse
    rw [hused, hsize]
    simp only [hcharged]
    rfl
  unfold State.drawLedger State.ledgerRoom
  simp only [hcharged, hshare]
  rfl

end Ledgers

/-! ### Draws (06 R204, R208) -/

/-- The state in which a cell that has left its pool is a writer's open cell, of owner `o` and charged to `l`; the open cell before it is sealed and
names it. -/
def State.opens (d : Nat) (w : Writer) (o : Nat) (l : Option Ledger) (c : Nat) (s : State) : State :=
  let s0 := match (s.bufDie d).openCell.find w with
    | none => s
    | some p => sealCell d w (s.modCell d p fun y => { y with next := some c })
  (s0.modCell d c fun y =>
    { y with owner := o, state := 2, susp := false, seen := true, refs := 0, fill := 0, next := none,
             ledger := l, untagged := 0, suspect := none, listed := false }).modBufDie d fun b => { b with openCell := b.openCell.set w c }

section Draw
variable {s : State} {d : Nat} {w : Writer} {hint c : Nat}

theorem drawCell_zero (hn : ((s.bufDie d).cells.map Prod.fst).Nodup) (hl : (s.drawLedger d w).isSome = true)
    (h : (s.bufDie d).drawFrom (s.writerOwner w) hint = .zero c) :
    drawCell d w hint s =
      some (c, (s.modCell d c fun y => { y with data := [] }).opens d w (s.writerOwner w) (s.drawLedger d w) c) := by
  unfold drawCell
  extract_lets o take
  rw [if_neg (by simpa using Option.isSome_iff_ne_none.mp hl), show (s.bufDie d).drawFrom o hint = .zero c from h]
  have hledger : (s.modCell d c fun y => { y with data := [] }).drawLedger d w = s.drawLedger d w :=
    State.drawLedger_modBufDie w rfl rfl rfl fun p hp => FMap.length_filter_clear hp _ hn c
  rw [← hledger]
  rfl

theorem drawCell_recycle {x : Nat} (hl : (s.drawLedger d w).isSome = true)
    (h : (s.bufDie d).drawFrom (s.writerOwner w) hint = .recycle x c) :
    drawCell d w hint s = some (c, (s.modBufDie d fun b => { b with recycle := b.recycle.set x ((b.rawPool x).erase c) }).opens d w
      (s.writerOwner w) (s.drawLedger d w) c) := by
  unfold drawCell
  extract_lets o take
  rw [if_neg (by simpa using Option.isSome_iff_ne_none.mp hl), show (s.bufDie d).drawFrom o hint = .recycle x c from h]
  have hledger : (s.modBufDie d fun b => { b with recycle := b.recycle.set x ((b.rawPool x).erase c) }).drawLedger d w = s.drawLedger d w :=
    State.drawLedger_modBufDie w rfl rfl rfl fun _ _ => rfl
  rw [← hledger]
  rfl

theorem drawCell_noSource (h : (s.bufDie d).drawFrom (s.writerOwner w) hint = .nothing) : drawCell d w hint s = none := by
  unfold drawCell
  extract_lets o take
  rw [show (s.bufDie d).drawFrom o hint = .nothing from h]
  exact ite_self _

theorem drawCell_noRoom (h : s.drawLedger d w = none) : drawCell d w hint s = none := by
  unfold drawCell
  rw [h]
  rfl

theorem opens_openCell (o : Nat) (l : Option Ledger) (s : State) : ((s.opens d w o l c).bufDie d).openCell.find w = some c := by
  unfold State.opens
  dsimp only
  rw [State.bufDie_modBufDie_same]
  exact FMap.find_set_same ..

/-- The open cell is owned and charged as its draw says, holds no reference, and its contents are those it had. -/
theorem opens_cell (o : Nat) (l : Option Ledger) (s : State) : let x := (s.opens d w o l c).cell d c
    x.state = 2 ∧ x.owner = o ∧ x.ledger = l ∧ x.refs = 0 ∧ x.data = (s.cell d c).data := by
  unfold State.opens
  dsimp only
  rw [State.cell_modBufDie _ _ _ rfl, State.cell_modCell_same]
  refine ⟨rfl, rfl, rfl, rfl, ?_⟩
  dsimp only
  split
  · rfl
  · rw [sealCell_data, State.cell_modCell]
    split
    · rename_i hc; rw [hc]
    · rfl

/-- A writer without an open cell takes no pool's cell but the one that it draws. -/
theorem opens_rawPool (o : Nat) (l : Option Ledger) {s : State} (h : (s.bufDie d).openCell.find w = none) (y : Nat) :
    ((s.opens d w o l c).bufDie d).rawPool y = (s.bufDie d).rawPool y := by
  unfold State.opens
  rw [h]
  dsimp only
  unfold State.modCell
  rw [State.bufDie_modBufDie_same, State.bufDie_modBufDie_same]
  rfl

/-- A draw that finds a cell opens it. -/
theorem cellDraw_opens {u : State} (h : drawCell d w hint s = some (c, u.opens d w (s.writerOwner w) (s.drawLedger d w) c)) :
    let t := cellDraw d w hint s
    ((t.bufDie d).openCell.find w = some c ∧ (t.cell d c).state = 2 ∧ (t.cell d c).owner = s.writerOwner w ∧
      (t.cell d c).ledger = s.drawLedger d w ∧ (t.cell d c).refs = 0 ∧ t.regs = s.regs ∧ Keeps [] s t) ∧
    (t.cell d c).data = (u.cell d c).data ∧
    ∀ y, (u.bufDie d).openCell.find w = none → (t.bufDie d).rawPool y = (u.bufDie d).rawPool y := by
  have hparcels : (cellDraw d w hint s).parcels [] = s.parcels [] := by
    unfold cellDraw
    rw [h]
    exact (State.parcels_modBufDie _ d rfl rfl).trans (drawCell_parcels h)
  have hregs : (cellDraw d w hint s).regs = s.regs := by
    have := congrArg (fun x => x.2.regs) hparcels
    simpa [State.parcels] using this
  have hbuf : (cellDraw d w hint s).bufDie d =
      { (u.opens d w (s.writerOwner w) (s.drawLedger d w) c).bufDie d with
        waiting := ((u.opens d w (s.writerOwner w) (s.drawLedger d w) c).bufDie d).waiting.erase w } := by
    unfold cellDraw
    rw [h]
    exact State.bufDie_modBufDie_same ..
  have hcell : (cellDraw d w hint s).cell d c = (u.opens d w (s.writerOwner w) (s.drawLedger d w) c).cell d c := by
    unfold State.cell; rw [hbuf]
  obtain ⟨hstate, howner, hledger, hrefs, hdata⟩ := opens_cell (d := d) (w := w) (c := c) (s.writerOwner w) (s.drawLedger d w) u
  dsimp only
  rw [hcell]
  refine ⟨⟨?_, hstate, howner, hledger, hrefs, hregs, keeps_of_parcels hparcels⟩, hdata, fun y hy => ?_⟩
  · rw [hbuf]; exact opens_openCell ..
  · rw [hbuf]; exact opens_rawPool _ _ hy y

/-- A draw that finds no cell waits. -/
theorem cellDraw_waits (h : drawCell d w hint s = none) : let t := cellDraw d w hint s
    w ∈ (t.bufDie d).waiting ∧ (t.bufDie d).cells = (s.bufDie d).cells ∧ Keeps [] s t := by
  unfold cellDraw
  rw [h]
  dsimp only
  rw [State.bufDie_modBufDie_same]
  refine ⟨?_, rfl, keeps_of_parcels (State.parcels_modBufDie _ d rfl rfl)⟩
  dsimp only
  split
  · assumption
  · simp

end Draw

/-! ### The zeroing engine (06 R209, R210) -/

section Zeroing
variable {s : State} {d c : Nat} {rest : List Nat}

/-- The zeroing engine has a cell to take. -/
abbrev State.zeroing (d : Nat) (s : State) : Prop := (s.bufDie d).zeroPool < s.fld { name := .bufZcfg, die := d } BufZcfg.ZTARGET

/-- The state in which the cell that is to be verified is taken. -/
def State.verifying (d : Nat) (rest : List Nat) (s : State) : State := s.modBufDie d fun b => { b with verify := rest }

theorem zeroStep_rests (clean : Bool) (h : s.fld { name := .bufZcfg, die := d } BufZcfg.ZTARGET ≤ (s.bufDie d).zeroPool) :
    zeroStep d clean s = s := if_pos h

theorem zeroStep_verify (clean : Bool) (h : s.zeroing d) (hv : takeFirst (fun c => !((s.bufDie d).away c)) (s.bufDie d).verify = some (c, rest)) :
    zeroStep d clean s =
      if clean then zeroCell d c (s.verifying d rest) else retireCell d c (zeroCell d c (s.verifying d rest)) := by
  unfold zeroStep
  rw [if_neg (by omega)]
  dsimp only
  rw [hv]
  rfl

theorem zeroStep_idle {o : Nat} (clean : Bool) (h : s.zeroing d) (hv : takeFirst (fun c => !((s.bufDie d).away c)) (s.bufDie d).verify = none)
    (ho : ownerTags.find? (fun o => !((s.bufDie d).pool o).isEmpty && !((s.bufDie d).ownerBusy o)) = some o) (hp : (s.bufDie d).pool o = c :: rest) :
    zeroStep d clean s = zeroCell d c (s.modBufDie d fun b => { b with recycle := b.recycle.set o ((b.rawPool o).erase c) }) := by
  unfold zeroStep
  rw [if_neg (by omega)]
  dsimp only
  rw [hv, ho]
  dsimp only
  rw [hp]

theorem keeps_verifying (d : Nat) (rest : List Nat) (s : State) : Keeps [] s (s.verifying d rest) := Keeps.of_eq rfl rfl rfl rfl rfl

/-- A cell that reads back clean enters the zero pool. -/
theorem verified_zero : let t := zeroCell d c (s.verifying d rest)
    t.cell d c = {} ∧ (t.bufDie d).verify = rest ∧ Keeps [.bufZcnt] s t := by
  refine ⟨zeroCell_cell_same .., ?_, ((keeps_verifying d rest s).trans (keeps_zeroCell d c _)).mono (by simp)⟩
  rw [zeroCell_bufDie]
  unfold State.verifying
  rw [State.bufDie_modBufDie_same]

/-- A cell that does not read back clean is retired after it was zeroed. -/
theorem verified_retired (ha : s.active d = true) : let t := retireCell d c (zeroCell d c (s.verifying d rest))
    (t.cell d c).state = 5 ∧ (t.bufDie d).verify = rest ∧ (t.bufDie d).retired = (s.bufDie d).retired + 1 ∧
      t.fld (dreg .bufErr d) BufErr.RETIRE = 1 ∧ Keeps [.bufErr, .bufZcnt] s t := by
  obtain ⟨-, hverify, hzero⟩ := verified_zero (s := s) (d := d) (c := c) (rest := rest)
  set z := zeroCell d c (s.verifying d rest) with hz
  have hretired : (z.bufDie d).retired = (s.bufDie d).retired := by
    rw [hz, zeroCell_bufDie]; unfold State.verifying; rw [State.bufDie_modBufDie_same]
  have hbuf : (retireCell d c z).bufDie d = (z.outOfUse d c).bufDie d := by unfold State.bufDie; rw [retireCell_buf]
  have hcell : (z.outOfUse d c).bufDie d =
      { z.bufDie d with cells := ((z.modCell d c fun y => { y with state := 5, ledger := none }).bufDie d).cells,
                        retired := (z.bufDie d).retired + 1 } := by
    unfold State.outOfUse State.modCell
    rw [State.bufDie_modBufDie_same, State.bufDie_modBufDie_same]
  have hout : Keeps [] z (z.outOfUse d c) := Keeps.of_eq rfl rfl rfl rfl rfl
  have hmark : (raise (dreg .bufErr d) BufErr.RETIRE (z.outOfUse d c)).fld (dreg .bufErr d) BufErr.RETIRE = 1 :=
    fld_raise _ _ _ (((hzero.trans hout).active (by simp) d).trans ha) rfl (by decide)
  dsimp only
  refine ⟨?_, ?_, ?_, ?_, (hzero.trans (worksOn_retireCell d c z (ns := [.bufErr]) (by simp)).keeps).mono ?_⟩
  · rw [State.cell_of_buf (retireCell_buf d c z), State.outOfUse, State.cell_modBufDie _ _ _ rfl, State.cell_modCell_same]
  · rw [hbuf, hcell]; exact hverify
  · rw [hbuf, hcell]; exact congrArg (· + 1) hretired
  · rcases retireCell_cases d c z with h | h
    · rw [h]; exact hmark
    · rw [h]; exact fld_raise_marked _ _ (by decide) rfl hmark
  · simp

/-- The oldest idle recycled cell enters the zero pool. -/
theorem recycled_zero (o : Nat) : let t := zeroCell d c (s.modBufDie d fun b => { b with recycle := b.recycle.set o ((b.rawPool o).erase c) })
    t.cell d c = {} ∧ (t.bufDie d).rawPool o = ((s.bufDie d).rawPool o).erase c ∧ Keeps [.bufZcnt] s t := by
  refine ⟨zeroCell_cell_same .., ?_, (Keeps.trans (Keeps.of_eq rfl rfl rfl rfl rfl) (keeps_zeroCell d c _)).mono (by simp)⟩
  rw [zeroCell_bufDie, State.bufDie_modBufDie_same]
  exact FMap.get_set_same ..

end Zeroing

/-! ### Reservations (06 R218) -/

/-- The reservation register of a partition or of a port, and the fields that a write of it stores. -/
def reservation (d : Nat) (part : Bool) (i : Nat) : Reg × List Field :=
  if part then ({ name := .bufPart, die := d, i := i }, [BufPart.PCAP, BufPart.MINRES])
  else ({ name := .bufPres, die := d, i := i }, [BufPres.HOLDRES, BufPres.INRES])

theorem reservation_fits (d : Nat) (part : Bool) (i : Nat) : ∀ f ∈ (reservation d part i).2, f.Fits := by
  cases part
  · exact (by decide : ∀ f ∈ [BufPres.HOLDRES, BufPres.INRES], f.Fits)
  · exact (by decide : ∀ f ∈ [BufPart.PCAP, BufPart.MINRES], f.Fits)

theorem reservation_apart (d : Nat) (part : Bool) (i : Nat) : (reservation d part i).2.Pairwise Field.Apart := by
  cases part
  · exact (by decide : [BufPres.HOLDRES, BufPres.INRES].Pairwise Field.Apart)
  · exact (by decide : [BufPart.PCAP, BufPart.MINRES].Pairwise Field.Apart)

section Reservations
variable {s : State} {d n : Nat} {part : Bool} {v : Word}

/-- The state in which a reservation is stored. -/
def State.reserving (d : Nat) (part : Bool) (i : Nat) (v : Word) (s : State) : State :=
  s.storeFlds (reservation d part i).1 v (reservation d part i).2

theorem reservationWrite_eq : reservationWrite d part n v s =
    if (s.reserving d part n v).sharedSize d < 16384 then raise (dreg .bufErr d) BufErr.RESV s else s.reserving d part n v := by
  cases part <;> rfl

theorem exec_reservation (hd : d < s.dieCount) (hn : n < if part then s.partCount else 16) :
    exec (.bufReservationWrite d part n v) s = .next (reservationWrite d part n v s) := congrArg _ (if_pos ⟨hd, hn⟩)

/-- A reservation that leaves 16,384 shared cells is stored. -/
theorem reservation_stored (hd : d < s.dieCount) (hn : n < if part then s.partCount else 16) (h : 16384 ≤ (s.reserving d part n v).sharedSize d) :
    Does (.bufReservationWrite d part n v) s fun t => t = s.reserving d part n v ∧
      ∀ f ∈ (reservation d part n).2, t.fld (reservation d part n).1 f = f.of v := by
  refine ⟨_, exec_reservation hd hn, ?_⟩
  rw [reservationWrite_eq, if_neg (by omega)]
  exact ⟨rfl, fun f hf => State.fld_storeFlds s _ v (reservation_fits d part n) (reservation_apart d part n) hf⟩

/-- One that would leave fewer is refused. -/
theorem reservation_refused (hd : d < s.dieCount) (ha : s.active d = true) (hn : n < if part then s.partCount else 16)
    (h : (s.reserving d part n v).sharedSize d < 16384) :
    Does (.bufReservationWrite d part n v) s fun t => t.fld (dreg .bufErr d) BufErr.RESV = 1 ∧ Keeps [.bufErr] s t := by
  refine ⟨_, exec_reservation hd hn, ?_⟩
  rw [reservationWrite_eq, if_pos h]
  exact ⟨fld_raise (dreg .bufErr d) BufErr.RESV s ha rfl (by decide), keeps_raise _ _ _⟩

end Reservations

end Sys2Proof.Machine
end

section
/-! SUPPORT. The audit: what a round does at a cell's turn, the list of leaked cells, its verdicts, and the statement that they meet
(06 R226 to R228). -/

namespace Sys2Proof.Machine

/-! ### Deliveries leave the buffers -/

theorem toBmc_buf (m : BmcMsg) (s : State) : (toBmc m s).buf = s.buf := by
  unfold toBmc
  split <;> rfl

theorem toEndpoint_buf (n d e : Nat) (s : State) : (toEndpoint n d e s).buf = s.buf := by
  unfold toEndpoint
  dsimp only
  split
  · exact State.forAll_keeps State.buf (fun f t => t.modFlt fun x => { x with pme := x.pme ++ [(n, f)] }) (fun _ _ => rfl) _ _
  · split <;> rfl

theorem deliverRouted_buf (d e part : Nat) (m : BmcMsg) (s : State) : (deliverRouted d e part m s).buf = s.buf := by
  unfold deliverRouted recNote
  simp only [apply_ite State.buf, State.modFlt_buf, toBmc_buf, toEndpoint_buf, ite_self]

theorem deliverVerdict_buf (d e mode part : Nat) (s : State) : (deliverVerdict d e mode part s).buf = s.buf := by
  unfold deliverVerdict
  simp only [apply_ite State.buf, toBmc_buf, toEndpoint_buf, deliverRouted_buf, ite_self]

theorem refuseVerdict_buf (d : Nat) (s : State) : (refuseVerdict d s).buf = s.buf := deliverRouted_buf ..

/-! ### One turn of the audit (06 R226, R227) -/

/-- The state that a round works on: the round is counted, and every cell is unseen. -/
def auditBegin (d : Nat) (s : State) : State :=
  ((s.count (auditReg d) BufAudit.ROUNDS 1).modBufDie d fun b => { b with round := (s.bufDie d).round + 1 }).forAll
    ((s.bufDie d).cells.map Prod.fst) fun c => fun t => t.modCell d c fun y => { y with seen := false }

/-- The turn of a cell: what becomes of the state, the cells found leaked in this round, and the number of suspects. -/
def auditTurn (d : Nat) (held : List Nat) (round c : Nat) (a : State × List (Nat × Nat) × Nat) : State × List (Nat × Nat) × Nat :=
  let t := a.1
  let x := t.cell d c
  let found := held.count c
  if x.bad = true ∧ found = 0 ∧ (x.state = 2 ∨ x.state = 3) then (retireCell d c (leaveLedger d c t), a.2)
  else if x.state ≤ 1 ∧ 0 < found then (refover d c found t, a.2)
  else if (x.state = 2 ∨ x.state = 3) ∧ x.seen = false then
    if x.refs < found then (refover d c found t, a.2)
    else if found < x.refs then
      if x.suspect = some (x.refs, found, round - 1) then
        (t, (if x.listed then a.2.1 else a.2.1 ++ [(c, found)]), a.2.2)
      else
        (raise (dreg .bufErr d) BufErr.LEAK (t.modCell d c fun y => { y with suspect := some (x.refs, found, round) }), a.2.1, a.2.2 + 1)
    else (t, a.2)
  else (t, a.2)

/-- The reclaim of a cell found leaked, with the references found. -/
def reclaimLeak (d : Nat) (x : Nat × Nat) (s : State) : State := reclaimCell d x.1 x.2 s

/-- The end of a round: its suspects are shown, and its leaked cells are reclaimed or listed. -/
def auditEnd (d : Nat) (r : State × List (Nat × Nat) × Nat) : State :=
  let s1 := r.1.setSat (auditReg d) BufAudit.SUSPECTS r.2.2
  if s1.assist PartAssist.LEAK = 0 then s1.forAll r.2.1 (reclaimLeak d) else listLeaks d r.2.1 s1

/-- The turns of some cells. -/
def auditTurns (d : Nat) (held : List Nat) (round : Nat) (l : List Nat) (a : State × List (Nat × Nat) × Nat) : State × List (Nat × Nat) × Nat :=
  l.foldl (fun a c => auditTurn d held round c a) a

theorem auditRound_eq (d : Nat) (s : State) : auditRound d s = auditEnd d (auditTurns d (s.holderCells d) ((s.bufDie d).round + 1)
    ((s.bufDie d).cells.map Prod.fst) (auditBegin d s, [], 0)) := rfl

theorem keeps_auditBegin (d : Nat) (s : State) : Keeps [] (s.count (auditReg d) BufAudit.ROUNDS 1) (auditBegin d s) :=
  keeps_of_beyond ((State.beyond_forAll _ (fun _ t => t.beyond_modBufDie d _) _).trans (State.beyond_modBufDie ..))

/-- A cell with its SEEN clear. -/
def CellRec.unseen (x : CellRec) : CellRec := { x with seen := false }

/-- At the beginning of a round the SEEN of a listed cell is clear. -/
theorem auditBegin_cell {d c : Nat} {s : State} (hc : c ∈ (s.bufDie d).cells.map Prod.fst) : (auditBegin d s).cell d c = (s.cell d c).unseen := by
  unfold auditBegin
  refine State.forAll_reaches (Q := fun t => t.cell d c = (s.cell d c).unseen) (P := fun t => (t.cell d c).unseen = (s.cell d c).unseen)
    (fun b t ht => ?_) (fun t ht => ?_) (fun b t ht => ?_) hc ?_
  · rw [State.cell_modCell]
    split
    · rename_i h; rw [← ht, h]; rfl
    · exact ht
  · rw [State.cell_modCell_same]; exact ht
  · rw [State.cell_modCell]
    split
    · rename_i h; rw [← h, ht]; rfl
    · exact ht
  · rw [State.cell_modBufDie _ _ _ rfl, State.cell_count]

section Turn
variable {d : Nat} {held : List Nat} {round c : Nat} {a : State × List (Nat × Nat) × Nat}

/-- A turn works on its cell alone, and finds no other cell leaked. -/
theorem auditTurn_works : WorksOn cellRegs d [c] a.1 (auditTurn d held round c a).1 ∧
    ∀ y, y.1 ≠ c → (y ∈ (auditTurn d held round c a).2.1 ↔ y ∈ a.2.1) := by
  have hledger : WorksOn cellRegs d [c] a.1 (leaveLedger d c a.1) := .of_parcels (by simp) fun k _ => leaveLedger_cell a.1 d c k
  unfold auditTurn
  dsimp only
  split
  · exact ⟨hledger.trans (worksOn_retireCell d c _ (by simp)), fun _ _ => Iff.rfl⟩
  split
  · exact ⟨worksOn_refover d c a.1 _, fun _ _ => Iff.rfl⟩
  split
  · split
    · exact ⟨worksOn_refover d c a.1 _, fun _ _ => Iff.rfl⟩
    split
    · split
      · refine ⟨.refl .., fun y hy => ?_⟩
        dsimp only
        split
        · exact Iff.rfl
        · simp only [List.mem_append, List.mem_singleton, or_iff_left_iff_imp]
          intro h; exact absurd (congrArg Prod.fst h) hy
      · exact ⟨(worksOn_modCell d c _ a.1).trans (worksOn_raise BufErr.LEAK _ d [c]), fun _ _ => Iff.rfl⟩
    · exact ⟨.refl .., fun _ _ => Iff.rfl⟩
  · exact ⟨.refl .., fun _ _ => Iff.rfl⟩

/-- A free cell that is referenced is counted again. -/
theorem auditTurn_free (hs : (a.1.cell d c).state ≤ 1) (hf : 0 < held.count c) :
    auditTurn d held round c a = (refover d c (held.count c) a.1, a.2) := by
  unfold auditTurn
  dsimp only
  rw [if_neg (by omega), if_pos ⟨hs, hf⟩]

/-- A cell in use has more references than were found. -/
structure Leaks (d c found : Nat) (s : State) : Prop where
  used : (s.cell d c).state = 2 ∨ (s.cell d c).state = 3
  good : (s.cell d c).bad = false
  unseen : (s.cell d c).seen = false
  fewer : found < (s.cell d c).refs

theorem auditTurn_leaks (h : Leaks d c (held.count c) a.1) : auditTurn d held (round + 1) c a =
    let x := a.1.cell d c
    if x.suspect = some (x.refs, held.count c, round) then
      (a.1, (if x.listed then a.2.1 else a.2.1 ++ [(c, held.count c)]), a.2.2)
    else (raise (dreg .bufErr d) BufErr.LEAK (a.1.modCell d c fun y => { y with suspect := some (x.refs, held.count c, round + 1) }),
      a.2.1, a.2.2 + 1) := by
  obtain ⟨hused, hgood, hunseen, hfewer⟩ := h
  unfold auditTurn
  dsimp only
  rw [if_neg (by simp [hgood]), if_neg (by omega), if_pos ⟨hused, hunseen⟩, if_neg (by omega), if_pos hfewer, Nat.add_sub_cancel]

/-- A leak that the round before did not find makes its cell suspect. -/
theorem auditTurn_suspects (h : Leaks d c (held.count c) a.1)
    (hnew : (a.1.cell d c).suspect ≠ some ((a.1.cell d c).refs, held.count c, round)) : auditTurn d held (round + 1) c a =
    (raise (dreg .bufErr d) BufErr.LEAK (a.1.modCell d c fun y => { y with suspect := some ((a.1.cell d c).refs, held.count c, round + 1) }),
      a.2.1, a.2.2 + 1) := (auditTurn_leaks h).trans (if_neg hnew)

/-- One that the round before found too is a leak of this round. -/
theorem auditTurn_confirms (h : Leaks d c (held.count c) a.1)
    (hold : (a.1.cell d c).suspect = some ((a.1.cell d c).refs, held.count c, round)) (hfree : (a.1.cell d c).listed = false) :
    auditTurn d held (round + 1) c a = (a.1, a.2.1 ++ [(c, held.count c)], a.2.2) := by
  rw [auditTurn_leaks h]
  dsimp only
  rw [if_pos hold, if_neg (by simp [hfree])]

/-- The turns of some cells work on these alone. -/
theorem auditTurns_works (l : List Nat) (a : State × List (Nat × Nat) × Nat) : WorksOn cellRegs d l a.1 (auditTurns d held round l a).1 ∧
    ∀ y, y.1 ∉ l → (y ∈ (auditTurns d held round l a).2.1 ↔ y ∈ a.2.1) := by
  induction l generalizing a with
  | nil => exact ⟨.refl .., fun _ _ => Iff.rfl⟩
  | cons c l ih =>
    obtain ⟨hturn, hlist⟩ := auditTurn_works (d := d) (held := held) (round := round) (c := c) (a := a)
    obtain ⟨hrest, hlists⟩ := ih (auditTurn d held round c a)
    refine ⟨(hturn.mono (fun _ h => h) (by simp)).trans (hrest.mono (fun _ h => h) fun k hk => .tail _ hk), fun y hy => ?_⟩
    rw [List.mem_cons, not_or] at hy
    exact (hlists y hy.2).trans (hlist y hy.1)

/-- A cell that is listed once has one turn: the turns before and after it do not touch it. -/
theorem auditTurns_at {l : List Nat} (hn : l.Nodup) (hc : c ∈ l) (a : State × List (Nat × Nat) × Nat) : ∃ b,
    (WorksOn cellRegs d l a.1 b.1 ∧ b.1.cell d c = a.1.cell d c ∧ ∀ y, y.1 = c → (y ∈ b.2.1 ↔ y ∈ a.2.1)) ∧
    let u := auditTurn d held round c b
    let r := auditTurns d held round l a
    WorksOn cellRegs d l u.1 r.1 ∧ r.1.cell d c = u.1.cell d c ∧ ∀ y, y.1 = c → (y ∈ r.2.1 ↔ y ∈ u.2.1) := by
  obtain ⟨l1, l2, rfl⟩ := List.append_of_mem hc
  have hsplit : auditTurns d held round (l1 ++ c :: l2) a =
      auditTurns d held round l2 (auditTurn d held round c (auditTurns d held round l1 a)) := by simp [auditTurns]
  have h1 : c ∉ l1 := by grind
  have h2 : c ∉ l2 := by grind
  obtain ⟨hbefore, hlist1⟩ := auditTurns_works (d := d) (held := held) (round := round) l1 a
  obtain ⟨hafter, hlist2⟩ := auditTurns_works (d := d) (held := held) (round := round) l2
    (auditTurn d held round c (auditTurns d held round l1 a))
  refine ⟨_, ⟨hbefore.mono (fun _ h => h) (by simp_all), hbefore.cells c h1, fun y hy => hlist1 y (hy ▸ h1)⟩, ?_⟩
  dsimp only
  rw [hsplit]
  exact ⟨hafter.mono (fun _ h => h) (by simp_all), hafter.cells c h2, fun y hy => hlist2 y (hy ▸ h2)⟩

end Turn

/-! ### The end of a round (06 R226 to R228) -/

/-- The registers that an audit round writes. -/
abbrev auditRegs : List RegName := [.bufErr, .bufAudit, .bufLeakv, .bufLeakrec, .partEvtq]

section End
variable {d : Nat} {s : State}

theorem worksOn_reclaimLeak (x : Nat × Nat) (s : State) : WorksOn cellRegs d [x.1] s (reclaimLeak d x s) := worksOn_reclaimCell d x.1 s x.2

theorem worksOn_reclaims (l : List (Nat × Nat)) {ns : List RegName} (hn : ∀ n ∈ cellRegs, n ∈ ns) (cs : List Nat) (hc : ∀ x ∈ l, x.1 ∈ cs)
    (s : State) : WorksOn ns d cs s (s.forAll l (reclaimLeak d)) :=
  .forAll (fun x hx t => (worksOn_reclaimLeak x t).mono hn (by simpa using hc x hx)) s

/-- Listing leaked cells works on these alone. -/
theorem worksOn_listLeaks (l : List (Nat × Nat)) (s : State) : WorksOn auditRegs d (l.map Prod.fst) s (listLeaks d l s) := by
  unfold listLeaks
  split
  · exact .refl ..
  split
  · exact .refl ..
  extract_lets mode tag s1 s2
  have h1 : WorksOn auditRegs d (l.map Prod.fst) s s1 := by
    refine .forAll (fun x hx t => ?_) s
    have hmem : x.1.1 ∈ l.map Prod.fst := List.mem_map_of_mem (List.mem_of_mem_take (List.fst_mem_of_mem_zipIdx hx))
    have hrec := keeps_setReg (t.modCell d x.1.1 fun y => { y with listed := true }) (leakRec d x.2)
    exact (worksOn_modCell d x.1.1 _ t |>.mono (fun _ h => h) (by simpa using hmem)).trans
      ((WorksOn.of_keeps (ns := [.bufLeakrec]) (hrec _) fun _ _ => rfl).mono (by simp) fun _ h => h)
  have h2 : WorksOn auditRegs d (l.map Prod.fst) s1 s2 :=
    worksOn_reclaims _ (by simp) _ (fun x hx => List.mem_map_of_mem (List.mem_of_mem_drop hx)) s1
  refine (h1.trans h2).trans ?_
  set u := (s2.setFld (dreg .bufLeakv d) BufLeakv.TAG tag).modBufDie d fun b =>
    { b with leakTag := tag, leakMode := mode, leakExpired := b.leakExpired.filter (· != tag) }
  have hu : Keeps [.bufLeakv] s2 u :=
    ((keeps_setFld s2 (dreg .bufLeakv d) BufLeakv.TAG tag).trans (Keeps.of_eq rfl rfl rfl rfl rfl)).mono (by simp [dreg])
  refine (WorksOn.of_keeps (hu.trans (keeps_deliverVerdict d 992 mode 0x3F u)) fun k _ => ?_).mono (by simp) fun _ h => h
  exact (State.cell_of_buf (deliverVerdict_buf ..) d k).trans (State.cell_modBufDie _ d k rfl)

variable {r : State × List (Nat × Nat) × Nat}

theorem worksOn_suspects (cs : List Nat) (r : State × List (Nat × Nat) × Nat) :
    WorksOn cellRegs d cs r.1 (r.1.setSat (auditReg d) BufAudit.SUSPECTS r.2.2) :=
  worksOn_setFld (f := BufAudit.SUSPECTS) (by decide) (by decide) _ r.1 d cs

/-- The end of a round works on the cells found leaked. -/
theorem worksOn_auditEnd (r : State × List (Nat × Nat) × Nat) : WorksOn auditRegs d (r.2.1.map Prod.fst) r.1 (auditEnd d r) := by
  refine ((worksOn_suspects _ r).mono (by simp) fun _ h => h).trans ?_
  unfold auditEnd
  dsimp only
  split
  · exact worksOn_reclaims _ (by simp) _ (fun x hx => List.mem_map_of_mem hx) _
  · exact worksOn_listLeaks _ _

/-- Each cell of a list of leaks, in which no cell has two counts, is reclaimed with its count. -/
theorem reclaims_cell {l : List (Nat × Nat)} {x : Nat × Nat} (ha : s.active d = true) (hx : x ∈ l) (hone : ∀ y ∈ l, y.1 = x.1 → y.2 = x.2) :
    let t := s.forAll l (reclaimLeak d)
    (t.cell d x.1).refs = x.2 ∧ t.fld (dreg .bufErr d) BufErr.RECLAIM = 1 := by
  have hgive : ∀ t, ((reclaimLeak d x t).cell d x.1).refs = x.2 := fun t => reclaimCell_refs d x.1 t x.2
  have hkeep : ∀ y ∈ l, ∀ t, (t.cell d x.1).refs = x.2 → ((reclaimLeak d y t).cell d x.1).refs = x.2 := by
    intro y hy t ht
    by_cases hyx : y.1 = x.1
    · rw [← hyx, ← hone y hy hyx]; exact reclaimCell_refs d y.1 t y.2
    · rw [(worksOn_reclaimLeak y t).cells x.1 (by simpa using Ne.symm hyx)]; exact ht
  have hactive : ∀ y t, t.active d = true → (reclaimLeak d y t).active d = true := fun y t ht =>
    ((worksOn_reclaimLeak y t).keeps.active (by decide) d).trans ht
  have hsource : ∀ t, t.active d = true → (reclaimLeak d x t).fld (dreg .bufErr d) BufErr.RECLAIM = 1 := fun t =>
    reclaimCell_source d x.1 t x.2
  have hmark : ∀ y t, t.fld (dreg .bufErr d) BufErr.RECLAIM = 1 → (reclaimLeak d y t).fld (dreg .bufErr d) BufErr.RECLAIM = 1 := fun y t =>
    (worksOn_reclaimLeak y t).marks BufErr.RECLAIM rfl
  exact ⟨State.forAll_gives hx hgive hkeep s, State.forAll_reaches hactive hsource hmark hx ha⟩

/-- In hardware mode a cell found leaked gets the references that were found. -/
theorem auditEnd_reclaims {c f : Nat} (ha : r.1.active d = true) (hm : r.1.assist PartAssist.LEAK = 0) (hx : (c, f) ∈ r.2.1)
    (hone : ∀ y ∈ r.2.1, y.1 = c → y.2 = f) :
    ((auditEnd d r).cell d c).refs = f ∧ (auditEnd d r).fld (dreg .bufErr d) BufErr.RECLAIM = 1 := by
  have hsus := (worksOn_suspects (d := d) [] r).keeps
  have hmode : (r.1.setSat (auditReg d) BufAudit.SUSPECTS r.2.2).assist PartAssist.LEAK = 0 :=
    (hsus.fld partAssist PartAssist.LEAK (by decide)).trans hm
  have hend : auditEnd d r = (r.1.setSat (auditReg d) BufAudit.SUSPECTS r.2.2).forAll r.2.1 (reclaimLeak d) := by
    unfold auditEnd
    exact if_pos hmode
  rw [hend]
  simpa only using reclaims_cell ((hsus.active (by decide) d).trans ha) hx hone

end End

/-! ### A round (06 R226, R227) -/

section Round
variable {d c : Nat} {s : State}

/-- A round is its beginning and work that writes the registers of the audit alone. -/
theorem worksOn_auditRound (d : Nat) (s : State) : ∃ cs, WorksOn auditRegs d cs (auditBegin d s) (auditRound d s) := by
  obtain ⟨hturns, -⟩ := auditTurns_works (d := d) (held := s.holderCells d) (round := (s.bufDie d).round + 1)
    ((s.bufDie d).cells.map Prod.fst) (auditBegin d s, [], 0)
  rw [auditRound_eq]
  generalize auditTurns d _ _ _ _ = r at hturns
  exact ⟨_ ++ r.2.1.map Prod.fst, (hturns.mono (by simp) fun _ => List.mem_append_left _).trans
    ((worksOn_auditEnd r).mono (fun _ h => h) fun _ => List.mem_append_right _)⟩

/-- A round counts itself and leaves the memory. -/
theorem auditRound_counts (d : Nat) (s : State) : (auditRound d s).mem = s.mem ∧
    (auditRound d s).fld (auditReg d) BufAudit.ROUNDS = (s.count (auditReg d) BufAudit.ROUNDS 1).fld (auditReg d) BufAudit.ROUNDS := by
  have hbegin := keeps_auditBegin d s
  obtain ⟨cs, hwork⟩ := worksOn_auditRound d s
  exact ⟨hwork.keeps.1.trans hbegin.1, hwork.rounds.trans (hbegin.fld (auditReg d) BufAudit.ROUNDS (by simp))⟩

/-- The turn of a cell in a round: before it (`b`) the cell is unseen and not found leaked, and after it the round goes on (to `r`) without it. -/
structure Turn (d c : Nat) (s : State) (b r : State × List (Nat × Nat) × Nat) : Prop where
  unseen : b.1.cell d c = (s.cell d c).unseen
  active : b.1.active d = true
  assist : b.1.assist PartAssist.LEAK = s.assist PartAssist.LEAK
  fresh : ∀ y ∈ b.2.1, y.1 ≠ c
  after : WorksOn cellRegs d ((s.bufDie d).cells.map Prod.fst) (auditTurn d (s.holderCells d) ((s.bufDie d).round + 1) c b).1 r.1
  kept : r.1.cell d c = (auditTurn d (s.holderCells d) ((s.bufDie d).round + 1) c b).1.cell d c
  found : ∀ y, y.1 = c → (y ∈ r.2.1 ↔ y ∈ (auditTurn d (s.holderCells d) ((s.bufDie d).round + 1) c b).2.1)
  ends : auditRound d s = auditEnd d r

theorem exists_turn (hn : ((s.bufDie d).cells.map Prod.fst).Nodup) (hc : c ∈ (s.bufDie d).cells.map Prod.fst) (ha : s.active d = true) :
    ∃ b r, Turn d c s b r := by
  obtain ⟨b, ⟨hwork, hcell, hlist⟩, hafter, hkept, hfound⟩ := auditTurns_at (d := d) (held := s.holderCells d)
    (round := (s.bufDie d).round + 1) hn hc (auditBegin d s, [], 0)
  have hkeep : Keeps cellRegs s b.1 :=
    (((keeps_count s (auditReg d) BufAudit.ROUNDS 1).trans (keeps_auditBegin d s)).trans hwork.keeps).mono (by simp)
  exact ⟨b, _, hcell.trans (auditBegin_cell hc), (hkeep.active (by decide) d).trans ha, hkeep.fld partAssist PartAssist.LEAK (by decide),
    fun y hy hyc => by simpa using (hlist y hyc).mp hy, hafter, hkept, hfound, auditRound_eq d s⟩

variable {b r : State × List (Nat × Nat) × Nat}

/-- What a turn that finds no leak leaves of its cell stands at the end of the round, and so do the sources that it sets. -/
theorem Turn.stands (h : Turn d c s b r) {u : State} {n : Nat}
    (hu : auditTurn d (s.holderCells d) ((s.bufDie d).round + 1) c b = (u, b.2.1, n)) : (auditRound d s).cell d c = u.cell d c ∧
      ∀ f : Field, f.hi = f.lo → u.fld (dreg .bufErr d) f = 1 → (auditRound d s).fld (dreg .bufErr d) f = 1 := by
  obtain ⟨-, -, -, hfresh, hafter, hkept, hfound, hends⟩ := h
  rw [hu] at hafter hkept hfound
  have hend := worksOn_auditEnd (d := d) r
  have hout : c ∉ r.2.1.map Prod.fst := by
    rintro hmem
    obtain ⟨y, hy, hyc⟩ := List.mem_map.mp hmem
    exact hfresh y ((hfound y hyc).mp hy) hyc
  rw [hends]
  exact ⟨(hend.cells c hout).trans hkept, fun f hf hset => hend.marks f hf (hafter.marks f hf hset)⟩

variable (hn : ((s.bufDie d).cells.map Prod.fst).Nodup) (hc : c ∈ (s.bufDie d).cells.map Prod.fst) (ha : s.active d = true)
include hn hc ha

/-- A free cell that is referenced is in use with the references found (06 R226). -/
theorem auditRound_refover (hs : (s.cell d c).state ≤ 1) (hf : 0 < (s.holderCells d).count c) : let t := auditRound d s
    (t.cell d c).refs = (s.holderCells d).count c ∧ (t.cell d c).state = 3 ∧ t.fld (dreg .bufErr d) BufErr.REFOVER = 1 := by
  obtain ⟨b, r, h⟩ := exists_turn hn hc ha
  have hfree : (b.1.cell d c).state ≤ 1 := by rw [h.unseen]; exact hs
  obtain ⟨hcell, hmarks⟩ := h.stands (auditTurn_free hfree hf)
  dsimp only
  rw [hcell, refover_eq, raise_cell, recounted_cell, if_pos rfl]
  have hsource := hmarks BufErr.REFOVER rfl (refover_source d c b.1 _ h.active)
  dsimp only
  exact ⟨rfl, if_pos hfree, hsource⟩

variable (hused : (s.cell d c).state = 2 ∨ (s.cell d c).state = 3) (hgood : (s.cell d c).bad = false)
  (hfewer : (s.holderCells d).count c < (s.cell d c).refs)
include hused hgood hfewer

omit hn hc ha in
/-- A cell with more references than holders leaks at its turn. -/
theorem Turn.leaks (h : Turn d c s b r) : Leaks d c ((s.holderCells d).count c) b.1 := by
  constructor <;> rw [h.unseen]
  exacts [hused, hgood, rfl, hfewer]

/-- A leak that the round before did not find is suspected (06 R226). -/
theorem auditRound_suspects (hnew : (s.cell d c).suspect ≠ some ((s.cell d c).refs, (s.holderCells d).count c, (s.bufDie d).round)) :
    let t := auditRound d s
    (t.cell d c).suspect = some ((s.cell d c).refs, (s.holderCells d).count c, (s.bufDie d).round + 1) ∧
      t.fld (dreg .bufErr d) BufErr.LEAK = 1 := by
  obtain ⟨b, r, h⟩ := exists_turn hn hc ha
  have hturn := auditTurn_suspects (round := (s.bufDie d).round) (h.leaks hused hgood hfewer) (by rw [h.unseen]; exact hnew)
  obtain ⟨hcell, hmarks⟩ := h.stands hturn
  dsimp only
  rw [hcell, raise_cell, State.cell_modCell_same, h.unseen]
  exact ⟨rfl, hmarks BufErr.LEAK rfl (fld_raise_bufErr (worksOn_modCell (ns := []) d c _ _).keeps h.active)⟩

/-- A leak that the round before found too is reclaimed in hardware mode (06 R227). -/
theorem auditRound_reclaims (hold : (s.cell d c).suspect = some ((s.cell d c).refs, (s.holderCells d).count c, (s.bufDie d).round))
    (hfree : (s.cell d c).listed = false) (hm : s.assist PartAssist.LEAK = 0) : let t := auditRound d s
    (t.cell d c).refs = (s.holderCells d).count c ∧ t.fld (dreg .bufErr d) BufErr.RECLAIM = 1 := by
  obtain ⟨b, r, h⟩ := exists_turn hn hc ha
  have hturn := auditTurn_confirms (round := (s.bufDie d).round) (h.leaks hused hgood hfewer) (by rw [h.unseen]; exact hold)
    (by rw [h.unseen]; exact hfree)
  obtain ⟨-, hact, hassist, hfresh, hafter, -, hfound, hends⟩ := h
  rw [hturn] at hafter hfound
  dsimp only at hafter hfound ⊢
  rw [hends]
  have hone : ∀ y ∈ r.2.1, y.1 = c → y.2 = (s.holderCells d).count c := fun y hy hyc => by
    rcases List.mem_append.mp ((hfound y hyc).mp hy) with hmem | hmem
    · exact absurd hyc (hfresh y hmem)
    · rw [List.mem_singleton.mp hmem]
  have hlisted : (c, (s.holderCells d).count c) ∈ r.2.1 := (hfound _ rfl).mpr (by simp)
  have hmode : r.1.assist PartAssist.LEAK = 0 := (hafter.keeps.fld partAssist PartAssist.LEAK (by decide)).trans (hassist.trans hm)
  have hactive : r.1.active d = true := (hafter.keeps.active (by decide) d).trans hact
  exact auditEnd_reclaims hactive hmode hlisted hone

end Round

/-! ### Leak verdicts (06 R228) -/

/-- The turn of an entry of the list under RECLAIM. -/
def reclaimEntry (d i : Nat) (t : State) : State :=
  let r := leakRec d i
  let c := t.fld r BufLeakrec.CELL
  if t.fld r BufLeakrec.VALID = 1 ∧ (t.cell d c).listed then reclaimCell d c (t.fld r BufLeakrec.FOUND) t else t

/-- The turn of an entry of the list under KEEP. -/
def keepEntry (d i : Nat) (t : State) : State :=
  let r := leakRec d i
  let c := t.fld r BufLeakrec.CELL
  if t.fld r BufLeakrec.VALID = 1 ∧ (t.cell d c).listed then t.modCell d c fun y => { y with suspect := none, listed := false } else t

theorem leakReclaim_eq (d : Nat) (s : State) : leakReclaim d s = endLeak d (s.forAll (List.range 64) (reclaimEntry d)) := rfl

theorem leakKeep_eq (d : Nat) (s : State) : leakKeep d s = endLeak d (s.forAll (List.range 64) (keepEntry d)) := rfl

/-- The turn of an entry of the list when the list ends. -/
def clearEntry (d i : Nat) (t : State) : State := t.setReg (leakRec d i) 0

/-- The state in which no leaks wait for a verdict. -/
def State.leakless (d : Nat) (s : State) : State := (s.setFld (dreg .bufLeakv d) BufLeakv.TAG 0).modBufDie d fun b => { b with leakMode := 0 }

theorem endLeak_eq (d : Nat) (s : State) : endLeak d s = (s.forAll (List.range 64) (clearEntry d)).leakless d := rfl

section Verdicts
variable {d h tag i : Nat} {s t : State}

/-- A hart's verdict with the waiting tag acts. -/
theorem leakVerdict_acts (htag : tag ≠ 0) (hw : s.fld (dreg .bufLeakv d) BufLeakv.TAG = tag) (apply : State → State) :
    leakVerdict (.hart d h) d tag apply s = apply s := if_pos ⟨htag, hw, rfl⟩

/-- One with another tag, which has not expired, is refused. -/
theorem leakVerdict_refused (who : Master) (hw : s.fld (dreg .bufLeakv d) BufLeakv.TAG ≠ tag) (hx : tag ∉ (s.bufDie d).leakExpired)
    (apply : State → State) : leakVerdict who d tag apply s = refuseVerdict d s := by
  unfold leakVerdict
  dsimp only
  rw [if_neg (fun hact => hw hact.2.1), if_neg hx]

/-- Every entry of the list is clear when the list ends. -/
theorem clearEntries_reg (hi : i < 64) (s : State) : (s.forAll (List.range 64) (clearEntry d)).reg (leakRec d i) = 0 := by
  have hturn : ∀ t, (clearEntry d i t).reg (leakRec d i) = 0 := fun t => t.reg_setReg_same _ _
  have hkeep : ∀ j ∈ List.range 64, ∀ t, t.reg (leakRec d i) = 0 → (clearEntry d j t).reg (leakRec d i) = 0 := by
    intro j _ t ht
    unfold clearEntry
    rw [State.reg_setReg]
    split
    · rfl
    · exact ht
  exact State.forAll_gives (List.mem_range.mpr hi) hturn hkeep s

theorem keeps_leakless (d : Nat) (s : State) : Keeps [.bufLeakv] s (s.leakless d) :=
  (keeps_setFld s (dreg .bufLeakv d) BufLeakv.TAG 0).trans (u := s.leakless d) (ms := []) (Keeps.of_eq rfl rfl rfl rfl rfl)

theorem leakless_tag (d : Nat) (s : State) : (s.leakless d).fld (dreg .bufLeakv d) BufLeakv.TAG = 0 :=
  s.fld_setFld_same (dreg .bufLeakv d) BufLeakv.TAG 0 (by decide) (by decide)

theorem leakless_entry (d i : Nat) (s : State) : (s.leakless d).reg (leakRec d i) = s.reg (leakRec d i) :=
  (keeps_leakless d s).reg (leakRec d i) (by simp [leakRec])

theorem keeps_endLeak (d : Nat) (s : State) : Keeps [.bufLeakv, .bufLeakrec] s (endLeak d s) := by
  rw [endLeak_eq]
  have hlist : Keeps [.bufLeakrec] s (s.forAll (List.range 64) (clearEntry d)) :=
    keeps_forAll (clearEntry d) (fun i t => keeps_setReg t (leakRec d i) 0) s _
  exact (hlist.trans (keeps_leakless d _)).mono (by simp)

/-- The end of the waiting leaks clears their tag and their list. -/
theorem endLeak_clears (d : Nat) (s : State) :
    (endLeak d s).fld (dreg .bufLeakv d) BufLeakv.TAG = 0 ∧ ∀ i, i < 64 → (endLeak d s).reg (leakRec d i) = 0 := by
  rw [endLeak_eq]
  exact ⟨leakless_tag d _, fun i hi => (leakless_entry d i _).trans (clearEntries_reg hi s)⟩

theorem endLeak_cell (d : Nat) (s : State) (c : Nat) : (endLeak d s).cell d c = s.cell d c := by
  rw [endLeak_eq, State.leakless, State.cell_modBufDie _ d c rfl, State.cell_setFld]
  exact State.forAll_keeps (fun t => t.cell d c) (clearEntry d) (fun _ t => t.cell_setReg d _ _ c) s _

/-- KEEP changes no reference count (06 R228). -/
theorem leakKeep_keeps (d : Nat) (s : State) : (∀ c, ((leakKeep d s).cell d c).refs = (s.cell d c).refs) ∧
    Keeps [.bufLeakv, .bufLeakrec] s (leakKeep d s) := by
  have hrefs : ∀ i t c, ((keepEntry d i t).cell d c).refs = (t.cell d c).refs := by
    intro i t c
    unfold keepEntry
    dsimp only
    split
    · rw [State.cell_modCell]
      split
      · rename_i hc; rw [hc]
      · rfl
    · rfl
  have hloop : Keeps [] s (s.forAll (List.range 64) (keepEntry d)) := keeps_forAll _ (fun i t => by
    unfold keepEntry
    dsimp only
    split
    · exact Keeps.of_eq rfl rfl rfl rfl rfl
    · exact Keeps.refl ..) s _
  rw [leakKeep_eq]
  refine ⟨fun c => ?_, (hloop.trans (keeps_endLeak d _)).mono (by simp)⟩
  rw [endLeak_cell]
  exact State.forAll_keeps (fun t => (t.cell d c).refs) _ (fun i t => hrefs i t c) s _

/-- The entry of the list works on the cell that it names. -/
theorem worksOn_reclaimEntry (d i : Nat) (t : State) : WorksOn cellRegs d [t.fld (leakRec d i) BufLeakrec.CELL] t (reclaimEntry d i t) := by
  unfold reclaimEntry
  dsimp only
  split
  · exact worksOn_reclaimCell d _ t _
  · exact .refl ..

/-- An entry leaves a cell that it does not name, and one that is not listed. -/
theorem reclaimEntry_leaves {c : Nat} (hc : t.fld (leakRec d i) BufLeakrec.CELL = c → (t.cell d c).listed = false) :
    (reclaimEntry d i t).cell d c = t.cell d c := by
  by_cases hn : t.fld (leakRec d i) BufLeakrec.CELL = c
  · have hout : ¬(t.fld (leakRec d i) BufLeakrec.VALID = 1 ∧ (t.cell d (t.fld (leakRec d i) BufLeakrec.CELL)).listed = true) := by
      rw [hn, hc hn]; simp
    rw [reclaimEntry, if_neg hout]
  · exact (worksOn_reclaimEntry d i t).cells c (by simpa using Ne.symm hn)

theorem keeps_leakReclaim (d : Nat) (s : State) : Keeps [.bufLeakv, .bufLeakrec, .bufErr, .bufAudit] s (leakReclaim d s) := by
  have hloop : Keeps cellRegs s (s.forAll (List.range 64) (reclaimEntry d)) := keeps_forAll _ (fun i t => (worksOn_reclaimEntry d i t).keeps) s _
  rw [leakReclaim_eq]
  exact (hloop.trans (keeps_endLeak d _)).mono (by simp)

/-- The numbers below a bound are those below one of them, that one, and others. -/
theorem range_split {n i : Nat} (hi : i < n) : ∃ l, List.range n = List.range i ++ i :: l := by
  obtain ⟨k, rfl⟩ := Nat.exists_eq_add_of_lt hi
  exact ⟨((List.range k).map Nat.succ).map (i + ·), by rw [Nat.add_assoc, List.range_add, List.range_succ_eq_map]; rfl⟩

/-- RECLAIM sets the references of a listed cell to those that its first entry found (06 R228). -/
theorem leakReclaim_reclaims {c : Nat} (ha : s.active d = true) (hi : i < 64) (hv : s.fld (leakRec d i) BufLeakrec.VALID = 1)
    (hc : s.fld (leakRec d i) BufLeakrec.CELL = c) (hl : (s.cell d c).listed = true)
    (hfirst : ∀ j, j < i → s.fld (leakRec d j) BufLeakrec.CELL ≠ c) : let t := leakReclaim d s
    (t.cell d c).refs = s.fld (leakRec d i) BufLeakrec.FOUND ∧ t.fld (dreg .bufErr d) BufErr.RECLAIM = 1 := by
  have hentry : ∀ {t}, Keeps cellRegs s t → ∀ j f, t.fld (leakRec d j) f = s.fld (leakRec d j) f := fun hk j f =>
    hk.fld (leakRec d j) f (by simp [leakRec])
  have hstep : ∀ j t, Keeps cellRegs s t → Keeps cellRegs s (reclaimEntry d j t) := fun j t hk =>
    (hk.trans (worksOn_reclaimEntry d j t).keeps).mono (by simp)
  obtain ⟨l, hl64⟩ := range_split hi
  set u := s.forAll (List.range i) (reclaimEntry d)
  obtain ⟨hu, hucell⟩ : Keeps cellRegs s u ∧ u.cell d c = s.cell d c := by
    refine State.forAll_of_mem (P := fun t => Keeps cellRegs s t ∧ t.cell d c = s.cell d c) (fun j hj t ht => ?_) ⟨Keeps.refl .., rfl⟩
    obtain ⟨hk, hcell⟩ := ht
    refine ⟨hstep j t hk, (reclaimEntry_leaves fun hn => ?_).trans hcell⟩
    exact absurd ((hentry hk j _).symm.trans hn) (hfirst j (List.mem_range.mp hj))
  have hturn : reclaimEntry d i u = reclaimCell d c (s.fld (leakRec d i) BufLeakrec.FOUND) u := by
    unfold reclaimEntry
    dsimp only
    rw [hentry hu, hentry hu, hentry hu, hc, if_pos ⟨hv, by rw [hucell]; exact hl⟩]
  have hrest : let t := (reclaimEntry d i u).forAll l (reclaimEntry d)
      (t.cell d c).refs = s.fld (leakRec d i) BufLeakrec.FOUND ∧ (t.cell d c).listed = false ∧ t.fld (dreg .bufErr d) BufErr.RECLAIM = 1 := by
    refine State.forAll_invariant (P := fun t => (t.cell d c).refs = s.fld (leakRec d i) BufLeakrec.FOUND ∧ (t.cell d c).listed = false ∧
      t.fld (dreg .bufErr d) BufErr.RECLAIM = 1) (fun j t ht => ?_) l ?_
    · obtain ⟨hrefs, hlisted, hsource⟩ := ht
      rw [reclaimEntry_leaves fun _ => hlisted]
      exact ⟨hrefs, hlisted, (worksOn_reclaimEntry d j t).marks BufErr.RECLAIM rfl hsource⟩
    · rw [hturn]
      exact ⟨reclaimCell_refs .., reclaimCell_listed .., reclaimCell_source _ _ _ _ ((hu.active (by decide) d).trans ha)⟩
  have hloop : s.forAll (List.range 64) (reclaimEntry d) = (reclaimEntry d i u).forAll l (reclaimEntry d) := by
    rw [hl64]; simp [State.forAll, u]
  obtain ⟨hrefs, -, hsource⟩ := hrest
  dsimp only
  rw [leakReclaim_eq, endLeak_cell, (keeps_endLeak d _).fld _ _ (by simp [dreg]), hloop]
  exact ⟨hrefs, hsource⟩

/-- A refused verdict leaves the buffers. -/
theorem leakVerdict_vref {who : Master} (hw : s.fld (dreg .bufLeakv d) BufLeakv.TAG ≠ tag) (hx : tag ∉ (s.bufDie d).leakExpired)
    (apply : State → State) : let t := leakVerdict who d tag apply s
    t.fld (dreg .evtPulse d) EvtPulse.VREF = 1 ∧ t.buf = s.buf := by
  rw [leakVerdict_refused who hw hx]
  exact ⟨refuseVerdict_vref d s, refuseVerdict_buf d s⟩

end Verdicts

/-! ### The statement -/

/-- Settles O18: a draw opens the cell of its source or waits, the zeroing engine takes cells in its order, each listed cell has one turn in an audit
round, RECLAIM takes the entries of its list in order, and reservations are stored where enough shared cells stay. -/
theorem cellsZeroingAndAudit : Obligations.CellsZeroingAndAudit := by
  unfold Obligations.CellsZeroingAndAudit
  intro s d hd ha
  refine ⟨fun w hint => ⟨?_, ?_, ?_, ?_⟩, fun clean => ⟨?_, ?_, ?_⟩, fun hn => ?_, fun h tag htag => ⟨fun hw => ⟨?_, ?_⟩, fun hw hx => ⟨?_, ?_⟩⟩,
    fun n v => ⟨?_, ?_, ?_, ?_⟩⟩
  · rintro c ⟨hn, hl⟩ hfrom
    obtain ⟨hopen, hdata, -⟩ := cellDraw_opens (drawCell_zero hn hl hfrom)
    exact ⟨_, rfl, hopen, hdata.trans (by rw [State.cell_modCell_same])⟩
  · rintro x c ⟨hn, hl⟩ hfrom
    obtain ⟨hopen, -, hpools⟩ := cellDraw_opens (drawCell_recycle hl hfrom)
    refine ⟨_, rfl, hopen, fun y hy hnone => ?_⟩
    rw [State.bufDie_modBufDie_same] at hpools
    exact (hpools y (Option.eq_none_iff_forall_ne_some.mpr hnone)).trans (FMap.get_set_ne _ _ _ hy)
  · exact fun hfrom => ⟨_, rfl, cellDraw_waits (drawCell_noSource hfrom)⟩
  · exact fun hl => ⟨_, rfl, cellDraw_waits (drawCell_noRoom hl)⟩
  · exact fun hrest => ⟨_, rfl, zeroStep_rests clean hrest⟩
  · intro c rest hz hv
    refine ⟨⟨_, rfl, ?_⟩, _, rfl, ?_⟩
    · rw [zeroStep_verify true hz hv, if_pos rfl]; exact verified_zero
    · rw [zeroStep_verify false hz hv, if_neg (by decide)]; exact verified_retired ha
  · intro o c rest hz hv ho hp
    refine ⟨_, rfl, ?_⟩
    rw [zeroStep_idle clean hz hv ho hp]; exact recycled_zero o
  · obtain ⟨hmem, hrounds⟩ := auditRound_counts d s
    refine ⟨_, rfl, hmem, hrounds, fun c hc => ⟨fun hfree => ?_, fun hused hgood hfewer => ⟨fun hnew => ?_, fun hold hfree hm => ?_⟩⟩⟩
    · exact auditRound_refover hn hc ha hfree.1 hfree.2
    · exact auditRound_suspects hn hc ha hused hgood hfewer hnew
    · exact auditRound_reclaims hn hc ha hused hgood hfewer hold hfree hm
  · obtain ⟨hrefs, hkeep⟩ := leakKeep_keeps d s
    refine ⟨_, rfl, ?_⟩
    rw [leakVerdict_acts htag hw]
    exact ⟨endLeak_clears d _, hrefs, hkeep⟩
  · refine ⟨_, rfl, ?_⟩
    rw [leakVerdict_acts htag hw]
    exact ⟨endLeak_clears d _, keeps_leakReclaim d s, fun i hi hv hl hfirst => leakReclaim_reclaims ha hi hv rfl hl hfirst⟩
  · exact ⟨_, rfl, leakVerdict_vref hw hx _⟩
  · exact ⟨_, rfl, leakVerdict_vref hw hx _⟩
  · intro hn hroom
    obtain ⟨t, hrun, ht, hflds⟩ := reservation_stored (part := true) hd hn hroom
    exact ⟨t, hrun, ht, hflds BufPart.PCAP (.head _), hflds BufPart.MINRES (.tail _ (.head _))⟩
  · exact fun hn hroom => reservation_refused (part := true) hd ha hn hroom
  · intro hn hroom
    obtain ⟨t, hrun, ht, hflds⟩ := reservation_stored (part := false) hd hn hroom
    exact ⟨t, hrun, ht, hflds BufPres.HOLDRES (.head _), hflds BufPres.INRES (.tail _ (.head _))⟩
  · exact fun hn hroom => reservation_refused (part := false) hd ha hn hroom

end Sys2Proof.Machine
end

section
/-! SUPPORT. Policing: what leaves a hold queue, the age of its head, the verdicts on a policing exception and its quiet timer, and the statement
that they meet (07 R244, R255, R258, R260, R261). -/

namespace Sys2Proof.Machine

/-! ### The dynamic state of a flow -/

theorem State.flow_modFlow (s : State) (n k : Nat) (f : FlowSt → FlowSt) :
    (s.modFlow n f).flow k = if k = n then f (s.flow n) else s.flow k := FMap.get_set ..

@[simp] theorem State.flow_modFlow_same (s : State) (n : Nat) (f : FlowSt → FlowSt) : (s.modFlow n f).flow n = f (s.flow n) := by
  rw [State.flow_modFlow, if_pos rfl]

/-- A change of a flow's dynamic state puts one value there. -/
theorem State.modFlow_const (s : State) (n : Nat) (f : FlowSt → FlowSt) : s.modFlow n f = s.modFlow n fun _ => f (s.flow n) := rfl

/-! ### Hold queues (07 R255) -/

section Hold
variable {s : State} {n : Nat} {p : Pkt}

/-- A held packet has left for the queue of its egress port: the flows are as the debit left them. -/
structure HeldSent (p : Pkt) (s t : State) : Prop where
  flow : ∀ k, t.flow k = s.flow k
  mem : t.mem = s.mem
  queued : ∃ y, t.queue p.egress p.queue = s.queue p.egress p.queue ++ [y] ∧ y.tlp = p.tlp ∧ y.hold = false ∧ y.colour = p.colour ∧
    y.seq = p.seq

/-- A packet for a port of its die that is up leaves for its egress queue. -/
theorem sendHeld_sent (hd : pdie p.egress = pdie p.iport) (he : p.egress < 128) (hl : s.linkState (pdie p.egress) (pnum p.egress) = 3) :
    HeldSent p s (sendHeld [p] s) := by
  have hplace : sendHeld [p] s = placeTagged { p with hold := false } s := rfl
  have htouch := touchCells_parcels (ns := []) (pdie p.iport) s p.cells
  rw [hplace, placeTagged_queues (p := { p with hold := false }) rfl he hd hl]
  dsimp only
  generalize touchCells (pdie p.iport) p.cells s = u at htouch
  refine ⟨fun k => ?_, (keeps_of_parcels htouch).1, u.arrived { p with hold := false }, ?_, rfl, rfl, rfl, rfl⟩
  · exact congrArg (fun x => x.flows.get {} k) (sch_of_parcels htouch)
  · rw [State.queue_modQueue_same, queue_of_parcels htouch]

/-- One packet that is held alone is what leaves, and nothing stays. -/
@[simp] theorem takeHeld_single (p : Pkt) : takeHeld [p] = ([p], []) := rfl

section Released
variable (hh : (s.flow n).hold = [p]) (hl : (s.flow n).leaving = [])
include hl

theorem holdRelease_empty (hh : (s.flow n).hold = []) : holdRelease n s = s := by
  unfold holdRelease
  simp only [hl, hh, List.isEmpty_nil, Bool.not_true, Bool.false_eq_true, if_false]

include hh

/-- With the context not valid the packet leaves without the test. -/
theorem holdRelease_invalid (hv : (s.flowCtx (n / flowsPerDie) (s.newE (n / flowsPerDie)) n).valid = false) :
    holdRelease n s = sendHeld [p] (s.modFlow n fun f => { f with hold := [] }) := by
  unfold holdRelease
  simp only [hl, hh, hv, List.isEmpty_nil, Bool.not_true, Bool.not_false, Bool.false_eq_true, if_false, if_true,
    takeHeld_single]

/-- With a valid context of one stage the refilled levels decide. -/
theorem holdRelease_tested {c : FlowCtx} (hc : s.flowCtx (n / flowsPerDie) (s.newE (n / flowsPerDie)) n = c) (hv : c.valid = true)
    (hb : c.bad = false) (hone : c.chain = false) {r : FlowSt} (hr : (s.flow n).refill c (s.nsOf (n / flowsPerDie)) = r) :
    holdRelease n s = if r.lets c p.tlp.wire then
        sendHeld [p] (((s.modFlow n fun _ => r).modFlow n fun f => f.leave p.tlp.wire).modFlow n fun f => { f with hold := [] })
      else s.modFlow n fun _ => r := by
  have hrefill : (s.modFlow n fun f => f.refill c (s.nsOf (n / flowsPerDie))) = s.modFlow n fun _ => r := by
    rw [s.modFlow_const, hr]
  unfold holdRelease
  simp only [hl, hh, hc, hv, hb, hone, hrefill, List.isEmpty_nil, Bool.not_true, Bool.false_eq_true, if_false, Bool.false_and, true_or, and_true,
    State.flow_modFlow_same, takeHeld_single]

end Released

/-- The levels let a head leave that the peak bucket covers, and any head when the peak bucket is full. -/
theorem FlowSt.lets_iff (f : FlowSt) (c : FlowCtx) (b : Nat) : f.lets c b = true ↔ b * fix ≤ f.tp ∨ c.pbs * fix ≤ f.tp := by
  simp [FlowSt.lets]

end Hold

/-! ### What deliveries leave of the flows and queues -/

theorem toBmc_sch (m : BmcMsg) (s : State) : (toBmc m s).sch = s.sch := by
  unfold toBmc
  split <;> rfl

theorem toEndpoint_sch (n d e : Nat) (s : State) : (toEndpoint n d e s).sch = s.sch := by
  unfold toEndpoint
  dsimp only
  split
  · exact State.forAll_keeps State.sch (fun f t => t.modFlt fun x => { x with pme := x.pme ++ [(n, f)] }) (fun _ _ => rfl) _ _
  · split <;> rfl

theorem deliverRouted_sch (d e part : Nat) (m : BmcMsg) (s : State) : (deliverRouted d e part m s).sch = s.sch := by
  unfold deliverRouted recNote
  simp only [apply_ite State.sch, State.modFlt_sch, toBmc_sch, toEndpoint_sch, ite_self]

theorem refuseVerdict_sch (d : Nat) (s : State) : (refuseVerdict d s).sch = s.sch := deliverRouted_sch ..

theorem raiseTied_sch (r : Reg) (f : Field) (x : TlpRef) (s : State) : (raiseTied r f x s).sch = s.sch := by
  unfold raiseTied
  rcases raiseFault_cases { reg := r, bit := f.lo, tied := some x } s with ⟨he, -⟩ | ⟨-, he⟩ <;> simp [he]

/-! ### The least number that fits -/

theorem firstBelow_eq_some {f : Nat → Bool} {n i : Nat} (hi : i < n) (h : f i = true) (hlt : ∀ j, j < i → f j = false) :
    firstBelow f n = some i :=
  List.find?_range_eq_some.mpr ⟨h, List.mem_range.mpr hi, fun j hj => by simp [hlt j hj]⟩

theorem firstBelow_eq_none {f : Nat → Bool} {n : Nat} (h : ∀ j, j < n → f j = false) : firstBelow f n = none :=
  List.find?_eq_none.mpr fun j hj => by simp [h j (List.mem_range.mp hj)]

/-! ### Policing exceptions (07 R260, R261) -/

section Exceptions
variable {s : State} {d h n i tag act : Nat}

/-- An entry of the list holds a flow of its own die. -/
theorem State.pxFlow_die (s : State) (d i : Nat) : s.pxFlow d i / flowsPerDie = d := by
  have hlt : s.fld (pxrec d i) SchPxrec.FLOW < 32768 := State.fld_lt ..
  unfold State.pxFlow flowsPerDie
  omega

/-- The action of an exception that takes force shows in its entry. -/
theorem actPx_acts (he : (s.flow n).xent = i) (hd : n / flowsPerDie = d) (act : Nat) : let t := actPx n act s
    t.fld (pxrec d i) SchPxrec.ACTING = 1 ∧ (t.flow n).xstate = 2 ∧ (t.flow n).xact = act ∧ Keeps [.schPxrec] s t := by
  subst he hd
  have hk : Keeps [.schPxrec] s (actPx n act s) := ((keeps_setFld s _ _ _).trans (keeps_modSch _ _)).mono (by simp [pxrec])
  refine ⟨?_, ?_, ?_, hk⟩
  · exact s.fld_setFld_same (pxrec _ _) SchPxrec.ACTING 1 (by decide) (by decide)
  · unfold actPx; simp
  · unfold actPx; simp

/-- A hart's verdict with the tag of a waiting entry puts its action in force. -/
theorem pxVerdict_acts (hi : i < 64) (hw : s.fld (pxrec d i) SchPxrec.VALID = 1 ∧ s.fld (pxrec d i) SchPxrec.ACTING = 0 ∧
      s.fld (pxrec d i) SchPxrec.TAG = tag) (hfirst : ∀ j, j < i → s.fld (pxrec d j) SchPxrec.TAG ≠ tag) (act : Nat) :
    pxVerdict (.hart d h) d tag act s = actPx (s.pxFlow d i) act s := by
  obtain ⟨hvalid, hacting, htag⟩ := hw
  unfold pxVerdict
  rw [firstBelow_eq_some hi (by simp [hvalid, hacting, htag]) fun j hj => by simp [hfirst j hj]]
  exact if_pos rfl

/-- One with a tag that no entry holds, and that has not expired, is refused. -/
theorem pxVerdict_refused (who : Master) (hno : ∀ j, j < 64 → s.fld (pxrec d j) SchPxrec.TAG ≠ tag) (hx : (d, tag) ∉ s.sch.pxExpired)
    (act : Nat) : let t := pxVerdict who d tag act s
    t.fld (dreg .evtPulse d) EvtPulse.VREF = 1 ∧ t.sch = s.sch := by
  have heq : pxVerdict who d tag act s = refuseVerdict d s := by
    unfold pxVerdict
    rw [firstBelow_eq_none fun j hj => by simp [hno j hj]]
    exact if_neg hx
  dsimp only
  rw [heq]
  exact ⟨refuseVerdict_vref d s, refuseVerdict_sch d s⟩

/-- The end of an exception frees its entry and leaves the levels of its flow. -/
theorem endPx_frees (hx : (s.flow n).xstate ≠ 0) : let t := endPx n s
    t.reg (pxrec (n / flowsPerDie) (s.flow n).xent) = 0 ∧ (t.flow n).xstate = 0 ∧ (t.flow n).tp = (s.flow n).tp ∧ Keeps [.schPxrec] s t := by
  have heq : endPx n s = (s.setReg (pxrec (n / flowsPerDie) (s.flow n).xent) 0).modFlow n fun f =>
      { f with xstate := 0, xact := 0, xent := 0, xmode := 0 } := if_neg hx
  dsimp only
  rw [heq]
  refine ⟨s.reg_setReg_same _ _, ?_, ?_, ((keeps_setReg s _ _).trans (keeps_modSch _ _)).mono (by simp [pxrec])⟩
  · rw [State.flow_modFlow_same]
  · rw [State.flow_modFlow_same]; rfl

end Exceptions

/-! ### The statement -/

/-- Settles O19: what leaves a hold queue is what the refilled levels let go, and a verdict acts on the first waiting entry with its tag. -/
theorem holdQueuesAndPolicingVerdicts : Obligations.HoldQueuesAndPolicingVerdicts := by
  unfold Obligations.HoldQueuesAndPolicingVerdicts
  intro s n
  refine ⟨fun hh hl => ⟨_, rfl, holdRelease_empty hl hh⟩,
    fun p hh hl hdie he hup => ⟨fun hv => ?_, fun hv hb hone => ⟨fun hcover => ?_, fun hlow hpart => ?_⟩⟩,
    fun p rest hh ha => ?_, fun die h tag i hi => ⟨fun hw hfirst hent => ?_, fun hno hx => ?_⟩, fun hx => ?_, fun hx => ?_⟩
  · refine ⟨_, rfl, ?_⟩
    rw [holdRelease_invalid hh hl hv]
    obtain ⟨hflow, hmem, hq⟩ := sendHeld_sent (s := s.modFlow n fun f => { f with hold := [] }) hdie he hup
    have hn := (hflow n).trans (State.flow_modFlow_same ..)
    exact ⟨⟨(congrArg FlowSt.hold hn :), hmem, hq⟩, (congrArg FlowSt.tp hn :)⟩
  · refine ⟨_, rfl, ?_⟩
    rw [holdRelease_tested hh hl rfl hv hb hone rfl, if_pos ((FlowSt.lets_iff ..).mpr hcover)]
    obtain ⟨hflow, hmem, hq⟩ := sendHeld_sent hdie he
      (s := ((s.modFlow n fun _ => _).modFlow n fun f => f.leave p.tlp.wire).modFlow n fun f => { f with hold := [] }) hup
    have hn := hflow n
    rw [State.flow_modFlow_same, State.flow_modFlow_same, State.flow_modFlow_same] at hn
    exact ⟨⟨(congrArg FlowSt.hold hn :), hmem, hq⟩, (congrArg FlowSt.tp hn :), (congrArg FlowSt.tc hn :)⟩
  · refine ⟨_, rfl, ?_⟩
    rw [holdRelease_tested hh hl rfl hv hb hone rfl, if_neg (by rw [FlowSt.lets_iff]; omega)]
  · refine ⟨_, rfl, ?_⟩
    rw [hh]
    exact ⟨fld_raiseTied (dreg .schErr _) SchErr.HOLDAGE _ s ha rfl (by decide), raiseTied_sch .., keeps_raiseTied ..⟩
  · have hacts : ∀ act, let t := pxVerdict (.hart die h) die tag act s
        t.fld (pxrec die i) SchPxrec.ACTING = 1 ∧ (t.flow (s.pxFlow die i)).xstate = 2 ∧ (t.flow (s.pxFlow die i)).xact = act ∧
          Keeps [.schPxrec] s t := fun act => by
      dsimp only
      rw [pxVerdict_acts hi hw hfirst]
      exact actPx_acts hent (s.pxFlow_die die i) act
    exact ⟨⟨_, rfl, hacts 0⟩, ⟨_, rfl, hacts 1⟩, ⟨_, rfl, hacts 2⟩, _, rfl, hacts 3⟩
  · have hrefused := fun act => pxVerdict_refused (.hart die h) hno hx act
    exact ⟨⟨_, rfl, hrefused 0⟩, ⟨_, rfl, hrefused 1⟩, ⟨_, rfl, hrefused 2⟩, _, rfl, hrefused 3⟩
  · refine ⟨_, rfl, ?_⟩
    rw [if_pos hx]
    exact endPx_frees (by rw [hx]; decide)
  · exact ⟨_, rfl, if_neg hx⟩

end Sys2Proof.Machine
end

section
/-! SUPPORT. Scheduling: what a refill of the shapers leaves, the queue that a port of strict queues selects, and what sending or losing its head
leaves (03 R78; 06 R220, R223, R224; 07 R264 to R266). -/

namespace Sys2Proof.Machine

/-! ### Egress queues -/

theorem State.queue_congr {s t : State} (h : t.sch = s.sch) (g q : Nat) : t.queue g q = s.queue g q := by unfold State.queue; rw [h]

theorem State.queue_modQueue_ne (s : State) (g : Nat) {q k : Nat} (f : List Pkt → List Pkt) (h : k ≠ q) :
    (s.modQueue g q f).queue g k = s.queue g k := FMap.get_set_ne _ _ _ (by simp [h])

/-- A change of a queue puts one list there. -/
theorem State.modQueue_const (s : State) (g q : Nat) (f : List Pkt → List Pkt) : s.modQueue g q f = s.modQueue g q fun _ => f (s.queue g q) := rfl

/-! ### Shapers (07 R266) -/

/-- The state with other shapers and round-robin groups. -/
def State.withSched (s : State) (m : FMap Nat SchedSt) : State := s.modSch fun c => { c with sched := m }

/-- A refill changes the shapers alone. -/
theorem refills_sched (g : Nat) (l : List Nat) (s : State) : ∃ m, l.foldl (refillShaper g) s = s.withSched m := by
  induction l generalizing s with
  | nil => exact ⟨s.sch.sched, rfl⟩
  | cons q l ih =>
    obtain ⟨m, hm⟩ := ih (refillShaper g s q)
    exact ⟨m, hm⟩

/-- With no shaper a queue may send whatever its level. -/
theorem eligible_withSched {g q : Nat} {s : State} (hr : s.fld (qshape g q) SchQshape.RATE = 0) (m : FMap Nat SchedSt) :
    (s.withSched m).eligible g q = s.eligible g q := by
  have hconforms : ∀ t : State, t.fld (qshape g q) SchQshape.RATE = 0 → t.conforms g q = true := fun t ht => by
    unfold State.conforms; rw [ht]; rfl
  have hqueue : (s.withSched m).queue g q = s.queue g q := rfl
  unfold State.eligible
  rw [hqueue, hconforms s hr, hconforms (s.withSched m) hr]
  rfl

/-! ### Selection (07 R264, R265) -/

/-- Of queues that are all strict, the first that may send is selected. -/
theorem selectQueue_strict {sp elig : Nat → Bool} {l1 l2 : List Nat} {q : Nat} (hsp : ∀ k, k < 16 → sp k = true) (hq : q < 16)
    (hl : ∀ k ∈ l1, elig k = false) (he : elig q = true) (quantum len : Nat → Nat) (single : Nat → Bool) (x : SchedSt) :
    selectQueue sp elig quantum len single x (l1 ++ q :: l2) = some (q, x) := by
  have hgroup : firstBelow (fun k => !(sp k)) 16 = none := firstBelow_eq_none fun k hk => by simp [hsp k hk]
  induction l1 with
  | nil => simp [selectQueue, hgroup, hsp q hq, he]
  | cons k l1 ih =>
    simp [selectQueue, hgroup, hl k (by simp), ih fun j hj => hl j (by simp [hj])]

/-- A port all of whose queues are strict and have no shaper. -/
def StrictPort (g : Nat) (s : State) : Prop :=
  ∀ k, k < 16 → s.fld (qcfg g k) SchQcfg.SP = 1 ∧ s.fld (qshape g k) SchQshape.RATE = 0

section Select
variable {s : State} {g q : Nat} {p : Pkt} {rest : List Pkt}

/-- A queue whose head may be released and can be taken may send. -/
theorem StrictPort.eligible (h : StrictPort g s) (hq : q < 16) (hhead : s.queue g q = p :: rest) (hrel : s.releasable p = true)
    (htake : s.canTake g p.tlp = true) : s.eligible g q = true := by
  unfold State.eligible State.conforms
  rw [hhead]
  simp [hrel, htake, (h q hq).2]

/-- It selects the first queue that may send, whatever the levels of its shapers. -/
theorem StrictPort.selects (h : StrictPort g s) (hq : q < 16) (he : s.eligible g q = true) (hfirst : ∀ k, k < q → s.eligible g k = false)
    (m : FMap Nat SchedSt) (quantum len : Nat → Nat) (single : Nat → Bool) (x : SchedSt) :
    selectQueue (fun k => (s.withSched m).fld (qcfg g k) SchQcfg.SP == 1) ((s.withSched m).eligible g) quantum len single x (List.range 16) =
      some (q, x) := by
  have helig : ∀ k, k < 16 → (s.withSched m).eligible g k = s.eligible g k := fun k hk => eligible_withSched (h k hk).2 m
  obtain ⟨l, hl⟩ := range_split hq
  rw [hl]
  refine selectQueue_strict (fun k hk => beq_iff_eq.mpr (h k hk).1) hq (fun k hk => ?_) ((helig q hq).trans he) quantum len single x
  have hkq := List.mem_range.mp hk
  exact (helig k (by omega)).trans (hfirst k hkq)

/-- The head of a queue leaves it once the port has selected the queue. -/
theorem State.dropHead_withSched (hhead : s.queue g q = p :: rest) (m : FMap Nat SchedSt) (x : SchedSt) :
    ((s.withSched m).modSched g fun _ => x).modQueue g q (fun l => l.drop 1) = (s.withSched (m.set g x)).modQueue g q fun _ => rest := by
  have hsched : ((s.withSched m).modSched g fun _ => x) = s.withSched (m.set g x) := rfl
  have hqueue : (s.withSched (m.set g x)).queue g q = p :: rest := hhead
  rw [hsched, State.modQueue_const, hqueue]
  rfl

/-- A port of strict queues without shapers releases the head of the first queue that may send. -/
theorem StrictPort.releases {d pp : Nat} (h : StrictPort (gport d pp) s) (hup : s.linkState d pp = 3) (hq : q < 16)
    (hhead : s.queue (gport d pp) q = p :: rest) (he : s.eligible (gport d pp) q = true)
    (hfirst : ∀ k, k < q → s.eligible (gport d pp) k = false) (ecc : Ecc) :
    ∃ m, schedulerSelect d pp ecc s = releasePkt (gport d pp) p ecc ((s.withSched m).modQueue (gport d pp) q fun _ => rest) := by
  obtain ⟨m, hm⟩ := refills_sched (gport d pp) (List.range 16) s
  have hqueue : (s.withSched m).queue (gport d pp) q = p :: rest := hhead
  have hrate : ∀ x, ((s.withSched (m.set (gport d pp) x)).modQueue (gport d pp) q fun _ => rest).fld (qshape (gport d pp) q) SchQshape.RATE = 0 :=
    fun x => (h q hq).2
  refine ⟨m.set (gport d pp) ((s.withSched m).schedOf (gport d pp)), ?_⟩
  unfold schedulerSelect
  dsimp only
  rw [if_neg (by simp [hup]), hm, h.selects hq he hfirst]
  dsimp only
  rw [hqueue, State.dropHead_withSched hhead, hrate, if_pos rfl]
  rfl

end Select

/-! ### Mirror copies (06 R220, R221) -/

section Mirrors
variable (e k : Nat)

theorem raiseTied_links (r : Reg) (f : Field) (x : TlpRef) (s : State) : (raiseTied r f x s).links = s.links := by
  unfold raiseTied
  rcases raiseFault_cases { reg := r, bit := f.lo, tied := some x } s with ⟨he, -⟩ | ⟨-, he⟩ <;> simp [he]

theorem shedMirrors_engine (d n : Nat) (s : State) : ((shedMirrors d n s).link e k).engine = (s.link e k).engine := by
  induction n generalizing s with
  | zero => rfl
  | succ n ih =>
    unfold shedMirrors
    split
    · rfl
    · split
      · rfl
      · rw [ih]
        unfold dropMirror
        rw [engine_of_wires (dropCells_wires ..)]
        rfl

theorem mirrorTo_engine (d a : Nat) (m : Mirror) (s : State) : ((mirrorTo d a m s).link e k).engine = (s.link e k).engine := by
  unfold mirrorTo
  extract_lets g short drop
  split
  · rfl
  · split
    · rw [shedMirrors_engine, State.link_congr (raise_links ..) e k]; rfl
    · split
      · rfl
      · rw [engine_of_wires (State.wires_modBufDie ..)]
        unfold addCells addRef
        rw [engine_of_wires (State.wires_forAll (fun _ t => t.wires_modCell ..) ..)]

theorem mirrorEgress_engine (p : Pkt) (s : State) : ((mirrorEgress p s).link e k).engine = (s.link e k).engine := by
  unfold mirrorEgress
  dsimp only
  split
  · rfl
  · rw [mirrorTo_engine]
    split <;> rfl

theorem mirrorEgress_parcels {ns : List RegName} (hm : .bufMircnt ∈ ns) (he : .bufErr ∈ ns) (p : Pkt) (s : State) :
    (mirrorEgress p s).parcels ns = s.parcels ns := by
  unfold mirrorEgress
  dsimp only
  split
  · rfl
  · rw [mirrorTo_parcels _ hm he]
    split
    · rfl
    · exact s.parcels_modBufDie _ rfl rfl

end Mirrors

/-! ### A packet that is released (06 R223, R224) -/

section Release
variable {s : State} {g : Nat} {p : Pkt}

/-- A packet of a port whose cells are readable is recorded, copied and sent, and its tag goes. -/
theorem releasePkt_sends (hsrc : p.src = .port) (hb : (p.cellsOn (pdie g)).all (fun c => !(s.cell (pdie g) c).bad) = true) :
    releasePkt g p .clean s = advance p (releaseHeld (pdie g) p (noteFabric p (transmit g p
      (recPkt (pdie g) 1 g true p (mirrorEgress p s))))) := by
  have hdma : ∀ t, dmaReleased p t = t := fun t => by unfold dmaReleased; rw [hsrc]
  unfold releasePkt
  dsimp only
  rw [readCells_clean hb, if_neg (by simp [hsrc]), hdma, ite_self]
  rfl

/-- One whose header cannot be read is not sent: the fault is raised, and its tag goes. -/
theorem releasePkt_loses (hsrc : p.src = .port) (hcls : p.tlp.cls ≠ 1) :
    releasePkt g p .header s = advance p (releaseHeld (pdie g) p (raiseTied (dreg .bufErr (pdie g)) BufErr.UNCOR (s.refOf p) s)) := by
  have hdma : ∀ t, dmaReleased p t = t := fun t => by unfold dmaReleased; rw [hsrc]
  have hread : readCells (pdie g) p (p.cellsOn (pdie g)) .header s =
      (.header, raiseTied (dreg .bufErr (pdie g)) BufErr.UNCOR (s.refOf p) s) := by
    unfold readCells
    exact ite_self _
  have hanswer : ∀ t, unreadable p t = t := fun t => by
    unfold unreadable answerLost
    simp [hcls]
  unfold releasePkt
  dsimp only
  rw [hread, if_pos rfl, hanswer, if_neg (by simp [hsrc]), hdma, ite_self]

/-- A tag that goes with its cells leaves the queues, the link engines but for their credits, and every register of a packet's path. -/
theorem tagGoes_leaves (d : Nat) (p : Pkt) (s : State) : let t := advance p (releaseHeld d p s)
    t.wires = s.wires ∧ t.sch = s.sch := by
  have hheld : (releaseHeld d p s).sch = s.sch := by
    unfold releaseHeld
    split
    · exact sch_of_parcels (dropCells_parcels (ns := []) ..)
    · split <;> exact sch_of_parcels (dropCells_parcels (ns := []) ..)
  refine ⟨by simp, ?_⟩
  unfold advance reportTag
  dsimp only
  split <;> exact hheld

theorem noteFabric_leaves (p : Pkt) (s : State) : (noteFabric p s).wires = s.wires ∧ (noteFabric p s).sch = s.sch := by
  unfold noteFabric
  split
  · exact ⟨State.wires_modFret .., rfl⟩
  · exact ⟨rfl, rfl⟩

/-- A link that is up keeps the kind with which it trained. -/
theorem State.isNerov_up (hup : s.linkState (pdie g) (pnum g) = 3) : s.isNerov g = (s.link (pdie g) (pnum g)).nerov := by
  unfold State.isNerov
  dsimp only
  rw [hup, if_pos (by decide)]

/-- A packet that a PCIe port sends enters its replay buffer under the next number. -/
theorem transmit_pcie (hn : s.isNerov g = false) (p : Pkt) : let t := transmit g p s
    t.mem = s.mem ∧ t.sch = s.sch ∧
      (t.link (pdie g) (pnum g)).replay = (s.link (pdie g) (pnum g)).replay ++ [{ seq := (s.link (pdie g) (pnum g)).pcieNext, pkt := p }] ∧
      (t.link (pdie g) (pnum g)).pcieNext = ((s.link (pdie g) (pnum g)).pcieNext + 1) % 4096 := by
  unfold transmit
  dsimp only
  rw [if_neg (by simp [hn]), State.link_modLink_same]
  exact ⟨rfl, rfl, rfl, rfl⟩

/-- A packet of a port that is released by a PCIe port that is up, with the recorder idle, goes into the replay buffer. -/
theorem releasePkt_replays (hsrc : p.src = .port) (hup : s.linkState (pdie g) (pnum g) = 3) (hn : s.isNerov g = false)
    (hrec : s.recState (pdie g) = 0) (hb : (p.cellsOn (pdie g)).all (fun c => !(s.cell (pdie g) c).bad) = true) :
    let t := releasePkt g p .clean s
    t.mem = s.mem ∧ t.sch = s.sch ∧
      (t.link (pdie g) (pnum g)).replay = (s.link (pdie g) (pnum g)).replay ++ [{ seq := (s.link (pdie g) (pnum g)).pcieNext, pkt := p }] ∧
      (t.link (pdie g) (pnum g)).pcieNext = ((s.link (pdie g) (pnum g)).pcieNext + 1) % 4096 := by
  have hparcels := mirrorEgress_parcels (ns := [.bufMircnt, .bufErr]) (by simp) (by simp) p s
  have hengine := mirrorEgress_engine (pdie g) (pnum g) p s
  dsimp only
  rw [releasePkt_sends hsrc hb]
  generalize mirrorEgress p s = u at hparcels hengine
  have hidle : u.recState (pdie g) = 0 := ((keeps_of_parcels hparcels).fld _ _ (by simp)).trans hrec
  have huup : u.linkState (pdie g) (pnum g) = 3 := (linkState_of_parcels hparcels (by simp) _ _).trans hup
  have hun : u.isNerov g = false := by
    rw [State.isNerov_up hup] at hn
    rw [State.isNerov_up huup]
    exact (congrArg LinkSt.nerov hengine :).trans hn
  rw [recPkt_idle hidle]
  obtain ⟨htmem, htsch, htreplay, htnext⟩ := transmit_pcie hun p
  generalize transmit g p u = v at htmem htsch htreplay htnext
  obtain ⟨hnwires, hnsch⟩ := noteFabric_leaves p v
  generalize noteFabric p v = w at hnwires hnsch
  obtain ⟨hwires, hsch⟩ := tagGoes_leaves (pdie g) p w
  have hlast := engine_of_wires (hwires.trans hnwires) (pdie g) (pnum g)
  have hreplay : (u.link (pdie g) (pnum g)).replay = (s.link (pdie g) (pnum g)).replay := (congrArg LinkSt.replay hengine :)
  have hnext : (u.link (pdie g) (pnum g)).pcieNext = (s.link (pdie g) (pnum g)).pcieNext := (congrArg LinkSt.pcieNext hengine :)
  rw [hreplay, hnext] at htreplay
  rw [hnext] at htnext
  refine ⟨?_, ?_, (congrArg LinkSt.replay hlast :).trans htreplay, (congrArg LinkSt.pcieNext hlast :).trans htnext⟩
  · exact (keeps_of_wires (hwires.trans hnwires)).1.trans (htmem.trans (keeps_of_parcels hparcels).1)
  · exact hsch.trans (hnsch.trans (htsch.trans (sch_of_parcels hparcels)))

/-- A packet of a port whose header cannot be read leaves the link engine as it was, and sets UNCOR. -/
theorem releasePkt_uncor (hsrc : p.src = .port) (hcls : p.tlp.cls ≠ 1) (ha : s.active (pdie g) = true) : let t := releasePkt g p .header s
    t.mem = s.mem ∧ t.sch = s.sch ∧ (t.link (pdie g) (pnum g)).replay = (s.link (pdie g) (pnum g)).replay ∧
      (t.link (pdie g) (pnum g)).pcieNext = (s.link (pdie g) (pnum g)).pcieNext ∧ t.fld (dreg .bufErr (pdie g)) BufErr.UNCOR = 1 := by
  dsimp only
  rw [releasePkt_loses hsrc hcls]
  have hk := keeps_raiseTied (dreg .bufErr (pdie g)) BufErr.UNCOR (s.refOf p) s
  have hbit := fld_raiseTied (dreg .bufErr (pdie g)) BufErr.UNCOR (s.refOf p) s ha rfl (by decide)
  have hsch := raiseTied_sch (dreg .bufErr (pdie g)) BufErr.UNCOR (s.refOf p) s
  have hlink := State.link_congr (raiseTied_links (dreg .bufErr (pdie g)) BufErr.UNCOR (s.refOf p) s) (pdie g) (pnum g)
  generalize raiseTied (dreg .bufErr (pdie g)) BufErr.UNCOR (s.refOf p) s = u at hk hbit hsch hlink
  obtain ⟨hwires, hsch'⟩ := tagGoes_leaves (pdie g) p u
  have hlast := engine_of_wires hwires (pdie g) (pnum g)
  rw [hlink] at hlast
  refine ⟨(keeps_of_wires hwires).1.trans hk.1, hsch'.trans hsch, (congrArg LinkSt.replay hlast :), (congrArg LinkSt.pcieNext hlast :), ?_⟩
  exact ((keeps_of_wires hwires).fld _ _ (by simp [packetRegs])).trans hbit

end Release

end Sys2Proof.Machine
end

section
/-! SUPPORT. Shaper writes, latency samples and snapshots, and the statement that they and the selections of the scheduler meet
(07 R266 to R268, R277, R280). -/

namespace Sys2Proof.Machine

/-! ### Shaper writes (07 R266, R277) -/

/-- A write of a shaper fills its bucket and leaves the other queues' levels. -/
theorem qshapeWrite_fills (d pp q : Nat) (v : Word) (s : State) : let t := qshapeWrite d pp q v s
    t.reg (qshape (gport d pp) q) = v ∧ Keeps [.schQshape] s t ∧
      (t.schedOf (gport d pp)).level.get 0 q = ((SchQshape.BURST.of v * fix : Nat) : Int) ∧ (t.schedOf (gport d pp)).last.get 0 q = s.nsOf d ∧
      ∀ k, k ≠ q → (t.schedOf (gport d pp)).level.get 0 k = (s.schedOf (gport d pp)).level.get 0 k := by
  have hsched : (qshapeWrite d pp q v s).schedOf (gport d pp) = { s.schedOf (gport d pp) with
      level := (s.schedOf (gport d pp)).level.set q ((SchQshape.BURST.of v * fix : Nat) : Int),
      rem := (s.schedOf (gport d pp)).rem.set q 0, last := (s.schedOf (gport d pp)).last.set q (s.nsOf d) } := FMap.get_set_same ..
  dsimp only
  rw [hsched]
  refine ⟨s.reg_setReg_same _ _, ?_, FMap.get_set_same .., FMap.get_set_same .., fun k hk => FMap.get_set_ne _ _ _ hk⟩
  exact ((keeps_setReg s (qshape (gport d pp) q) v).trans (keeps_modSch _ _)).mono (by simp [qshape])

/-! ### Latency samples (07 R267) -/

theorem FMap.get_upd {κ α : Type} [DecidableEq κ] (m : FMap κ α) (x : α) (k l : κ) (f : α → α) :
    (m.upd x k f).get x l = if l = k then f (m.get x k) else m.get x l := FMap.get_set ..

section Samples
variable (d pp : Nat)

/-- How long the head of a queue has waited, in units of the meridian's integer part. -/
def State.headDelay (s : State) (q : Nat) : Nat :=
  match s.queue (gport d pp) q with
  | [] => 0
  | p :: _ => ((s.meridian d + 2 ^ 64 - p.time) % 2 ^ 64) / 65536

/-- The bin in which a tick counts a queue: of its depth for kind 0, of its delay for kind 1. -/
def State.sampleBin (s : State) (q k : Nat) : Nat :=
  if k = 0 then histBin (s.fld (preg .schHcfg (gport d pp)) SchHcfg.ZSCALE) (s.depth (gport d pp) q)
  else histBin (s.fld (preg .schHcfg (gport d pp)) SchHcfg.DSCALE) (s.headDelay d pp q)

/-- The turn of a queue in a tick. -/
def sampleTurn (q : Nat) (t : State) : State :=
  t.modSch fun c =>
    { c with hist := (c.hist.upd 0 (gport d pp, q, 0, t.sampleBin d pp q 0) fun n => satAdd 32 n 1).upd 0
               (gport d pp, q, 1, t.sampleBin d pp q 1) fun n => satAdd 32 n 1,
             maxDepth := c.maxDepth.set (gport d pp, q)
               (max (c.maxDepth.get 0 (gport d pp, q)) (min (t.depth (gport d pp) q) (2 ^ 24 - 1))) }

theorem histTick_eq (s : State) : histTick d pp s =
    if s.fld (preg .schHcfg (gport d pp)) SchHcfg.EN = 0 then s else s.forAll (List.range 16) (sampleTurn d pp) := rfl

theorem sampleTurn_sampleBin (a q k : Nat) (t : State) : (sampleTurn d pp a t).sampleBin d pp q k = t.sampleBin d pp q k := rfl

/-- A turn counts its queue in one bin of each kind. -/
theorem sampleTurn_hist (a q b : Nat) {k : Nat} (hk : k < 2) (t : State) : (sampleTurn d pp a t).sch.hist.get 0 (gport d pp, q, k, b) =
    if q = a ∧ b = t.sampleBin d pp a k then satAdd 32 (t.sch.hist.get 0 (gport d pp, q, k, b)) 1
    else t.sch.hist.get 0 (gport d pp, q, k, b) := by
  unfold sampleTurn
  rw [State.modSch_sch]
  dsimp only
  rw [FMap.get_upd, FMap.get_upd, FMap.get_upd]
  obtain rfl | rfl : k = 0 ∨ k = 1 := by omega
  · by_cases h : q = a ∧ b = t.sampleBin d pp a 0
    · obtain ⟨rfl, rfl⟩ := h; simp
    · rw [if_neg h, if_neg (by simp), if_neg fun he => h (by simpa using he)]
  · by_cases h : q = a ∧ b = t.sampleBin d pp a 1
    · obtain ⟨rfl, rfl⟩ := h; simp
    · rw [if_neg h, if_neg fun he => h (by simpa using he), if_neg (by simp)]

/-- The turns of some queues count each of them once. -/
theorem sampleTurns_hist (q b : Nat) {k : Nat} (hk : k < 2) {l : List Nat} (hl : l.Nodup) (s : State) :
    (s.forAll l (sampleTurn d pp)).sch.hist.get 0 (gport d pp, q, k, b) =
      if q ∈ l ∧ b = s.sampleBin d pp q k then satAdd 32 (s.sch.hist.get 0 (gport d pp, q, k, b)) 1
      else s.sch.hist.get 0 (gport d pp, q, k, b) := by
  induction l generalizing s with
  | nil => simp [State.forAll]
  | cons a l ih =>
    obtain ⟨ha, hl⟩ := List.nodup_cons.mp hl
    have hrest := ih hl (sampleTurn d pp a s)
    rw [sampleTurn_sampleBin, sampleTurn_hist d pp a q b hk] at hrest
    refine hrest.trans ?_
    by_cases hq : q = a
    · subst hq; simp [ha]
    · simp [hq]

/-- The head of an empty queue has not waited, and counts in the first bin. -/
theorem State.sampleBin_empty {s : State} {q : Nat} (h : s.queue (gport d pp) q = []) : s.sampleBin d pp q 1 = 0 := by
  have hdelay : s.headDelay d pp q = 0 := by unfold State.headDelay; rw [h]
  unfold State.sampleBin histBin
  rw [hdelay, if_neg (by decide), if_pos (by positivity)]

end Samples

/-! ### Snapshots (07 R268, R280) -/

section Snapshot
variable (d pp : Nat)

/-- The register of the read set for a queue and a counter: the bins of the depths, then those of the delays. -/
def histReg (q kb : Nat) : Reg := { name := .schHist, die := d, i := pp, j := q, k := kb }

/-- The live counter that a snapshot shows in a register of the read set. -/
def State.histWord (s : State) (q kb : Nat) : Word := BitVec.ofNat 64 (s.sch.hist.get 0 (gport d pp, q, kb / 16, kb % 16))

/-- The registers of a queue as a snapshot of `s` writes them. -/
def snapQueue (s : State) (q : Nat) (t : State) : State :=
  t.forAll (List.range 32) fun kb u => u.setReg (histReg d pp q kb) (s.histWord d pp q kb)

/-- The read set of a port as a snapshot writes it. -/
def snapRead (s : State) : State := s.forAll (List.range 16) (snapQueue d pp s)

/-- The live counters of a port cleared, with MAXDEPTH gone to the read set. -/
def snapClear (g : Nat) (s : State) : State :=
  s.modSch fun c =>
    { c with hist := c.hist.filter fun x => x.1.1 != g,
             maxRead := (List.range 16).foldl (fun m q => m.set (g, q) (c.maxDepth.get 0 (g, q))) c.maxRead,
             maxDepth := c.maxDepth.filter fun x => x.1.1 != g }

theorem keeps_snapClear (g : Nat) (s : State) : Keeps [] s (snapClear g s) := keeps_modSch ..

theorem snapClear_hist (g q k b : Nat) (s : State) : (snapClear g s).sch.hist.get 0 (g, q, k, b) = 0 := by
  have hhist : (snapClear g s).sch.hist = s.sch.hist.filter fun x => x.1.1 != g := rfl
  rw [hhist]
  exact FMap.get_filter_out _ _ _ _ fun _ => by simp

theorem snap_eq (s : State) : snap d pp s = (snapClear (gport d pp) (snapRead d pp s)).setFld (preg .schHctl (gport d pp)) SchHctl.SNAPSEQ
    (((snapClear (gport d pp) (snapRead d pp s)).fld (preg .schHctl (gport d pp)) SchHctl.SNAPSEQ + 1) % 65536) := rfl

theorem keeps_snapQueue (s : State) (q : Nat) (t : State) : Keeps [.schHist] t (snapQueue d pp s q t) :=
  keeps_forAll (fun kb u => u.setReg (histReg d pp q kb) (s.histWord d pp q kb)) (fun _ _ => keeps_setReg ..) t _

theorem keeps_snapRead (s : State) : Keeps [.schHist] s (snapRead d pp s) := keeps_forAll _ (keeps_snapQueue d pp s) s _

/-- Once a register of the read set shows its counter, every write of the snapshot leaves it so. -/
theorem snapWrite_keeps {s t : State} {q kb : Nat} (h : t.reg (histReg d pp q kb) = s.histWord d pp q kb) (q' kb' : Nat) :
    (t.setReg (histReg d pp q' kb') (s.histWord d pp q' kb')).reg (histReg d pp q kb) = s.histWord d pp q kb := by
  rw [State.reg_setReg]
  split
  · rename_i he
    simp only [histReg, Reg.mk.injEq, true_and] at he
    rw [he.1, he.2]
  · exact h

/-- The read set shows the live counters. -/
theorem snapRead_reg (s : State) {q kb : Nat} (hq : q < 16) (hkb : kb < 32) : (snapRead d pp s).reg (histReg d pp q kb) = s.histWord d pp q kb := by
  refine State.forAll_gives (Q := fun t => t.reg (histReg d pp q kb) = s.histWord d pp q kb) (List.mem_range.mpr hq) (fun t => ?_)
    (fun q' _ t ht => ?_) s
  · exact State.forAll_gives (Q := fun t => t.reg (histReg d pp q kb) = s.histWord d pp q kb) (List.mem_range.mpr hkb)
      (fun u => u.reg_setReg_same _ _) (fun kb' _ u hu => snapWrite_keeps d pp hu q kb') t
  · exact State.forAll_invariant (P := fun t => t.reg (histReg d pp q kb) = s.histWord d pp q kb)
      (fun kb' u hu => snapWrite_keeps d pp hu q' kb') _ ht

theorem keeps_snapped (s : State) : Keeps [.schHist] s (snapClear (gport d pp) (snapRead d pp s)) :=
  ((keeps_snapRead d pp s).trans (keeps_snapClear _ _)).mono (by simp)

theorem keeps_snap (s : State) : Keeps [.schHist, .schHctl] s (snap d pp s) := by
  rw [snap_eq]
  exact ((keeps_snapped d pp s).trans (keeps_setFld _ _ _ _)).mono (by simp)

/-- A snapshot counts in SNAPSEQ. -/
theorem snap_snapseq (s : State) : (snap d pp s).fld (preg .schHctl (gport d pp)) SchHctl.SNAPSEQ =
    (s.fld (preg .schHctl (gport d pp)) SchHctl.SNAPSEQ + 1) % 65536 := by
  have hkeep : (snapClear (gport d pp) (snapRead d pp s)).fld (preg .schHctl (gport d pp)) SchHctl.SNAPSEQ =
      s.fld (preg .schHctl (gport d pp)) SchHctl.SNAPSEQ := (keeps_snapped d pp s).fld _ _ (by simp)
  rw [snap_eq, State.fld_setFld_same _ _ _ _ (by decide) (by decide), hkeep]
  exact Nat.mod_mod ..

/-- A snapshot shows each counter in the read set. -/
theorem snap_reg (s : State) {q k b : Nat} (hq : q < 16) (hk : k < 2) (hb : b < 16) :
    (snap d pp s).reg (histReg d pp q (16 * k + b)) = BitVec.ofNat 64 (s.sch.hist.get 0 (gport d pp, q, k, b)) := by
  have hother : (snap d pp s).reg (histReg d pp q (16 * k + b)) = (snapRead d pp s).reg (histReg d pp q (16 * k + b)) := by
    rw [snap_eq, State.reg_setFld_ne _ _ _ (by simp [histReg, preg]), (keeps_snapClear _ _).reg _ (by simp)]
  have hdiv : (16 * k + b) / 16 = k := by omega
  have hmod : (16 * k + b) % 16 = b := by omega
  rw [hother, snapRead_reg d pp s hq (by omega)]
  unfold State.histWord
  rw [hdiv, hmod]

/-- It clears each counter. -/
theorem snap_clears (s : State) (q k b : Nat) : (snap d pp s).sch.hist.get 0 (gport d pp, q, k, b) = 0 := by
  rw [snap_eq, State.setFld_sch, snapClear_hist]

end Snapshot

/-! ### The statement -/

/-- Settles O20: the selection of strict queues releases the head of the first that may send, a tick counts each queue once of each kind,
and a snapshot copies and clears. -/
theorem schedulerShapersAndSampling : Obligations.SchedulerShapersAndSampling := by
  unfold Obligations.SchedulerShapersAndSampling
  intro s d pp hd hpp
  have hdie := pdie_gport d hpp
  have hport := pnum_gport d hpp
  refine ⟨fun ecc hdown => ⟨_, rfl, if_pos hdown⟩,
    fun q p rest hup hn hrec hq hhead hsrc (hstrict : StrictPort _ s) hrel htake hfirst => ⟨fun hb => ?_, fun ha hcls => ?_⟩,
    fun q v hq => ?_, fun hen => ⟨_, rfl, if_pos hen⟩, fun hen => ⟨_, rfl, ?_⟩, _, rfl, ?_⟩
  · obtain ⟨m, hm⟩ := hstrict.releases hup hq hhead (hstrict.eligible hq hhead hrel htake) hfirst .clean
    refine ⟨_, congrArg Host.Outcome.next hm, ?_⟩
    have hu := releasePkt_replays (s := (s.withSched m).modQueue (gport d pp) q fun _ => rest) (g := gport d pp) hsrc
    rw [hdie, hport] at hu
    obtain ⟨hmem, hsch, hreplay, hnext⟩ := hu hup hn hrec hb
    have hqueue := fun k => State.queue_congr hsch (gport d pp) k
    exact ⟨(hqueue q).trans (State.queue_modQueue_same ..), fun k hk => (hqueue k).trans (State.queue_modQueue_ne _ _ _ hk), hmem, hreplay,
      hnext⟩
  · obtain ⟨m, hm⟩ := hstrict.releases hup hq hhead (hstrict.eligible hq hhead hrel htake) hfirst .header
    refine ⟨_, congrArg Host.Outcome.next hm, ?_⟩
    have hu := releasePkt_uncor (s := (s.withSched m).modQueue (gport d pp) q fun _ => rest) (g := gport d pp) hsrc hcls
    rw [hdie, hport] at hu
    obtain ⟨hmem, hsch, hreplay, hnext, hbit⟩ := hu ha
    exact ⟨(State.queue_congr hsch _ _).trans (State.queue_modQueue_same ..), hreplay, hnext, hbit, hmem⟩
  · refine ⟨_, rfl, ?_⟩
    rw [if_pos ⟨hd, hpp, hq⟩]
    exact qshapeWrite_fills d pp q v s
  · rw [histTick_eq, if_neg hen]
    refine ⟨keeps_forAll _ (fun _ _ => keeps_modSch _ _) _ _, fun q b hq hb => ⟨?_, fun hempty => ?_⟩⟩
    · rw [sampleTurns_hist d pp q b (by decide) List.nodup_range]
      simp [hq, State.sampleBin]
    · rw [sampleTurns_hist d pp q b (by decide) List.nodup_range, State.sampleBin_empty d pp hempty]
      simp [hq]
  · rw [if_pos ⟨hd, hpp⟩]
    exact ⟨keeps_snap d pp s, snap_snapseq d pp s, fun q k b hq hk hb => ⟨snap_reg d pp s hq hk hb, snap_clears d pp s q k b⟩⟩

end Sys2Proof.Machine
end

section
/-! SUPPORT. The partitions, and those whose function level reset is in progress: packets that go or that the part originates leave the former, and
what else a port does leaves the latter (04 R145, R152; 06 R204; 08 R308). -/

namespace Sys2Proof.Machine

/-! ### One update, a choice or a loop -/

@[simp] theorem State.modFace_flr (s : State) (n i : Nat) (f : FaceSt → FaceSt) : (s.modFace n i f).par.flr = s.par.flr := rfl
@[simp] theorem State.modVport_flr (s : State) (n k : Nat) (f : VpSt → VpSt) : (s.modVport n k f).par.flr = s.par.flr := rfl

@[simp] theorem par_ite (c : Prop) [Decidable c] (s t : State) : (if c then s else t).par = if c then s.par else t.par := apply_ite ..
@[simp] theorem flr_ite (c : Prop) [Decidable c] (p q : ParSt) : (if c then p else q).flr = if c then p.flr else q.flr := apply_ite ..

@[simp] theorem State.par_forAll {α : Type} {f : α → State → State} (h : ∀ a t, (f a t).par = t.par) (l : List α) (s : State) :
    (s.forAll l f).par = s.par := s.forAll_keeps State.par f h l

@[simp] theorem par_foldl {α : Type} {f : State → α → State} (h : ∀ t a, (f t a).par = t.par) (l : List α) (s : State) :
    (l.foldl f s).par = s.par := s.par_forAll (f := fun a t => f t a) (fun a t => h t a) l

@[simp] theorem State.flr_forAll {α : Type} {f : α → State → State} (h : ∀ a t, (f a t).par.flr = t.par.flr) (l : List α) (s : State) :
    (s.forAll l f).par.flr = s.par.flr := s.forAll_keeps (fun u => u.par.flr) f h l

@[simp] theorem flr_foldl {α : Type} {f : State → α → State} (h : ∀ t a, (f t a).par.flr = t.par.flr) (l : List α) (s : State) :
    (l.foldl f s).par.flr = s.par.flr := s.flr_forAll (f := fun a t => f t a) (fun a t => h t a) l

@[simp] theorem raiseFault_par (fr : FaultRec) (s : State) : (raiseFault fr s).par = s.par := by
  rcases raiseFault_cases fr s with ⟨he, -⟩ | ⟨-, he⟩ <;> simp [he]

@[simp] theorem raise_par (r : Reg) (f : Field) (s : State) : (raise r f s).par = s.par := raiseFault_par _ s

/-! ### Packets (04 R145; 06 R204) -/

section Packets
variable (p : Pkt) (s : State)

theorem par_of_parcels {ns : List RegName} {s t : State} (h : t.parcels ns = s.parcels ns) : t.par = s.par := (congrArg (fun x => x.2.par) h :)

theorem regs_of_parcels {s t : State} (h : t.parcels [] = s.parcels []) : t.regs = s.regs := by
  have hregs : (t.parcels []).2.regs = (s.parcels []).2.regs := congrArg (fun x => x.2.regs) h
  simpa [State.parcels] using hregs

/-- A packet that the part originates changes no partition and no register. -/
theorem originate_par_regs (g : Nat) (z : Tlp) : (originate g z s).par = s.par ∧ (originate g z s).regs = s.regs := by
  unfold originate
  dsimp only
  split
  · exact ⟨rfl, rfl⟩
  · split
    · exact ⟨rfl, rfl⟩
    · cases hplace : placeControl g z s with
      | none => exact ⟨rfl, rfl⟩
      | some u =>
        unfold placeControl at hplace
        obtain ⟨x, hx, rfl⟩ := Option.map_eq_some_iff.mp hplace
        have hp := storeRecord_parcels (ns := []) hx
        exact ⟨(par_of_parcels hp :), (regs_of_parcels hp :)⟩

@[simp] theorem originate_par (g : Nat) (z : Tlp) : (originate g z s).par = s.par := (originate_par_regs s g z).1
@[simp] theorem originate_regs (g : Nat) (z : Tlp) : (originate g z s).regs = s.regs := (originate_par_regs s g z).2

@[simp] theorem dropCells_par (d : Nat) (cs : List Nat) : (dropCells d cs s).par = s.par := par_of_parcels (dropCells_parcels (ns := []) d s cs)
@[simp] theorem releaseIngress_par : (releaseIngress p s).par = s.par := par_of_parcels (releaseIngress_parcels (ns := []) s p)
@[simp] theorem dmaReleased_par : (dmaReleased p s).par = s.par := by unfold dmaReleased; split <;> simp
@[simp] theorem reportTag_par : (reportTag p s).par = s.par := rfl
@[simp] theorem retireTag_par : (retireTag p s).par = s.par := rfl
@[simp] theorem advance_par : (advance p s).par = s.par := by unfold advance; simp
@[simp] theorem releaseHeld_par (d : Nat) : (releaseHeld d p s).par = s.par := by unfold releaseHeld; split <;> simp

@[simp] theorem answerLost_par (status : Nat) : (answerLost p status s).par = s.par := by
  unfold answerLost
  split
  · rfl
  · split <;> simp

@[simp] theorem flushPkt_par : (flushPkt p s).par = s.par := by unfold flushPkt; simp
@[simp] theorem flushPort_par (g : Nat) : (flushPort g s).par = s.par := by unfold flushPort; simp
@[simp] theorem trapFreed_par (g k : Nat) : (trapFreed g k s).par = s.par := by
  unfold trapFreed clearTraprec
  dsimp only
  rw [State.par_forAll]
  · rfl
  · exact fun _ _ => rfl

end Packets

/-! ### Ports (03 R98, R100; 04 R152) -/

section Ports
variable (s : State)

@[simp] theorem vpMsi_par (n k : Nat) : (vpMsi n k s).par = s.par := by
  unfold vpMsi
  dsimp only
  split
  · simp
  · rfl

@[simp] theorem vpEvent_flr (n k : Nat) (bits : List Nat) : (vpEvent n k bits s).par.flr = s.par.flr := by unfold vpEvent; simp

@[simp] theorem slotStatus_flr (g b : Nat) : (slotStatus g b s).par.flr = s.par.flr := by
  unfold slotStatus
  extract_lets d e n s1
  have h1 : s1.par.flr = s.par.flr := by simp only [s1]; split <;> simp
  simp [h1]

@[simp] theorem cfgResetFns_flr (n f : Nat) (fns : List Nat) : (cfgResetFns n f fns s).par.flr = s.par.flr := rfl
@[simp] theorem faceReset_flr (n f : Nat) : (faceReset n f s).par.flr = s.par.flr := by
  unfold faceReset
  rw [State.modFace_flr, State.flr_forAll, cfgResetFns_flr]
  exact fun _ _ => rfl

@[simp] theorem holdLanes_par (d pp : Nat) : (holdLanes d pp s).par = s.par := by unfold holdLanes holdEq; simp
@[simp] theorem setLinkState_par (d i v : Nat) : (setLinkState d i v s).par = s.par := rfl
@[simp] theorem endRetrainInstance_par (d i : Nat) : (endRetrainInstance d i s).par = s.par := rfl
@[simp] theorem endPeg_par (d pp st : Nat) : (endPeg d pp st s).par = s.par := by unfold endPeg; simp

@[simp] theorem abortPartial_par (g : Nat) : (abortPartial g s).par = s.par := by
  unfold abortPartial
  extract_lets d c parts early gone slots s1 s2 s3 s4 s5
  have h3 : s3.par = s.par := by simp [s3, s2, s1]
  have h4 : s4.par = s3.par := rfl
  have h5 : s5.par = s4.par := by simp [s5]
  simp [h5, h4, h3]

@[simp] theorem startGrace_par (d pp : Nat) : (startGrace d pp s).par = s.par := by unfold startGrace; simp
@[simp] theorem enterDetect_par (d pp : Nat) (fresh : Bool) : (enterDetect d pp fresh s).par = s.par := by unfold enterDetect; simp
@[simp] theorem lowPowerEntry_par (d pp k w : Nat) : (lowPowerEntry d pp k w s).par = s.par := by unfold lowPowerEntry holdEq; simp

@[simp] theorem linkDown_flr (d pp : Nat) (own : Bool) : (linkDown d pp own s).par.flr = s.par.flr := by
  unfold linkDown
  extract_lets g s0 back s1 s2 s3 r s4 s5 s6
  have h2 : s2.par = s0.par :=
    s1.forAll_keeps State.par (fun (p : Pkt) t => t.modQueue g p.queue fun q => p :: q) (fun _ _ => rfl) back.reverse
  have h5 : s5.par = s2.par := by simp [s5, s4, s3]
  have h6 : s6.par.flr = s5.par.flr := by simp only [s6]; split <;> simp
  simp [h6, h5, h2, s0]

end Ports

end Sys2Proof.Machine
end

section
/-! SUPPORT. What the operations that end assist instances, stop channels and switch slots leave: every register but those of some names, what lies
beyond the fabric, the tables, and the partitions whose function level reset is in progress (01 R35; 08 R308; 09 R339, R353; 15 R571, R572). -/

namespace Sys2Proof.Machine

/-! ### What these operations leave -/

/-- The registers that they write. -/
def hostRegs : List RegName :=
  linkRegs ++ ([.fltTlerr, .xltPrec0, .xltPrec1, .dmaChCtl, .dmaChRing, .dmaChStat, .dmaErr, .dmaCnt, .schPxrec, .parCnt, .partEvtq, .hildStat,
    .hildSum, .hildHpv, .hildErr] : List RegName)

@[simp] theorem mem_hostRegs : RegName.fltTlerr ∈ hostRegs ∧ RegName.xltPrec0 ∈ hostRegs ∧ RegName.xltPrec1 ∈ hostRegs ∧
    RegName.dmaChCtl ∈ hostRegs ∧ RegName.dmaChRing ∈ hostRegs ∧ RegName.dmaChStat ∈ hostRegs ∧ RegName.dmaErr ∈ hostRegs ∧
    RegName.dmaCnt ∈ hostRegs ∧ RegName.schPxrec ∈ hostRegs ∧ RegName.parCnt ∈ hostRegs ∧ RegName.lanePeg ∈ hostRegs ∧
    RegName.fltPcnt ∈ hostRegs ∧ RegName.partEvtq ∈ hostRegs ∧ RegName.hildStat ∈ hostRegs ∧ RegName.hildSum ∈ hostRegs ∧
    RegName.hildHpv ∈ hostRegs ∧ RegName.hildErr ∈ hostRegs := by decide

theorem linkRegs_subset_hostRegs : ∀ n ∈ linkRegs, n ∈ hostRegs := fun _ h => List.mem_append_left _ h

theorem packetRegs_subset_hostRegs : ∀ n ∈ packetRegs, n ∈ hostRegs := fun n h => linkRegs_subset_hostRegs n (packetRegs_subset_linkRegs n h)

/-- What they leave: what lies beyond the fabric, every other register, the tables, and the resets in progress. -/
def State.hosting (s : State) : ((Memory × CoreSt × Fuses × BootSt × List Instr) × (Reg → Word)) × TabSt × List Nat :=
  (s.beyond hostRegs, s.tab, s.par.flr)

theorem hosting_congr {ns : List RegName} {s t : State} (hb : t.beyond ns = s.beyond ns) (hn : ∀ n ∈ ns, n ∈ hostRegs) (htab : t.tab = s.tab)
    (hflr : t.par.flr = s.par.flr) : t.hosting = s.hosting := by
  unfold State.hosting
  rw [beyond_mono hn hb, htab, hflr]

section Reading
variable {s t : State} (h : t.hosting = s.hosting)
include h

theorem beyond_of_hosting : t.beyond hostRegs = s.beyond hostRegs := congrArg Prod.fst h
theorem tab_of_hosting : t.tab = s.tab := congrArg (fun x => x.2.1) h
theorem flr_of_hosting : t.par.flr = s.par.flr := congrArg (fun x => x.2.2) h

end Reading

/-! ### One update, a choice or a loop -/

section Updates
variable (s : State)

@[simp] theorem State.hosting_setReg {r : Reg} (v : Word) (h : r.name ∈ hostRegs) : (s.setReg r v).hosting = s.hosting :=
  hosting_congr (s.beyond_setReg v h) (fun _ hn => hn) rfl rfl

@[simp] theorem State.hosting_setFld {r : Reg} (f : Field) (v : Nat) (h : r.name ∈ hostRegs) : (s.setFld r f v).hosting = s.hosting :=
  s.hosting_setReg _ h

@[simp] theorem State.hosting_count {r : Reg} (f : Field) (n : Nat) (h : r.name ∈ hostRegs) : (s.count r f n).hosting = s.hosting :=
  s.hosting_setReg _ h

@[simp] theorem State.hosting_modPar (f : ParSt → ParSt) (h : (f s.par).flr = s.par.flr) : (s.modPar f).hosting = s.hosting :=
  hosting_congr (ns := hostRegs) rfl (fun _ hn => hn) rfl h

@[simp] theorem State.hosting_modFlt (f : FltSt → FltSt) : (s.modFlt f).hosting = s.hosting := by unfold State.modFlt; rfl
@[simp] theorem State.hosting_modLane (f : LaneSt → LaneSt) : (s.modLane f).hosting = s.hosting := by unfold State.modLane; rfl
@[simp] theorem State.hosting_modLink (d i : Nat) (f : LinkSt → LinkSt) : (s.modLink d i f).hosting = s.hosting := by unfold State.modLink; rfl
@[simp] theorem State.hosting_modFret (f : FretSt → FretSt) : (s.modFret f).hosting = s.hosting := by unfold State.modFret; rfl
@[simp] theorem State.hosting_modBufDie (d : Nat) (f : BufDie → BufDie) : (s.modBufDie d f).hosting = s.hosting := by unfold State.modBufDie; rfl
@[simp] theorem State.hosting_modSch (f : SchSt → SchSt) : (s.modSch f).hosting = s.hosting := by unfold State.modSch; rfl
@[simp] theorem State.hosting_modQueue (g q : Nat) (f : List Pkt → List Pkt) : (s.modQueue g q f).hosting = s.hosting := s.hosting_modSch _
@[simp] theorem State.hosting_modFlow (n : Nat) (f : FlowSt → FlowSt) : (s.modFlow n f).hosting = s.hosting := by unfold State.modFlow; rfl
@[simp] theorem State.hosting_modFace (n i : Nat) (f : FaceSt → FaceSt) : (s.modFace n i f).hosting = s.hosting := s.hosting_modPar _ rfl
@[simp] theorem State.hosting_modXltDie (d : Nat) (f : XltDie → XltDie) : (s.modXltDie d f).hosting = s.hosting := by unfold State.modXltDie; rfl
@[simp] theorem State.hosting_modChan (d c : Nat) (f : ChanSt → ChanSt) : (s.modChan d c f).hosting = s.hosting := by unfold State.modChan; rfl
@[simp] theorem State.hosting_modSlot (n : Nat) (f : SlotSt → SlotSt) : (s.modSlot n f).hosting = s.hosting := by unfold State.modSlot; rfl

theorem State.hosting_setHild (h : HildSt) : ({ s with hild := h } : State).hosting = s.hosting := rfl

@[simp] theorem hosting_ite (c : Prop) [Decidable c] (t : State) : (if c then s else t).hosting = if c then s.hosting else t.hosting :=
  apply_ite ..

@[simp] theorem State.hosting_forAll {α : Type} {f : α → State → State} (h : ∀ a t, (f a t).hosting = t.hosting) (l : List α) :
    (s.forAll l f).hosting = s.hosting := s.forAll_keeps State.hosting f h l

@[simp] theorem hosting_foldl {α : Type} {f : State → α → State} (h : ∀ t a, (f t a).hosting = t.hosting) (l : List α) :
    (l.foldl f s).hosting = s.hosting := s.hosting_forAll (f := fun a t => f t a) (fun a t => h t a) l

theorem raiseFault_hosting (fr : FaultRec) (h : fr.reg.name ∈ hostRegs) : (raiseFault fr s).hosting = s.hosting := by
  rcases raiseFault_cases fr s with ⟨he, -⟩ | ⟨-, he⟩
  · rw [he]
  · rw [he]; exact s.hosting_setReg _ h

@[simp] theorem raise_hosting (r : Reg) (f : Field) (h : r.name ∈ hostRegs) : (raise r f s).hosting = s.hosting := raiseFault_hosting s _ h

end Updates

/-! ### Packets and links (03 R98; 04 R145; 06 R204) -/

section Packets
variable (p : Pkt) (s : State)

/-- The operations of a port leave it, since they leave the outer part of a state. -/
theorem hosting_of_outer {t : State} (hb : t.beyond linkRegs = s.beyond linkRegs) (ho : t.outer = s.outer) (hflr : t.par.flr = s.par.flr) :
    t.hosting = s.hosting :=
  hosting_congr hb linkRegs_subset_hostRegs (congrArg State.tab ho :) hflr

theorem hosting_of_wires {t : State} (hw : t.wires = s.wires) (ho : t.outer = s.outer) (hflr : t.par.flr = s.par.flr) : t.hosting = s.hosting :=
  hosting_of_outer s (beyond_of_wires hw packetRegs_subset_linkRegs) ho hflr

@[simp] theorem originate_hosting (g : Nat) (z : Tlp) : (originate g z s).hosting = s.hosting :=
  hosting_of_wires s (originate_wires g z s) (originate_outer g z s) (by simp)

@[simp] theorem dropCells_hosting (d : Nat) (cs : List Nat) : (dropCells d cs s).hosting = s.hosting :=
  hosting_of_wires s (dropCells_wires d cs s) (dropCells_outer d cs s) (by simp)

@[simp] theorem retireTag_hosting : (retireTag p s).hosting = s.hosting :=
  hosting_of_wires s (retireTag_wires p s) (retireTag_outer p s) (by simp)

@[simp] theorem dmaReleased_hosting : (dmaReleased p s).hosting = s.hosting :=
  hosting_of_wires s (dmaReleased_wires p s) (dmaReleased_outer p s) (by simp)

@[simp] theorem answerLost_hosting (status : Nat) : (answerLost p status s).hosting = s.hosting :=
  hosting_of_wires s (answerLost_wires p status s) (answerLost_outer p status s) (by simp)

@[simp] theorem flushPkt_hosting : (flushPkt p s).hosting = s.hosting :=
  hosting_of_wires s (flushPkt_wires p s) (flushPkt_outer p s) (by simp)

@[simp] theorem flushHome_hosting : (flushHome p s).hosting = s.hosting := by unfold flushHome; simp

@[simp] theorem vpEvent_hosting (n k : Nat) (bits : List Nat) : (vpEvent n k bits s).hosting = s.hosting :=
  hosting_of_wires s (vpEvent_wires n k bits s) (vpEvent_outer n k bits s) (by simp)

@[simp] theorem cfgResetFns_hosting (n f : Nat) (fns : List Nat) : (cfgResetFns n f fns s).hosting = s.hosting := by
  unfold cfgResetFns; rfl

@[simp] theorem linkDown_hosting (d pp : Nat) (own : Bool) : (linkDown d pp own s).hosting = s.hosting :=
  hosting_of_outer s (linkDown_beyond s d pp own) (linkDown_outer d pp own s) (by simp)

end Packets

/-! ### Page request instances and channels (09 R339, R351 to R353) -/

section Channels
variable (s : State)

@[simp] theorem prec0_name (d i : Nat) : (prec0 d i).name = .xltPrec0 := by simp only [prec0]
@[simp] theorem prec1_name (d i : Nat) : (prec1 d i).name = .xltPrec1 := by simp only [prec1]
@[simp] theorem chReg_name (n : RegName) (d c : Nat) : (chReg n d c).name = n := by simp only [chReg]

@[simp] theorem endPrec_hosting (d i : Nat) : (endPrec d i s).hosting = s.hosting := by unfold endPrec; simp

@[simp] theorem withdraw_hosting (d c : Nat) : (withdraw d c s).hosting = s.hosting := by unfold withdraw; dsimp only; split <;> simp

@[simp] theorem raiseChan_hosting (d c : Nat) (f : Field) : (raiseChan d c f s).hosting = s.hosting := raiseFault_hosting s _ (by simp)

@[simp] theorem endDesc_hosting (d c st bytes : Nat) : (endDesc d c st bytes s).hosting = s.hosting := by
  unfold endDesc
  split
  · rfl
  · extract_lets s1 s2 s3 s4
    have h2 : s2.hosting = s.hosting := by simp [s2, s1]
    have h3 : s3.hosting = s2.hosting := by simp only [s3]; split <;> simp
    simp [s4, h3, h2]

@[simp] theorem dmaHardware_hosting (d c : Nat) : (dmaHardware d c s).hosting = s.hosting := by unfold dmaHardware; split <;> simp

@[simp] theorem refuseAnswer_hosting (p : Pkt) (ca : Bool) : (refuseAnswer p ca s).hosting = s.hosting := by
  unfold refuseAnswer
  split
  · simp [tlerr]
  · rfl

@[simp] theorem refuseTagged_hosting (reason : Nat) (ps : List Pkt) : (refuseTagged reason ps s).hosting = s.hosting := by
  unfold refuseTagged logReason
  split <;> simp

/-- The hardware-mode action of an entry of the page requests. -/
@[simp] theorem precAnswer_hosting (d i : Nat) : (precAnswer false d i false s).hosting = s.hosting := by
  unfold precAnswer dropFq
  dsimp only
  split
  · simp
  · split <;> simp

@[simp] theorem flushDma_hosting (n : Nat) : (flushDma n s).hosting = s.hosting := by unfold flushDma State.onActive; simp

@[simp] theorem stopDma_hosting (n : Nat) : (stopDma n s).hosting = s.hosting := by unfold stopDma; simp

@[simp] theorem resetRings_hosting (n : Nat) : (resetRings n s).hosting = s.hosting :=
  s.hosting_forAll (fun d t => t.hosting_forAll (fun c u => by simp) _) _

end Channels

/-! ### Slots (15 R565, R571, R572, R582, R583) -/

section Slots
variable (n : Nat) (s : State)

@[simp] theorem hreg_name (r : RegName) : (hreg r n).name = r := by simp only [hreg]

@[simp] theorem setSlot_hosting (f : Field) (v : Nat) : (setSlot n f v s).hosting = s.hosting := by unfold setSlot; simp
@[simp] theorem syncSum_hosting : (syncSum n s).hosting = s.hosting := by unfold syncSum; simp
@[simp] theorem slotUngood_hosting : (slotUngood n s).hosting = s.hosting := by unfold slotUngood; simp
@[simp] theorem slotHalt_hosting (gate state : Nat) : (slotHalt n gate state s).hosting = s.hosting := by unfold slotHalt; simp
@[simp] theorem slotNote_hosting (b : Nat) : (slotNote n b s).hosting = s.hosting := by unfold slotNote; split <;> simp
@[simp] theorem slotTrip_hosting (f : Field) : (slotTrip n f s).hosting = s.hosting := by unfold slotTrip; simp
@[simp] theorem slotRamp_hosting : (slotRamp n s).hosting = s.hosting := by unfold slotRamp; simp

@[simp] theorem endHotplug_hosting : (endHotplug n s).hosting = s.hosting := by
  unfold endHotplug
  extract_lets s1
  have h1 : s1.hosting = s.hosting := by simp [s1]
  rw [State.hosting_setHild, h1]

end Slots

end Sys2Proof.Machine
end

section
/-! SUPPORT. Function level resets: what the expiry of a partition's assist instances leaves, what stands in a face after the reset, and what the
sideband bridges leave of the partitions (01 R34 to R37; 08 R308; 16 R601). -/

namespace Sys2Proof.Machine

/-! ### The upstream port of a face -/

/-- The upstream port of a face depends on the tables, the mode, the lead die and the member. -/
theorem State.facePort_congr {ns : List RegName} {s t : State} (hk : Keeps ns s t) (hn : .partMode ∉ ns ∧ .partLead ∉ ns) (htab : t.tab = s.tab)
    (n f : Nat) : t.facePort n f = s.facePort n f := by
  obtain ⟨hmode, hlead⟩ := hn
  have hl : t.lead = s.lead := hk.fld partLead PartLead.LEAD hlead
  obtain ⟨-, -, hfuses, -⟩ := id hk
  have hword : ∀ d e off, t.bankAt d e off = s.bankAt d e off := fun d e off => by unfold State.bankAt State.tabDie; rw [htab]
  unfold State.facePort State.partValid State.upOf State.up0 State.up1 State.partWord State.newE State.tabDie State.partCount State.dieCount
  simp only [hk.mode hmode, hl, hfuses, htab, hword]

theorem facePort_of_hosting {s t : State} (h : t.hosting = s.hosting) (n f : Nat) : t.facePort n f = s.facePort n f :=
  State.facePort_congr (keeps_of_beyond (beyond_of_hosting h)) (by decide) (tab_of_hosting h) n f

/-! ### Assist instances that expire (01 R34 to R37; 08 R308 step 1) -/

section Expire
variable (s : State) (d i : Nat)

@[simp] theorem precExpire_hosting : (precExpire d i s).hosting = s.hosting := by unfold precExpire; simp
@[simp] theorem dmaExpire_hosting : (dmaExpire d i s).hosting = s.hosting := by unfold dmaExpire; simp
@[simp] theorem retrainExpire_hosting : (retrainExpire d i s).hosting = s.hosting := by unfold retrainExpire; simp
@[simp] theorem pegExpire_hosting : (pegExpire d i s).hosting = s.hosting := by unfold pegExpire pegGoOn setPegState lanePeg; simp
@[simp] theorem pxExpire_hosting : (pxExpire d i s).hosting = s.hosting := by unfold pxExpire actPx pxrec; simp
@[simp] theorem hotplugExpire_hosting : (hotplugExpire i s).hosting = s.hosting := by unfold hotplugExpire; simp

theorem endpointExpire_hosting (n : Nat) : (endpointExpire n s).hosting = s.hosting := by
  refine s.hosting_forAll (fun d t => ?_) _
  extract_lets t1 t2 t3 t4 t5
  have h5 : t5.hosting = t.hosting := by simp [t5, t4, t3, t2, t1]
  simp [h5]

theorem keeps_keepExpired (t : State) : Keeps [] t (keepExpired s t) := Keeps.of_eq rfl rfl rfl rfl rfl
theorem keepExpired_par_tab (t : State) : (keepExpired s t).par = t.par ∧ (keepExpired s t).tab = t.tab := ⟨rfl, rfl⟩

/-- What the first step of an FLR leaves: the upstream ports of the faces, and the resets that were in progress. -/
theorem initiateFlr_leaves {n : Nat} (h : n ∉ s.par.flr) :
    (initiateFlr n s).par.flr = s.par.flr ++ [n] ∧ ∀ m f, (initiateFlr n s).facePort m f = s.facePort m f := by
  have hrun : initiateFlr n s = (keepExpired s (endpointExpire n s)).modPar fun p => { p with flr := p.flr ++ [n] } := if_neg h
  have he := endpointExpire_hosting s n
  rw [hrun]
  generalize endpointExpire n s = t at he
  obtain ⟨hpar, htab⟩ := keepExpired_par_tab s t
  refine ⟨?_, fun m f => ?_⟩
  · rw [State.modPar_par, hpar, flr_of_hosting he]
  · rw [State.facePort_congr (keeps_modPar _ _) ⟨by simp, by simp⟩ rfl, State.facePort_congr (keeps_keepExpired s t) ⟨by simp, by simp⟩ htab,
      facePort_of_hosting he]

end Expire

/-! ### Sideband bridges (16 R588, R601) -/

section Sideband
variable (s : State) (d i : Nat)

@[simp] theorem segSync_par : (segSync d i s).par = s.par := by unfold segSync; dsimp only; split <;> rfl

@[simp] theorem sbbDone_par (x : SbbTxn) (status : Nat) (data : List Byte) : (sbbDone d x status data s).par = s.par := by
  unfold sbbDone
  extract_lets reads s1 s2
  have h2 : s2.par = s.par := by simp [s2, s1]
  split
  · exact h2
  · exact h2
  · extract_lets r s3
    have h3 : s3.par = s2.par := rfl
    split
    · rw [State.par_forAll, h3, h2]
      exact fun _ _ => rfl
    · exact h2

@[simp] theorem sbbState_par (who : Option SbbReq) (v : Nat) : (sbbState d who v s).par = s.par := by unfold sbbState; split <;> rfl
@[simp] theorem sbbQueue_par (who : SbbReq) (v : Word) : (sbbQueue d i who v s).par = s.par := by unfold sbbQueue; simp

@[simp] theorem winPump_par (n k f : Nat) : (winPump n k f s).par = s.par := by
  induction f generalizing s with
  | zero => rfl
  | succ f ih =>
    unfold winPump
    extract_lets w
    split
    · rfl
    · split
      · rfl
      · simp [ih]
      · extract_lets v s1 fail
        have hfail : ∀ st, (fail st).par = s.par := fun st => by simp [fail, ih, s1]
        split
        · exact hfail 8
        · split
          · exact hfail 6
          · simp [s1]

@[simp] theorem segPump_par (f : Nat) : (segPump d i f s).par = s.par := by
  induction f generalizing s with
  | zero => simp [segPump]
  | succ f ih =>
    unfold segPump
    extract_lets g
    split
    · simp
    · split
      · simp
      · extract_lets s1 fin bound
        have hfin : ∀ st u, (fin st u).par = u.par := by
          intro st u
          simp only [fin, ih]
          split <;> simp
        simp [hfin, s1]

@[simp] theorem sbbFlr_par (n : Nat) : (sbbFlr n s).par = s.par := by
  unfold sbbFlr
  extract_lets t
  have ht : t.par = s.par := by
    refine s.par_forAll (fun k u => ?_) _
    extract_lets me u1
    have h1 : u1.par = u.par := by simp [u1]
    exact h1
  simp [ht]

end Sideband

/-! ### Faces after a reset (08 R308 step 4) -/

theorem State.face_modFace (s : State) (n i m j : Nat) (f : FaceSt → FaceSt) :
    (s.modFace n i f).face m j = if m = n ∧ j = i then f (s.face n i) else s.face m j := by
  unfold State.modFace State.face
  rw [State.modPar_par, FMap.get_set]
  simp only [Prod.mk.injEq]

@[simp] theorem State.face_modFace_same (s : State) (n i : Nat) (f : FaceSt → FaceSt) : (s.modFace n i f).face n i = f (s.face n i) := by
  rw [State.face_modFace, if_pos ⟨rfl, rfl⟩]

/-- The endpoint of a face is in D0, with its MSI-X, its masks and its pending bits cleared. -/
structure EndpointFresh (n f : Nat) (s : State) : Prop where
  d0 : (s.face n f).dstate = 0
  master : (s.face n f).bme = false
  msix : (s.face n f).msix = false
  masked : (s.face n f).masked = []
  pending : (s.face n f).pba = []

theorem EndpointFresh.congr {n f : Nat} {s t : State} (h : EndpointFresh n f s) (he : t.face n f = s.face n f) : EndpointFresh n f t :=
  ⟨he ▸ h.d0, he ▸ h.master, he ▸ h.msix, he ▸ h.masked, he ▸ h.pending⟩

/-- What a reset leaves of the endpoint of a face. -/
def FaceSt.endpointReset (x : FaceSt) : FaceSt :=
  { x with dstate := 0, bme := false, msix := false, masked := [], pba := [], priEn := false, priAlloc := 0, pasidEn := false }

/-- An FLR resets the endpoint of a face that is there. -/
def flrFace (n f : Nat) (t : State) : State :=
  match t.facePort n f with
  | none => t
  | some g => ((cfgResetFns n f [2] t).modFace n f FaceSt.endpointReset).count (dreg .parCnt (pdie g)) ParCnt.FLRS 1

theorem flrEnd_eq (n : Nat) (s : State) : flrEnd n s =
    sbbFlr n (((resetRings n (stopDma n s)).forAll (List.range 2) (flrFace n)).modPar fun p =>
      { p with pending := p.pending.erase n, flr := p.flr.erase n }) := rfl

section Faces
variable {n f : Nat} {s : State}

theorem flrFace_hosting (n f : Nat) (s : State) : (flrFace n f s).hosting = s.hosting := by unfold flrFace; split <;> simp

theorem flrFace_face {u b : Nat} (h : s.facePort n b = some u) :
    (flrFace n b s).face n f = if f = b then (s.face n b).endpointReset else s.face n f := by
  unfold flrFace
  rw [h]
  refine ((cfgResetFns n b [2] s).face_modFace n b n f _).trans ?_
  simp only [true_and]
  rfl

theorem flrFace_fresh {u : Nat} (h : s.facePort n f = some u) : EndpointFresh n f (flrFace n f s) := by
  have hface := flrFace_face (f := f) h
  rw [if_pos rfl] at hface
  exact ⟨by rw [hface]; rfl, by rw [hface]; rfl, by rw [hface]; rfl, by rw [hface]; rfl, by rw [hface]; rfl⟩

/-- The reset of one face leaves the other one fresh. -/
theorem EndpointFresh.after_flrFace (h : EndpointFresh n f s) (b : Nat) : EndpointFresh n f (flrFace n b s) := by
  cases hport : s.facePort n b with
  | none => unfold flrFace; rw [hport]; exact h
  | some u =>
    by_cases hb : f = b
    · subst hb; exact flrFace_fresh hport
    · exact h.congr ((flrFace_face hport).trans (if_neg hb))

/-- At the end of an FLR the endpoint of each face of the partition is fresh, and no event of the partition is pending. -/
theorem flrEnd_reads {u : Nat} (h : s.facePort n f = some u) (hf : f < 2) :
    EndpointFresh n f (flrEnd n s) ∧ (flrEnd n s).par.pending.get [] n = [] ∧ (flrEnd n s).par.flr = s.par.flr.erase n := by
  let s2 := resetRings n (stopDma n s)
  let s3 := s2.forAll (List.range 2) (flrFace n)
  have h2 : s2.hosting = s.hosting := by simp [s2]
  have h3 : s3.hosting = s.hosting := (s2.hosting_forAll (fun b t => flrFace_hosting n b t) _).trans h2
  have hfresh : EndpointFresh n f s3 :=
    State.forAll_reaches (P := fun t => t.hosting = s.hosting) (fun b t ht => (flrFace_hosting n b t).trans ht)
      (fun t ht => flrFace_fresh ((facePort_of_hosting ht n f).trans h)) (fun b t ht => ht.after_flrFace b) (List.mem_range.mpr hf) h2
  have hpar : (flrEnd n s).par = { s3.par with pending := s3.par.pending.erase n, flr := s3.par.flr.erase n } := by
    rw [flrEnd_eq, sbbFlr_par, State.modPar_par]
  clear_value s3
  refine ⟨hfresh.congr ?_, ?_, ?_⟩
  · unfold State.face; rw [hpar]
  · rw [hpar]; exact FMap.get_erase_same ..
  · rw [hpar]; rw [flr_of_hosting h3]

end Faces

end Sys2Proof.Machine
end

section
/-! SUPPORT. The actions of a host on its partition: bus reset, slot power and PME_Turn_Off, and the statement that they, the retrain of a bound link
and function level resets meet (08 R293, R301, R306 to R308, R311). -/

namespace Sys2Proof.Machine

/-! ### A hot reset (08 R301; 03 R98, R101) -/

/-- A link that the part takes down on purpose is down, and nothing waits to be sent again. -/
theorem linkDown_own (d pp : Nat) (s : State) : let t := linkDown d pp true s
    t.linkState d pp = 7 ∧ (t.link d pp).Empty ∧ t.mayTrain d pp = s.mayTrain d pp := by
  intro t
  obtain ⟨u, hu, he⟩ := linkDown_falls s d pp true
  have ht : t = startGrace d pp (slotStatus (gport d pp) slotLinkState u) := he
  have hw := slotStatus_wires (gport d pp) slotLinkState u
  obtain ⟨hstate, hmay, hempty⟩ := startGrace_port (slotStatus (gport d pp) slotLinkState u) d pp
  rw [ht]
  refine ⟨?_, hempty (LinkSt.empty_of_engine (engine_of_wires hw d pp) hu.empty), ?_⟩
  · rw [hstate, linkState_of_wires d pp hw, hu.state]
  · rw [hmay, mayTrain_of_wires d pp hw, hu.mayTrain]

theorem hotReset_reads {g : Nat} {s : State} (h : s.linkLive (pdie g) (pnum g) = true) : let t := hotReset g s
    t.linkState (pdie g) (pnum g) = (if s.mayTrain (pdie g) (pnum g) then 1 else 7) ∧ (t.link (pdie g) (pnum g)).held = [] ∧ Still s t := by
  intro t
  have ht : t = enterDetect (pdie g) (pnum g) false (linkDown (pdie g) (pnum g) true s) := by
    simp only [t, hotReset, takeDown, if_pos h]
  obtain ⟨hstate, ⟨hheld, -⟩, hmay⟩ := linkDown_own (pdie g) (pnum g) s
  have hstill : Still s t := by
    rw [ht]
    exact still_of_beyond ((enterDetect_retrain_beyond _ _ _ (by simp)).trans (linkDown_beyond s _ _ true))
  generalize linkDown (pdie g) (pnum g) true s = u at *
  refine ⟨?_, ?_, hstill⟩
  · rw [ht, ← hmay]
    unfold enterDetect
    split
    · exact setLinkState_linkState_same u _ _ 1 (by decide)
    · exact hstate
  · rw [ht]
    unfold enterDetect
    split <;> exact hheld

/-! ### Slot power (08 R306, R307; 15 R571 to R573) -/

section Power
variable (n : Nat) (s : State)

@[simp] theorem toBmc_hosting (m : BmcMsg) : (toBmc m s).hosting = s.hosting := by unfold toBmc setBmc; simp

@[simp] theorem toEndpoint_hosting (d e : Nat) : (toEndpoint n d e s).hosting = s.hosting := by
  unfold toEndpoint sendPme
  dsimp only
  split
  · simp
  · split <;> simp

@[simp] theorem deliverVerdict_hosting (d e mode part : Nat) : (deliverVerdict d e mode part s).hosting = s.hosting := by
  unfold deliverVerdict deliverRouted recNote
  simp

@[simp] theorem slotTry_hosting : (slotTry n s).hosting = s.hosting := by
  unfold slotTry
  split
  · extract_lets mode tag owner s1 hild s2
    have h1 : s1.hosting = s.hosting := by simp [s1]
    have h2 : s2.hosting = s1.hosting := (syncSum_hosting n _).trans (s1.hosting_setHild _)
    simp [h2, h1]
  · rfl

/-- PWREN takes its value, and what the slot then does leaves it. -/
theorem slotPwren_hosting (on : Bool) : (slotPwren n on s).hosting = (s.setFld (hreg .hildCtl n) HildCtl.PWREN (b2n on)).hosting := by
  unfold slotPwren
  extract_lets s0 st
  show _ = s0.hosting
  clear_value s0
  split
  · split <;> simp
  · split
    · simp
    · split
      · simp
      · split <;> simp

theorem vpEvent_slotStat (k b : Nat) : ((vpEvent n k [b] s).vport n k).slotStat.testBit b = true := by
  have hset : ((vpEvent n k [b] s).vport n k).slotStat = (s.vport n k).slotStat ||| 2 ^ b := by
    unfold vpEvent State.vport
    simp [State.modVport]
  simp [hset, Nat.testBit_two_pow_self]

/-- A power controller write that reaches the Hild die. -/
theorem slotPower_reads (k slot : Nat) (on : Bool) : let t := vpEvent n k [slotCommand] (slotPwren slot on s)
    t.fld (hreg .hildCtl slot) HildCtl.PWREN = b2n on ∧ (t.vport n k).slotStat.testBit slotCommand = true ∧ Still s t := by
  intro t
  have hb : t.beyond hostRegs = (s.setFld (hreg .hildCtl slot) HildCtl.PWREN (b2n on)).beyond hostRegs :=
    beyond_of_hosting ((vpEvent_hosting _ n k _).trans (slotPwren_hosting slot s on))
  refine ⟨?_, vpEvent_slotStat n _ k slotCommand, ?_⟩
  · rw [(keeps_of_beyond hb).fld _ _ (by rw [hreg_name]; decide), State.fld_setFld_same _ _ _ _ (by decide) (by decide)]
    cases on <;> rfl
  · have hset : Still s (s.setFld (hreg .hildCtl slot) HildCtl.PWREN (b2n on)) := ⟨rfl, rfl, rfl, rfl, rfl⟩
    exact hset.trans (still_of_beyond hb)

end Power

/-! ### PME_Turn_Off (08 R311) -/

section TurnOff
variable (n f g : Nat) (s : State)

theorem lowPowerEntry_beyond {ns : List RegName} (d pp k w : Nat) (hs : .linkStat ∈ ns) (hr : .laneRxeq ∈ ns) (hd : .laneDfe ∈ ns) :
    (lowPowerEntry d pp k w s).beyond ns = s.beyond ns := by
  unfold lowPowerEntry
  simp [hs, hr, hd]

/-- The end of a turn-off. -/
theorem turnOffDone_reads : let t := turnOffDone n f g s
    (t.face n f).turnOff = none ∧ (t.face n f).dstate = 4 ∧ Keeps [.linkStat, .laneRxeq, .laneDfe] s t := by
  intro t
  have hface : t.face n f = { s.face n f with turnOff := none, dstate := 4 } := by
    unfold State.face
    simp only [t, turnOffDone, lowPowerEntry_par, originate_par]
    exact s.face_modFace_same n f _
  refine ⟨by rw [hface], by rw [hface], keeps_of_beyond ?_⟩
  simp only [t, turnOffDone]
  rw [lowPowerEntry_beyond _ _ _ _ _ (by simp) (by simp) (by simp), beyond_mono (by simp) (originate_beyond ..)]
  rfl

/-- PME_Turn_Off goes down some ports: the face waits for their acknowledgements. -/
theorem turnOff_waits (l : List Nat) (z : Tlp) : let t := (s.forAll l fun x => originate x z).modFace n f fun x => { x with turnOff := some l }
    (t.face n f).turnOff = some l ∧ (t.face n f).dstate = (s.face n f).dstate ∧ t.regs = s.regs := by
  intro t
  have hface : (s.forAll l fun x => originate x z).face n f = s.face n f := by unfold State.face; simp
  have ht : t.face n f = { s.face n f with turnOff := some l } := by simp only [t, State.face_modFace_same, hface]
  refine ⟨by rw [ht], by rw [ht], ?_⟩
  exact (s.forAll_keeps State.regs _ (fun x u => originate_regs u x z) l :)

end TurnOff

/-! ### The commands of a host -/

section Commands
variable {s : State} {n k : Nat}

/-- What the virtual port `k` of a partition is bound to, in the newest bank of the lead die. -/
abbrev State.boundKind (s : State) (n k : Nat) : Nat := s.bindKind s.lead (s.newE s.lead) n k

/-- The port that it is bound to. -/
abbrev State.boundPort (s : State) (n k : Nat) : Nat := s.bindPort s.lead (s.newE s.lead) n k

theorem secondaryBusReset_port (h : s.boundKind n k = 1) : secondaryBusReset n k s = hotReset (s.boundPort n k) s := by
  unfold State.boundKind at h
  unfold secondaryBusReset
  simp only [h]

theorem secondaryBusReset_nothing (h : s.boundKind n k = 0 ∨ s.boundKind n k = 3) : secondaryBusReset n k s = s := by
  unfold State.boundKind at h
  unfold secondaryBusReset
  rcases h with h | h <;> simp only [h]

theorem powerControl_slot {slot : Nat} (off : Bool) (h : s.boundKind n k = 1) (hslot : s.bindSlot s.lead (s.newE s.lead) n k = some slot)
    (hpath : s.hasPath = true) (hup : s.hild.down = false) :
    powerControl n k off s = vpEvent n k [slotCommand] (slotPwren slot (!off) s) := by
  unfold powerControl
  dsimp only
  rw [if_pos h, hslot]
  exact if_pos ⟨hpath, by simp [hup]⟩

theorem powerControl_noSlot (off : Bool) (h : s.bindSlot s.lead (s.newE s.lead) n k = none) : powerControl n k off s = s := by
  unfold powerControl
  dsimp only
  rw [h, ite_self]

/-- An FLR that begins, and its end. -/
theorem initiateFlr_reads {f u : Nat} (hn : n ∉ s.par.flr) (hport : s.facePort n f = some u) (hf : f < 2) : ∃ t, initiateFlr n s = t ∧
    t.par.flr = s.par.flr ++ [n] ∧ EndpointFresh n f (flrEnd n t) ∧ (flrEnd n t).par.pending.get [] n = [] ∧ n ∉ (flrEnd n t).par.flr := by
  obtain ⟨hflr, hports⟩ := initiateFlr_leaves s hn
  have hstart := (hports n f).trans hport
  generalize hrun : initiateFlr n s = t at hflr hstart
  obtain ⟨hfresh, hpending, hend⟩ := flrEnd_reads hstart hf
  refine ⟨t, rfl, hflr, hfresh, hpending, ?_⟩
  rw [hend, hflr, List.erase_append_right _ hn]
  simpa using hn

/-- The ports that PME_Turn_Off of a face goes down. -/
def State.turnOffPorts (s : State) (n f : Nat) : List Nat :=
  ((List.range 64).filter fun k =>
    s.boundKind n k == 1 && s.bindFace s.lead (s.newE s.lead) n k == f && s.portUp (s.boundPort n k)).map (s.boundPort n)

/-- The message that goes down. -/
def turnOffMsg : Tlp := { kind := 10, mcode := 0x19, mroute := 3, raw := List.replicate 12 0 }

theorem pmeTurnOff_eq {f u : Nat} (h : s.facePort n f = some u) : pmeTurnOff n f s =
    let l := s.turnOffPorts n f
    let s2 := (s.forAll l fun x => originate x turnOffMsg).modFace n f fun x => { x with turnOff := some l }
    if l.isEmpty then turnOffDone n f u s2 else s2 := by
  unfold pmeTurnOff
  rw [h]
  rfl

theorem pmeTurnOff_done {f u : Nat} (h : s.facePort n f = some u) (hl : s.turnOffPorts n f = []) :
    ∃ x, pmeTurnOff n f s = turnOffDone n f u (s.modFace n f x) := by
  rw [pmeTurnOff_eq h, hl]
  exact ⟨_, rfl⟩

theorem pmeTimeout_eq {f u : Nat} {l : List Nat} (hl : (s.face n f).turnOff = some l) (h : s.facePort n f = some u) :
    pmeTimeout n f s = turnOffDone n f u (raise (dreg .parErr (pdie u)) ParErr.PMETO s) := by
  unfold pmeTimeout
  rw [hl, h]

end Commands

/-! ### The statement -/

/-- Settles O22: each action runs one operation of the link, the slot or the partition, or none where nothing is bound; the end of an FLR finds the
upstream ports that its beginning left. -/
theorem hostActions : Obligations.HostActions := by
  unfold Obligations.HostActions
  intro s n k f e kind g same
  refine ⟨fun hk hl => ?_, fun hk => ⟨?_, ?_, fun off => ?_⟩, fun hk hu => ?_, fun hu => ?_,
    fun off => ⟨fun slot hk hs hp hd => ?_, fun hs => ?_⟩,
    fun u hport hf _ => ⟨fun hn => ?_, fun hn => ?_, fun hb => ?_, fun hb => ?_, fun l hl ha => ?_⟩⟩
  · exact ⟨_, congrArg Host.Outcome.next (secondaryBusReset_port hk), hotReset_reads hl⟩
  · exact ⟨s, congrArg Host.Outcome.next (secondaryBusReset_nothing hk), rfl⟩
  · have hk1 : kind ≠ 1 := by omega
    exact ⟨s, congrArg Host.Outcome.next (if_neg fun h => hk1 h.1), rfl⟩
  · have hk1 : kind ≠ 1 := by omega
    exact ⟨s, congrArg Host.Outcome.next (if_neg hk1), rfl⟩
  · refine ⟨_, congrArg Host.Outcome.next ((if_pos ⟨hk, hu⟩).trans (retrain_port s (pdie g) (Nat.mod_lt g (by decide)))), ?_⟩
    exact ⟨retrainEnd_linkState s _ _, keeps_of_beyond (retrainEnd_beyond s _ _ (by simp) (by simp) (by simp) (by simp))⟩
  · exact ⟨s, congrArg Host.Outcome.next (if_neg fun h => hu h.2), rfl⟩
  · exact ⟨_, congrArg Host.Outcome.next (powerControl_slot off hk hs hp hd), slotPower_reads n s k slot (!off)⟩
  · exact ⟨s, congrArg Host.Outcome.next (powerControl_noSlot off hs), rfl⟩
  · obtain ⟨t, hrun, hflr, hfresh, hpending, hend⟩ := initiateFlr_reads hn hport hf
    exact ⟨t, congrArg Host.Outcome.next hrun, hflr, hfresh.d0, hfresh.master, hfresh.msix, hfresh.masked, hfresh.pending, hpending, hend⟩
  · exact ⟨s, congrArg Host.Outcome.next (if_pos hn), rfl⟩
  · obtain ⟨x, hrun⟩ := pmeTurnOff_done hport hb
    obtain ⟨hoff, hcold, hmem, -⟩ := turnOffDone_reads n f u (s.modFace n f x)
    exact ⟨_, congrArg Host.Outcome.next hrun, hoff, hcold, hmem⟩
  · refine ⟨_, congrArg Host.Outcome.next ((pmeTurnOff_eq hport).trans (if_neg ?_)), turnOff_waits n f s _ turnOffMsg⟩
    exact fun h => hb (List.isEmpty_iff.mp h)
  · obtain ⟨hoff, hcold, hk⟩ := turnOffDone_reads n f u (raise (dreg .parErr (pdie u)) ParErr.PMETO s)
    obtain ⟨hmem, -⟩ := id hk
    obtain ⟨hraised, -⟩ := keeps_raise (dreg .parErr (pdie u)) ParErr.PMETO s
    refine ⟨_, congrArg Host.Outcome.next (pmeTimeout_eq hl hport), ⟨hoff, hcold, hmem.trans hraised⟩, ?_⟩
    rw [hk.fld _ _ (by simp)]
    exact fld_raise (dreg .parErr (pdie u)) ParErr.PMETO s ha rfl (by decide)

end Sys2Proof.Machine
end

section
/-! SUPPORT. DMA channels: what a channel reads after an update, what the end of its running descriptor, a fault point in hardware mode and a stop
leave (09 R344, R346, R351, R353). -/

namespace Sys2Proof.Machine

/-! ### A channel after one update -/

section Updates
variable (s : State) (d c : Nat)

@[simp] theorem State.chan_modChan_same (f : ChanSt → ChanSt) : (s.modChan d c f).chan d c = f (s.chan d c) := FMap.get_set_same ..

theorem State.chan_congr {s t : State} (h : t.dma = s.dma) (d c : Nat) : t.chan d c = s.chan d c := by unfold State.chan; rw [h]

/-- A change of a channel is what it makes of the channel. -/
theorem State.modChan_congr {s : State} {d c : Nat} {f g : ChanSt → ChanSt} (h : f (s.chan d c) = g (s.chan d c)) :
    s.modChan d c f = s.modChan d c g := by
  unfold State.modChan
  rw [h]

@[simp] theorem State.chan_setFld (r : Reg) (f : Field) (v : Nat) : (s.setFld r f v).chan d c = s.chan d c := rfl
@[simp] theorem State.chan_count (r : Reg) (f : Field) (n : Nat) : (s.count r f n).chan d c = s.chan d c := rfl
@[simp] theorem State.fld_modChan (f : ChanSt → ChanSt) (r : Reg) (g : Field) : (s.modChan d c f).fld r g = s.fld r g := rfl

theorem keeps_modChan (f : ChanSt → ChanSt) : Keeps [] s (s.modChan d c f) := Keeps.of_eq rfl rfl rfl rfl rfl

@[simp] theorem raiseChan_dma (f : Field) : (raiseChan d c f s).dma = s.dma := by
  unfold raiseChan
  rcases raiseFault_cases { reg := dreg .dmaErr d, bit := f.lo, chan := some c } s with ⟨he, -⟩ | ⟨-, he⟩ <;> simp [he]

@[simp] theorem raiseChan_chan (f : Field) : (raiseChan d c f s).chan d c = s.chan d c := State.chan_congr (raiseChan_dma s d c f) d c

theorem keeps_raiseChan (f : Field) : Keeps [.dmaErr] s (raiseChan d c f s) := (keeps_raiseFault _ s).mono (by simp)

/-- A source of a channel whose die is in service reads 1 once set. -/
theorem fld_raiseChan {f : Field} (ha : s.active d = true) (hf : f.hi = f.lo) (h64 : f.lo < 64) :
    (raiseChan d c f s).fld (dreg .dmaErr d) f = 1 := by
  unfold State.fld raiseChan
  rw [hf]
  exact getBits_raiseFault { reg := dreg .dmaErr d, bit := f.lo, chan := some c } s ha h64

/-- A loop whose turns change nothing changes nothing. -/
theorem State.forAll_unchanged {α : Type} {s : State} {l : List α} {f : α → State → State} (h : ∀ a ∈ l, f a s = s) : s.forAll l f = s := by
  unfold State.forAll
  induction l with
  | nil => rfl
  | cons a l ih =>
    rw [List.foldl_cons, h a (.head _)]
    exact ih fun b hb => h b (.tail _ hb)

end Updates

/-! ### The end of a descriptor (09 R344, R351) -/

/-- A channel whose running descriptor has ended with a status. -/
def ChanSt.ended (y : ChanSt) (x : Desc) (st bytes : Nat) : ChanSt :=
  { y with run := none, next := 0, committed := 0, last := [], fault := none, what := none, parked := false, tries := 0, mode := 0,
           xlating := none, endings := y.endings ++ [{ desc := x, status := st, bytes := bytes, last := y.last }] }

/-- The registers that the end of a descriptor writes. -/
def endRegs : List RegName := [.dmaCnt, .dmaErr, .dmaChStat, .dmaChRing]

/-- What the end of a channel's running descriptor leaves. -/
structure Ended (d c : Nat) (x : Desc) (st bytes : Nat) (s t : State) : Prop where
  chan : t.chan d c = (s.chan d c).ended x st bytes
  keeps : Keeps endRegs s t
  ftag : t.fld (chReg .dmaChStat d c) DmaChStat.FTAG = 0
  source : ∀ f, statusBit st = some f → st ≠ 1 → s.active d = true → t.fld (dreg .dmaErr d) f = 1
  head : st = 5 → t.fld (chReg .dmaChRing d c) DmaChRing.HEAD = s.fld (chReg .dmaChRing d c) DmaChRing.HEAD

section End
variable {s : State} {d c : Nat} {x : Desc}

@[simp] theorem ChanSt.ended_endings (y : ChanSt) (st bytes : Nat) :
    (y.ended x st bytes).endings = y.endings ++ [{ desc := x, status := st, bytes := bytes, last := y.last }] := rfl
@[simp] theorem ChanSt.ended_run (y : ChanSt) (st bytes : Nat) : (y.ended x st bytes).run = none := rfl
@[simp] theorem ChanSt.ended_fault (y : ChanSt) (st bytes : Nat) : (y.ended x st bytes).fault = none := rfl
@[simp] theorem ChanSt.ended_descs (y : ChanSt) (st bytes : Nat) : (y.ended x st bytes).descs = y.descs := rfl
@[simp] theorem ChanSt.ended_chunks (y : ChanSt) (st bytes : Nat) : (y.ended x st bytes).chunks = y.chunks := rfl
@[simp] theorem ChanSt.ended_stopped (y : ChanSt) (st bytes : Nat) : (y.ended x st bytes).stopped = y.stopped := rfl

theorem statusBit_single {st : Nat} {f : Field} (h : statusBit st = some f) : f.hi = f.lo ∧ f.lo < 64 := by
  unfold statusBit at h
  split at h <;> cases h <;> decide

theorem endDesc_ended (hrun : (s.chan d c).run = some x) (st bytes : Nat) : Ended d c x st bytes s (endDesc d c st bytes s) := by
  unfold endDesc
  split
  · rename_i hnone; rw [hrun] at hnone; cases hnone
  rename_i y hy
  obtain rfl : x = y := Option.some.inj (hrun.symm.trans hy)
  extract_lets s1 s2 s3 s4
  have k1 : Keeps [] s s1 := keeps_modChan ..
  have k2 : Keeps [.dmaCnt] s1 s2 := by
    simp only [s2]
    split
    · exact keeps_count ..
    · exact Keeps.refl _ _
  have c2 : s2.chan d c = (s.chan d c).ended x st bytes := by
    have c1 : s1.chan d c = (s.chan d c).ended x st bytes := State.chan_modChan_same ..
    simp only [s2]
    split
    · rw [State.chan_count, c1]
    · exact c1
  have k3 : Keeps [.dmaErr] s2 s3 := by
    simp only [s3]
    split
    · split
      · exact Keeps.refl _ _
      · exact keeps_raiseChan ..
    · exact Keeps.refl _ _
  have c3 : s3.chan d c = s2.chan d c := by
    simp only [s3]
    split
    · split <;> simp
    · rfl
  have k4 : Keeps [.dmaChStat] s3 s4 := keeps_setFld ..
  have f4 : s4.fld (chReg .dmaChStat d c) DmaChStat.FTAG = 0 := State.fld_setFld_same _ _ _ _ (by decide) (by decide)
  have e4 : ∀ f, statusBit st = some f → st ≠ 1 → s.active d = true → s4.fld (dreg .dmaErr d) f = 1 := by
    intro f hf h1 ha
    obtain ⟨hone, h64⟩ := statusBit_single hf
    have ha2 : s2.active d = true := by rw [(k1.trans k2).active (by decide), ha]
    rw [k4.fld _ _ (by simp)]
    simp only [s3, hf, if_neg h1]
    exact fld_raiseChan s2 d c ha2 hone h64
  have k : Keeps [.dmaCnt, .dmaErr, .dmaChStat] s s4 := ((k1.trans k2).trans (k3.trans k4)).mono (by simp)
  have c4 : s4.chan d c = (s.chan d c).ended x st bytes := by rw [State.chan_setFld, c3, c2]
  by_cases h5 : st = 5
  · rw [if_pos h5]
    exact ⟨c4, k.mono (by simp [endRegs]), f4, e4, fun _ => k.fld _ _ (by simp)⟩
  · rw [if_neg h5]
    have kh := keeps_setFld s4 (chReg .dmaChRing d c) DmaChRing.HEAD ((s.ringHead d c + 1) % s.ringSize d c)
    exact ⟨(State.chan_setFld ..).trans c4, (k.trans kh).mono (by simp [endRegs]), (kh.fld _ _ (by simp)).trans f4,
      fun f hf h1 ha => (kh.fld _ _ (by simp)).trans (e4 f hf h1 ha), fun h => absurd h h5⟩

/-- A change before the end that leaves the registers, beside a count, shows in the channel alone. -/
theorem Ended.of_keeps {st bytes : Nat} {u t : State} (h : Ended d c x st bytes u t) (hk : Keeps [.dmaCnt] s u) :
    Keeps endRegs s t ∧ (∀ f, statusBit st = some f → st ≠ 1 → s.active d = true → t.fld (dreg .dmaErr d) f = 1) ∧
      (st = 5 → t.fld (chReg .dmaChRing d c) DmaChRing.HEAD = s.fld (chReg .dmaChRing d c) DmaChRing.HEAD) := by
  refine ⟨(hk.trans h.keeps).mono (by simp [endRegs]), fun f hf h1 ha => h.source f hf h1 ?_, fun h5 => ?_⟩
  · rw [hk.active (by decide), ha]
  · rw [h.head h5, hk.fld _ _ (by simp)]

end End

/-! ### A fault point (09 R346, R351) -/

/-- A channel that has given up what lies from its fault point on. -/
def ChanSt.cutAt (y : ChanSt) (k : Nat) : ChanSt := { y.giveUp k 2 with xlating := none, next := k }

@[simp] theorem ChanSt.cutAt_endings (y : ChanSt) (k : Nat) : (y.cutAt k).endings = y.endings := rfl
@[simp] theorem ChanSt.cutAt_last (y : ChanSt) (k : Nat) : (y.cutAt k).last = y.last := rfl
@[simp] theorem ChanSt.cutAt_descs (y : ChanSt) (k : Nat) : (y.cutAt k).descs = y.descs := rfl
@[simp] theorem ChanSt.cutAt_stopped (y : ChanSt) (k : Nat) : (y.cutAt k).stopped = y.stopped := rfl
@[simp] theorem ChanSt.cutAt_chunks (y : ChanSt) (k : Nat) : (y.cutAt k).chunks = y.chunks.filter fun w => decide (w.k < k) := rfl

section FaultPoint
variable {s : State} {d c st k : Nat} {x : Desc}

theorem dmaHardware_eq (hf : (s.chan d c).fault = some (st, k)) : dmaHardware d c s = endDesc d c st (256 * k) s := by
  unfold dmaHardware
  rw [hf]

/-- A fault point that is reached ends the descriptor where its channel has no assist (R351), and at an abort always (R353). -/
theorem faultPoint_ends (hrun : (s.chan d c).run = some x) (hf : (s.chan d c).fault = some (st, k)) (hk : k ≤ (s.chan d c).committed)
    (hp : (s.chan d c).parked = false) (hm : s.assist PartAssist.DMAF = 0 ∨ st = 5) :
    ∃ u, u.chan d c = (s.chan d c).cutAt k ∧ Keeps [.dmaCnt] s u ∧ Ended d c x st (256 * k) u (faultPoint d c s) := by
  unfold faultPoint
  extract_lets z
  split
  · rename_i hnone; rw [hf] at hnone; cases hnone
  rename_i st' k' hf'
  obtain ⟨rfl, rfl⟩ : st = st' ∧ k = k' := by simpa using hf.symm.trans hf'
  rw [if_neg (by simp [z, hp, hrun]; omega)]
  extract_lets s0 s1 mode
  rw [if_pos (hm.imp id .inl)]
  have hc : s1.chan d c = (s.chan d c).cutAt k := by
    have h0 : s0.chan d c = (s.chan d c).cutAt k := State.chan_modChan_same ..
    simp only [s1]
    split
    · exact h0
    · rw [State.chan_count, h0]
  have hkeep : Keeps [.dmaCnt] s s1 := by
    have k0 : Keeps [] s s0 := keeps_modChan ..
    simp only [s1]
    split
    · exact k0.mono (by simp)
    · exact (k0.trans (keeps_count ..)).mono (by simp)
  refine ⟨s1, hc, hkeep, ?_⟩
  rw [dmaHardware_eq (st := st) (k := k) (by rw [hc]; exact hf)]
  exact endDesc_ended (by rw [hc]; exact hrun) st (256 * k)

/-- A fault point that is not reached yet, or at which the channel waits already, changes nothing. -/
theorem faultPoint_waits (hf : (s.chan d c).fault = some (st, k))
    (h : (s.chan d c).committed < k ∨ (s.chan d c).parked = true ∨ (s.chan d c).run = none) : faultPoint d c s = s := by
  unfold faultPoint
  simp only [hf]
  rw [if_pos (by rcases h with h | h | h <;> simp [h])]

theorem faultPoint_none (hf : (s.chan d c).fault = none) : faultPoint d c s = s := by
  unfold faultPoint
  simp only [hf]

end FaultPoint

/-! ### A channel that stops (09 R353) -/

/-- A channel that stops, before its running descriptor ends: the descriptors that it fetched ahead are dropped. -/
def ChanSt.halted (y : ChanSt) : ChanSt :=
  { y with stopped := true, descs := [], late := y.late ++ (y.fetching.filter fun f => f.words.isNone).map (fun f => (f.tag, 2)), fetching := [],
           parked := false }

/-- A channel whose running descriptor is aborted from a chunk on. -/
def ChanSt.aborting (y : ChanSt) (k : Nat) : ChanSt := { y with fault := some (5, k), what := none, xlating := none }

/-- The registers that a stop writes. -/
def stopRegs : List RegName := [.dmaChCtl, .dmaChStat, .xltPrec0, .xltPrec1, .dmaCnt, .dmaErr, .dmaChRing]

/-- What a stop leaves of a channel's registers, and that the channel is stopped with nothing fetched. -/
structure Stops (d c : Nat) (s t : State) : Prop where
  keeps : Keeps stopRegs s t
  enable : t.fld (chReg .dmaChCtl d c) DmaChCtl.ENABLE = 0
  ctl : ∀ f, DmaChCtl.ENABLE.Apart f → t.fld (chReg .dmaChCtl d c) f = s.fld (chReg .dmaChCtl d c) f
  ftag : t.fld (chReg .dmaChStat d c) DmaChStat.FTAG = 0
  head : t.fld (chReg .dmaChRing d c) DmaChRing.HEAD = s.fld (chReg .dmaChRing d c) DmaChRing.HEAD
  stopped : (t.chan d c).stopped = true
  descs : (t.chan d c).descs = []

section Stop
variable {s : State} {d c : Nat}

theorem keeps_modFace (n i : Nat) (f : FaceSt → FaceSt) : Keeps [] s (s.modFace n i f) := Keeps.of_eq rfl rfl rfl rfl rfl

/-- The end of a recorded fault writes its entry and no channel. -/
theorem endPrec_leaves (i : Nat) : (endPrec d i s).dma = s.dma ∧ Keeps [.xltPrec0, .xltPrec1] s (endPrec d i s) := by
  unfold endPrec
  extract_lets n x f s1
  have h1 : s1.dma = s.dma ∧ Keeps [] s s1 := by
    simp only [s1]
    split
    · exact ⟨rfl, keeps_modFace ..⟩
    · exact ⟨rfl, Keeps.refl _ _⟩
  obtain ⟨hdma, hk⟩ := h1
  refine ⟨by simp [hdma], ?_⟩
  exact (((hk.trans (keeps_setReg ..)).trans (keeps_setReg ..)).trans (keeps_modXltDie ..)).mono (by simp)

/-- A withdrawn fault leaves no tag at its channel. -/
theorem withdraw_leaves : (withdraw d c s).dma = s.dma ∧ Keeps [.dmaChStat, .xltPrec0, .xltPrec1] s (withdraw d c s) ∧
    (withdraw d c s).fld (chReg .dmaChStat d c) DmaChStat.FTAG = 0 := by
  unfold withdraw
  extract_lets s1
  have k1 : Keeps [.dmaChStat] s s1 := keeps_setFld ..
  have f1 : s1.fld (chReg .dmaChStat d c) DmaChStat.FTAG = 0 := State.fld_setFld_same _ _ _ _ (by decide) (by decide)
  split
  · rename_i i _
    obtain ⟨hdma, hk⟩ := endPrec_leaves (s := s1) (d := d) i
    exact ⟨hdma, k1.trans hk, (hk.fld _ _ (by simp)).trans f1⟩
  · exact ⟨rfl, k1.mono (by simp), f1⟩

/-- What ends or faults the descriptor of a stopped channel leaves it stopped. -/
theorem Stops.after {u t : State} (h : Stops d c s u) (hk : Keeps endRegs u t)
    (hftag : t.fld (chReg .dmaChStat d c) DmaChStat.FTAG = u.fld (chReg .dmaChStat d c) DmaChStat.FTAG)
    (hhead : t.fld (chReg .dmaChRing d c) DmaChRing.HEAD = u.fld (chReg .dmaChRing d c) DmaChRing.HEAD)
    (hstopped : (t.chan d c).stopped = (u.chan d c).stopped) (hdescs : (t.chan d c).descs = (u.chan d c).descs) : Stops d c s t where
  keeps := (h.keeps.trans hk).mono (by simp [stopRegs, endRegs])
  enable := (hk.fld _ _ (by simp [endRegs])).trans h.enable
  ctl f hf := (hk.fld _ _ (by simp [endRegs])).trans (h.ctl f hf)
  ftag := hftag.trans h.ftag
  head := hhead.trans h.head
  stopped := hstopped.trans h.stopped
  descs := hdescs.trans h.descs

/-- The chunk from which a stop aborts the running descriptor: its fault point, or the next chunk to issue. -/
def ChanSt.abortAt (y : ChanSt) : Nat := (y.fault.map Prod.snd).getD y.next

/-- A stop halts the channel, and then aborts its running descriptor if it has one. -/
theorem dmaStop_cases (d c : Nat) (s : State) : ∃ u, Stops d c s u ∧ u.chan d c = (s.chan d c).halted ∧
    ((s.chan d c).run = none → dmaStop d c s = u) ∧
    ∀ x, (s.chan d c).run = some x → dmaStop d c s = faultPoint d c (u.modChan d c fun y => y.aborting (s.chan d c).abortAt) := by
  unfold dmaStop
  extract_lets z s1 k
  obtain ⟨hdma, hk, hftag⟩ := withdraw_leaves (s := s.setFld (chReg .dmaChCtl d c) DmaChCtl.ENABLE 0) (d := d) (c := c)
  have k0 := keeps_setFld s (chReg .dmaChCtl d c) DmaChCtl.ENABLE 0
  have hchan : s1.chan d c = (s.chan d c).halted := by
    simp only [s1, State.chan_modChan_same]
    rw [State.chan_congr hdma, State.chan_setFld]
    rfl
  refine ⟨s1, ⟨?_, ?_, fun f hf => ?_, hftag, ?_, ?_, ?_⟩, hchan, fun hrun => ?_, fun x hrun => ?_⟩
  · exact ((k0.trans hk).trans (keeps_modChan ..)).mono (by simp [stopRegs])
  · exact (hk.fld _ _ (by simp)).trans (State.fld_setFld_same _ _ _ _ (by decide) (by decide))
  · exact (hk.fld _ _ (by simp)).trans (State.fld_setFld_apart _ _ _ (by decide) hf)
  · exact (hk.fld _ _ (by simp)).trans (k0.fld _ _ (by simp))
  · rw [hchan]; rfl
  · rw [hchan]; rfl
  · rw [if_pos (by simp [z, hrun])]
  · rw [if_neg (by simp [z, hrun])]
    cases hf : (s.chan d c).fault <;> simp [k, z, hf, ChanSt.aborting, ChanSt.abortAt]

/-- The running descriptor of a channel that stops is aborted: once every chunk below the abort is committed it ends ABORTED (R353). -/
theorem dmaStop_aborting {x : Desc} (hrun : (s.chan d c).run = some x) : ∃ v, Stops d c s v ∧
    v.chan d c = (s.chan d c).halted.aborting (s.chan d c).abortAt ∧
    ((s.chan d c).committed < (s.chan d c).abortAt → dmaStop d c s = v) ∧
    ((s.chan d c).abortAt ≤ (s.chan d c).committed → ∃ w, w.chan d c = (v.chan d c).cutAt (s.chan d c).abortAt ∧ Keeps [.dmaCnt] v w ∧
      Ended d c x 5 (256 * (s.chan d c).abortAt) w (dmaStop d c s)) := by
  obtain ⟨u, hu, hchan, -, hruns⟩ := dmaStop_cases d c s
  rw [hruns x hrun]
  generalize (s.chan d c).abortAt = k
  have hv : (u.modChan d c fun y => y.aborting k).chan d c = (s.chan d c).halted.aborting k := by rw [State.chan_modChan_same, hchan]
  have hsu : Stops d c s (u.modChan d c fun y => y.aborting k) :=
    hu.after ((keeps_modChan ..).mono (by simp)) rfl rfl (by rw [State.chan_modChan_same]; rfl) (by rw [State.chan_modChan_same]; rfl)
  generalize (u.modChan d c fun y => y.aborting k) = v at hv hsu
  refine ⟨v, hsu, hv, fun hk => faultPoint_waits (st := 5) (k := k) (by rw [hv]; rfl) (.inl ?_), fun hk => ?_⟩
  · rw [hv]; exact hk
  · exact faultPoint_ends (by rw [hv]; exact hrun) (by rw [hv]; rfl) (by rw [hv]; exact hk) (by rw [hv]; rfl) (.inr rfl)

/-- A channel stops whatever it was doing. -/
theorem dmaStop_stops (d c : Nat) (s : State) : Stops d c s (dmaStop d c s) := by
  cases hrun : (s.chan d c).run with
  | none =>
    obtain ⟨u, hu, -, hidle, -⟩ := dmaStop_cases d c s
    rw [hidle hrun]
    exact hu
  | some x =>
    obtain ⟨v, hv, -, hwaits, hends⟩ := dmaStop_aborting hrun
    rcases lt_or_ge (s.chan d c).committed (s.chan d c).abortAt with hk | hk
    · rw [hwaits hk]; exact hv
    · obtain ⟨w, hw, kw, he⟩ := hends hk
      obtain ⟨ke, -, hhead⟩ := he.of_keeps kw
      refine hv.after ke (he.ftag.trans hv.ftag.symm) (hhead rfl) ?_ ?_
      · rw [he.chan, ChanSt.ended_stopped, hw, ChanSt.cutAt_stopped]
      · rw [he.chan, ChanSt.ended_descs, hw, ChanSt.cutAt_descs]

/-- A channel without a running descriptor only halts. -/
theorem dmaStop_idle (hrun : (s.chan d c).run = none) : (dmaStop d c s).chan d c = (s.chan d c).halted := by
  obtain ⟨u, -, hchan, hidle, -⟩ := dmaStop_cases d c s
  rw [hidle hrun, hchan]

/-- A running descriptor whose chunks are all committed ends ABORTED with its committed bytes (R353). -/
theorem dmaStop_aborts {x : Desc} (hrun : (s.chan d c).run = some x) (hf : (s.chan d c).fault = none)
    (hk : (s.chan d c).committed = (s.chan d c).next) :
    ((dmaStop d c s).chan d c).run = none ∧ ((dmaStop d c s).chan d c).endings =
      (s.chan d c).endings ++ [{ desc := x, status := 5, bytes := 256 * (s.chan d c).next, last := (s.chan d c).last }] := by
  have hat : (s.chan d c).abortAt = (s.chan d c).next := by simp [ChanSt.abortAt, hf]
  obtain ⟨v, -, hv, -, hends⟩ := dmaStop_aborting hrun
  rw [hat] at hv hends
  obtain ⟨w, hw, -, he⟩ := hends hk.ge
  rw [he.chan, ChanSt.ended_run, ChanSt.ended_endings, hw, ChanSt.cutAt_endings, ChanSt.cutAt_last, hv]
  exact ⟨rfl, rfl⟩

end Stop

end Sys2Proof.Machine
end

section
/-! SUPPORT. A DMA channel's registers, its ring, the start of its descriptors and its completion records: what each command leaves, and the statement
that they meet (09 R341 to R344, R349, R353, R366 to R369). -/

namespace Sys2Proof.Machine

/-! ### Writes to a channel's registers (09 R341, R366, R367, R369) -/

section Registers
variable {s : State} {d c : Nat} {v : Word}

/-- The fields of CTL other than ENABLE. -/
def ctlRest : List Field := [DmaChCtl.PRI, DmaChCtl.TC, DmaChCtl.VEC]

theorem ctlFields_fld {f : Field} (hf : f ∈ ctlRest) : (ctlFields d c v s).fld (chReg .dmaChCtl d c) f = f.of v :=
  s.fld_storeFlds _ v (by decide) (by decide) hf

theorem ctlFields_enable : (ctlFields d c v s).fld (chReg .dmaChCtl d c) DmaChCtl.ENABLE = s.fld (chReg .dmaChCtl d c) DmaChCtl.ENABLE :=
  s.fld_storeFlds_apart _ v (fs := ctlRest) (by decide) (by decide)

theorem keeps_ctlFields : Keeps [.dmaChCtl] s (ctlFields d c v s) := storeFlds_keeps s (chReg .dmaChCtl d c) v ctlRest

/-- A write of CTL with ENABLE = 1 (R366). -/
theorem dmaEnable_leaves : let t := dmaEnable d c v s
    (∀ f ∈ ctlRest, t.fld (chReg .dmaChCtl d c) f = f.of v) ∧ t.fld (chReg .dmaChCtl d c) DmaChCtl.ENABLE = 1 ∧
      (t.chan d c).stopped = false ∧ Keeps [.dmaChCtl] s t := by
  intro t
  have hfld : ∀ f, t.fld (chReg .dmaChCtl d c) f =
      (ctlFields d c v (s.setFld (chReg .dmaChCtl d c) DmaChCtl.ENABLE 1)).fld (chReg .dmaChCtl d c) f := fun f => State.fld_modChan ..
  refine ⟨fun f hf => (hfld f).trans (ctlFields_fld hf), (hfld _).trans (ctlFields_enable.trans ?_), ?_, ?_⟩
  · exact State.fld_setFld_same _ _ _ _ (by decide) (by decide)
  · simp only [t, dmaEnable, State.chan_modChan_same]
  · exact (((keeps_setFld s (chReg .dmaChCtl d c) _ _).trans keeps_ctlFields).trans (keeps_modChan ..)).mono (by simp)

/-- A write of RING stores TAIL, and SIZE while the channel is off (R343, R367). -/
theorem dmaTailWrite_leaves : let t := dmaTailWrite d c v s
    t.fld (chReg .dmaChRing d c) DmaChRing.TAIL = DmaChRing.TAIL.of v ∧
      t.fld (chReg .dmaChRing d c) DmaChRing.HEAD = s.fld (chReg .dmaChRing d c) DmaChRing.HEAD ∧
      t.fld (chReg .dmaChRing d c) DmaChRing.SIZE =
        (if s.chOn d c then s.fld (chReg .dmaChRing d c) DmaChRing.SIZE else min 12 (DmaChRing.SIZE.of v)) ∧
      t.dma = s.dma ∧ Keeps [.dmaChRing] s t := by
  have k1 := keeps_setFld s (chReg .dmaChRing d c) DmaChRing.TAIL (DmaChRing.TAIL.of v)
  have htail := s.fld_setFld_fits (chReg .dmaChRing d c) v (f := DmaChRing.TAIL) (by decide) (le_refl _)
  have hapart := fun g => s.fld_setFld_apart (chReg .dmaChRing d c) (f := DmaChRing.TAIL) (g := g) (DmaChRing.TAIL.of v) (by decide)
  have hdef : dmaTailWrite d c v s = if s.chOn d c then s.setFld (chReg .dmaChRing d c) DmaChRing.TAIL (DmaChRing.TAIL.of v)
      else (s.setFld (chReg .dmaChRing d c) DmaChRing.TAIL (DmaChRing.TAIL.of v)).setFld (chReg .dmaChRing d c) DmaChRing.SIZE
        (min 12 (DmaChRing.SIZE.of v)) := rfl
  rw [hdef]
  have hdma : (s.setFld (chReg .dmaChRing d c) DmaChRing.TAIL (DmaChRing.TAIL.of v)).dma = s.dma := rfl
  generalize s.setFld (chReg .dmaChRing d c) DmaChRing.TAIL (DmaChRing.TAIL.of v) = s1 at k1 htail hapart hdma
  by_cases hon : s.chOn d c = true
  · rw [if_pos hon, if_pos hon]
    exact ⟨htail, hapart _ (by decide), hapart _ (by decide), hdma, k1⟩
  · rw [if_neg hon, if_neg hon]
    have hsize := fun g => s1.fld_setFld_apart (chReg .dmaChRing d c) (f := DmaChRing.SIZE) (g := g) (min 12 (DmaChRing.SIZE.of v)) (by decide)
    exact ⟨(hsize _ (by decide)).trans htail, (hsize _ (by decide)).trans (hapart _ (by decide)),
      s1.fld_setFld_fits (chReg .dmaChRing d c) v (by decide) (min_le_right _ _), hdma, (k1.trans (keeps_setFld ..)).mono (by simp)⟩

/-- What every write of CFG stores (R369; log entry 33). -/
theorem cfgRest_leaves : let t := s.storeFlds (chReg .dmaChCfg d c) v [DmaChCfg.PRIMAX, DmaChCfg.SLOT]
    (∀ f ∈ [DmaChCfg.PRIMAX, DmaChCfg.SLOT], t.fld (chReg .dmaChCfg d c) f = f.of v) ∧ t.chOwner d c = s.chOwner d c ∧ Keeps [.dmaChCfg] s t :=
  ⟨fun _ hf => s.fld_storeFlds _ v (by decide) (by decide) hf, s.fld_storeFlds_apart _ v (by decide) (by decide), storeFlds_keeps ..⟩

/-- The owner of a channel that is off and holds no cell is stored (R341). -/
theorem dmaOwnerWrite_free (hoff : s.chOn d c = false) (hfree : s.chHolds d c = false) : let t := dmaOwnerWrite d c v s
    (∀ f ∈ [DmaChCfg.PRIMAX, DmaChCfg.SLOT], t.fld (chReg .dmaChCfg d c) f = f.of v) ∧ t.chOwner d c = DmaChCfg.OWNER.of v ∧
      Keeps [.dmaChCfg] s t := by
  obtain ⟨hrest, howner, hk⟩ := cfgRest_leaves (s := s) (d := d) (c := c) (v := v)
  have h1 : dmaOwnerWrite d c v s = let s1 := s.storeFlds (chReg .dmaChCfg d c) v [DmaChCfg.PRIMAX, DmaChCfg.SLOT]
      if DmaChCfg.OWNER.of v = s.chOwner d c then s1
      else (sealCell d (.dma d c) s1).setFld (chReg .dmaChCfg d c) DmaChCfg.OWNER (DmaChCfg.OWNER.of v) := by
    unfold dmaOwnerWrite
    simp only [hoff, hfree, Bool.false_eq_true, or_self, if_false]
    rfl
  rw [h1]
  generalize s.storeFlds (chReg .dmaChCfg d c) v [DmaChCfg.PRIMAX, DmaChCfg.SLOT] = u at hrest howner hk
  dsimp only
  by_cases hsame : DmaChCfg.OWNER.of v = s.chOwner d c
  · rw [if_pos hsame]
    exact ⟨hrest, howner.trans hsame.symm, hk⟩
  · rw [if_neg hsame]
    have ks : Keeps [] u (sealCell d (.dma d c) u) := keeps_of_parcels (sealCell_parcels d u (.dma d c))
    generalize sealCell d (.dma d c) u = w at ks
    refine ⟨fun f hf => ?_, w.fld_setFld_fits _ v (by decide) (le_refl _), ((hk.trans ks).trans (keeps_setFld ..)).mono (by simp)⟩
    have hapart : DmaChCfg.OWNER.Apart f := (by decide : ∀ g ∈ [DmaChCfg.PRIMAX, DmaChCfg.SLOT], DmaChCfg.OWNER.Apart g) f hf
    rw [w.fld_setFld_apart _ _ (by decide) hapart, ks.fld _ _ (by simp), hrest f hf]

/-- The owner of a channel that is on or holds a cell stays, and BADCFG is set (R341). -/
theorem dmaOwnerWrite_held (ha : s.active d = true) (h : s.chOn d c = true ∨ s.chHolds d c = true) : let t := dmaOwnerWrite d c v s
    (∀ f ∈ [DmaChCfg.PRIMAX, DmaChCfg.SLOT], t.fld (chReg .dmaChCfg d c) f = f.of v) ∧ t.chOwner d c = s.chOwner d c ∧
      t.fld (dreg .dmaErr d) DmaErr.BADCFG = 1 ∧ Keeps [.dmaChCfg, .dmaErr] s t := by
  obtain ⟨hrest, howner, hk⟩ := cfgRest_leaves (s := s) (d := d) (c := c) (v := v)
  have h1 : dmaOwnerWrite d c v s = raiseChan d c DmaErr.BADCFG (s.storeFlds (chReg .dmaChCfg d c) v [DmaChCfg.PRIMAX, DmaChCfg.SLOT]) := by
    unfold dmaOwnerWrite
    extract_lets r s1
    rw [if_pos h]
    rfl
  rw [h1]
  generalize s.storeFlds (chReg .dmaChCfg d c) v [DmaChCfg.PRIMAX, DmaChCfg.SLOT] = u at hrest howner hk
  have ke := keeps_raiseChan u d c DmaErr.BADCFG
  exact ⟨fun f hf => (ke.fld _ _ (by simp)).trans (hrest f hf), (ke.fld _ _ (by simp)).trans howner,
    fld_raiseChan u d c ((hk.active (by simp) d).trans ha) rfl (by decide), hk.trans ke⟩

/-- A write of CTL with ENABLE = 0 stops a channel that is on (R353). -/
theorem dmaDisable_stops (hon : s.chOn d c = true) : exec (.dmaDisable d c v) s = .next (dmaStop d c (ctlFields d c v s)) :=
  congrArg Host.Outcome.next (if_pos hon)

theorem dmaDisable_off (hoff : s.chOn d c = false) : exec (.dmaDisable d c v) s = .next (ctlFields d c v s) :=
  congrArg Host.Outcome.next (if_neg (by simp [hoff]))

/-- What a write of CTL that stops a channel leaves. -/
theorem dmaDisable_leaves : let t := dmaStop d c (ctlFields d c v s)
    (∀ f ∈ ctlRest, t.fld (chReg .dmaChCtl d c) f = f.of v) ∧ t.fld (chReg .dmaChCtl d c) DmaChCtl.ENABLE = 0 ∧ (t.chan d c).stopped = true ∧
      (t.chan d c).descs = [] ∧ t.fld (chReg .dmaChRing d c) DmaChRing.HEAD = s.fld (chReg .dmaChRing d c) DmaChRing.HEAD ∧
      t.fld (chReg .dmaChStat d c) DmaChStat.FTAG = 0 ∧ t.mem = s.mem := by
  have h := dmaStop_stops d c (ctlFields d c v s)
  obtain ⟨hmem, -⟩ := h.keeps
  refine ⟨fun f hf => ?_, h.enable, h.stopped, h.descs, h.head.trans (keeps_ctlFields.fld _ _ (by simp)), h.ftag, hmem⟩
  exact (h.ctl f ((by decide : ∀ g ∈ ctlRest, DmaChCtl.ENABLE.Apart g) f hf)).trans (ctlFields_fld hf)

end Registers

/-! ### The ring (09 R343, R353) -/

section Ring
variable {s : State} {d c : Nat}

/-- A ring access that fails stops the channel with RINGERR (R353). -/
theorem ringError_leaves (ha : s.active d = true) : let t := ringError d c s
    t.fld (dreg .dmaErr d) DmaErr.RINGERR = 1 ∧ t.fld (chReg .dmaChCtl d c) DmaChCtl.ENABLE = 0 ∧ (t.chan d c).stopped = true ∧ t.mem = s.mem := by
  have h := dmaStop_stops d c s
  have ke := keeps_raiseChan (dmaStop d c s) d c DmaErr.RINGERR
  obtain ⟨hmem, -⟩ := h.keeps
  obtain ⟨hmem2, -⟩ := id ke
  refine ⟨fld_raiseChan _ d c ((h.keeps.active (by decide) d).trans ha) rfl (by decide), (ke.fld _ _ (by simp)).trans h.enable, ?_,
    hmem2.trans hmem⟩
  rw [ringError, raiseChan_chan, h.stopped]

/-- A channel whose ring is empty fetches nothing. -/
theorem descFetch_empty (h : s.ringHead d c = s.ringTail d c) : descFetch d c s = s := by
  unfold descFetch
  extract_lets z ahead busy n index left
  have hleft : left = 0 := by simp only [left, ← h, Nat.add_sub_cancel_left, Nat.mod_self]
  rw [if_pos (by simp [hleft])]

/-- The descriptors between HEAD and TAIL of a ring that is not empty. -/
theorem ringLeft_pos (h : s.ringHead d c ≠ s.ringTail d c) :
    0 < (s.ringTail d c + s.ringSize d c - s.ringHead d c) % s.ringSize d c := by
  have hn : 0 < s.ringSize d c := by unfold State.ringSize; positivity
  have hh : s.ringHead d c < s.ringSize d c := Nat.mod_lt _ hn
  have ht : s.ringTail d c < s.ringSize d c := Nat.mod_lt _ hn
  rcases Nat.lt_or_gt_of_ne h with hlt | hgt
  · rw [show s.ringTail d c + s.ringSize d c - s.ringHead d c = s.ringTail d c - s.ringHead d c + s.ringSize d c by omega, Nat.add_mod_right,
      Nat.mod_eq_of_lt (by omega)]
    omega
  · rw [Nat.mod_eq_of_lt (by omega)]
    omega

/-- An idle channel whose ring is not empty reaches for the descriptor at HEAD. -/
structure Fetches (d c : Nat) (s : State) : Prop where
  on : s.chOn d c = true
  runs : s.chMayRun d c = true
  idle : (s.chan d c).run = none
  descs : (s.chan d c).descs = []
  fetching : (s.chan d c).fetching = []
  ring : s.ringHead d c ≠ s.ringTail d c

theorem Fetches.head_mod : s.ringHead d c % s.ringSize d c = s.ringHead d c := Nat.mod_mod _ _

/-- PART's channel takes its next 64 bytes of control SRAM. -/
theorem descFetch_sram (h : Fetches d c s) (howner : s.chOwner d c = 0x3E) (hfit : s.ringAddr d c (s.ringHead d c) + 64 ≤ 0x400000)
    (hgate : s.refusedPage d 18 (0x40 + d) (s.ringAddr d c (s.ringHead d c)) 64 0 = none) :
    descFetch d c s = s.modChan d c fun y =>
      { y with descs := [{ words := (List.range 8).map fun i =>
                             BitVec.ofNat 64 (ofBytesLE (s.mem.bytes (sramBase d + s.ringAddr d c (s.ringHead d c) + 8 * i) 8)),
                           index := s.ringHead d c }] } := by
  have hpos := ringLeft_pos h.ring
  unfold descFetch
  simp only [h.on, h.runs, h.idle, h.descs, h.fetching, List.length_nil, Option.isSome_none, b2n, Bool.false_eq_true, if_false, Nat.add_zero,
    Fetches.head_mod]
  rw [if_neg (by simp; omega), if_pos howner]
  have hpass : ∀ a, gateAccess ⟨d, 18, s.ringAddr d c (s.ringHead d c), a⟩ (0x40 + d) 3 (sramBase d + s.ringAddr d c (s.ringHead d c)) 64 s
      = (true, s) := by
    intro a
    unfold gateAccess
    simp only [if_true, hgate]
  rw [hpass, if_neg (by simp; omega)]
  refine State.modChan_congr ?_
  dsimp only
  rw [h.descs]
  rfl

/-- A partition's channel whose face is not up fails. -/
theorem descFetch_down (h : Fetches d c s) (howner : s.chOwner d c < 32) (hport : s.ringPort d c = none) : descFetch d c s = ringError d c s := by
  have hpos := ringLeft_pos h.ring
  unfold descFetch
  simp only [h.on, h.runs, h.idle, h.descs, h.fetching, List.length_nil, Option.isSome_none, b2n, Bool.false_eq_true, if_false, Nat.add_zero, hport]
  rw [if_neg (by simp; omega), if_neg (by omega)]

end Ring

/-! ### The start of a descriptor (09 R343, R344) -/

section Start
variable {s : State} {d c : Nat} {x : Desc} {rest : List Desc}

/-- COPY and FILL start the descriptor of their OP at the front, and no other. -/
theorem startOp_front (hd : (s.chan d c).descs = x :: rest) (op : Nat) : startOp op d c s = if x.op = op then startDesc d c s else s := by
  unfold startOp
  rw [hd]

/-- A channel that may start a descriptor. -/
structure StartReady (d c : Nat) (x : Desc) (s : State) : Prop where
  on : s.chOn d c = true
  runs : s.chMayRun d c = true
  drain : s.chDrain = false
  idle : (s.chan d c).run = none
  fence : x.fence = false ∨ (s.chan d c).endings = []

/-- A channel whose front descriptor has started. -/
def ChanSt.started (y : ChanSt) (x : Desc) (rest : List Desc) : ChanSt :=
  { y with run := some x, descs := rest, next := 0, committed := 0, last := [], tries := 0 }

theorem startDesc_eq (h : StartReady d c x s) (hd : (s.chan d c).descs = x :: rest) : startDesc d c s =
    if x.bad then endDesc d c 4 0 (s.modChan d c fun y => y.started x rest) else s.modChan d c fun y => y.started x rest := by
  have hfence : ¬ (x.fence = true ∧ (s.chan d c).endings ≠ []) := by rcases h.fence with hf | hf <;> simp [hf]
  unfold startDesc
  simp only [hd]
  rw [if_neg (by simp [h.on, h.runs, h.drain, h.idle, hfence])]
  rfl

theorem startDesc_runs (h : StartReady d c x s) (hd : (s.chan d c).descs = x :: rest) (hgood : x.bad = false) :
    startDesc d c s = s.modChan d c fun y => y.started x rest := by
  rw [startDesc_eq h hd, if_neg (by simp [hgood])]

/-- A descriptor that breaks a rule ends at once with BADDESC (R344). -/
theorem startDesc_bad (h : StartReady d c x s) (hd : (s.chan d c).descs = x :: rest) (hbad : x.bad = true) (ha : s.active d = true) :
    let t := startDesc d c s
    (t.chan d c).run = none ∧ (t.chan d c).descs = rest ∧ t.fld (dreg .dmaErr d) DmaErr.BADDESC = 1 ∧
      (t.chan d c).endings = (s.chan d c).endings ++ [{ desc := x, status := 4, bytes := 0, last := [] }] ∧ t.mem = s.mem := by
  rw [startDesc_eq h hd, if_pos hbad]
  have hu : (s.modChan d c fun y => y.started x rest).chan d c = (s.chan d c).started x rest := State.chan_modChan_same ..
  have ku := keeps_modChan s d c fun y => y.started x rest
  generalize (s.modChan d c fun y => y.started x rest) = u at hu ku
  have he := endDesc_ended (x := x) (by rw [hu]; rfl) 4 0 (s := u) (d := d) (c := c)
  obtain ⟨⟨hmem, -⟩, hsource, -⟩ := he.of_keeps (ku.mono (by simp))
  refine ⟨?_, ?_, hsource _ rfl (by decide) ha, ?_, hmem⟩
  · rw [he.chan, ChanSt.ended_run]
  · rw [he.chan, ChanSt.ended_descs, hu]; rfl
  · rw [he.chan, ChanSt.ended_endings, hu]; rfl

end Start

/-! ### Completion records (09 R343, R349; 17 R608) -/

section Records
variable {s : State} {d c : Nat} {e : Ending} {rest : List Ending}

theorem recXwrite_idle (h : s.recState d = 0) (mid off : Nat) (bs : List Byte) : recXwrite d mid off bs s = s := by
  unfold recXwrite recCtrl
  simp [h]

/-- A write to the control SRAM of a die whose recorder is idle crosses at once, and nothing is recorded. -/
theorem foreignStore_idle (h : s.recState d = 0) (hstaged : (s.recDie d).staged = []) (hwait : (s.recDie d).waiting = []) (mid off : Nat)
    (bs : List Byte) : foreignStore d mid off bs s = sramStore d off bs s := by
  have hdrain : drainStaged d 513 s = s := by
    unfold drainStaged
    rw [hstaged]
  have hrec : ∀ l : List Nat, (s.forAll l fun k => recXwrite d mid (off + 64 * k) ((bs.drop (64 * k)).take 64)) = s :=
    fun l => State.forAll_unchanged fun k _ => recXwrite_idle h ..
  unfold foreignStore
  simp only [hdrain]
  rw [if_neg (by simp [State.recFull, h, hwait]), foreignCross, hrec]

/-- What the interrupt of a completion record leaves. -/
theorem sendIrq_leaves : (sendIrq d c s).dma = s.dma ∧ Keeps [] s (sendIrq d c s) := by
  unfold sendIrq
  extract_lets n vec
  split
  · exact ⟨rfl, Keeps.refl _ _⟩
  · split
    · exact ⟨rfl, Keeps.refl _ _⟩
    · split
      · exact ⟨rfl, keeps_modFace ..⟩
      · exact ⟨rfl, keeps_modFlt ..⟩

/-- The state after a completion record, before its interrupt: the record is counted, and LASTST shows its status. -/
def State.recorded (s : State) (d c status : Nat) : State :=
  ((s.modChan d c fun y => { y with endings := y.endings.drop 1 }).count (dreg .dmaCnt d) DmaCnt.DESCS 1).setFld
    (chReg .dmaChStat d c) DmaChStat.LASTST status

theorem recordDone_eq : recordDone d c e s = if e.desc.irq then sendIrq d c (s.recorded d c e.status) else s.recorded d c e.status := rfl

theorem recorded_leaves {st : Nat} (hst : st < 256) : ((s.recorded d c st).chan d c).endings = (s.chan d c).endings.drop 1 ∧
    (s.recorded d c st).fld (chReg .dmaChStat d c) DmaChStat.LASTST = st ∧ (s.recorded d c st).mem = s.mem := by
  unfold State.recorded
  refine ⟨?_, ?_, rfl⟩
  · rw [State.chan_setFld, State.chan_count, State.chan_modChan_same]
  · exact (State.fld_setFld_same _ _ _ _ (by decide) (by decide)).trans (Nat.mod_eq_of_lt hst)

/-- After its record the oldest ended descriptor goes. -/
theorem recordDone_leaves (hst : e.status < 256) : ((recordDone d c e s).chan d c).endings = (s.chan d c).endings.drop 1 ∧
    (recordDone d c e s).fld (chReg .dmaChStat d c) DmaChStat.LASTST = e.status ∧ (recordDone d c e s).mem = s.mem := by
  have h := recorded_leaves (s := s) (d := d) (c := c) hst
  rw [recordDone_eq]
  generalize s.recorded d c e.status = u at h
  split
  · obtain ⟨hdma, hk⟩ := sendIrq_leaves (s := u) (d := d) (c := c)
    obtain ⟨hmem, -⟩ := id hk
    rw [State.chan_congr hdma, hk.fld _ _ (by simp), hmem]
    exact h
  · exact h

/-- A descriptor of PART's channel that waits for its completion record alone, in a ring that the gate lets the channel write. -/
structure RecordDue (d c : Nat) (e : Ending) (rest : List Ending) (s : State) : Prop where
  first : (s.chan d c).endings = e :: rest
  released : (s.chan d c).unreleased.get 0 e.desc.index = 0
  back : e.desc.wantsBack = false
  reads : e.reads = []
  owner : s.chOwner d c = 0x3E
  fits : s.ringAddr d c e.desc.index + 48 + 16 ≤ 0x400000
  gate : s.refusedPage d 18 (0x40 + d) (s.ringAddr d c e.desc.index + 48) 16 1 = none

theorem completionRecord_due (h : RecordDue d c e rest s) (ok : Bool) : completionRecord d c ok s =
    if ok then recordDone d c e (foreignStore d (0x40 + d) (s.ringAddr d c e.desc.index + 48) (recordBytes e (s.meridian d)) s)
    else ringError d c (s.modChan d c fun y => { y with endings := y.endings.drop 1 }) := by
  unfold completionRecord
  simp only [h.first]
  rw [if_neg (by simp [h.released]), if_neg (by simp [h.back]), if_neg (by simp [h.reads]), if_pos h.owner]
  have hpass : ∀ a, gateAccess ⟨d, 18, s.ringAddr d c e.desc.index + 48, a⟩ (0x40 + d) 4 (sramBase d + (s.ringAddr d c e.desc.index + 48)) 16 s
      = (true, s) := by
    intro a
    unfold gateAccess
    simp [h.gate]
  rw [hpass]
  have hfits := h.fits
  cases ok
  · simp
  · simp
    omega

theorem bytesLE_length (n v : Nat) : (bytesLE n v).length = n := by
  induction n generalizing v with
  | zero => rfl
  | succ n ih => rw [bytesLE, List.length_cons, ih]

theorem recordBytes_length (time : Nat) : (recordBytes e time).length = 16 := by
  unfold recordBytes
  rw [List.length_append, bytesLE_length, bytesLE_length]

theorem sramStore_mem (off : Nat) (bs : List Byte) : (sramStore d off bs s).mem = s.mem.putBytes (sramBase d + off) bs := rfl
theorem sramStore_dma (off : Nat) (bs : List Byte) : (sramStore d off bs s).dma = s.dma := rfl

/-- The record stands at its place in control SRAM, and no other byte changes. -/
theorem completionRecord_written (h : RecordDue d c e rest s) (hst : e.status < 256) (hrec : s.recState d = 0)
    (hstaged : (s.recDie d).staged = []) (hwait : (s.recDie d).waiting = []) (hm : MemOk s) :
    let t := completionRecord d c true s
    let off := s.ringAddr d c e.desc.index + 48
    (t.chan d c).endings = rest ∧ t.fld (chReg .dmaChStat d c) DmaChStat.LASTST = e.status ∧
      t.mem.bytes (sramBase d + off) 16 = recordBytes e (s.meridian d) ∧
      ∀ a, ¬ (sramBase d + off ≤ a ∧ a < sramBase d + off + 16) → t.mem.get a = s.mem.get a := by
  rw [completionRecord_due h, if_pos rfl, foreignStore_idle hrec hstaged hwait]
  generalize s.ringAddr d c e.desc.index + 48 = off
  have hlen := recordBytes_length (e := e) (s.meridian d)
  generalize recordBytes e (s.meridian d) = bs at hlen
  obtain ⟨hend, hlast, hmem⟩ := recordDone_leaves (s := sramStore d off bs s) (d := d) (c := c) hst
  rw [State.chan_congr (sramStore_dma off bs), h.first] at hend
  rw [sramStore_mem] at hmem
  refine ⟨hend, hlast, ?_, fun a ha => ?_⟩
  · rw [hmem, ← hlen, Memory.bytes_putBytes _ _ hm]
  · rw [hmem, Memory.get_putBytes_other _ _ _ hm (by omega)]

/-- A record that cannot be written stops the channel with RINGERR. -/
theorem completionRecord_fails (h : RecordDue d c e rest s) (ha : s.active d = true) : let t := completionRecord d c false s
    t.fld (dreg .dmaErr d) DmaErr.RINGERR = 1 ∧ t.fld (chReg .dmaChCtl d c) DmaChCtl.ENABLE = 0 ∧ (t.chan d c).stopped = true ∧ t.mem = s.mem := by
  rw [completionRecord_due h, if_neg (by simp)]
  exact ringError_leaves ha

end Records

/-! ### The statement -/

/-- Settles O24: each command is a write of its registers, a stop, a fetch, a start or a record, and does what the lemma of that operation says. -/
theorem dmaRegistersAndRing : Obligations.DmaRegistersAndRing := by
  unfold Obligations.DmaRegistersAndRing
  intro s d c v _ ha _ ctl ring cfg z fields ringErr
  have hfields : ∀ t : State, (∀ f ∈ ctlRest, t.fld ctl f = f.of v) → fields t :=
    fun t h => ⟨h _ (by simp [ctlRest]), h _ (by simp [ctlRest]), h _ (by simp [ctlRest])⟩
  refine ⟨?_, ?_, ⟨fun hoff hfree => ?_, fun hheld => ?_⟩, fun hoff => ?_, fun hon => ⟨fun hidle => ?_, fun x hrun hf hk => ?_⟩, fun hempty => ?_,
    fun hon hmay hidle hdescs hfetch hring => ?_, fun x rest hd => ?_, fun e rest hfirst hrel hback hreads hst howner hrec hstaged hwait hm => ?_⟩
  · obtain ⟨hrest, hon, hstop, hk⟩ := dmaEnable_leaves (s := s) (d := d) (c := c) (v := v)
    exact ⟨_, rfl, hfields _ hrest, hon, hstop, hk⟩
  · exact ⟨_, rfl, dmaTailWrite_leaves⟩
  · obtain ⟨hrest, howner, hk⟩ := dmaOwnerWrite_free (v := v) hoff hfree
    exact ⟨_, rfl, ⟨hrest _ (by simp), hrest _ (by simp)⟩, howner, hk⟩
  · obtain ⟨hrest, howner, hbad, hk⟩ := dmaOwnerWrite_held (v := v) ha hheld
    exact ⟨_, rfl, ⟨hrest _ (by simp), hrest _ (by simp)⟩, howner, hbad, hk⟩
  · exact ⟨_, dmaDisable_off hoff, hfields _ fun f hf => ctlFields_fld hf, rfl, keeps_ctlFields⟩
  · obtain ⟨hrest, hstops⟩ := dmaDisable_leaves (s := s) (d := d) (c := c) (v := v)
    refine ⟨_, dmaDisable_stops hon, ⟨hfields _ hrest, hstops⟩, ?_⟩
    rw [dmaStop_idle (s := ctlFields d c v s) hidle]
    rfl
  · obtain ⟨hrest, hstops⟩ := dmaDisable_leaves (s := s) (d := d) (c := c) (v := v)
    exact ⟨_, dmaDisable_stops hon, ⟨hfields _ hrest, hstops⟩, dmaStop_aborts (s := ctlFields d c v s) hrun hf hk⟩
  · exact ⟨_, rfl, descFetch_empty hempty⟩
  · have h : Fetches d c s := ⟨hon, hmay, hidle, hdescs, hfetch, hring⟩
    refine ⟨fun howner hfit hgate => ⟨_, rfl, descFetch_sram h howner hfit hgate⟩, fun howner hport => ?_⟩
    obtain ⟨herr, hoff, hstop, -⟩ := ringError_leaves (s := s) (d := d) (c := c) ha
    exact ⟨_, congrArg Host.Outcome.next (descFetch_down h howner hport), herr, hoff, hstop⟩
  · have hruns : ∀ (a : Instr) (op : Nat), exec a s = .next (startOp op d c s) → StartReady d c x s → x.op = op →
        (x.bad = false → Does a s fun t => (t.chan d c).run = some x ∧ (t.chan d c).descs = rest ∧ (t.chan d c).next = 0 ∧
          (t.chan d c).committed = 0 ∧ t.regs = s.regs ∧ t.mem = s.mem) ∧
        (x.bad = true → Does a s fun t => (t.chan d c).run = none ∧ (t.chan d c).descs = rest ∧ t.fld (dreg .dmaErr d) DmaErr.BADDESC = 1 ∧
          (t.chan d c).endings = z.endings ++ [{ desc := x, status := 4, bytes := 0, last := [] }] ∧ t.mem = s.mem) := by
      intro a op hexec hs hop
      rw [startOp_front hd, if_pos hop] at hexec
      refine ⟨fun hgood => ⟨_, hexec, ?_⟩, fun hbad => ⟨_, hexec, startDesc_bad hs hd hbad ha⟩⟩
      rw [startDesc_runs hs hd hgood]
      dsimp only
      rw [State.chan_modChan_same]
      exact ⟨rfl, rfl, rfl, rfl, rfl, rfl⟩
    have hskips : ∀ op, x.op ≠ op → startOp op d c s = s := fun op hop => by rw [startOp_front hd, if_neg hop]
    refine ⟨fun hon hmay hdrain hidle hfence => ?_, fun hop => ⟨_, congrArg Host.Outcome.next (hskips 1 hop), rfl⟩,
      fun hop => ⟨_, congrArg Host.Outcome.next (hskips 2 hop), rfl⟩⟩
    have hs : StartReady d c x s := ⟨hon, hmay, hdrain, hidle, hfence⟩
    exact ⟨hruns _ 1 rfl hs, hruns _ 2 rfl hs⟩
  · intro off hfit hgate
    have h : RecordDue d c e rest s := ⟨hfirst, hrel, hback, hreads, howner, hfit, hgate⟩
    obtain ⟨herr, hoff, hstop, hmem⟩ := completionRecord_fails h ha
    exact ⟨⟨_, rfl, completionRecord_written h hst hrec hstaged hwait hm⟩, ⟨_, rfl, ⟨herr, hoff, hstop⟩, hmem⟩⟩

end Sys2Proof.Machine
end

section
/-! SUPPORT. What the packets of a DMA channel leave of the channels: a packet that is stored, tagged and sent to its egress changes no more of a
channel than the counts of its released writes and its lost reads (04 R145, R148; 06 R204; 09 R345, R346). -/

namespace Sys2Proof.Machine

/-! ### What packets leave of the channels -/

/-- A channel without what its packets change when they go. -/
def ChanSt.work (y : ChanSt) : ChanSt := { y with unreleased := [], lost := [] }

/-- What packets leave: the work of every channel, and the state of every recorder. -/
def State.channels (s : State) : (Nat → Nat → ChanSt) × (Nat → Nat) := (fun d c => (s.chan d c).work, s.recState)

theorem State.channels_congr {s t : State} (hdma : t.dma = s.dma) (hrec : ∀ d, t.recState d = s.recState d) : t.channels = s.channels :=
  Prod.ext (funext fun d => funext fun c => congrArg ChanSt.work (State.chan_congr hdma d c)) (funext hrec)

section Reading
variable {s t : State} (h : t.channels = s.channels)
include h

theorem work_of_channels (d c : Nat) : (t.chan d c).work = (s.chan d c).work := congrFun (congrFun (congrArg Prod.fst h) d) c
theorem recState_of_channels (d : Nat) : t.recState d = s.recState d := congrFun (congrArg Prod.snd h) d

end Reading

theorem channels_of_parcels {s t : State} (h : t.parcels [] = s.parcels []) : t.channels = s.channels :=
  State.channels_congr (congrArg (fun x => x.2.dma) h) fun _ => (keeps_of_parcels h).fld _ _ (by simp)

/-! ### One update, a choice or a loop -/

section Updates
variable (s : State)

@[simp] theorem State.channels_setReg {r : Reg} (v : Word) (h : r.name ≠ .recStat) : (s.setReg r v).channels = s.channels :=
  State.channels_congr rfl fun _ => State.fld_setReg_ne s _ v fun e => h (e ▸ dreg_name ..)

@[simp] theorem State.channels_setFld {r : Reg} (f : Field) (v : Nat) (h : r.name ≠ .recStat) : (s.setFld r f v).channels = s.channels :=
  s.channels_setReg _ h

@[simp] theorem State.channels_count {r : Reg} (f : Field) (n : Nat) (h : r.name ≠ .recStat) : (s.count r f n).channels = s.channels :=
  s.channels_setReg _ h

@[simp] theorem State.channels_modLink (d i : Nat) (f : LinkSt → LinkSt) : (s.modLink d i f).channels = s.channels := rfl
@[simp] theorem State.channels_modPar (f : ParSt → ParSt) : (s.modPar f).channels = s.channels := rfl
@[simp] theorem State.channels_modFace (n i : Nat) (f : FaceSt → FaceSt) : (s.modFace n i f).channels = s.channels := rfl
@[simp] theorem State.channels_modQueue (g q : Nat) (f : List Pkt → List Pkt) : (s.modQueue g q f).channels = s.channels := rfl
@[simp] theorem State.channels_modBufDie (d : Nat) (f : BufDie → BufDie) : (s.modBufDie d f).channels = s.channels := rfl
@[simp] theorem State.channels_modStream (k : StreamKey) (f : Stream → Stream) : (s.modStream k f).channels = s.channels := rfl

/-- A change of a channel that leaves its work. -/
theorem State.channels_modChan (d c : Nat) {f : ChanSt → ChanSt} (h : (f (s.chan d c)).work = (s.chan d c).work) :
    (s.modChan d c f).channels = s.channels := by
  refine Prod.ext (funext fun e => funext fun k => ?_) rfl
  have hget : (s.modChan d c f).chan e k = if (e, k) = (d, c) then f (s.chan d c) else s.chan e k := FMap.get_set ..
  unfold State.channels
  dsimp only
  rw [hget]
  split
  · rename_i he; cases he; exact h
  · rfl

@[simp] theorem channels_ite (p : Prop) [Decidable p] (t : State) : (if p then s else t).channels = if p then s.channels else t.channels :=
  apply_ite State.channels p s t

@[simp] theorem State.channels_forAll {α : Type} {f : α → State → State} (h : ∀ a t, (f a t).channels = t.channels) (l : List α) :
    (s.forAll l f).channels = s.channels := s.forAll_keeps State.channels f h l

end Updates

/-! ### Cells and packets (04 R145, R148; 06 R204) -/

section Packets
variable (p : Pkt) (s : State)

@[simp] theorem touchCells_channels (d : Nat) (cs : List Nat) : (touchCells d cs s).channels = s.channels :=
  channels_of_parcels (touchCells_parcels d s cs)

@[simp] theorem dropCells_channels (d : Nat) (cs : List Nat) : (dropCells d cs s).channels = s.channels :=
  channels_of_parcels (dropCells_parcels d s cs)

@[simp] theorem settleCells_channels (d : Nat) (cs : List Nat) : (settleCells d cs s).channels = s.channels :=
  channels_of_parcels (settleCells_parcels d s cs)

@[simp] theorem originate_channels (g : Nat) (z : Tlp) : (originate g z s).channels = s.channels := by
  have hplace : ∀ u, placeControl g z s = some u → u.channels = s.channels := by
    intro u hu
    unfold placeControl at hu
    obtain ⟨x, hx, rfl⟩ := Option.map_eq_some_iff.mp hu
    exact (State.channels_modQueue ..).trans (channels_of_parcels (storeRecord_parcels hx))
  unfold originate
  cases h : placeControl g z s with
  | none => simp
  | some u => simp [hplace u h]

@[simp] theorem dmaReleased_channels : (dmaReleased p s).channels = s.channels := by
  unfold dmaReleased
  split
  · split
    · exact s.channels_modChan _ _ rfl
    · rfl
  · rfl

@[simp] theorem reportTag_channels : (reportTag p s).channels = s.channels := rfl
@[simp] theorem retireTag_channels : (retireTag p s).channels = s.channels := rfl
@[simp] theorem advance_channels : (advance p s).channels = s.channels := by unfold advance; simp
@[simp] theorem giveTag_channels : (giveTag p s).2.channels = s.channels := rfl
@[simp] theorem releaseHeld_channels (d : Nat) : (releaseHeld d p s).channels = s.channels := by unfold releaseHeld; split <;> simp

@[simp] theorem answerLost_channels (status : Nat) : (answerLost p status s).channels = s.channels := by
  unfold answerLost
  split
  · rfl
  · split
    · exact originate_channels ..
    · exact s.channels_modChan _ _ rfl
    · rfl

@[simp] theorem flushPkt_channels : (flushPkt p s).channels = s.channels := by unfold flushPkt; simp
@[simp] theorem flushHome_channels : (flushHome p s).channels = s.channels := by unfold flushHome; simp
@[simp] theorem arrive_channels : (arrive p s).channels = s.channels := by unfold arrive; simp

@[simp] theorem sendCross_channels (d : Nat) : (sendCross d p s).channels = s.channels := by
  unfold sendCross sendFlits queueFlits pumpLink updateXoff noteVia; simp

end Packets

/-! ### Local targets (04 R134; 08 R283, R287, R311) -/

section LocalTargets
variable (p : Pkt) (s : State)

@[simp] theorem lowPowerEntry_channels (d pp k w : Nat) : (lowPowerEntry d pp k w s).channels = s.channels := by
  unfold lowPowerEntry setLinkState holdLanes holdEq; simp

@[simp] theorem turnOffDone_channels (n f g : Nat) : (turnOffDone n f g s).channels = s.channels := by unfold turnOffDone; simp

@[simp] theorem gatherAck_channels (g : Nat) : (gatherAck g s).channels = s.channels := by
  unfold gatherAck
  dsimp only
  split
  · rfl
  · split <;> simp

@[simp] theorem localMsg_channels : (localMsg p s).channels = s.channels := by unfold localMsg ptmRespond; simp

@[simp] theorem drainLocal_channels (x n : Nat) : (drainLocal x n s).channels = s.channels := by
  induction n generalizing s with
  | zero => rfl
  | succ n ih =>
    unfold drainLocal takeLocal
    split
    · rfl
    · simp [ih]

@[simp] theorem placeLocal_channels : (placeLocal p s).channels = s.channels := by unfold placeLocal serveLocal; simp

end LocalTargets

/-! ### Packets of a channel (09 R345, R346) -/

section Sending
variable {s : State} {d c k epoch hint : Nat}

theorem toEgress_channels {p : Pkt} (h : s.recState (pdie p.iport) = 0) : (toEgress p s).channels = s.channels := by
  unfold toEgress
  extract_lets d e s0 s1 x
  have h0 : s0.channels = s.channels := touchCells_channels ..
  have h1 : s1.channels = s.channels := h0
  rw [recPkt_idle ((recState_of_channels h1 d).trans h)]
  simp [h0, h1]

theorem sendDma_channels {dest : Nat} {m : Meta} {z : Tlp} {t : State} (h : sendDma d c k epoch dest hint m z s = some t) (hrec : s.recState d = 0) :
    t.channels = s.channels := by
  unfold sendDma at h
  split at h
  · cases h
  · rename_i cs s1 hstore
    extract_lets p0 r at h
    have hs1 : s1.channels = s.channels := channels_of_parcels (storeRecord_parcels hstore)
    split at h
    · cases h
    · cases h
      have hr : r.2.channels = s.channels := (giveTag_channels ..).trans ((settleCells_channels ..).trans hs1)
      have hdie : pdie r.1.iport = d := by
        change pdie (gport d 0) = d
        unfold pdie gport
        omega
      rw [toEgress_channels (by rw [hdie, recState_of_channels hr, hrec]), hr]

/-- What a count of packets that may stop has left of the channels. -/
def ChannelsKept (s : State) (acc : Option (Nat × State)) : Prop := ∀ r, acc = some r → r.2.channels = s.channels

theorem ChannelsKept.start (s : State) : ChannelsKept s (some (0, s)) := fun r hr => by cases hr; rfl

theorem writePiece_channels {ctx : Nat} {x : Piece} {data : List Byte} {r : Nat × State}
    (h : writePiece d c k epoch ctx hint x data s = some r) (hrec : s.recState d = 0) : r.2.channels = s.channels := by
  unfold writePiece at h
  split at h
  · cases h
  · refine List.foldlRecOn (motive := ChannelsKept s) _ _ (ChannelsKept.start s) (fun acc hacc g _ => ?_) r h
    refine List.foldlRecOn (motive := ChannelsKept s) _ _ hacc fun acc hacc z _ q hq => ?_
    dsimp only at hq
    split at hq
    · cases hq
    · rename_i n t
      have ht : t.channels = s.channels := hacc _ rfl
      split at hq
      · cases hq
      · rename_i hsend
        cases hq
        rw [sendDma_channels hsend ((recState_of_channels ht d).trans hrec), ht]

/-- A channel that has committed a chunk, but for its counts of packets. -/
def ChanSt.commit (y : ChanSt) (w : Chunk) : ChanSt :=
  { y with committed := y.committed + 1, last := w.dst, tries := 0, chunks := y.chunks.filter fun v => v.k != w.k }

theorem commitChunk_work {x : Desc} {y : Chunk} {data : List Byte} {t : State} (h : commitChunk d c hint x y data s = some t)
    (hrec : s.recState d = 0) : (t.chan d c).work = (s.chan d c).work.commit y := by
  unfold commitChunk at h
  obtain ⟨r, hr, rfl⟩ := Option.map_eq_some_iff.mp h
  have hkept : r.2.channels = s.channels := by
    refine List.foldlRecOn (motive := ChannelsKept s) _ _ (ChannelsKept.start s) (fun acc hacc p _ q hq => ?_) r hr
    split at hq
    · cases hq
    · rename_i n u
      have hu : u.channels = s.channels := hacc _ rfl
      split at hq
      · cases hq
      · rename_i hwrite
        cases hq
        rw [writePiece_channels hwrite ((recState_of_channels hu d).trans hrec), hu]
  rw [State.chan_count, State.chan_modChan_same, ← work_of_channels hkept d c]
  rfl

end Sending

end Sys2Proof.Machine
end

section
/-! SUPPORT. Chunks of a DMA channel, its reads and the verdicts on its faults: what the issue of a chunk, a completion, a timeout and a verdict
leave, and the statement that they meet (09 R344 to R346, R348, R350 to R352). -/

namespace Sys2Proof.Machine

/-! ### Faults (09 R344, R346, R351) -/

section Faults
variable {s : State} {d c st k : Nat} {x : Desc}

/-- The first fault of a channel becomes its fault point. -/
theorem chunkFault_first (hf : (s.chan d c).fault = none) (hst : st ≠ 1) (what : Option (Nat × Nat × Bool × Nat)) :
    chunkFault d c st k what s = s.modChan d c fun y => { y with fault := some (st, k), what := what, xlating := none } := by
  unfold chunkFault
  simp only [hf, if_neg hst]

/-- A channel at whose next uncommitted chunk the descriptor fails. -/
structure Failing (d c : Nat) (x : Desc) (s : State) : Prop where
  run : (s.chan d c).run = some x
  fault : (s.chan d c).fault = none
  parked : (s.chan d c).parked = false
  assist : s.assist PartAssist.DMAF = 0
  active : s.active d = true

/-- What ends a descriptor at a chunk with a status leaves of its channel. -/
structure FailedAt (d c : Nat) (x : Desc) (st bytes : Nat) (s t : State) : Prop where
  run : (t.chan d c).run = none
  fault : (t.chan d c).fault = none
  endings : (t.chan d c).endings = (s.chan d c).endings ++ [{ desc := x, status := st, bytes := bytes, last := (s.chan d c).last }]
  source : ∀ f, statusBit st = some f → t.fld (dreg .dmaErr d) f = 1
  mem : t.mem = s.mem

/-- In hardware mode a chunk that cannot be committed, with every chunk below it committed, ends the descriptor there. -/
theorem chunkFault_ends (h : Failing d c x s) (hk : k ≤ (s.chan d c).committed) (hst : st ≠ 1) :
    let t := faultPoint d c (chunkFault d c st k none s)
    FailedAt d c x st (256 * k) s t ∧ (t.chan d c).chunks = (s.chan d c).chunks.filter fun w => decide (w.k < k) := by
  rw [chunkFault_first h.fault hst]
  have hu := s.chan_modChan_same d c fun y => { y with fault := some (st, k), what := none, xlating := none }
  have ku := keeps_modChan s d c fun y => { y with fault := some (st, k), what := none, xlating := none }
  generalize (s.modChan d c fun y => { y with fault := some (st, k), what := none, xlating := none }) = u at hu ku
  obtain ⟨w, hw, kw, he⟩ := faultPoint_ends (s := u) (x := x) (st := st) (k := k) (by rw [hu]; exact h.run) (by rw [hu]) (by rw [hu]; exact hk)
    (by rw [hu]; exact h.parked) (.inl ((ku.fld _ _ (by simp)).trans h.assist))
  obtain ⟨ke, hsource, -⟩ := he.of_keeps (ku.trans kw)
  obtain ⟨hmem, -⟩ := ke
  refine ⟨⟨?_, ?_, ?_, fun f hf => hsource f hf hst h.active, hmem⟩, ?_⟩
  · rw [he.chan, ChanSt.ended_run]
  · rw [he.chan, ChanSt.ended_fault]
  · rw [he.chan, ChanSt.ended_endings, hw, ChanSt.cutAt_endings, ChanSt.cutAt_last, hu]
  · rw [he.chan, ChanSt.ended_chunks, hw, ChanSt.cutAt_chunks, hu]

end Faults

/-! ### Commitment (09 R346) -/

section Commitment
variable {s : State} {d c : Nat} {x : Desc}

theorem commitAll_idle (hrun : (s.chan d c).run = none) (hint n : Nat) : commitAll d c hint n s = s := by
  cases n with
  | zero => rfl
  | succ n =>
    unfold commitAll
    simp only [hrun]

/-- A channel that runs a descriptor without a fault, with chunks of it left to commit. -/
structure Commits (d c : Nat) (x : Desc) (s : State) : Prop where
  run : (s.chan d c).run = some x
  fault : (s.chan d c).fault = none
  len : 256 * (s.chan d c).committed < x.len

/-- Nothing is committed while the next chunk is not in flight. -/
theorem commitAll_waits (h : Commits d c x s) (hnone : (s.chan d c).chunks.find? (fun y => y.k == (s.chan d c).committed) = none) (hint n : Nat) :
    commitAll d c hint n s = s := by
  cases n with
  | zero => rfl
  | succ n =>
    unfold commitAll
    simp only [h.run, h.fault, hnone]
    rw [if_neg (by simp), if_neg (by have := h.len; omega)]

/-- The next chunk is committed once its data is there, where its writes can be made. -/
theorem commitAll_next {y : Chunk} {data : List Byte} (h : Commits d c x s)
    (hnext : (s.chan d c).chunks.find? (fun y => y.k == (s.chan d c).committed) = some y) (hdata : y.bytes x = some data) (hint n : Nat) :
    commitAll d c hint (n + 1) s = (commitChunk d c hint x y data s).elim s (commitAll d c hint n) := by
  conv_lhs => unfold commitAll
  simp only [h.run, h.fault, hnext, hdata]
  rw [if_neg (by simp), if_neg (by have := h.len; omega)]
  cases commitChunk d c hint x y data s <;> rfl

end Commitment

/-! ### The choice of a channel (09 R348) -/

section Choice
variable {s : State} {d c : Nat} {x : Desc}

/-- One channel of a die is at work, with a long descriptor of which no chunk has been issued. -/
structure Lone (d c : Nat) (x : Desc) (s : State) : Prop where
  index : c < 32
  others : ∀ k, k < 32 → k ≠ c → (s.chan d k).run = none ∧ (s.chan d k).descs = [] ∧ (s.chan d k).chunks = []
  run : (s.chan d c).run = some x
  descs : (s.chan d c).descs = []
  next : (s.chan d c).next = 0
  committed : (s.chan d c).committed = 0
  chunks : (s.chan d c).chunks = []
  fault : (s.chan d c).fault = none
  parked : (s.chan d c).parked = false
  xlating : (s.chan d c).xlating = none
  on : s.chOn d c = true
  mayRun : s.chMayRun d c = true
  drain : s.chDrain = false
  len : 256 < x.len

theorem Lone.commits (h : Lone d c x s) : Commits d c x s := ⟨h.run, h.fault, by rw [h.committed]; have := h.len; omega⟩

theorem Lone.idle (h : Lone d c x s) {k : Nat} (hk : k < 32) : (s.chan d k).descs = [] ∧ (s.chan d k).chunks = [] := by
  by_cases hc : k = c
  · rw [hc]; exact ⟨h.descs, h.chunks⟩
  · obtain ⟨-, hd, hch⟩ := h.others k hk hc
    exact ⟨hd, hch⟩

/-- Of the 32 channels it alone is ready. -/
theorem Lone.ready_iff (h : Lone d c x s) (k : Nat) : k ∈ (List.range dmaChannels).filter (s.chReady d) ↔ k = c := by
  rw [List.mem_filter, List.mem_range]
  refine ⟨fun ⟨hk, hready⟩ => ?_, fun hk => ?_⟩
  · by_contra hc
    obtain ⟨hrun, -, -⟩ := h.others k hk hc
    simp [State.chReady, hrun] at hready
  · subst hk
    refine ⟨h.index, ?_⟩
    have hlen := h.len
    simp [State.chReady, h.on, h.mayRun, h.drain, h.xlating, h.fault, h.chunks, h.run, h.next, h.committed]
    omega

theorem Lone.inFlight (h : Lone d c x s) : s.inFlight d = 0 := by
  unfold State.inFlight
  refine List.sum_eq_zero fun n hn => ?_
  obtain ⟨k, hk, rfl⟩ := List.mem_map.mp hn
  rw [(h.idle (List.mem_range.mp hk)).2, List.length_nil]

/-- The round of a priority's channels after any of them meets every channel. -/
theorem round_meets (l : Nat) (hc : c < 32) : c ∈ (List.range dmaChannels).map fun i => (l + 1 + i) % dmaChannels := by
  refine List.mem_map.mpr ⟨(c + 31 * (l + 1)) % 32, List.mem_range.mpr (Nat.mod_lt _ (by decide)), ?_⟩
  unfold dmaChannels
  omega

/-- The engine chooses it. -/
theorem Lone.chooses (h : Lone d c x s) : ∃ p, s.chChoose d = some (p, c) := by
  have hpri : s.chPri d c < 8 := lt_of_le_of_lt (min_le_left _ _) (getBits_lt (s.reg (chReg .dmaChCtl d c)) DmaChCtl.PRI.hi DmaChCtl.PRI.lo)
  unfold State.chChoose
  rw [if_neg (by rw [h.inFlight]; decide)]
  extract_lets ready
  have hready : ∀ k, k ∈ ready ↔ k = c := h.ready_iff
  split
  · rename_i hnone
    have hno := List.find?_eq_none.mp hnone (s.chPri d c) (List.mem_reverse.mpr (List.mem_range.mpr hpri))
    exact absurd (List.any_eq_true.mpr ⟨c, (hready c).mpr rfl, beq_self_eq_true (s.chPri d c)⟩) hno
  · rename_i p hp
    have hany := List.find?_some hp
    obtain ⟨k, hk, hkp⟩ := List.any_eq_true.mp hany
    obtain rfl := (hready k).mp hk
    refine ⟨p, ?_⟩
    extract_lets l
    obtain ⟨a, ha⟩ : ∃ a, (((List.range dmaChannels).map fun i => (l + 1 + i) % dmaChannels).find? fun c =>
        decide (c ∈ ready) && s.chPri d c == p) = some a :=
      Option.isSome_iff_exists.mp (List.find?_isSome.mpr ⟨k, round_meets l h.index, by simp [hk, beq_iff_eq.mp hkp]⟩)
    have hmem := List.find?_some ha
    rw [ha, Option.map_some, (hready a).mp (by simpa using (Bool.and_eq_true_iff.mp hmem).1)]

/-- The grant goes to the lone channel: nothing waits to be committed or to start. -/
theorem chunkIssue_lone (h : Lone d c x s) (hint : Nat) (bad : Bool) : ∃ last,
    chunkIssue d hint bad s = nextChunk bad d c hint { s with dma := { s.dma with last := last } } := by
  have hcommit : (s.forAll (List.range dmaChannels) fun k => commitAll d k hint 64) = s := by
    refine State.forAll_unchanged fun k hk => ?_
    by_cases hc : k = c
    · rw [hc]; exact commitAll_waits h.commits (by rw [h.chunks]; rfl) hint 64
    · exact commitAll_idle (h.others k (List.mem_range.mp hk) hc).1 hint 64
  have hstart : startReserved d s = s := by
    refine State.forAll_unchanged fun k hk => ?_
    rw [(h.idle (List.mem_range.mp hk)).1]
  obtain ⟨p, hp⟩ := h.chooses
  unfold chunkIssue
  rw [hcommit, hstart]
  simp only [hp]
  exact ⟨_, rfl⟩

end Choice

/-! ### The issue of a chunk (09 R344, R345) -/

section Issue
variable {s : State} {d c : Nat} {x : Desc}

/-- A chunk of a descriptor before its translation. -/
def Desc.chunk (x : Desc) (e k : Nat) : Chunk :=
  let len := min 256 (x.len - 256 * k)
  { k := k, len := len, epoch := e, src := if x.op = 1 then piecesOf ((x.src + 256 * k) % 2 ^ 64) len else [],
    dst := piecesOf ((x.dst + 256 * k) % 2 ^ 64) len }

theorem nextChunk_eq (hrun : (s.chan d c).run = some x) (bad : Bool) (hint : Nat) : nextChunk bad d c hint s =
    if (x.op = 1 ∧ s.ctxDenied d c (s.newE d) x.sctx = true) ∨ s.ctxDenied d c (s.newE d) x.dctx = true
    then faultPoint d c (chunkFault d c 6 (s.chan d c).next none s)
    else xlateChunk bad d c hint x (x.chunk (s.newE d) (s.chan d c).next) s := by
  unfold nextChunk
  simp only [hrun]
  rfl

/-- The first chunk of a FILL whose destination is one piece. -/
def fillChunk (e : Nat) (p : Piece) : Chunk := { k := 0, len := 256, epoch := e, dst := [p] }

/-- The first chunk of a FILL lies in one piece where it does not cross a page. -/
theorem chunk_fill (hop : x.op = 2) (hlen : 256 < x.len) (hpage : x.dst % 4096 + 256 ≤ 4096) (hdst : x.dst < 2 ^ 64) (e : Nat) :
    x.chunk e 0 = fillChunk e { off := 0, len := 256, va := x.dst } := by
  unfold Desc.chunk piecesOf fillChunk
  simp only [Nat.mul_zero, Nat.add_zero, Nat.sub_zero, Nat.mod_eq_of_lt hdst, Nat.min_eq_left hlen.le,
    Nat.min_eq_left (show 256 ≤ 4096 - x.dst % 4096 by omega), if_neg (show ¬ x.op = 1 by omega), if_pos]

/-- A piece whose window lets the access pass, without page tables, has its target at once. -/
theorem xlatePiece_window {e ctx : Nat} {w : Win} {p : Piece} (hw : s.window d e (s.ctxWord d e ctx 1) p.va = some w) (hwr : w.wr = true)
    (hpt : w.pt = false) (bad : Bool) :
    xlatePiece bad d c e ctx true p s = (.done { p with addr := w.addr, egress := w.egress, ok := true }, s) := by
  unfold xlatePiece
  simp only [hw]
  rw [if_neg (by simp [hwr]), if_neg (by simp [hpt])]

/-- A chunk of one destination piece that is translated at once is issued. -/
theorem xlateChunk_fill {e : Nat} {p q : Piece} (hp : p.ok = false) (bad : Bool) (hint : Nat)
    (hq : xlatePiece bad d c e x.dctx true p s = (.done q, s)) :
    xlateChunk bad d c hint x (fillChunk e p) s = faultPoint d c (issueChunk d c hint x (fillChunk e q) s) := by
  unfold xlateChunk fillChunk
  simp only [xlateList, hp, hq]
  rfl

/-- A channel after the issue of a chunk. -/
def ChanSt.issued (z : ChanSt) (y : Chunk) : ChanSt := { z with chunks := z.chunks ++ [y], next := y.k + 1, xlating := none }

/-- A chunk without reads, whose destinations are reached, is issued and committed as far as it can be. -/
theorem issueChunk_fill {e : Nat} {q : Piece} (hdests : (s.chDests d e x.dctx q.egress).isSome = true) (hint : Nat) :
    issueChunk d c hint x (fillChunk e q) s = commitAll d c hint 64 (s.modChan d c fun z => z.issued (fillChunk e q)) := by
  obtain ⟨l, hl⟩ := Option.isSome_iff_exists.mp hdests
  unfold issueChunk fillChunk
  simp only [List.any_nil, List.any_cons, hl, List.foldl_nil]
  rw [if_neg (by simp)]
  rfl

/-- A chunk that is issued first is committed, or stays in flight while a cell or a tag is missing. -/
theorem commitAll_issued {y : Chunk} (hrun : (s.chan d c).run = some x) (hfault : (s.chan d c).fault = none)
    (hcommitted : (s.chan d c).committed = 0) (hchunks : (s.chan d c).chunks = []) (hk : y.k = 0) (hop : x.op = 2) (hlen : 256 < x.len)
    (hrec : s.recState d = 0) (hint : Nat) : let t := commitAll d c hint 64 (s.modChan d c fun z => z.issued y)
    (t.chan d c).run = some x ∧ (t.chan d c).fault = none ∧ (t.chan d c).next = 1 ∧
      (((t.chan d c).committed = 1 ∧ (t.chan d c).chunks = []) ∨ ((t.chan d c).committed = 0 ∧ (t.chan d c).chunks.length = 1)) := by
  have hu : (s.modChan d c fun z => z.issued y).chan d c = (s.chan d c).issued y := State.chan_modChan_same ..
  have hurec : (s.modChan d c fun z => z.issued y).recState d = 0 := hrec
  generalize (s.modChan d c fun z => z.issued y) = u at hu hurec
  have huchunks : (u.chan d c).chunks = [y] := by rw [hu]; exact (congrArg (· ++ [y]) hchunks :)
  have hunext : (u.chan d c).next = 1 := by rw [hu]; exact (congrArg (· + 1) hk :)
  have hucommitted : (u.chan d c).committed = 0 := by rw [hu]; exact hcommitted
  have hc : Commits d c x u := ⟨by rw [hu]; exact hrun, by rw [hu]; exact hfault, by rw [hucommitted]; omega⟩
  obtain ⟨data, hdata⟩ : ∃ data, y.bytes x = some data := ⟨_, if_pos hop⟩
  dsimp only
  rw [commitAll_next hc (by simp [huchunks, hucommitted, hk]) hdata]
  cases hcommit : commitChunk d c hint x y data u with
  | none =>
    rw [Option.elim_none]
    exact ⟨hc.run, hc.fault, hunext, .inr ⟨hucommitted, by rw [huchunks]; rfl⟩⟩
  | some t =>
    have ht := commitChunk_work hcommit hurec
    have htrun : (t.chan d c).run = some x := (congrArg ChanSt.run ht).trans hc.run
    have htfault : (t.chan d c).fault = none := (congrArg ChanSt.fault ht).trans hc.fault
    have htcommitted : (t.chan d c).committed = 1 := (congrArg ChanSt.committed ht).trans (congrArg (· + 1) hucommitted)
    have htchunks : (t.chan d c).chunks = [] := by
      refine (congrArg ChanSt.chunks ht).trans ?_
      change (u.chan d c).chunks.filter (fun v => v.k != y.k) = []
      rw [huchunks]
      simp
    rw [Option.elim_some, commitAll_waits ⟨htrun, htfault, by rw [htcommitted]; omega⟩ (by rw [htchunks]; rfl)]
    exact ⟨htrun, htfault, (congrArg ChanSt.next ht).trans hunext, .inl ⟨htcommitted, htchunks⟩⟩

/-- The first chunk of a FILL through a window without page tables is issued. -/
theorem nextChunk_fill {w : Win} (h : Lone d c x s) (hrec : s.recState d = 0) (hop : x.op = 2)
    (hctx : s.ctxDenied d c (s.newE d) x.dctx = false) (hpage : x.dst % 4096 + 256 ≤ 4096) (hdst : x.dst < 2 ^ 64)
    (hw : s.window d (s.newE d) (s.ctxWord d (s.newE d) x.dctx 1) x.dst = some w) (hwr : w.wr = true) (hpt : w.pt = false)
    (hdests : (s.chDests d (s.newE d) x.dctx w.egress).isSome = true) (hint : Nat) (bad : Bool) : let t := nextChunk bad d c hint s
    (t.chan d c).run = some x ∧ (t.chan d c).next = 1 ∧
      (((t.chan d c).committed = 1 ∧ (t.chan d c).chunks = []) ∨ ((t.chan d c).committed = 0 ∧ (t.chan d c).chunks.length = 1)) := by
  rw [nextChunk_eq h.run, if_neg (by simp [hop, hctx]), h.next, chunk_fill hop h.len hpage hdst]
  have hpiece := xlatePiece_window (c := c) (ctx := x.dctx) (p := { off := 0, len := 256, va := x.dst }) hw hwr hpt bad
  rw [xlateChunk_fill rfl bad hint hpiece, issueChunk_fill hdests]
  obtain ⟨hrun, hfault, hrest⟩ := commitAll_issued (y := fillChunk (s.newE d) ⟨0, 256, x.dst, w.addr, w.egress, true⟩) h.run h.fault
    h.committed h.chunks rfl hop h.len hrec hint
  rw [faultPoint_none hfault]
  exact ⟨hrun, hrest⟩

/-- A chunk whose context denies the channel ends its descriptor with CTXDENIED in hardware mode. -/
theorem nextChunk_denied (h : Failing d c x s) (hnext : (s.chan d c).next ≤ (s.chan d c).committed)
    (hctx : s.ctxDenied d c (s.newE d) x.dctx = true) (hint : Nat) (bad : Bool) :
    FailedAt d c x 6 (256 * (s.chan d c).next) s (nextChunk bad d c hint s) := by
  rw [nextChunk_eq h.run, if_pos (.inr hctx)]
  exact (chunkFault_ends h hnext (by decide)).1

end Issue

/-! ### Completions and timeouts of reads (09 R344, R350) -/

section Reads
variable {s : State} {d c tag : Nat} {x : Desc}

/-- A channel with the data of a completion at the read it answers. -/
def ChanSt.filled (z : ChanSt) (tag k : Nat) (data : List Byte) : ChanSt :=
  { z with chunks := z.chunks.map fun v => if v.k = k then { v with reads := fillRead tag data v.reads } else v }

/-- A channel whose next chunk has one read out. -/
structure Reading (d c tag : Nat) (x : Desc) (y : Chunk) (s : State) : Prop where
  failing : Failing d c x s
  chunks : (s.chan d c).chunks = [y]
  next : y.k = (s.chan d c).committed
  out : ∃ r, y.reads = [r] ∧ r.tag = tag ∧ r.data = none
  fetching : (s.chan d c).fetching = []
  late : ((s.chan d c).late.find? fun q => q.1 == tag) = none

theorem Reading.readOf {y : Chunk} (h : Reading d c tag x y s) : readOf tag y.reads = true := by
  obtain ⟨r, hr, htag, hdata⟩ := h.out
  simp [Machine.readOf, hr, htag, hdata]

/-- A completion with an error ends the descriptor at its chunk with SRCERR in hardware mode. -/
theorem readCompletion_fails {y : Chunk} (h : Reading d c tag x y s) (data : List Byte) : let t := readCompletion d c tag false data s
    FailedAt d c x 2 (256 * y.k) s t ∧ (t.chan d c).chunks = [] := by
  have hdef : readCompletion d c tag false data s =
      commitAll d c 0 64 (faultPoint d c (chunkFault d c 2 y.k none (s.modChan d c fun w => w.filled tag y.k data))) := by
    have hread := h.readOf
    unfold readCompletion
    simp only [h.late, h.fetching, h.chunks, List.any_nil, List.find?_cons, hread, Bool.not_false, Bool.true_or, if_true, Bool.false_eq_true,
      if_false]
    rfl
  have hu := s.chan_modChan_same d c fun w => w.filled tag y.k data
  have ku := keeps_modChan s d c fun w => w.filled tag y.k data
  rw [hdef]
  generalize (s.modChan d c fun w => w.filled tag y.k data) = u at hu ku
  have hf := h.failing
  have huf : Failing d c x u := ⟨by rw [hu]; exact hf.run, by rw [hu]; exact hf.fault, by rw [hu]; exact hf.parked,
    (ku.fld _ _ (by simp)).trans hf.assist, (ku.active (by simp) d).trans hf.active⟩
  obtain ⟨hend, hchunks⟩ := chunkFault_ends (st := 2) (k := y.k) huf (by rw [hu]; exact h.next.le) (by decide)
  have hmem : u.mem = s.mem := by obtain ⟨hmem, -⟩ := ku; exact hmem
  rw [commitAll_idle hend.run]
  refine ⟨⟨hend.run, hend.fault, ?_, hend.source, hend.mem.trans hmem⟩, ?_⟩
  · rw [hend.endings, hu]
    rfl
  · rw [hchunks, hu]
    simp [ChanSt.filled, h.chunks]

/-- So does a timeout, whose completion is then late. -/
theorem readTimeout_fails {y : Chunk} (h : Reading d c tag x y s) : let t := readTimeout d c tag s
    FailedAt d c x 2 (256 * y.k) s t ∧ (t.chan d c).chunks = [] ∧ (tag, 0) ∈ (t.chan d c).late := by
  have hdef : readTimeout d c tag s = (readCompletion d c tag false [] s).modChan d c fun y => { y with late := y.late ++ [(tag, 0)] } := by
    have hlate : ((s.chan d c).late.any fun q => q.1 == tag) = false := by
      have := List.find?_eq_none.mp h.late
      simpa using this
    unfold readTimeout
    simp only [hlate, h.fetching, h.chunks, List.any_nil, List.any_cons, h.readOf, Bool.false_eq_true, if_false, Bool.true_or, Bool.or_true,
      if_true]
  obtain ⟨hend, hchunks⟩ := readCompletion_fails h []
  rw [hdef]
  generalize readCompletion d c tag false [] s = u at hend hchunks
  dsimp only
  refine ⟨⟨?_, ?_, ?_, hend.source, hend.mem⟩, ?_, ?_⟩ <;> rw [State.chan_modChan_same]
  · exact hend.run
  · exact hend.fault
  · exact hend.endings
  · exact hchunks
  · simp

/-- A completion of a read that timed out is discarded and counted. -/
theorem readCompletion_late (h : (s.chan d c).late = [(tag, 0)]) (ok : Bool) (data : List Byte) : readCompletion d c tag ok data s =
    (s.modChan d c fun y => { y with late := y.late.filter fun x => x.1 != tag }).count (dreg .dmaCnt d) DmaCnt.LATE 1 := by
  unfold readCompletion
  simp [h]

/-- A timeout of a read that is not out changes nothing. -/
theorem readTimeout_stray (hchunks : (s.chan d c).chunks = []) (hfetch : (s.chan d c).fetching = [])
    (hend : ∀ e ∈ (s.chan d c).endings, e.reads = []) : readTimeout d c tag s = s := by
  have hno : ((s.chan d c).endings.any fun e => readOf tag e.reads) = false := by
    refine List.any_eq_false.mpr fun e he => ?_
    rw [hend e he]
    simp [readOf]
  unfold readTimeout
  simp [hchunks, hfetch, hno]

end Reads

/-! ### Verdicts (09 R352, R365) -/

section Verdicts
variable {s : State} {d c tag st k : Nat} {x : Desc}

/-- The BMC's verdict on a channel's waiting fault acts. -/
theorem dmaVerdict_acts (hm : (s.chan d c).mode = 2) (htag : tag ≠ 0) (hwait : s.fld (chReg .dmaChStat d c) DmaChStat.FTAG = tag)
    (apply : State → State) : dmaVerdict .bmc d c tag apply s = apply s := by
  unfold dmaVerdict
  simp only [mayAnswer, hm]
  rw [if_pos ⟨htag, hwait⟩, if_pos (by simp)]

/-- A verdict with a tag that names no waiting fault is refused. -/
theorem dmaVerdict_refused (who : Master) (hwait : s.fld (chReg .dmaChStat d c) DmaChStat.FTAG ≠ tag) (hlive : tag ∉ (s.chan d c).expired)
    (apply : State → State) : dmaVerdict who d c tag apply s = refuseVerdict d s := by
  unfold dmaVerdict
  rw [if_neg (by simp [hwait]), if_neg hlive]

theorem sendPme_dma (d n : Nat) (s : State) : (sendPme d n s).dma = s.dma :=
  State.forAll_keeps State.dma (fun f t => t.modFlt fun x => { x with pme := x.pme ++ [(n, f)] }) (fun _ _ => rfl) s _

theorem toEndpoint_dma (n d e : Nat) (s : State) : (toEndpoint n d e s).dma = s.dma := by
  unfold toEndpoint
  dsimp only
  split
  · rw [sendPme_dma]
    rfl
  · split <;> rfl

theorem deliverRouted_dma (d e part : Nat) (m : BmcMsg) (s : State) : (deliverRouted d e part m s).dma = s.dma := by
  have hbmc : ∀ u : State, (toBmc m u).dma = u.dma := fun u => by unfold toBmc; split <;> rfl
  have hite : ∀ (p : Prop) [Decidable p] (u w : State), (if p then u else w).dma = if p then u.dma else w.dma := fun p _ u w => apply_ite ..
  unfold deliverRouted recNote
  simp [hite, hbmc, toEndpoint_dma]

theorem refuseVerdict_dma (d : Nat) (s : State) : (refuseVerdict d s).dma = s.dma := deliverRouted_dma ..

/-- COMPLETE ends the descriptor with the fault's status. -/
theorem complete_ends (hrun : (s.chan d c).run = some x) (hf : (s.chan d c).fault = some (st, k)) :
    Ended d c x st (256 * k) s (dmaHardware d c s) := by
  rw [dmaHardware_eq hf]
  exact endDesc_ended hrun st (256 * k)

/-- RETRY resumes at the fault point. -/
theorem dmaResume_eq (hf : (s.chan d c).fault = some (st, k)) : dmaResume d c s =
    (s.setFld (chReg .dmaChStat d c) DmaChStat.FTAG 0).modChan d c fun y => { y with fault := none, what := none, parked := false, next := k } := by
  unfold dmaResume
  simp only [hf]

end Verdicts

/-! ### The statement -/

/-- Settles O25: the grant goes to the lone channel, whose chunk is issued or denied; an error of a read is a fault point in hardware mode; and a
verdict with the waiting tag acts on the fault point. -/
theorem dmaChunksAndVerdicts : Obligations.DmaChunksAndVerdicts := by
  unfold Obligations.DmaChunksAndVerdicts
  intro s d c x bad _ ha hc hrun z e ended
  refine ⟨fun hothers hdescs hnext hcommitted hchunks hfault hparked hxl hon hmay hdrain hrec hlen => ?_,
    fun y r tag hchunks hk hreads htag hdata hfault hparked hfetch hlate hassist => ?_, fun tag ok data hlate => ?_,
    fun tag hchunks hfetch hend => ⟨_, congrArg Host.Outcome.next (readTimeout_stray hchunks hfetch hend), rfl⟩,
    fun tag st k htag hm hf => ⟨fun hwait => ?_, fun hwait hlive => ?_⟩⟩
  · have h : Lone d c x s := ⟨hc, hothers, hrun, hdescs, hnext, hcommitted, hchunks, hfault, hparked, hxl, hon, hmay, hdrain, hlen⟩
    refine ⟨fun w hint hop hctx hpage hdst hw hwr hpt hdests => ?_, fun hint hctx hassist => ?_⟩
    · obtain ⟨last, hissue⟩ := chunkIssue_lone h hint bad
      have h' : Lone d c x { s with dma := { s.dma with last := last } } :=
        ⟨hc, hothers, hrun, hdescs, hnext, hcommitted, hchunks, hfault, hparked, hxl, hon, hmay, hdrain, hlen⟩
      exact ⟨_, congrArg Host.Outcome.next hissue, nextChunk_fill h' hrec hop hctx hpage hdst hw hwr hpt hdests hint bad⟩
    · obtain ⟨last, hissue⟩ := chunkIssue_lone h hint bad
      have h' : Failing d c x { s with dma := { s.dma with last := last } } := ⟨hrun, hfault, hparked, hassist, ha⟩
      have hend := nextChunk_denied h' (hnext.trans hcommitted.symm).le hctx hint bad
      have hzero : 256 * (s.chan d c).next = 0 := by simp [show (s.chan d c).next = 0 from hnext]
      refine ⟨_, congrArg Host.Outcome.next hissue, ⟨hend.run, hend.fault, hend.endings.trans ?_⟩, hend.source _ rfl, hend.mem⟩
      exact congrArg (fun n => z.endings ++ [{ desc := x, status := 6, bytes := n, last := z.last }]) hzero
  · intro fails
    have h : Reading d c tag x y s := ⟨⟨hrun, hfault, hparked, hassist, ha⟩, hchunks, hk, ⟨r, hreads, htag, hdata⟩, hfetch, hlate⟩
    have hfails : ∀ t, FailedAt d c x 2 (256 * y.k) s t → (t.chan d c).chunks = [] → fails t :=
      fun t hend hnone => ⟨⟨hend.run, hend.fault, hend.endings⟩, hend.source _ rfl, hnone, hend.mem⟩
    refine ⟨fun data => ?_, ?_⟩
    · obtain ⟨hend, hnone⟩ := readCompletion_fails h data
      exact ⟨_, rfl, hfails _ hend hnone⟩
    · obtain ⟨hend, hnone, hmark⟩ := readTimeout_fails h
      exact ⟨_, rfl, hfails _ hend hnone, hmark⟩
  · refine ⟨_, congrArg Host.Outcome.next (readCompletion_late hlate ok data), ?_, rfl,
      ((keeps_modChan ..).trans (keeps_count ..)).mono (by simp)⟩
    rw [State.chan_count, State.chan_modChan_same, show (s.chan d c).late = [(tag, 0)] from hlate]
    simp
  · have hend := complete_ends hrun hf
    obtain ⟨hmem, -⟩ := hend.keeps
    have hendings := congrArg ChanSt.endings hend.chan
    refine ⟨?_, ?_, ?_⟩
    · refine ⟨_, congrArg Host.Outcome.next (dmaVerdict_acts hm htag hwait _), ⟨?_, ?_, hendings⟩, hend.ftag, hmem⟩
      · rw [hend.chan, ChanSt.ended_run]
      · rw [hend.chan, ChanSt.ended_fault]
    · refine ⟨_, congrArg Host.Outcome.next ((dmaVerdict_acts hm htag hwait _).trans (dmaResume_eq hf)), ?_, ?_, ?_, ?_, ?_,
        ((keeps_setFld ..).trans (keeps_modChan ..)).mono (by simp)⟩
      · rw [State.chan_modChan_same]; exact hrun
      · rw [State.chan_modChan_same]
      · rw [State.chan_modChan_same]
      · rw [State.chan_modChan_same]
      · exact State.fld_setFld_same _ _ _ _ (by decide) (by decide)
    · have hidle : ((dmaHardware d c s).chan d c).run = none := by rw [hend.chan, ChanSt.ended_run]
      have hstop := dmaStop_stops d c (dmaHardware d c s)
      have hchan := dmaStop_idle hidle
      obtain ⟨hmem2, -⟩ := hstop.keeps
      refine ⟨_, congrArg Host.Outcome.next (dmaVerdict_acts hm htag hwait _), ⟨?_, ?_, ?_⟩, hstop.ftag, hstop.enable, hmem2.trans hmem⟩
      · exact (congrArg ChanSt.run hchan).trans hidle
      · exact (congrArg ChanSt.fault hchan).trans (by rw [ChanSt.halted, hend.chan, ChanSt.ended_fault])
      · exact (congrArg ChanSt.endings hchan).trans hendings
  · intro refused
    have hrefused : ∀ a apply, exec a s = .next (dmaVerdict .bmc d c tag apply s) → refused a := fun a apply ha =>
      ⟨_, ha.trans (congrArg Host.Outcome.next (dmaVerdict_refused .bmc hwait hlive apply)), refuseVerdict_vref d s, refuseVerdict_dma d s⟩
    exact ⟨hrefused _ _ rfl, hrefused _ _ rfl, hrefused _ _ rfl⟩

end Sys2Proof.Machine
end
